-- ==== Sys2Proof/Word.lean ====
section
/-! DEFINITION. The byte, the sparse map and the plainest types every file uses. -/
namespace Sys2Proof

/-- One byte of a register, a record or a memory. -/
abbrev Byte := BitVec 8

/-- A run of bytes, lowest address first (R7: every multi-byte field is stored least significant byte first). -/
abbrev Bytes := List Byte

/-- Sparse data by number: pairs of key and value with keys strictly rising, one home for each key. -/
abbrev SMap (α : Type) := List (Nat × α)

end Sys2Proof
end

