-- ==== Sys2Proof/Machine/Bits.lean ====
section
/-! DEFINITION. Bytes, bit fields, two's complement and sparse maps: the helpers of every record layout. -/
namespace Sys2Proof.Machine

/-- The low `n` bytes of `v`, least significant byte first (R7). -/
def leB : Nat → Nat → Bytes
  | 0, _ => []
  | n + 1, v => BitVec.ofNat 8 v :: leB n (v / 256)

/-- The number a run of bytes spells, least significant byte first (R7). -/
def leN : Bytes → Nat
  | [] => 0
  | b :: bs => b.toNat + 256 * leN bs

/-- Bits `[lo + w - 1 : lo]` of `v`. -/
def fld (v lo w : Nat) : Nat := v / 2 ^ lo % 2 ^ w

/-- Bit `i` of `v`. -/
def bitOf (v i : Nat) : Bool := v / 2 ^ i % 2 = 1

/-- `v` with bit `i` set to `b`. -/
def putBit (v i : Nat) (b : Bool) : Nat :=
  if bitOf v i then (if b then v else v - 2 ^ i) else (if b then v + 2 ^ i else v)

/-- A CRC of `w` bits with polynomial `poly`, most significant bit of each byte first, from 0. -/
def crcOf (w poly : Nat) (b : Bytes) : Nat :=
  b.foldl (fun c x =>
    (List.range 8).foldl (fun c i =>
      let top := bitOf c (w - 1)
      let c := c * 2 % 2 ^ w
      if top ≠ bitOf x.toNat (7 - i) then Nat.xor c poly else c) c) 0

/-- CRC-64 with the ECMA-182 polynomial (R493, the bridge's trailer), most significant bit first, from 0 (PRESUMED, log 12). -/
def crc64 (b : Bytes) : Nat := crcOf 64 0x42F0E1EBA9EA3693 b

/-- CRC-32C (polynomial 0x1EDC6F41, R337, R433): least significant bit of each byte first, from all ones and complemented, as the
code of that name is used everywhere (PRESUMED, log 12). -/
def crc32c (b : Bytes) : Nat :=
  Nat.xor (2 ^ 32 - 1) (b.foldl (fun c x =>
    (List.range 8).foldl (fun c _ => if c % 2 = 1 then Nat.xor (c / 2) 0x82F63B78 else c / 2) (Nat.xor c x.toNat)) (2 ^ 32 - 1))

/-- The two's complement reading of the low `w` bits of `v`. -/
def signed (w v : Nat) : Int :=
  if v % 2 ^ w < 2 ^ (w - 1) then (v % 2 ^ w : Nat) else (v % 2 ^ w : Nat) - (2 ^ w : Nat)

/-- The `w` bits of two's complement that stand for `z`. -/
def unsigned (w : Nat) (z : Int) : Nat := (z % (2 ^ w : Nat)).toNat

/-- How many of the bits 0 to `n - 1` of `v` are set. -/
def popcount : Nat → Nat → Nat
  | 0, _ => 0
  | n + 1, v => popcount n v + (if bitOf v n then 1 else 0)

/-- The numbers of the set bits among the bits 0 to `n - 1` of `v`, rising. -/
def bitList (n v : Nat) : List Nat := (List.range n).filter (bitOf v)

/-- `xs` cut or padded with zeros to `n` bytes. -/
def padTo (n : Nat) (xs : Bytes) : Bytes := xs.take n ++ List.replicate (n - xs.length) 0

/-- Bytes `[i, i + n)` of a run as a number (bytes past its end read as 0). -/
def num (xs : Bytes) (i n : Nat) : Nat := leN ((xs.drop i).take n)

/-- `xs` in pieces of `n` bytes, the last one perhaps shorter; `fuel` bounds the pieces. -/
def chunks (n : Nat) : Nat → Bytes → List Bytes
  | 0, _ => []
  | k + 1, xs => if xs.isEmpty then [] else xs.take n :: chunks n k (xs.drop n)

/-- The first index of `xs` whose value meets `p`. -/
def indexOf? {α : Type} (p : α → Bool) : List α → Option Nat
  | [] => none
  | x :: xs => if p x then some 0 else (indexOf? p xs).map (· + 1)

/-- `xs` with element `i` put to `x`. -/
def setAt {α : Type} : List α → Nat → α → List α
  | [], _, _ => []
  | _ :: xs, 0, x => x :: xs
  | y :: xs, i + 1, x => y :: setAt xs i x

/-- Element `i` of `xs`, or `d` past its end. -/
def nth {α : Type} (d : α) : List α → Nat → α
  | [], _ => d
  | x :: _, 0 => x
  | _ :: xs, i + 1 => nth d xs i

/-- The value a sparse map holds for `k`. -/
def sget {α : Type} : SMap α → Nat → Option α
  | [], _ => none
  | (j, x) :: r, k => if j = k then some x else sget r k

/-- The value a sparse map holds for `k`, or `d`. -/
def sgetD {α : Type} (d : α) (s : SMap α) (k : Nat) : α := (sget s k).getD d

/-- `s` with `k` holding `x`, keys kept strictly rising. -/
def sput {α : Type} : SMap α → Nat → α → SMap α
  | [], k, x => [(k, x)]
  | (j, y) :: r, k, x =>
    if k < j then (k, x) :: (j, y) :: r
    else if k = j then (k, x) :: r
    else (j, y) :: sput r k x

/-- CRC-16 of polynomial 0x1021 (R431): the remainder of the bytes as a polynomial, each byte's most significant bit first, from 0 (DEDUCED,
log 85). -/
def crc16 (b : Bytes) : Nat :=
  b.foldl (fun c x =>
    (List.range 8).foldl (fun c _ => if c ≥ 32768 then Nat.xor (2 * c % 65536) 0x1021 else 2 * c) (Nat.xor c (256 * x.toNat))) 0

/-- `s` without `k`. -/
def sdel {α : Type} : SMap α → Nat → SMap α
  | [], _ => []
  | (j, y) :: r, k => if j = k then r else (j, y) :: sdel r k

/-- `s` with `k` changed by `f`, starting from `d` where `s` holds nothing. -/
def smod {α : Type} (d : α) (s : SMap α) (k : Nat) (f : α → α) : SMap α := sput s k (f (sgetD d s k))

/-- The keys of a sparse map, rising. -/
def skeys {α : Type} (s : SMap α) : List Nat := s.map (·.1)

/-- The values of a sparse map, by rising key. -/
def svals {α : Type} (s : SMap α) : List α := s.map (·.2)

/-- `k` is a member of a set held as a sparse map. -/
def shas {α : Type} (s : SMap α) (k : Nat) : Bool := (sget s k).isSome

/-- Every value changed by `f`. -/
def smap {α β : Type} (f : α → β) (s : SMap α) : SMap β := s.map fun p => (p.1, f p.2)

end Sys2Proof.Machine
end

