-- ==== Sys2Proof/Machine/Float.lean ====
section
/-! DEFINITION. Exact values and their one rounding: the float formats, R231's exp32 and ln32, and comparisons of FP32 codes. -/
namespace Sys2Proof.Machine

/-- An exact value `m × 2 ^ e`. -/
structure Dy where
  m : Int
  e : Int
  deriving DecidableEq, Repr

/-- Zero. -/
def Dy.zero : Dy := ⟨0, 0⟩

/-- The exact product. -/
def Dy.mul (a b : Dy) : Dy := ⟨a.m * b.m, a.e + b.e⟩

/-- The exact sum. -/
def Dy.add (a b : Dy) : Dy :=
  if a.e ≤ b.e then ⟨a.m + b.m * 2 ^ (b.e - a.e).toNat, a.e⟩ else ⟨a.m * 2 ^ (a.e - b.e).toNat + b.m, b.e⟩

/-- The exact negation. -/
def Dy.neg (a : Dy) : Dy := ⟨-a.m, a.e⟩

/-- `a` is greater than `b`. -/
def Dy.gt (a b : Dy) : Bool := (a.add b.neg).m > 0

/-- A float format: precision with the hidden bit, least normal exponent, exponent bits. -/
structure Fmt where
  p : Nat
  emin : Int
  eb : Nat
  deriving DecidableEq, Repr

/-- FP32, BF16, FP16. -/
def fp32 : Fmt := ⟨24, -126, 8⟩
def bf16 : Fmt := ⟨8, -126, 8⟩
def fp16 : Fmt := ⟨11, -14, 5⟩

/-- Bits of a code. -/
def Fmt.width (f : Fmt) : Nat := f.eb + f.p
/-- The code of +∞. -/
def Fmt.inf (f : Fmt) : Nat := (2 ^ f.eb - 1) * 2 ^ (f.p - 1)
/-- The sign bit. -/
def Fmt.sign (f : Fmt) : Nat := 2 ^ (f.width - 1)
/-- The quiet NaN (0x7FC00000, 0x7FC0). -/
def Fmt.nan (f : Fmt) : Nat := f.inf + 2 ^ (f.p - 2)

/-- `a / b` to the nearest integer, ties to even. -/
def rneDiv (a b : Nat) : Nat :=
  let q := a / b
  let r := 2 * (a % b)
  if r < b then q else if r > b then q + 1 else q + q % 2

/-- The code of `± num / den × 2 ^ e` rounded once, to nearest with ties to even, overflow to infinity. -/
def Fmt.roundQ (f : Fmt) (neg : Bool) (num den : Nat) (e : Int) : Nat :=
  if num = 0 then 0
  else
    let k : Int := (Nat.log2 num : Int) - (Nat.log2 den : Int)
    let k := if 0 ≤ k then (if num ≥ den * 2 ^ k.toNat then k else k - 1)
             else (if num * 2 ^ (-k).toNat ≥ den then k else k - 1)
    let qmin : Int := f.emin - (f.p - 1 : Nat)
    let q := max (k + e - (f.p - 1 : Nat)) qmin
    let n := if q ≤ e then rneDiv (num * 2 ^ (e - q).toNat) den else rneDiv num (den * 2 ^ (q - e).toNat)
    let c := (q - qmin).toNat * 2 ^ (f.p - 1) + n
    (if neg then f.sign else 0) + min c f.inf

/-- An exact value rounded once. -/
def Fmt.round (f : Fmt) (x : Dy) : Nat := f.roundQ (x.m < 0) x.m.natAbs 1 x.e

/-- Sign, exponent and fraction of a code. -/
def Fmt.neg (f : Fmt) (c : Nat) : Bool := bitOf c (f.width - 1)
def Fmt.mag (f : Fmt) (c : Nat) : Nat := c % 2 ^ (f.width - 1)

/-- NaN, infinite, subnormal and not zero. -/
def Fmt.isNan (f : Fmt) (c : Nat) : Bool := f.mag c > f.inf
def Fmt.isInf (f : Fmt) (c : Nat) : Bool := f.mag c = f.inf
def Fmt.isSub (f : Fmt) (c : Nat) : Bool := f.mag c ≠ 0 && f.mag c < 2 ^ (f.p - 1)

/-- The exact value of a finite code. -/
def Fmt.val (f : Fmt) (c : Nat) : Dy :=
  let a := f.mag c
  let ex := a / 2 ^ (f.p - 1)
  let fr := a % 2 ^ (f.p - 1)
  let m := if ex = 0 then fr else 2 ^ (f.p - 1) + fr
  let e : Int := f.emin - (f.p - 1 : Nat) + ((if ex = 0 then 0 else ex - 1 : Nat) : Int)
  ⟨if f.neg c then -(m : Int) else m, e⟩

/-- The exact value of a code, none for NaN and infinities. -/
def Fmt.val? (f : Fmt) (c : Nat) : Option Dy := if f.mag c ≥ f.inf then none else some (f.val c)

/-- OCP FP8 E4M3 (no infinity, NaN at all ones) and E5M2. -/
def e4m3Val? (c : Nat) : Option Dy := if c % 128 = 127 then none else some (Fmt.val ⟨4, -6, 4⟩ c)
def e5m2Val? (c : Nat) : Option Dy := Fmt.val? ⟨3, -14, 5⟩ c
/-- OCP FP6 E2M3 and E3M2, without NaN or infinity. -/
def e2m3Val (c : Nat) : Dy := Fmt.val ⟨4, 0, 2⟩ c
def e3m2Val (c : Nat) : Dy := Fmt.val ⟨3, -2, 3⟩ c
/-- MXINT8: two's complement × 2^-6. -/
def mxintVal (c : Nat) : Dy := ⟨signed 8 c, -6⟩
/-- E8M0 scale, none for NaN. -/
def e8m0? (c : Nat) : Option Int := if c = 255 then none else some ((c : Int) - 127)

/-- A number that orders FP32 codes as their values (finite or infinite), −0 with +0. -/
def fkey (c : Nat) : Int := if bitOf c 31 then -((c % 2 ^ 31 : Nat) : Int) else (c : Int)

/-- −∞ and the quiet NaN of FP32. -/
def negInf : Nat := 0xFF800000
def qNan : Nat := 0x7FC00000

/-- ln 2 to 124 fractional bits: floor(2^124 × ln 2 + 1/2) (R231). -/
def ln2q : Int := 14741610201594580883621508922759655275

/-- The integer nearest `m × 2 ^ s`, ties to even. -/
def rneShift (m s : Int) : Int :=
  if 0 ≤ s then m * 2 ^ s.toNat
  else if m < 0 then -(rneDiv m.natAbs (2 ^ (-s).toNat) : Int) else (rneDiv m.natAbs (2 ^ (-s).toNat) : Int)

/-- The 27 terms of R231's exponential: `t`, `p` and the next `n`. -/
def expTerms : Nat → Int → Int → Nat → Int → Int
  | 0, _, p, _, _ => p
  | fuel + 1, t, p, n, r =>
    let t := t * r / ((n : Int) * 2 ^ 124)
    expTerms fuel t (p + t) (n + 1) r

/-- exp32 (R231). -/
def exp32 (x : Nat) : Nat :=
  if fp32.isNan x then qNan
  else if fp32.isInf x then (if fp32.neg x then 0 else fp32.inf)
  else
    let v := fp32.val x
    if v.gt ⟨128, 0⟩ then fp32.inf
    else if (Dy.mk (-128) 0).gt v then 0
    else
      let xx := rneShift v.m (v.e + 124)
      let k := (2 * xx + ln2q) / (2 * ln2q)
      let r := xx - k * ln2q
      fp32.round ⟨expTerms 27 (2 ^ 124) (2 ^ 124) 1 r, k - 124⟩

/-- The 35 terms of R231's logarithm. -/
def lnTerms : Nat → Int → Int → Nat → Int → Int
  | 0, _, p, _, _ => p
  | fuel + 1, t, p, n, s2 =>
    let t := t * s2 / 2 ^ 124
    lnTerms fuel t (p + t / (2 * n + 1 : Int)) (n + 1) s2

/-- ln32 (R231). -/
def ln32 (x : Nat) : Nat :=
  if fp32.isNan x then qNan
  else if fp32.mag x = 0 then negInf
  else if fp32.neg x then qNan
  else if fp32.isInf x then fp32.inf
  else
    let v := fp32.val x
    let sh := 23 - Nat.log2 v.m.natAbs
    let mm : Int := v.m * 2 ^ sh
    let e := v.e - sh
    let small := mm * mm < 2 ^ 47
    let d : Int := if small then 2 ^ 23 else 2 ^ 24
    let ee := e + (if small then 23 else 24)
    let s := 2 ^ 124 * (mm - d) / (mm + d)
    let s2 := s * s / 2 ^ 124
    let y := ee * ln2q + 2 * lnTerms 35 s s 1 s2
    if y = 0 then 0 else fp32.round ⟨y, -124⟩

end Sys2Proof.Machine
end

