-- ==== Sys2Proof/Machine/Anchored.lean ====
section
/-! DEFINITION. Anchored values (R259 to R273): conversion of an addend, the cell, its operations and its one rounding. -/
namespace Sys2Proof.Machine

/-- An addend as read (R261, Table 8.2). -/
inductive Addend where
  | fin (x : Dy)
  | pinf
  | ninf
  | nan
  deriving DecidableEq, Repr

/-- Element bytes of an input format (Table 8.1); 0 for a reserved code. -/
def fmtBytes (fmt : Nat) : Nat := nth 0 [4, 2, 2, 1, 1, 4, 8] fmt

/-- A float code as an addend. -/
def Fmt.addend (f : Fmt) (c : Nat) : Addend :=
  if f.isNan c then .nan else if f.isInf c then (if f.neg c then .ninf else .pinf) else .fin (f.val c)

/-- An element of an input format (Table 8.1). -/
def addendOf (fmt c : Nat) : Addend :=
  match fmt with
  | 0 => fp32.addend c
  | 1 => bf16.addend c
  | 2 => fp16.addend c
  | 3 => match e4m3Val? c with | some x => .fin x | none => .nan
  | 4 => Fmt.addend ⟨3, -14, 5⟩ c
  | 5 => .fin ⟨signed 32 c, 0⟩
  | _ => .fin ⟨signed 64 c, 0⟩

/-- Flags of a cell, bits [214:208] (Table 8.3). -/
def flSat : BitVec 7 := 1
def flUnder : BitVec 7 := 2
def flNan : BitVec 7 := 4
def flPinf : BitVec 7 := 8
def flNinf : BitVec 7 := 16
def flAuto : BitVec 7 := 32
def flLate : BitVec 7 := 64

/-- The contribution of an addend under anchor `a` and the flags it sets (R260, R262). -/
def convert (a : Int) : Addend → BitVec 192 × BitVec 7
  | .pinf => (0, flPinf)
  | .ninf => (0, flNinf)
  | .nan => (0, flNan)
  | .fin x =>
    let n := rneShift x.m (x.e - (a - 127))
    if n ≥ 2 ^ 128 then (BitVec.ofInt 192 (2 ^ 128 - 1), flSat)
    else if n ≤ -(2 ^ 128) then (BitVec.ofInt 192 (-(2 ^ 128 - 1)), flSat)
    else (BitVec.ofInt 192 n, if n = 0 && x.m ≠ 0 then flUnder else 0)

/-- The exponent of an addend for the pre-pass, where it takes part (R266). -/
def expOf : Addend → Option Int
  | .fin x => if x.m = 0 then none else some ((Nat.log2 x.m.natAbs : Int) + x.e)
  | _ => none

/-- An anchored cell (Table 8.3). -/
structure Cell where
  value : BitVec 192 := 0
  anchor : BitVec 16 := 0
  flags : BitVec 7 := 0
  count : Nat := 0
  deriving DecidableEq, Repr

/-- The cell a 256-bit image spells; reserved bits are ignored. -/
def Cell.ofNat (v : Nat) : Cell :=
  ⟨BitVec.ofNat 192 v, BitVec.ofNat 16 (v / 2 ^ 192), BitVec.ofNat 7 (v / 2 ^ 208), fld v 224 32⟩

/-- The 32 bytes of a cell, reserved bits 0. -/
def Cell.bytes (c : Cell) : Bytes :=
  leB 32 (c.count * 2 ^ 224 + c.flags.toNat * 2 ^ 208 + c.anchor.toNat * 2 ^ 192 + c.value.toNat)

/-- The cell is still gathering its anchor. -/
def Cell.auto (c : Cell) : Bool := c.flags &&& flAuto ≠ 0

/-- COUNTs added, holding at 0xFFFFFFFF (R265). -/
def addCount (a b : Nat) : Nat := min (a + b) 0xFFFFFFFF

/-- A cell whose anchor is fixed by its first addend: AUTO cleared, anchor 0 where none was gathered (R275). -/
def Cell.fix (c : Cell) : Cell :=
  if c.auto then { c with flags := c.flags &&& ~~~flAuto, anchor := if c.anchor = 0x8000 then 0 else c.anchor } else c

/-- ANCH_ADD of one element (R275): the new cell and the flags raised. -/
def Cell.add (c : Cell) (x : Addend) : Cell × BitVec 7 :=
  let c := c.fix
  let r := convert c.anchor.toInt x
  ({ c with value := c.value + r.1, flags := c.flags ||| r.2, count := addCount c.count 1 }, r.2)

/-- ANCH_ADD_RAW of one image of equal anchor (R276). -/
def Cell.addRaw (c i : Cell) : Cell × BitVec 7 :=
  let f := i.flags &&& 31
  ({ value := c.value + i.value, anchor := c.anchor, flags := (c.flags &&& ~~~flAuto) ||| f,
     count := addCount c.count i.count }, f)

/-- ANCH_EMAX of one element (R277). -/
def Cell.emax (c : Cell) (x : Addend) : Cell × BitVec 7 :=
  if c.auto && c.count = 0 then
    match expOf x with
    | none => (c, 0)
    | some e =>
      if c.anchor = 0x8000 || c.anchor.toInt < e then ({ c with anchor := BitVec.ofInt 16 e }, 0) else (c, 0)
  else ({ c with flags := c.flags ||| flLate }, flLate)

/-- The output format of code OFMT (Table 8.4). -/
def outFmt (ofmt : Nat) : Fmt := match ofmt with | 0 => fp32 | 1 => bf16 | _ => fp16

/-- The one rounding of an anchored value (R268 to R270): output code, and the returned flags' SAT (bit 0) and FLUSHED
(bit 7). -/
def anchRound (f : Fmt) (overflowFinite flush : Bool) (v : BitVec 192) (a : Int) (flags : BitVec 7) : Nat × Nat :=
  if flags &&& flNan ≠ 0 || (flags &&& flPinf ≠ 0 && flags &&& flNinf ≠ 0) then (f.nan, 0)
  else if flags &&& flPinf ≠ 0 then (f.inf, 0)
  else if flags &&& flNinf ≠ 0 then (f.sign + f.inf, 0)
  else
    let c := f.round ⟨v.toInt, a - 127⟩
    if f.mag c = f.inf then (if overflowFinite then c - 1 else c, 1)
    else if flush && f.isSub c then (if f.neg c then f.sign else 0, 128)
    else (c, 0)

/-- Output and flag word of ANCH_READ of a cell (R280). -/
def Cell.read (c : Cell) (f : Fmt) (overflowFinite flush : Bool) : Nat × Nat :=
  let r := anchRound f overflowFinite flush c.value c.anchor.toInt c.flags
  let sat := if bitOf c.flags.toNat 0 then 0 else r.2 % 2
  (r.1, c.flags.toNat + sat + (if r.2 ≥ 128 then 128 else 0))

end Sys2Proof.Machine
end

