-- ==== Sys2Proof/Config.lean ====
section
/-! DEFINITION. The free values: what the spec leaves open, or takes from an external standard, as constants without a
body. No proof can see a value of them; a claim about one holds for every value. -/
namespace Sys2Proof

/-- AES-256-XTS per IEEE 1619 on one 64-byte data unit (R181), by key number and data-unit number: encryption, and as its inverse
decryption. The spec names the standard and does not give it: no more is used than that decryption inverts encryption. -/
opaque Config.xts : Nat → Nat → Equiv.Perm (BitVec 512)

/-- What a stack sector holds that nothing has written since its array last lost its contents, by sector number and count of
losses (R183, R193). -/
opaque Config.rawSector : Nat → Nat → BitVec 512

/-- The 6 check bytes that the Reed-Solomon code of a sector gives 66 bytes of data and metadata (R160); the spec names no
generator. -/
opaque Config.rsCheck : Bytes → BitVec 48

/-- A byte of a buffer slice after its contents were lost (R701), or of a field the spec leaves unspecified (R25, R306), by
draw number. -/
opaque Config.lostByte : Nat → Byte

/-- SHA-384 (R696, R509): the digest of a run of bytes. -/
opaque Config.sha384 : Bytes → BitVec 384

/-- The DRBG of the security controller (R293, R465): 256 bits for each draw number. -/
opaque Config.drbg : Nat → BitVec 256

/-- ECDSA over brainpoolP384 (R505, R519): the 96-byte signature of a run of bytes under a key number. -/
opaque Config.ecdsa : Nat → Bytes → BitVec 768

/-- AES-256-GCM (R353, R487, R495, R524, R544): byte `i` of the keystream of a key and nonce, and the tag of a ciphertext with its
additional data. -/
opaque Config.gcmByte : Nat → Nat → Nat → Byte
opaque Config.gcmTag : Nat → Nat → Bytes → Bytes → BitVec 128

/-- ECDH on brainpoolP384r1 (R352, R524): the shared secret of a private key number and a peer's public key. -/
opaque Config.ecdh : Nat → Bytes → BitVec 384

/-- The export master secret of an SPDM session, by host port and session (R486). -/
opaque Config.exportSecret : Nat → Nat → BitVec 384

/-- The free value of a result that a rule states no value for, by a code of the rule and its operands. -/
opaque Config.unstated : Nat → List Nat → Nat

/-- The public key of a private key number, 96 bytes (R506). -/
opaque Config.pubKey : Nat → BitVec 768

/-- Bytes of the module's certificate chain (R505, ATTEST_CHAIN), by the number of its alias key and position. -/
opaque Config.chainByte : Nat → Nat → Byte

/-- A reading of a sensor, or a running total of occurrences that no command of the table carries (latencies, row hits, stalls,
cycles, rail currents and energies: Tables 2.16, 13.7, 18.7), by entry key and AOCLK µs (log 15). -/
opaque Config.reading : Nat → Nat → Nat

end Sys2Proof
end

