-- ==== Sys2Proof/Machine/FbTable.lean ====
section
/-! DEFINITION. The Field Book's entry tables (Tables 2.11 to 2.16, 3.7, 4.9, 5.9, 6.3, 7.14, 8.10, 9.14, 10.10, 11.11, 12.11,
13.7, 14.11, 15.8, 16.6, 17.10, 18.7, 19.12, 20.6 and 21.11), row by row, and the numbers of the entries. -/
namespace Sys2Proof.Machine

/-- The Range column of an entry. -/
inductive Range where
  /-- Any value of the type. -/
  | all
  /-- `lo` to `hi` in steps from `lo`. -/
  | span (lo hi : Int) (step : Nat)
  /-- `lo` to `hi`, or the one further value. -/
  | spanOr (lo hi other : Nat)
  /-- The listed codes only. -/
  | listed (codes : List Nat)
  /-- The bits that are not reserved. -/
  | bits (mask : Nat)
  /-- STR and BLOB lengths: `lo` to `hi`, a multiple of `part` above `lo` (0: `lo` itself). -/
  | len (lo hi part : Nat)
  deriving DecidableEq, Repr

/-- One row of an entry table: indices `idx` to `idx + n - 1`, sub-indices `sub` to `sub + k - 1` (R45, Table 2.5). -/
structure EntryRow where
  idx : Nat
  n : Nat
  sub : Nat
  k : Nat
  /-- Type code (Table 2.2) and value length in bytes (the largest for STR and BLOB). -/
  ty : Nat
  len : Nat
  /-- ACCESS bits of the descriptor: O write, O read, H write, H read, C write, C read, S write, S read from bit 7 down. -/
  acc : Nat
  /-- Writability code (Table 2.3). -/
  wr : Nat
  sheet : Bool
  result : Bool
  lic : Nat
  /-- Coupling group, and what each further index adds to it. -/
  coup : Nat
  coupStep : Nat
  dflt : Bytes
  range : Range
  deriving DecidableEq, Repr

/-- Rows 1 to 40 of the entry tables. -/
def entryRows1 : List EntryRow := [
  .mk 0x1000 1 1 1 10 255 0x55 0 false false 0 0x0000 0 ([67, 108, 111, 101, 115, 107]) (.len 0 255 1),  -- VENDOR
  .mk 0x1000 1 2 1 10 255 0x55 0 false false 0 0x0000 0 ([83, 84, 76, 50, 45, 53, 55, 54]) (.len 0 255 1),  -- PART_FAMILY
  .mk 0x1000 1 3 1 10 255 0x55 0 false false 0 0x0000 0 ([]) (.len 0 255 1),  -- ORDERING_CODE
  .mk 0x1000 1 4 1 7 1 0x55 0 false false 0 0x0000 0 ([2]) (.listed [0, 1, 2]),  -- STEPPING
  .mk 0x1000 1 5 1 4 8 0x55 0 false false 0 0x0000 0 (leB 8 0x0) (.all),  -- MODULE_SERIAL
  .mk 0x1000 1 6 1 2 2 0x55 0 false false 0 0x0000 0 (leB 2 0x100) (.all),  -- FB_SCHEMA
  .mk 0x1000 1 7 1 3 4 0x51 0 false false 0 0x0000 0 (leB 4 0x0) (.all),  -- FIRMWARE_VERSION
  .mk 0x1000 1 8 1 11 48 0x51 0 false false 0 0x0000 0 ([]) (.len 48 48 0),  -- MONUMENT_DIGEST
  .mk 0x1000 1 9 1 7 1 0x51 0 false false 0 0x0000 0 ([0]) (.listed [0, 1]),  -- MGMT_ROLE
  .mk 0x1100 1 1 1 8 1 0x55 0 false false 0 0x0000 0 ([0]) (.bits 0x3F),  -- LICENCE_PRESENT
  .mk 0x1100 1 2 1 8 1 0x51 0 false false 0 0x0000 0 ([0]) (.bits 0x3F),  -- LICENCE_PENDING
  .mk 0x1100 1 3 1 11 2048 0x80 4 false false 0 0x0000 0 ([]) (.len 177 2048 1),  -- LICENCE_INSTALL
  .mk 0x1100 1 4 1 8 1 0x80 4 false false 0 0x0000 0 ([0]) (.bits 0x3F),  -- LICENCE_REMOVE
  .mk 0x1F00 1 1 1 1 1 0xA0 4 false false 0 0x0000 0 ([0]) (.span 1 1 1),  -- DRAFT_OPEN
  .mk 0x1F00 1 2 1 1 1 0xA0 4 false false 0 0x0000 0 ([0]) (.span 1 1 1),  -- DRAFT_DISCARD
  .mk 0x1F00 1 3 1 7 1 0x50 0 false false 0 0x0000 0 ([0]) (.listed [0, 1, 2]),  -- DRAFT_STATE
  .mk 0x1F00 1 4 1 2 2 0x50 0 false false 0 0x0000 0 (leB 2 0x0) (.span 0 16384 1),  -- DRAFT_WRITES
  .mk 0x1F00 1 5 1 3 4 0xD0 1 false false 0 0x0000 0 (leB 4 0xEA60) (.span 1000 3600000 1),  -- DRAFT_IDLE_TIMEOUT
  .mk 0x1F10 1 1 1 3 4 0xA0 4 false false 0 0x0000 0 (leB 4 0x0) (.span 1 1 1),  -- COMMIT
  .mk 0x1F10 1 2 1 3 4 0xF0 1 false false 0 0x0000 0 (leB 4 0x1F4) (.span 1 10000 1),  -- COMMIT_TIMEOUT
  .mk 0x1F10 1 3 1 3 4 0x54 0 false false 0 0x0000 0 (leB 4 0x1) (.span 1 4294967295 1),  -- EPOCH_CURRENT
  .mk 0x1F10 1 4 1 3 4 0x54 0 false false 0 0x0000 0 (leB 4 0x1) (.span 1 4294967295 1),  -- EPOCH_OLDEST_LIVE
  .mk 0x1F10 1 5 1 3 4 0x50 0 false false 0 0x0000 0 (leB 4 0x0) (.all),  -- EPOCH_OLD_ITEMS
  .mk 0x1F10 1 6 1 1 1 0x50 0 false false 0 0x0000 0 ([0]) (.all),  -- COMMIT_LAST_STATUS
  .mk 0x1F10 1 7 1 3 4 0x50 0 false false 0 0x0000 0 (leB 4 0x1) (.all),  -- COMMIT_LAST_EPOCH
  .mk 0x1F10 1 8 1 2 2 0x50 0 false false 0 0x0000 0 (leB 2 0x0) (.all),  -- COMMIT_FAIL_GROUP
  .mk 0xA000 1 1 1 7 1 0xD4 2 false false 0 0x0000 0 ([0]) (.listed [0, 1, 2, 3, 4, 5, 6, 7]),  -- ACTIVE_SHEET
  .mk 0xA000 1 2 1 7 1 0xD0 3 false false 0 0x0000 0 ([0]) (.listed [0, 1, 2, 3, 4, 5, 6, 7]),  -- BOOT_SHEET
  .mk 0xA000 1 3 1 11 48 0x51 0 false false 0 0x0000 0 ([]) (.len 48 48 0),  -- BASELINE_DIGEST
  .mk 0xA000 1 4 1 2 2 0x50 0 false false 0 0x0000 0 (leB 2 0x0) (.span 0 16384 1),  -- BASELINE_ENTRIES
  .mk 0xA000 1 5 1 1 1 0x80 4 false false 0 0x0000 0 ([0]) (.listed [0x10, 0x20, 0x21, 0x22, 0x23, 0x24, 0x25, 0x26, 0x27]),  -- SAVE_RUNNING
  .mk 0xA001 8 1 1 2 2 0x50 0 false false 0 0x0000 0 (leB 2 0x0) (.span 0 16384 1),  -- SHEET_ENTRIES
  .mk 0xA001 8 2 1 11 48 0x51 0 false false 0 0x0000 0 ([]) (.len 48 48 0),  -- SHEET_DIGEST
  .mk 0xA001 8 3 1 1 1 0x80 4 false false 0 0x0000 0 ([0]) (.span 1 1 1),  -- SHEET_CLEAR
  .mk 0x9000 1 1 1 4 8 0x50 0 false false 0 0x0000 0 (leB 8 0x0) (.all),  -- COUNTER_LATCH_TIME
  .mk 0x9000 1 2 1 1 1 0x80 4 false false 0 0x0000 0 ([0]) (.span 0 11 1),  -- COUNTER_CLEAR
  .mk 0x9100 96 1 1 4 8 0x50 0 false false 0 0x0000 0 (leB 8 0x0) (.all),  -- GRID_READ_BYTES
  .mk 0x9100 96 2 1 4 8 0x50 0 false false 0 0x0000 0 (leB 8 0x0) (.all),  -- GRID_WRITE_BYTES
  .mk 0x9100 96 3 1 4 8 0x50 0 false false 0 0x0000 0 (leB 8 0x0) (.all),  -- GRID_ATOMICS
  .mk 0x9100 96 4 1 4 8 0x50 0 false false 0 0x0000 0 (leB 8 0x0) (.all)  -- GRID_MERGED_READS
  ]

/-- Rows 41 to 80 of the entry tables. -/
def entryRows2 : List EntryRow := [
  .mk 0x9100 96 5 1 4 8 0x50 0 false false 0 0x0000 0 (leB 8 0x0) (.all),  -- GRID_LAT_SUM_NS
  .mk 0x9100 96 6 1 4 8 0x50 0 false false 0 0x0000 0 (leB 8 0x0) (.all),  -- GRID_LAT_COUNT
  .mk 0x9100 96 7 1 4 8 0x50 0 false false 0 0x0000 0 (leB 8 0x0) (.all),  -- GRID_LAT_OVER_120
  .mk 0x9100 96 8 1 4 8 0x50 0 false false 0 0x0000 0 (leB 8 0x0) (.all),  -- GRID_LOWERED_NS
  .mk 0x9200 192 1 1 4 8 0x50 0 false false 0 0x0000 0 (leB 8 0x0) (.all),  -- CHAN_READ_BYTES
  .mk 0x9200 192 2 1 4 8 0x50 0 false false 0 0x0000 0 (leB 8 0x0) (.all),  -- CHAN_WRITE_BYTES
  .mk 0x9200 192 3 1 4 8 0x50 0 false false 0 0x0000 0 (leB 8 0x0) (.all),  -- CHAN_ACTIVATES
  .mk 0x9200 192 4 1 4 8 0x50 0 false false 0 0x0000 0 (leB 8 0x0) (.all),  -- CHAN_REFRESHES
  .mk 0x9200 192 5 1 4 8 0x50 0 false false 0 0x0000 0 (leB 8 0x0) (.all),  -- CHAN_ROW_HITS
  .mk 0x9200 192 6 1 4 8 0x50 0 false false 0 0x0000 0 (leB 8 0x0) (.all),  -- CHAN_CAP_WINDOWS
  .mk 0x9200 192 7 1 4 8 0x50 0 false false 0 0x0000 0 (leB 8 0x0) (.all),  -- CHAN_STACKPATH_BYTES
  .mk 0x9300 36 1 1 4 8 0x50 0 false false 0 0x0000 0 (leB 8 0x0) (.all),  -- REG_BYTES
  .mk 0x9300 36 2 1 4 8 0x50 0 false false 0 0x0000 0 (leB 8 0x0) (.all),  -- REG_LOWERED_WINDOWS
  .mk 0x9300 36 3 1 4 8 0x50 0 false false 0 0x0000 0 (leB 8 0x0) (.all),  -- REG_MISSED_WINDOWS
  .mk 0x9400 96 1 1 4 8 0x50 0 false false 0 0x0000 0 (leB 8 0x0) (.all),  -- ENGINE_BUSY_CYCLES
  .mk 0x9400 96 2 1 4 8 0x50 0 false false 0 0x0000 0 (leB 8 0x0) (.all),  -- ENGINE_BLOCKS
  .mk 0x9400 96 3 1 4 8 0x50 0 false false 0 0x0000 0 (leB 8 0x0) (.all),  -- ENGINE_BYTES
  .mk 0x9400 96 4 1 4 8 0x50 0 false false 0 0x0000 0 (leB 8 0x0) (.all),  -- ENGINE_ITEMS
  .mk 0x9500 344 1 1 4 8 0x50 0 false false 0 0x0000 0 (leB 8 0x0) (.all),  -- UNIT_ANCH_OPS
  .mk 0x9500 344 2 1 4 8 0x50 0 false false 0 0x0000 0 (leB 8 0x0) (.all),  -- UNIT_INT_OPS
  .mk 0x9500 344 3 1 4 8 0x50 0 false false 0 0x0000 0 (leB 8 0x0) (.all),  -- UNIT_UNANCH_OPS
  .mk 0x9500 344 4 1 4 8 0x50 0 false false 0 0x0000 0 (leB 8 0x0) (.all),  -- UNIT_FLAGGED_OPS
  .mk 0x9700 24 1 1 4 8 0x50 0 false false 0 0x0000 0 (leB 8 0x0) (.all),  -- PORT_FRAMES_TX
  .mk 0x9700 24 2 1 4 8 0x50 0 false false 0 0x0000 0 (leB 8 0x0) (.all),  -- PORT_FRAMES_RX
  .mk 0x9700 24 3 1 4 8 0x50 0 false false 0 0x0000 0 (leB 8 0x0) (.all),  -- PORT_VC0_FRAMES
  .mk 0x9700 24 4 1 4 8 0x50 0 false false 0 0x0000 0 (leB 8 0x0) (.all),  -- PORT_VC1_FRAMES
  .mk 0x9700 24 5 1 4 8 0x50 0 false false 0 0x0000 0 (leB 8 0x0) (.all),  -- PORT_VC2_FRAMES
  .mk 0x9700 24 6 1 4 8 0x50 0 false false 0 0x0000 0 (leB 8 0x0) (.all),  -- PORT_CONTROL_FRAMES
  .mk 0x9700 24 7 1 4 8 0x50 0 false false 0 0x0000 0 (leB 8 0x0) (.all),  -- PORT_IDLE_FRAMES
  .mk 0x9700 24 8 1 4 8 0x50 0 false false 0 0x0000 0 (leB 8 0x0) (.all),  -- PORT_CREDIT_STALL_NS
  .mk 0x9780 64 1 1 4 8 0x50 0 false false 0 0x0000 0 (leB 8 0x0) (.all),  -- BOND_FLITS_TX
  .mk 0x9780 64 2 1 4 8 0x50 0 false false 0 0x0000 0 (leB 8 0x0) (.all),  -- BOND_FLITS_RX
  .mk 0x9780 64 3 1 4 8 0x50 0 false false 0 0x0000 0 (leB 8 0x0) (.all),  -- BOND_CREDIT_STALL_NS
  .mk 0x9780 64 4 1 4 8 0x50 0 false false 0 0x0000 0 (leB 8 0x0) (.all),  -- BOND_REPLAYS
  .mk 0x9800 32 1 1 4 8 0x50 0 false false 0 0x0000 0 (leB 8 0x0) (.all),  -- CORE_CYCLES
  .mk 0x9800 32 2 1 4 8 0x50 0 false false 0 0x0000 0 (leB 8 0x0) (.all),  -- CORE_INSTRUCTIONS
  .mk 0x9800 32 3 1 4 8 0x50 0 false false 0 0x0000 0 (leB 8 0x0) (.all),  -- CORE_L1I_MISSES
  .mk 0x9800 32 4 1 4 8 0x50 0 false false 0 0x0000 0 (leB 8 0x0) (.all),  -- CORE_L1D_MISSES
  .mk 0x9800 32 5 1 4 8 0x50 0 false false 0 0x0000 0 (leB 8 0x0) (.all),  -- CORE_L2_MISSES
  .mk 0x9800 32 6 1 4 8 0x50 0 false false 0 0x0000 0 (leB 8 0x0) (.all)  -- CORE_HALTED_CYCLES
  ]

/-- Rows 81 to 120 of the entry tables. -/
def entryRows3 : List EntryRow := [
  .mk 0x9900 2 1 1 4 8 0x50 0 false false 0 0x0000 0 (leB 8 0x0) (.all),  -- PWR_ACTIVE_US
  .mk 0x9900 2 2 1 4 8 0x50 0 false false 0 0x0000 0 (leB 8 0x0) (.all),  -- PWR_DOZE_US
  .mk 0x9900 2 3 1 4 8 0x50 0 false false 0 0x0000 0 (leB 8 0x0) (.all),  -- PWR_NAP_US
  .mk 0x9900 2 4 1 4 8 0x50 0 false false 0 0x0000 0 (leB 8 0x0) (.all),  -- PWR_DORMANT_US
  .mk 0x9900 2 5 1 4 8 0x50 0 false false 0 0x0000 0 (leB 8 0x0) (.all),  -- GATED_GRID_CYCLES
  .mk 0x9900 2 6 1 4 8 0x50 0 false false 0 0x0000 0 (leB 8 0x0) (.all),  -- GATED_SLICE_CYCLES
  .mk 0x9900 2 7 1 4 8 0x50 0 false false 0 0x0000 0 (leB 8 0x0) (.all),  -- GATED_ENGINE_CYCLES
  .mk 0x9900 2 8 1 4 8 0x50 0 false false 0 0x0000 0 (leB 8 0x0) (.all),  -- GATED_LINK_ENGINE_CYCLES
  .mk 0x9900 2 9 1 4 8 0x50 0 false false 0 0x0000 0 (leB 8 0x0) (.all),  -- GATED_CHANNEL_CYCLES
  .mk 0x9A00 10 1 1 9 4 0x50 0 false false 0 0x0000 0 (leB 4 0x0) (.all),  -- RAIL_CURRENT
  .mk 0x9A10 10 1 1 9 4 0x50 0 false false 0 0x0000 0 (leB 4 0x0) (.all),  -- RAIL_CURRENT
  .mk 0x9A00 10 2 1 9 4 0x50 0 false false 0 0x0000 0 (leB 4 0x0) (.all),  -- RAIL_VOLTS
  .mk 0x9A10 10 2 1 9 4 0x50 0 false false 0 0x0000 0 (leB 4 0x0) (.all),  -- RAIL_VOLTS
  .mk 0x9A00 10 3 1 4 8 0x50 0 false false 0 0x0000 0 (leB 8 0x0) (.all),  -- RAIL_LIMIT_HITS
  .mk 0x9A10 10 3 1 4 8 0x50 0 false false 0 0x0000 0 (leB 8 0x0) (.all),  -- RAIL_LIMIT_HITS
  .mk 0x9A00 10 4 1 4 8 0x50 0 false false 0 0x0000 0 (leB 8 0x0) (.all),  -- RAIL_ENERGY
  .mk 0x9A10 10 4 1 4 8 0x50 0 false false 0 0x0000 0 (leB 8 0x0) (.all),  -- RAIL_ENERGY
  .mk 0x9B00 1 1 1 11 1 0xA0 4 false false 0 0x0000 0 ([]) (.len 1 1 0),  -- SENSOR_READ
  .mk 0x9B10 12 1 1 4 8 0x50 0 false false 0 0x0000 0 (leB 8 0x0) (.all),  -- ZONE_NORMAL_US
  .mk 0x9B10 12 2 1 4 8 0x50 0 false false 0 0x0000 0 (leB 8 0x0) (.all),  -- ZONE_WARNING_US
  .mk 0x9B10 12 3 1 4 8 0x50 0 false false 0 0x0000 0 (leB 8 0x0) (.all),  -- ZONE_STEP1_US
  .mk 0x9B10 12 4 1 4 8 0x50 0 false false 0 0x0000 0 (leB 8 0x0) (.all),  -- ZONE_STEP2_US
  .mk 0x9B10 12 5 1 4 8 0x50 0 false false 0 0x0000 0 (leB 8 0x0) (.all),  -- ZONE_SHUTDOWN_US
  .mk 0x9C00 1 1 1 11 4 0xA0 4 false false 0 0x0000 0 ([]) (.len 4 4 0),  -- EYE_HISTORY_READ
  .mk 0x9C00 1 2 1 11 1 0xA0 4 false false 0 0x0000 0 ([]) (.len 1 1 0),  -- MONITOR_SLACK_READ
  .mk 0x9D00 1 1 1 11 2 0xA0 4 false false 0 0x0000 0 ([]) (.len 2 2 0),  -- RING_COUNTERS
  .mk 0x9D00 1 2 1 11 4 0xA0 4 false false 0 0x0000 0 ([]) (.len 4 4 0),  -- STREAM_COUNTERS
  .mk 0x9D00 1 3 1 11 10 0xA0 4 false false 0 0x0000 0 ([]) (.len 10 10 0),  -- LEG_COUNTERS
  .mk 0x9F00 1 1 1 11 2 0x08 4 false false 0 0x0000 0 ([]) (.len 2 2 0),  -- MY_RING_COUNTERS
  .mk 0x9F00 1 2 1 11 1 0x08 4 false false 0 0x0000 0 ([]) (.len 1 1 0),  -- MY_CORE_COUNTERS
  .mk 0x3200 1 1 1 8 1 0xD0 2 true false 0 0x0000 0 ([3]) (.bits 0x3),  -- RLC_ENABLE
  .mk 0x3200 1 2 1 8 1 0xD0 2 true false 0 0x0000 0 ([31]) (.bits 0x1F),  -- RLC_ALLOC_CLASSES
  .mk 0x3201 1 1 1 1 1 0xD0 2 true false 0 0x0320 0 ([16]) (.span 0 16 1),  -- RLC_WAYS_P0
  .mk 0x3201 1 2 1 1 1 0xD0 2 true false 0 0x0320 0 ([0]) (.span 0 16 1),  -- RLC_WAYS_P1
  .mk 0x3201 1 3 1 1 1 0xD0 2 true false 0 0x0320 0 ([0]) (.span 0 16 1),  -- RLC_WAYS_P2
  .mk 0x3201 1 4 1 1 1 0xD0 2 true false 0 0x0320 0 ([0]) (.span 0 16 1),  -- RLC_WAYS_P3
  .mk 0x3202 1 1 1 1 1 0xA0 4 false false 0 0x0000 0 ([0]) (.span 1 1 1),  -- RLC_FLUSH
  .mk 0x3300 1 1 1 1 1 0x50 0 false false 0 0x0000 0 ([64]) (.listed [0, 32, 64]),  -- BRIDGE_LANES
  .mk 0x3300 1 2 1 1 1 0x50 0 false false 0 0x0000 0 ([8]) (.span 0 8 1),  -- BRIDGE_SPARES_LEFT
  .mk 0x3300 1 3 1 4 8 0x50 0 false false 0 0x0000 0 (leB 8 0x0) (.all)  -- BRIDGE_REPLAYS
  ]

/-- Rows 121 to 160 of the entry tables. -/
def entryRows4 : List EntryRow := [
  .mk 0x3300 1 4 1 2 2 0xD0 1 true false 0 0x0000 0 (leB 2 0x10) (.span 2 1024 1),  -- BRIDGE_LANE_ERR_LIMIT
  .mk 0x3300 1 5 1 3 4 0x50 0 false false 0 0x0000 0 (leB 4 0x0) (.all),  -- DIE_LOSSES
  .mk 0x3300 1 6 1 7 1 0x54 0 false false 0 0x0000 0 ([0]) (.listed [0, 1, 2, 3, 4, 5]),  -- DIE_STATE
  .mk 0x3300 1 7 1 3 4 0xD0 1 true false 0 0x0000 0 (leB 4 0xEA60) (.span 1000 3600000 1),  -- F0_RETURN_TIMEOUT
  .mk 0x3300 1 8 1 3 4 0x50 0 false false 0 0x0000 0 (leB 4 0x0) (.span 0 65536 1),  -- MIRROR_RESYNC_PENDING
  .mk 0x3000 1 1 1 6 1 0xD0 2 true false 0 0x0000 0 ([1]) (.span 0 1 1),  -- GRID_MERGE_ENABLE
  .mk 0x3000 1 2 1 1 1 0xD0 2 true false 0 0x0000 0 ([32]) (.span 8 32 1),  -- GRID_MERGE_WINDOW
  .mk 0x3000 1 3 1 2 2 0xD0 1 true false 0 0x0000 0 (leB 2 0xFA0) (.span 500 20000 1),  -- GRID_AGE_PROMOTE
  .mk 0x3000 1 4 1 3 4 0xD0 1 true false 0 0x0000 0 (leB 4 0x258) (.span 60 86400 1),  -- BUF_SCRUB_PERIOD
  .mk 0x3000 1 5 1 4 8 0x50 0 false false 0 0x0000 0 (leB 8 0x0) (.all),  -- BUF_CE_COUNT
  .mk 0x3000 1 6 1 4 8 0x50 0 false false 0 0x0000 0 (leB 8 0x0) (.all),  -- BUF_UE_COUNT
  .mk 0x3000 1 7 1 2 2 0xD0 1 true false 0 0x0000 0 (leB 2 0x40) (.span 4 65535 1),  -- BUF_CE_RETIRE_LIMIT
  .mk 0x3000 1 8 1 4 8 0x50 0 false false 0 0x0000 0 (leB 8 0x0) (.all),  -- GRID_XLATE_FAULTS
  .mk 0x3000 1 9 1 3 4 0x50 0 false false 0 0x0000 0 (leB 4 0x0) (.span 0 8388608 1),  -- BUF_POISON_LINES
  .mk 0x3100 1 1 1 11 4608 0xA0 4 false false 0 0x0000 0 ([]) (.len 18 4608 18),  -- SEGMAP_WRITE
  .mk 0x3100 1 2 1 11 4 0xA0 4 false false 0 0x0000 0 ([]) (.len 4 4 0),  -- SEGMAP_READ
  .mk 0x3100 1 3 1 3 4 0x50 0 false false 0 0x0000 0 (leB 4 0x0) (.span 0 65536 1),  -- SEGMAP_VALID
  .mk 0x3100 1 4 1 3 4 0xF0 1 true false 0 0x0000 0 (leB 4 0x64) (.span 1 10000 1),  -- SEGMAP_DRAIN_TIMEOUT
  .mk 0x3100 1 5 1 4 8 0x50 0 false false 0 0x0000 0 (leB 8 0x0) (.all),  -- TCACHE_MISSES
  .mk 0x3100 1 6 1 2 2 0xA0 4 false false 0 0x0000 0 (leB 2 0x0) (.span 1 4095 1),  -- SEGMAP_CLEAR_CONTEXT
  .mk 0x3400 1 1 1 3 4 0xD0 1 true false 0 0x0000 0 (leB 4 0xA8C0) (.span 3600 604800 1),  -- STACK_SCRUB_PERIOD
  .mk 0x3400 1 2 1 2 2 0xD0 1 true false 0 0x0000 0 (leB 2 0x8) (.span 2 1024 1),  -- STACK_ROW_CE_LIMIT
  .mk 0x3400 1 3 1 6 1 0xD0 1 true false 0 0x0000 0 ([1]) (.span 0 1 1),  -- STACK_ROW_SPARING
  .mk 0x3400 1 4 1 2 2 0xD0 1 true false 0 0x0000 0 (leB 2 0x7D0) (.span 200 20000 1),  -- STACK_AGE_LIMIT
  .mk 0x3400 1 5 1 7 1 0xD0 2 true false 0 0x0340 0 ([1]) (.listed [1, 2, 4]),  -- STACK_REFRESH_MIN
  .mk 0x3400 1 6 1 7 1 0xD0 2 true false 0 0x0340 0 ([4]) (.listed [1, 2, 4]),  -- STACK_REFRESH_MAX
  .mk 0x3400 1 8 1 1 1 0xD0 1 true false 0 0x0000 0 ([10]) (.span 1 50 1),  -- STACK_REKEY_SHARE
  .mk 0x3400 1 9 1 1 1 0xD0 1 true false 0 0x0000 0 ([50]) (.span 10 90 1),  -- STACK_REMAP_SHARE
  .mk 0x3400 1 10 1 2 2 0xD0 3 true false 0 0x0000 0 (leB 2 0x78) (.span 60 300 1),  -- STACK_EYE_FLOOR
  .mk 0x3410 6 1 1 9 4 0x50 0 false false 0 0x0000 0 (leB 4 0x0) (.span (-8388608) 8388608 1),  -- STACK_TEMP_MAX
  .mk 0x3410 6 2 1 1 1 0x54 0 false false 0 0x0000 0 ([100]) (.span 0 100 1),  -- STACK_CAP_NOW
  .mk 0x3410 6 3 1 7 1 0x50 0 false false 0 0x0000 0 ([1]) (.listed [1, 2, 4, 8]),  -- STACK_REFRESH_NOW
  .mk 0x3410 6 4 1 4 8 0x50 0 false false 0 0x0000 0 (leB 8 0x0) (.all),  -- STACK_CE_COUNT
  .mk 0x3410 6 5 1 4 8 0x50 0 false false 0 0x0000 0 (leB 8 0x0) (.all),  -- STACK_UE_COUNT
  .mk 0x3410 6 6 1 3 4 0x50 0 false false 0 0x0000 0 (leB 4 0x0) (.span 0 65536 1),  -- STACK_ROWS_SPARED
  .mk 0x3410 6 7 1 2 2 0x50 0 false false 0 0x0000 0 (leB 2 0x0) (.span 0 4096 1),  -- STACK_PAGES_RETIRED
  .mk 0x3410 6 8 1 3 4 0x50 0 false false 0 0x0000 0 (leB 4 0x0) (.all),  -- STACK_PAGES_LOST
  .mk 0x3410 6 9 1 1 1 0x54 0 false false 0 0x0000 0 ([32]) (.span 0 32 1),  -- STACK_CHANNELS_UP
  .mk 0x3410 6 10 1 1 1 0x50 0 false false 0 0x0000 0 ([2]) (.span 0 2 1),  -- STACK_SPARES_LEFT
  .mk 0x3410 6 11 1 3 4 0x50 0 false false 0 0x0000 0 (leB 4 0x0) (.all)  -- STACK_POISON_SECTORS
  ]

/-- Rows 161 to 200 of the entry tables. -/
def entryRows5 : List EntryRow := [
  .mk 0x3420 1 1 1 1 1 0xD0 2 true false 0 0x0342 0 ([50]) (.span 30 75 1),  -- STACK_THROTTLE_CAP
  .mk 0x3420 1 2 1 1 1 0xD0 2 true false 0 0x0342 0 ([25]) (.span 10 50 1),  -- STACK_THROTTLE_CAP2
  .mk 0x3430 1 1 1 11 1 0xA0 4 false false 0 0x0000 0 ([]) (.len 1 1 0),  -- STACK_RETIRE_LIST
  .mk 0x3450 1 1 1 11 2 0xA0 4 false false 0 0x0000 0 ([]) (.len 2 2 0),  -- REKEY_QUERY
  .mk 0x3450 1 2 1 7 1 0x04 0 false false 0 0x0000 0 ([0]) (.listed [0, 1, 2]),  -- REKEY_MY_STATE
  .mk 0x3460 1 1 1 8 1 0xD0 3 false false 0 0x0000 0 ([0]) (.bits 0x3F),  -- STACK_RETIRE_CLEAR
  .mk 0x3800 1 1 1 6 1 0xD0 1 true false 0 0x0000 0 ([1]) (.span 0 1 1),  -- REG_ENABLE
  .mk 0x3800 1 2 1 1 1 0xD0 1 true false 0 0x0000 0 ([4]) (.span 1 64 1),  -- REG_MISS_WINDOWS
  .mk 0x3800 1 3 1 3 4 0xD0 1 true false 0 0x0000 0 (leB 4 0x3E8) (.span 100 1000000 1),  -- REG_MISS_HOLDOFF
  .mk 0x3810 1 1 1 3 4 0xD0 1 true false 0 0x0380 0 (leB 4 0x1F40000) (.span 1000000 32768000 1),  -- REG_CAPACITY
  .mk 0x3811 1 1 1 3 4 0xD0 1 true false 0 0x0381 0 (leB 4 0xAC8000) (.span 1000000 12288000 1),  -- REG_CAPACITY
  .mk 0x3812 1 1 1 3 4 0xD0 1 true false 0 0x0382 0 (leB 4 0x1F40000) (.span 1000000 32768000 1),  -- REG_CAPACITY
  .mk 0x3813 1 1 1 3 4 0xD0 1 true false 0 0x0383 0 (leB 4 0xAC8000) (.span 1000000 12288000 1),  -- REG_CAPACITY
  .mk 0x3810 1 2 1 3 4 0xD0 1 true false 0 0x0380 0 (leB 4 0x0) (.span 0 32768000 1),  -- REG_PART_MIN_P0
  .mk 0x3811 1 2 1 3 4 0xD0 1 true false 0 0x0381 0 (leB 4 0x0) (.span 0 12288000 1),  -- REG_PART_MIN_P0
  .mk 0x3812 1 2 1 3 4 0xD0 1 true false 0 0x0382 0 (leB 4 0x0) (.span 0 32768000 1),  -- REG_PART_MIN_P0
  .mk 0x3813 1 2 1 3 4 0xD0 1 true false 0 0x0383 0 (leB 4 0x0) (.span 0 12288000 1),  -- REG_PART_MIN_P0
  .mk 0x3810 1 3 1 3 4 0xD0 1 true false 0 0x0380 0 (leB 4 0x0) (.span 0 32768000 1),  -- REG_PART_MIN_P1
  .mk 0x3811 1 3 1 3 4 0xD0 1 true false 0 0x0381 0 (leB 4 0x0) (.span 0 12288000 1),  -- REG_PART_MIN_P1
  .mk 0x3812 1 3 1 3 4 0xD0 1 true false 0 0x0382 0 (leB 4 0x0) (.span 0 32768000 1),  -- REG_PART_MIN_P1
  .mk 0x3813 1 3 1 3 4 0xD0 1 true false 0 0x0383 0 (leB 4 0x0) (.span 0 12288000 1),  -- REG_PART_MIN_P1
  .mk 0x3810 1 4 1 3 4 0xD0 1 true false 0 0x0380 0 (leB 4 0x0) (.span 0 32768000 1),  -- REG_PART_MIN_P2
  .mk 0x3811 1 4 1 3 4 0xD0 1 true false 0 0x0381 0 (leB 4 0x0) (.span 0 12288000 1),  -- REG_PART_MIN_P2
  .mk 0x3812 1 4 1 3 4 0xD0 1 true false 0 0x0382 0 (leB 4 0x0) (.span 0 32768000 1),  -- REG_PART_MIN_P2
  .mk 0x3813 1 4 1 3 4 0xD0 1 true false 0 0x0383 0 (leB 4 0x0) (.span 0 12288000 1),  -- REG_PART_MIN_P2
  .mk 0x3810 1 5 1 3 4 0xD0 1 true false 0 0x0380 0 (leB 4 0x0) (.span 0 32768000 1),  -- REG_PART_MIN_P3
  .mk 0x3811 1 5 1 3 4 0xD0 1 true false 0 0x0381 0 (leB 4 0x0) (.span 0 12288000 1),  -- REG_PART_MIN_P3
  .mk 0x3812 1 5 1 3 4 0xD0 1 true false 0 0x0382 0 (leB 4 0x0) (.span 0 32768000 1),  -- REG_PART_MIN_P3
  .mk 0x3813 1 5 1 3 4 0xD0 1 true false 0 0x0383 0 (leB 4 0x0) (.span 0 12288000 1),  -- REG_PART_MIN_P3
  .mk 0x3810 1 6 1 3 4 0xD0 1 true false 0 0x0380 0 (leB 4 0x0) (.span 0 32768000 1),  -- REG_PART_MIN_POOL
  .mk 0x3811 1 6 1 3 4 0xD0 1 true false 0 0x0381 0 (leB 4 0x0) (.span 0 12288000 1),  -- REG_PART_MIN_POOL
  .mk 0x3812 1 6 1 3 4 0xD0 1 true false 0 0x0382 0 (leB 4 0x0) (.span 0 32768000 1),  -- REG_PART_MIN_POOL
  .mk 0x3813 1 6 1 3 4 0xD0 1 true false 0 0x0383 0 (leB 4 0x0) (.span 0 12288000 1),  -- REG_PART_MIN_POOL
  .mk 0x3810 4 7 1 1 1 0xD0 1 true false 0 0x0000 0 ([1]) (.span 1 255 1),  -- REG_PART_WEIGHT_P0
  .mk 0x3810 4 8 1 1 1 0xD0 1 true false 0 0x0000 0 ([1]) (.span 1 255 1),  -- REG_PART_WEIGHT_P1
  .mk 0x3810 4 9 1 1 1 0xD0 1 true false 0 0x0000 0 ([1]) (.span 1 255 1),  -- REG_PART_WEIGHT_P2
  .mk 0x3810 4 10 1 1 1 0xD0 1 true false 0 0x0000 0 ([1]) (.span 1 255 1),  -- REG_PART_WEIGHT_P3
  .mk 0x3810 4 11 1 1 1 0xD0 1 true false 0 0x0000 0 ([1]) (.span 1 255 1),  -- REG_PART_WEIGHT_POOL
  .mk 0x3820 1 1 9 3 4 0xD0 1 true false 0 0x0380 0 (leB 4 0x0) (.span 0 32768000 1),  -- REG_MIN_M0
  .mk 0x3821 1 1 9 3 4 0xD0 1 true false 0 0x0381 0 (leB 4 0x0) (.span 0 12288000 1)  -- REG_MIN_M0
  ]

/-- Rows 201 to 240 of the entry tables. -/
def entryRows6 : List EntryRow := [
  .mk 0x3822 1 1 9 3 4 0xD0 1 true false 0 0x0382 0 (leB 4 0x0) (.span 0 32768000 1),  -- REG_MIN_M0
  .mk 0x3823 1 1 9 3 4 0xD0 1 true false 0 0x0383 0 (leB 4 0x0) (.span 0 12288000 1),  -- REG_MIN_M0
  .mk 0x3830 4 1 9 1 1 0xD0 1 true false 0 0x0000 0 ([1]) (.span 1 255 1),  -- REG_WEIGHT_M0
  .mk 0x3840 6 1 1 1 1 0xD0 1 true false 0 0x0388 1 ([0]) (.span 0 255 1),  -- REG_STACKPATH_WEIGHT
  .mk 0x3840 6 2 1 1 1 0xD0 1 true false 0 0x0388 1 ([0]) (.span 0 255 1),  -- REG_GRIDSIDE_WEIGHT
  .mk 0x3850 2 1 1 4 8 0x50 0 false false 0 0x0000 0 (leB 8 0x0) (.all),  -- REG_MISS_EVENTS
  .mk 0x3850 2 2 1 4 8 0x50 0 false false 0 0x0000 0 (leB 8 0x0) (.all),  -- REG_SCALED_WINDOWS
  .mk 0x4000 1 1 1 7 1 0xD4 2 true true 0 0x0000 0 ([0]) (.listed [0, 1]),  -- SWEEP_SUBNORMALS
  .mk 0x4000 1 2 1 7 1 0xD4 2 true true 0 0x0000 0 ([0]) (.listed [0, 1]),  -- SWEEP_EMPTY_OUTPUT
  .mk 0x4000 1 3 1 3 4 0xD0 2 true false 0 0x0000 0 (leB 4 0x64) (.span 1 10000 1),  -- SWEEP_SESSION_LIMIT
  .mk 0x4000 1 4 1 8 1 0xD0 2 true false 0 0x0000 0 ([15]) (.bits 0xF),  -- SWEEP_SESSION_PARTS
  .mk 0x4000 1 5 1 3 4 0x54 0 false true 0 0x0000 0 (leB 4 0xA20001) (.all),  -- SWEEP_FN_ID
  .mk 0x4000 1 6 1 6 1 0xD0 2 true false 0 0x0000 0 ([1]) (.span 0 1 1),  -- SWEEP_SPARE_RETRY
  .mk 0x4010 6 1 1 1 1 0x54 0 false false 0 0x0000 0 ([16]) (.span 0 16 1),  -- SWEEP_ENGINES_UP
  .mk 0x4010 6 2 1 1 1 0x50 0 false false 0 0x0000 0 ([1]) (.span 0 1 1),  -- SWEEP_SPARE_LEFT
  .mk 0x4010 6 3 1 4 8 0x50 0 false false 0 0x0000 0 (leB 8 0x0) (.all),  -- SWEEP_ITEMS
  .mk 0x4010 6 4 1 4 8 0x50 0 false false 0 0x0000 0 (leB 8 0x0) (.all),  -- SWEEP_RETRIES
  .mk 0x4010 6 5 1 2 2 0x50 0 false false 0 0x0000 0 (leB 2 0x0) (.span 0 256 1),  -- SWEEP_QUEUED
  .mk 0x4010 6 6 1 11 32 0x50 0 false false 0 0x0000 0 ([]) (.len 32 32 0),  -- SWEEP_SESSION_OWNER
  .mk 0x4010 6 7 1 3 4 0x50 0 false false 0 0x0000 0 (leB 4 0x0) (.all),  -- SWEEP_SESSIONS_EXPIRED
  .mk 0x4400 1 1 1 7 1 0xD4 2 true true 0 0x0000 0 ([0]) (.listed [0, 1]),  -- ANCHOR_SUBNORMALS
  .mk 0x4400 1 2 1 7 1 0xD4 2 true true 0 0x0000 0 ([0]) (.listed [0, 1]),  -- ANCHOR_OVERFLOW
  .mk 0x4400 1 3 1 8 1 0xD4 2 true false 0 0x0000 0 ([15]) (.bits 0xF),  -- ANCHOR_UNANCHORED_PARTS
  .mk 0x4410 2 1 1 4 8 0x50 0 false false 0 0x0000 0 (leB 8 0x0) (.all),  -- ANCH_OPS
  .mk 0x4410 2 2 1 4 8 0x50 0 false false 0 0x0000 0 (leB 8 0x0) (.all),  -- UNANCH_OPS
  .mk 0x4410 2 3 1 4 8 0x50 0 false false 0 0x0000 0 (leB 8 0x0) (.all),  -- ANCH_FLAGGED_OPS
  .mk 0x4410 2 4 1 3 4 0x50 0 false false 0 0x0000 0 (leB 4 0x0) (.all),  -- LOCKS_FENCED
  .mk 0x4800 1 1 1 11 32 0xA0 4 false false 0 0x0000 0 ([]) (.len 32 32 0),  -- RING_CREATE
  .mk 0x4800 1 2 1 2 2 0xA0 4 false false 0 0x0000 0 (leB 2 0x0) (.span 0 32767 1),  -- RING_DELETE
  .mk 0x4800 1 3 1 2 2 0xA0 4 false false 0 0x0000 0 (leB 2 0x0) (.span 0 32767 1),  -- RING_REOPEN
  .mk 0x4800 1 4 1 11 2 0xA0 4 false false 0 0x0000 0 ([]) (.len 2 2 0),  -- RING_QUERY
  .mk 0x4800 1 5 1 11 2 0xA0 4 false false 0 0x0000 0 ([]) (.len 2 2 0),  -- RING_LAST_MARKS
  .mk 0x4800 1 6 1 2 2 0x50 0 false false 0 0x0000 0 (leB 2 0x0) (.span 0 32768 1),  -- RINGS_IN_USE
  .mk 0x4800 1 7 1 1 1 0xD0 1 true false 0 0x0000 0 ([8]) (.span 1 64 1),  -- RING_TAKE_BURST
  .mk 0x4800 1 8 1 4 8 0x50 0 false false 0 0x0000 0 (leB 8 0x0) (.all),  -- RING_DOORBELL_DROPS
  .mk 0x4800 1 9 1 7 1 0x50 0 false false 0 0x0000 0 ([0]) (.listed [0, 1, 2]),  -- RING_MARKS_STATE
  .mk 0x4810 1 1 1 11 16 0xA0 4 false false 0 0x0000 0 ([]) (.len 16 16 0),  -- CONTEXT_CREATE
  .mk 0x4810 1 2 1 2 2 0xA0 4 false false 0 0x0000 0 (leB 2 0x0) (.span 1 4095 1),  -- CONTEXT_DESTROY
  .mk 0x4810 1 3 1 2 2 0x50 0 false false 0 0x0000 0 (leB 2 0x1) (.span 1 4096 1),  -- CONTEXTS_IN_USE
  .mk 0x4810 1 4 1 11 2 0xA0 4 false false 0 0x0000 0 ([]) (.len 2 2 0)  -- CONTEXT_QUERY
  ]

/-- Rows 241 to 280 of the entry tables. -/
def entryRows7 : List EntryRow := [
  .mk 0x4820 1 1 1 2 2 0x04 0 false false 0 0x0000 0 (leB 2 0x0) (.span 0 4095 1),  -- MY_CONTEXT
  .mk 0x4820 1 2 1 3 4 0x04 0 false false 0 0x0000 0 (leB 4 0x0) (.all),  -- MY_EVENTS_LOST
  .mk 0x4820 1 3 1 8 2 0x0C 1 false false 0 0x0000 0 (leB 2 0x0) (.bits 0xFFE),  -- MY_EVENT_CLASSES
  .mk 0x5000 1 1 1 2 2 0xD4 3 false false 0 0x0500 0 (leB 2 0xFFFF) (.spanOr 0 16383 0xFFFF),  -- STATION_ADDR
  .mk 0x5000 1 2 1 1 1 0xD4 3 false false 0 0x0500 0 ([1]) (.span 1 32 1),  -- TORUS_X
  .mk 0x5000 1 3 1 1 1 0xD4 3 false false 0 0x0500 0 ([1]) (.span 1 32 1),  -- TORUS_Y
  .mk 0x5000 1 4 1 1 1 0xD4 3 false false 0 0x0500 0 ([1]) (.span 1 16 1),  -- TORUS_Z
  .mk 0x5000 1 5 1 8 4 0xD0 3 true false 0 0x0000 0 (leB 4 0xFFFFFF) (.bits 0xFFFFFF),  -- PORTS_ENABLED
  .mk 0x5000 1 6 1 8 4 0xD0 3 false false 0 0x0000 0 (leB 4 0x0) (.bits 0xFFFFFF),  -- LINK_WIDTH_RESET
  .mk 0x5000 1 7 1 1 1 0xD0 1 true false 0 0x0000 0 ([5]) (.span 4 8 1),  -- LINK_LANE_BER_LIMIT
  .mk 0x5000 1 8 1 3 4 0xD0 1 true false 0 0x0000 0 (leB 4 0x3E8) (.span 100 60000 1),  -- LINK_RETRY_PERIOD
  .mk 0x5000 1 9 1 3 4 0xD0 1 true false 0 0x0000 0 (leB 4 0x7D0) (.span 100 30000 1),  -- LINK_TRAIN_TIMEOUT
  .mk 0x5000 1 10 1 1 1 0x80 4 false false 0 0x0000 0 ([0]) (.span 0 23 1),  -- LINK_RETRAIN
  .mk 0x5000 1 11 1 11 192 0x54 0 false false 0 0x0000 0 ([]) (.len 192 192 0),  -- PORT_MAP
  .mk 0x5001 1 1 24 7 1 0xD0 1 true false 0 0x0000 0 ([1]) (.listed [1, 2, 4, 8]),  -- LINK_MIN_WIDTH_L00
  .mk 0x5002 1 1 24 7 1 0xD0 3 false false 2 0x0000 0 ([0]) (.listed [0, 1]),  -- LINK_PROTECT_L00
  .mk 0x5010 24 1 1 7 1 0x54 0 false false 0 0x0000 0 ([0]) (.listed [0, 1, 2, 3, 4, 5, 6]),  -- LINK_STATE
  .mk 0x5010 24 2 1 7 1 0x50 0 false false 0 0x0000 0 ([0]) (.listed [0, 1, 2, 3, 4, 5, 6, 7, 8, 9, 10, 11, 12, 13, 14]),  -- LINK_DOWN_CAUSE
  .mk 0x5010 24 3 1 1 1 0x54 0 false false 0 0x0000 0 ([0]) (.listed [0, 1, 2, 4, 8]),  -- LINK_WIDTH
  .mk 0x5010 24 4 1 11 8 0x50 0 false false 0 0x0000 0 ([]) (.len 8 8 0),  -- LINK_LANE_MAP
  .mk 0x5010 24 5 1 6 1 0x50 0 false false 0 0x0000 0 ([0]) (.span 0 1 1),  -- LINK_SPARE_USED
  .mk 0x5010 24 6 1 4 8 0x50 0 false false 0 0x0000 0 (leB 8 0x0) (.all),  -- LINK_PREFEC_ERRS
  .mk 0x5010 24 7 1 4 8 0x50 0 false false 0 0x0000 0 (leB 8 0x0) (.all),  -- LINK_POSTFEC_ERRS
  .mk 0x5010 24 8 1 4 8 0x50 0 false false 0 0x0000 0 (leB 8 0x0) (.all),  -- LINK_REPLAYS
  .mk 0x5010 24 9 1 7 1 0x54 0 false false 0 0x0000 0 ([0]) (.listed [0, 1, 2]),  -- LINK_NEIGHBOUR_THROTTLE
  .mk 0x5010 24 10 1 4 8 0x40 0 false false 0 0x0000 0 (leB 8 0x0) (.all),  -- LINK_CHAINAGE
  .mk 0x5010 24 11 1 3 4 0x50 0 false false 0 0x0000 0 (leB 4 0x0) (.all),  -- LINK_SB_DISCARDS
  .mk 0x5400 1 1 1 3 4 0xD4 2 true false 0 0x0540 0 (leB 4 0x32) (.span 1 2000 1),  -- TRAV_PATIENCE
  .mk 0x5400 1 2 1 3 4 0xD4 2 true false 0 0x0540 0 (leB 4 0x7D0) (.span 1 2000 1),  -- TRAV_PATIENCE_MAX
  .mk 0x5400 1 3 1 3 4 0xD0 1 true false 0 0x0000 0 (leB 4 0x32) (.span 1 2000 1),  -- TRAV_HOLD_LIMIT
  .mk 0x5400 1 4 1 1 1 0x50 0 false false 0 0x0000 0 ([0]) (.span 0 32 1),  -- TRAV_LIVE
  .mk 0x5400 1 5 1 4 8 0x50 0 false false 0 0x0000 0 (leB 8 0x0) (.all),  -- TRAV_ITEMS
  .mk 0x5400 1 6 1 4 8 0x50 0 false false 0 0x0000 0 (leB 8 0x0) (.all),  -- TRAV_FAILS
  .mk 0x5400 1 7 1 4 8 0x50 0 false false 0 0x0000 0 (leB 8 0x0) (.all),  -- TRAV_FAIL_NOTICES
  .mk 0x5400 1 8 1 4 8 0x50 0 false false 0 0x0000 0 (leB 8 0x0) (.all),  -- TRAV_HELD_DISCARDS
  .mk 0x5400 1 9 1 4 8 0x50 0 false false 0 0x0000 0 (leB 8 0x0) (.all),  -- TRAV_EXTENDED
  .mk 0x5410 1 1 1 1 1 0xD0 3 false false 0 0x0000 0 ([255]) (.spanOr 0 127 0xFF),  -- GROUP_MEMBER
  .mk 0x5410 1 2 1 11 128 0xD0 3 false false 0 0x0000 0 (List.replicate 128 255) (.len 128 128 0),  -- GROUP_FWD
  .mk 0x5410 1 3 1 8 4 0xD0 3 false false 0 0x0000 0 (leB 4 0x0) (.bits 0xFFFFFF),  -- GROUP_BCAST_PORTS
  .mk 0x5410 1 4 1 11 48 0xA0 4 false false 0 0x0000 0 ([]) (.len 48 48 0)  -- FW_BCAST
  ]

/-- Rows 281 to 320 of the entry tables. -/
def entryRows8 : List EntryRow := [
  .mk 0x5410 1 5 1 4 8 0x50 0 false false 0 0x0000 0 (leB 8 0x0) (.all),  -- GROUP_VC2_DISCARDS
  .mk 0x5800 1 1 1 7 1 0xD0 3 true false 0 0x0000 0 ([4]) (.listed [1, 2, 4]),  -- SITE_RATE_MAX
  .mk 0x5800 1 2 1 1 1 0xD0 3 true false 0 0x0000 0 ([8]) (.span 1 16 1),  -- SITE_MIN_MODULES
  .mk 0x5800 1 3 1 3 4 0xD0 1 true false 0 0x0000 0 (leB 4 0x2710) (.span 1 3600000 1),  -- SITE_WORK_TIMEOUT
  .mk 0x5800 1 4 1 3 4 0xD0 1 true false 0 0x0000 0 (leB 4 0x64) (.span 10 10000 1),  -- SITE_HELLO_TIMEOUT
  .mk 0x5800 1 5 1 2 2 0xD0 1 true false 0 0x0000 0 (leB 2 0x10) (.span 1 1024 1),  -- SITE_PROTO_ERR_LIMIT
  .mk 0x5800 1 7 1 6 1 0xD0 1 true false 0 0x0000 0 ([1]) (.span 0 1 1),  -- SITE_READMIT
  .mk 0x5810 4 1 1 7 1 0x54 0 false false 0 0x0000 0 ([0]) (.listed [0, 1, 2, 3, 4, 5, 6, 7]),  -- SITE_STATE
  .mk 0x5810 4 2 1 7 1 0x50 0 false false 0 0x0000 0 ([0]) (.listed [0, 1, 2, 3, 4, 5, 6, 7, 8, 9, 10, 11, 12, 13]),  -- SITE_FENCE_CAUSE
  .mk 0x5810 4 3 1 8 2 0x54 0 false false 0 0x0000 0 (leB 2 0x0) (.bits 0xFFFF),  -- SITE_MODULES_UP
  .mk 0x5810 4 4 1 1 1 0x54 0 false false 0 0x0000 0 ([0]) (.listed [0, 1, 2, 4]),  -- SITE_RATE
  .mk 0x5810 4 5 1 2 2 0xD0 2 true false 0 0x0580 1 (leB 2 0x226) (.span 550 950 1),  -- SITE_VCORE_MIN
  .mk 0x5810 4 6 1 2 2 0xD0 2 true false 0 0x0580 1 (leB 2 0x3B6) (.span 550 950 1),  -- SITE_VCORE_MAX
  .mk 0x5810 4 7 1 2 2 0x50 0 false false 0 0x0000 0 (leB 2 0x0) (.span 0 950 1),  -- SITE_VCORE_NOW
  .mk 0x5810 4 8 1 11 30 0x50 0 false false 0 0x0000 0 ([]) (.len 30 30 0),  -- SITE_TILE_ID
  .mk 0x5810 4 9 1 1 1 0xA0 4 false false 0 0x0000 0 ([0]) (.span 1 1 1),  -- SITE_FENCE
  .mk 0x5810 4 10 1 1 1 0xA0 4 false false 0 0x0000 0 ([0]) (.span 1 1 1),  -- SITE_READMIT_NOW
  .mk 0x5810 4 11 1 4 8 0x50 0 false false 0 0x0000 0 (leB 8 0x0) (.all),  -- SITE_PROTO_ERRS
  .mk 0x5810 4 12 1 4 8 0x50 0 false false 0 0x0000 0 (leB 8 0x0) (.all),  -- SITE_REPLAYS
  .mk 0x5810 4 13 1 3 4 0x50 0 false false 0 0x0000 0 (leB 4 0x0) (.all),  -- SITE_LN_OVERLONG
  .mk 0x6000 1 1 1 2 2 0xD0 1 true false 0 0x0000 0 (leB 2 0xC80) (.span 800 3200 100),  -- HOST_CLOCK_MAX
  .mk 0x6000 1 2 1 1 1 0xD0 2 true false 0 0x0000 0 ([0]) (.span 0 31 1),  -- HOST_NAP_CORE
  .mk 0x6000 1 3 1 3 4 0xD0 1 true false 0 0x0000 0 (leB 4 0x3E8) (.span 1 3600000 1),  -- HOST_WORK_TIMEOUT
  .mk 0x6010 32 1 1 7 1 0x50 0 false false 0 0x0000 0 ([0]) (.listed [0, 1, 2, 3, 4]),  -- HOST_CORE_STATE
  .mk 0x6010 32 2 1 11 12 0xA0 4 false false 0 0x0000 0 ([]) (.len 12 12 0),  -- HOST_CORE_START
  .mk 0x6010 32 3 1 1 1 0xA0 4 false false 0 0x0000 0 ([0]) (.span 1 1 1),  -- HOST_CORE_STOP
  .mk 0x6010 32 4 1 1 1 0xA0 4 false false 0 0x0000 0 ([0]) (.span 1 1 1),  -- HOST_CORE_FENCE
  .mk 0x6010 32 5 1 2 2 0x50 0 false false 0 0x0000 0 (leB 2 0x0) (.span 0 4095 1),  -- HOST_CORE_BOUND
  .mk 0x6010 32 6 1 7 1 0x50 0 false false 0 0x0000 0 ([0]) (.listed [0, 2, 3, 4, 5, 6, 7]),  -- HOST_FENCE_CAUSE
  .mk 0x6010 32 7 1 4 8 0x50 0 false false 0 0x0000 0 (leB 8 0x0) (.all),  -- HOST_CACHE_CE
  .mk 0x6010 32 8 1 3 4 0x50 0 false false 0 0x0000 0 (leB 4 0x0) (.all),  -- HOST_WORK_DROPS
  .mk 0x6400 1 1 1 8 1 0x50 0 false false 0 0x0000 0 ([0]) (.bits 0x3),  -- HP_ROLE_STRAPS
  .mk 0x6410 2 1 1 7 1 0x54 0 false false 0 0x0000 0 ([0]) (.listed [0, 1, 2]),  -- HP_ROLE
  .mk 0x6410 2 2 1 7 1 0x50 0 false false 0 0x0000 0 ([0]) (.listed [0, 1, 2]),  -- HP_LINK_STATE
  .mk 0x6410 2 3 1 1 1 0x50 0 false false 0 0x0000 0 ([0]) (.listed [0, 1, 2, 4, 8, 16]),  -- HP_LINK_WIDTH
  .mk 0x6410 2 4 1 7 1 0x50 0 false false 0 0x0000 0 ([0]) (.listed [0, 1, 2, 3, 4, 5, 6]),  -- HP_LINK_RATE
  .mk 0x6410 2 5 1 6 1 0x50 0 false false 0 0x0000 0 ([0]) (.span 0 1 1),  -- HP_FLIT
  .mk 0x6410 2 6 1 1 1 0xA0 4 false false 0 0x0000 0 ([0]) (.span 1 1 1),  -- HP_FENCE
  .mk 0x6410 2 7 1 7 1 0x50 0 false false 0 0x0000 0 ([0]) (.listed [0, 2, 4, 5, 6, 7, 8]),  -- HP_FENCE_CAUSE
  .mk 0x6410 2 8 1 1 1 0x50 0 false false 0 0x0000 0 ([0]) (.span 0 4 1)  -- HP_SPDM_SESSIONS
  ]

/-- Rows 321 to 360 of the entry tables. -/
def entryRows9 : List EntryRow := [
  .mk 0x6410 2 9 1 4 8 0x50 0 false false 0 0x0000 0 (leB 8 0x0) (.all),  -- HP_XFER_AUTH_FAILS
  .mk 0x6410 2 10 1 3 4 0x50 0 false false 0 0x0000 0 (leB 4 0x0) (.all),  -- HP_NOTICE_DROPS
  .mk 0x6420 2 1 1 7 1 0x54 0 false false 0 0x0000 0 ([0]) (.listed [0, 1, 2, 3, 4]),  -- FAR_STATE
  .mk 0x6420 2 2 1 4 8 0x54 0 false false 0 0x0000 0 (leB 8 0x0) (.span 0 2199023255552 1),  -- FAR_CAPACITY
  .mk 0x6420 2 3 1 11 16 0x50 0 false false 0 0x0000 0 ([]) (.len 16 16 0),  -- FAR_DEVICE
  .mk 0x6420 2 4 1 11 16 0x80 4 false false 0 0x0000 0 ([]) (.len 16 16 0),  -- FAR_TEST
  .mk 0x6420 2 5 1 4 8 0x50 0 false false 0 0x0000 0 (leB 8 0x0) (.all),  -- FAR_POISON_READS
  .mk 0x6430 2 1 4 11 16 0xD0 2 true false 0 0x0640 1 (List.replicate 16 0) (.len 16 16 0),  -- FAR_RANGE_P0
  .mk 0x7000 1 1 1 7 1 0x51 0 false false 0 0x0000 0 ([0]) (.listed [1, 2, 3]),  -- LIFECYCLE
  .mk 0x7000 1 2 1 1 1 0x51 0 false false 0 0x0000 0 ([0]) (.span 0 64 1),  -- SVN_FUSED
  .mk 0x7000 1 3 1 1 1 0x80 4 false false 0 0x0000 0 ([0]) (.span 1 1 1),  -- SEC_VERSION_ADVANCE
  .mk 0x7000 1 4 1 3 4 0x55 0 false false 0 0x0000 0 (leB 4 0x1) (.all),  -- MEAS_GEN
  .mk 0x7010 4 1 1 8 1 0xD0 2 false false 0 0x0700 0 ([0]) (.bits 0xF),  -- PLAT_SITES
  .mk 0x7010 4 2 1 8 1 0xD0 2 false false 0 0x0700 0 ([0]) (.bits 0x3F),  -- PLAT_STACKS
  .mk 0x7010 4 3 1 8 8 0xD0 2 false false 0 0x0700 0 (leB 8 0x0) (.bits 0xFFFFFFFFFFFFFFFF),  -- PLAT_SLICES_F0
  .mk 0x7010 4 4 1 8 8 0xD0 2 false false 0 0x0700 0 (leB 8 0x0) (.bits 0xFFFFFFFFFFFFFFFF),  -- PLAT_SLICES
  .mk 0x7010 4 5 1 8 4 0xD0 2 false false 0 0x0700 0 (leB 4 0x0) (.bits 0xFFFFFF),  -- PLAT_PORTS
  .mk 0x7010 4 6 1 8 4 0xD0 2 false false 0 0x0700 0 (leB 4 0x0) (.bits 0xFFFFFFFF),  -- PLAT_CORES
  .mk 0x7010 4 7 1 11 8 0xD0 2 false false 0 0x0700 0 ([]) (.len 8 8 0),  -- PLAT_RINGS
  .mk 0x7010 4 8 1 8 1 0xD0 2 false false 0 0x0700 0 ([0]) (.bits 0x3),  -- PLAT_HOST_PORTS
  .mk 0x7010 4 9 1 7 1 0xD0 2 false false 0 0x0700 0 ([1]) (.listed [0, 1, 2]),  -- PLAT_TILE_POLICY
  .mk 0x7018 1 1 1 11 768 0xD0 2 false false 0 0x0000 0 ([]) (.len 0 768 48),  -- TILE_ALLOW
  .mk 0x7018 1 2 1 3 4 0xD0 1 false false 0 0x0000 0 (leB 4 0xE10) (.spanOr 60 86400 0),  -- TILE_RECHECK_PERIOD
  .mk 0x7020 1 1 1 11 32 0xA0 4 false false 0 0x0000 0 ([]) (.len 32 32 0),  -- ATTEST_REPORT
  .mk 0x7020 1 2 1 11 4096 0x54 0 false false 0 0x0000 0 ([]) (.len 0 4096 1),  -- ATTEST_CHAIN
  .mk 0x7030 1 1 1 11 48 0xD0 2 false false 0 0x0000 0 (List.replicate 48 0) (.len 48 48 0),  -- BROKER_ROOT_DIGEST
  .mk 0x7030 1 2 1 11 36 0xA0 4 false false 0 0x0000 0 ([]) (.len 36 36 0),  -- KEY_REQUEST
  .mk 0x7030 1 3 1 11 4368 0xA0 4 false false 0 0x0000 0 ([]) (.len 273 4368 1),  -- KEY_INSTALL
  .mk 0x7030 1 4 1 3 4 0xD0 1 false false 0 0x0000 0 (leB 4 0xEA60) (.span 1000 600000 1),  -- KEY_REQUEST_TTL
  .mk 0x7030 1 5 1 1 1 0x50 0 false false 0 0x0000 0 ([0]) (.span 0 64 1),  -- KEY_REQUESTS_OPEN
  .mk 0x7030 1 6 1 3 4 0x50 0 false false 0 0x0000 0 (leB 4 0x0) (.all),  -- KEY_RELEASE_FAILS
  .mk 0x7040 1 1 1 2 2 0x50 0 false false 0 0x0000 0 (leB 2 0x0) (.span 0 4095 1),  -- CONF_CONTEXTS
  .mk 0x7040 1 2 1 8 1 0xD0 1 false false 0 0x0000 0 ([7]) (.bits 0x7),  -- DEBUG_PORTS
  .mk 0x7040 1 3 1 11 1 0x80 4 false false 0 0x0000 0 ([]) (.len 1 1 0),  -- DEBUG_CHALLENGE
  .mk 0x7040 1 4 1 11 4096 0x80 4 false false 0 0x0000 0 ([]) (.len 200 4096 1),  -- DEBUG_UNLOCK
  .mk 0x7040 1 5 1 8 4 0xD0 2 false false 0 0x0000 0 (leB 4 0x0) (.bits 0xFFFFFF),  -- CONF_TRUSTED_PORTS
  .mk 0x7050 1 1 1 2 2 0xA0 4 false false 0 0x0000 0 (leB 2 0x0) (.span 1 4095 1),  -- KEY_ROTATE
  .mk 0x7050 1 2 1 2 2 0xA0 4 false false 0 0x0000 0 (leB 2 0x0) (.span 1 4095 1),  -- KEY_ERASE
  .mk 0x7050 1 3 1 11 2 0xA0 4 false false 0 0x0000 0 ([]) (.len 2 2 0),  -- KEY_QUERY
  .mk 0x7060 1 1 1 11 3 0xA0 4 false false 4 0x0000 0 ([]) (.len 3 3 0)  -- LEASE_UNSEAL
  ]

/-- Rows 361 to 400 of the entry tables. -/
def entryRows10 : List EntryRow := [
  .mk 0x7060 1 2 1 11 3 0x80 4 false false 0 0x0000 0 ([]) (.len 3 3 0),  -- LEASE_REVOKE
  .mk 0x7060 1 3 1 1 1 0x50 0 false false 0 0x0000 0 ([0]) (.span 0 64 1),  -- LEASES
  .mk 0x7060 1 4 1 11 1 0xA0 4 false false 0 0x0000 0 ([]) (.len 1 1 0),  -- LEASE_LIST
  .mk 0x7060 1 5 1 4 8 0x54 0 false false 0 0x0000 0 (leB 8 0x0) (.all),  -- ISLAND_SECONDS
  .mk 0x7060 1 6 1 3 4 0x50 0 false false 0 0x0000 0 (leB 4 0x0) (.all),  -- LEASE_FAILS
  .mk 0x7800 1 1 1 8 1 0xD0 3 false false 0 0x0000 0 ([3]) (.bits 0x3),  -- MGMT_ENABLE
  .mk 0x7800 1 2 1 7 1 0xD0 3 false false 0 0x0000 0 ([0]) (.listed [0, 1, 2]),  -- MGMT_ADDR_MODE
  .mk 0x7800 1 3 1 11 24 0xD0 3 false false 0 0x0000 0 (List.replicate 24 0) (.len 24 24 0),  -- MGMT_IPV4
  .mk 0x7800 1 4 1 11 192 0xF0 2 false false 0 0x0000 0 ([]) (.len 0 192 48),  -- MGMT_CLIENT_ROOTS
  .mk 0x7800 1 5 1 11 1536 0xD0 2 false false 0 0x0000 0 ([]) (.len 0 1536 48),  -- MGMT_CLIENT_DENY
  .mk 0x7800 1 6 1 1 1 0x50 0 false false 0 0x0000 0 ([0]) (.span 0 8 1),  -- MGMT_SESSIONS
  .mk 0x7800 1 7 1 3 4 0x50 0 false false 0 0x0000 0 (leB 4 0x0) (.all),  -- MGMT_AUTH_FAILS
  .mk 0x2000 1 1 1 1 1 0x50 0 false false 0 0x0000 0 ([0]) (.listed [1, 4, 16, 64]),  -- REFSET_DELAY
  .mk 0x2000 1 2 1 7 1 0x54 0 false false 0 0x0000 0 ([0]) (.listed [0, 1, 2, 3]),  -- CLOCK_STATE
  .mk 0x2000 1 3 1 3 4 0x50 0 false false 0 0x0000 0 (leB 4 0x0) (.all),  -- CLOCK_LOSSES
  .mk 0x2000 1 4 1 3 4 0xD0 3 true false 0 0x0000 0 (leB 4 0x7D0) (.span 500 20000 1),  -- PLL_LOCK_TIMEOUT
  .mk 0x2000 1 5 1 6 1 0xD0 1 true false 0 0x0000 0 ([1]) (.span 0 1 1),  -- CLK_GATE_ENABLE
  .mk 0x2000 1 6 1 2 2 0x50 0 false false 0 0x0000 0 (leB 2 0x7D0) (.listed [400, 2000]),  -- GCLK_NOW
  .mk 0x2000 1 7 1 4 8 0x50 0 false false 0 0x0000 0 (leB 8 0x0) (.all),  -- CLOCK_LOSS_LAST
  .mk 0x2010 2 1 1 8 4 0x50 0 false false 0 0x0000 0 (leB 4 0x0) (.bits 0x3FFFFF),  -- PLL_LOCKED
  .mk 0x2010 2 2 1 3 4 0x50 0 false false 0 0x0000 0 (leB 4 0x0) (.all),  -- PLL_UNLOCKS
  .mk 0x2010 2 3 1 4 8 0x50 0 false false 0 0x0000 0 (leB 8 0x0) (.all),  -- DOMAIN_SWITCHES
  .mk 0x2100 1 1 1 7 1 0xD0 1 true false 0 0x0000 0 ([2]) (.listed [0, 1, 2, 3]),  -- PWR_DEEPEST
  .mk 0x2100 1 2 1 3 4 0xD0 2 true false 0 0x0210 0 (leB 4 0x14) (.span 5 10000 1),  -- PWR_IDLE_DOZE
  .mk 0x2100 1 3 1 3 4 0xD0 2 true false 0 0x0210 0 (leB 4 0x2710) (.span 100 10000000 1),  -- PWR_IDLE_NAP
  .mk 0x2100 1 4 1 3 4 0xD0 2 true false 0 0x0210 0 (leB 4 0xEA60) (.span 1000 86400000 1),  -- PWR_IDLE_DORMANT
  .mk 0x2100 1 5 1 7 1 0x54 0 false false 0 0x0000 0 ([0]) (.listed [0, 1, 2, 3]),  -- PWR_STATE
  .mk 0x2100 1 6 1 7 1 0xA0 4 false false 0 0x0000 0 ([0]) (.listed [0, 1, 2, 3]),  -- PWR_REQUEST
  .mk 0x2100 1 7 1 3 4 0xD0 1 true false 0 0x0000 0 (leB 4 0x0) (.spanOr 1 86400000 0),  -- PWR_WAKE_TIMER
  .mk 0x2100 1 8 1 8 8 0xD0 1 true false 0 0x0000 0 (leB 8 0xFFFFFFFFFFFFFFFF) (.bits 0xFFFFFFFFFFFFFFFF),  -- PWR_RETAIN_F0
  .mk 0x2100 1 9 1 8 8 0xD0 1 true false 0 0x0000 0 (leB 8 0xFFFFFFFFFFFFFFFF) (.bits 0xFFFFFFFFFFFFFFFF),  -- PWR_RETAIN
  .mk 0x2100 1 10 1 1 1 0x80 4 false false 0 0x0000 0 ([0]) (.span 1 1 1),  -- PWR_OFF
  .mk 0x2100 1 11 1 7 1 0x50 0 false false 0 0x0000 0 ([0]) (.listed [0, 1, 2, 3, 4, 5, 6, 7, 8, 9]),  -- PWR_LAST_WAKE
  .mk 0x2100 1 12 1 11 24 0x50 0 false false 0 0x0000 0 ([]) (.len 24 24 0),  -- PWR_ENTRIES
  .mk 0x2200 1 1 1 9 4 0x50 0 false false 0 0x0000 0 (leB 4 0x0) (.span 0 196608 1),  -- PVIN_VOLTS
  .mk 0x2200 1 2 1 2 2 0x50 0 false false 0 0x0000 0 (leB 2 0x0) (.span 0 2600 1),  -- MODULE_POWER
  .mk 0x2200 1 3 1 3 4 0x50 0 false false 0 0x0000 0 (leB 4 0x0) (.all),  -- PFW_CLOSURES
  .mk 0x2200 1 4 1 3 4 0x50 0 false false 0 0x0000 0 (leB 4 0x0) (.span 0 2000 1),  -- PFW_LAST_TIME
  .mk 0x2200 1 5 1 6 1 0x50 0 false false 0 0x0000 0 ([0]) (.span 0 1 1),  -- PFW_SHORT
  .mk 0x2200 1 6 1 3 4 0xD0 1 true false 0 0x0000 0 (leB 4 0x3E8) (.span 100 1000000 1)  -- DROOP_HOLDOFF
  ]

/-- Rows 401 to 440 of the entry tables. -/
def entryRows11 : List EntryRow := [
  .mk 0x2210 2 1 1 2 2 0x50 0 false false 0 0x0000 0 (leB 2 0x0) (.span 0 300 1),  -- FLOOR_POWER
  .mk 0x2210 2 2 1 3 4 0x50 0 false false 0 0x0000 0 (leB 4 0x0) (.all),  -- FLOOR_RAIL_LIMITS
  .mk 0x2220 4 1 1 2 2 0xD0 1 true false 0 0x0000 0 (leB 2 0x17C) (.span 100 380 1),  -- SITE_POWER_LIMIT
  .mk 0x2220 4 2 1 2 2 0x50 0 false false 0 0x0000 0 (leB 2 0x0) (.span 0 550 1),  -- SITE_POWER_NOW
  .mk 0x2220 4 3 1 2 2 0x50 0 false false 0 0x0000 0 (leB 2 0x3B6) (.span 550 950 1),  -- SITE_VCORE_CEILING
  .mk 0x2220 4 4 1 3 4 0x50 0 false false 0 0x0000 0 (leB 4 0x0) (.all),  -- SITE_DROOP_EVENTS
  .mk 0x2220 4 5 1 3 4 0x50 0 false false 0 0x0000 0 (leB 4 0x0) (.all),  -- SITE_ILIM_EVENTS
  .mk 0x2220 4 6 1 4 8 0x50 0 false false 0 0x0000 0 (leB 8 0x0) (.all),  -- SITE_LN_COUNT
  .mk 0x2800 1 1 1 1 1 0xD0 2 true false 0 0x0280 0 ([100]) (.span 70 112 1),  -- THERM_FLOOR_WARN
  .mk 0x2800 1 2 1 1 1 0xD0 2 true false 0 0x0280 0 ([108]) (.span 80 114 1),  -- THERM_FLOOR_THROTTLE
  .mk 0x2800 1 3 1 1 1 0xD0 2 true false 0 0x0280 0 ([4]) (.span 2 8 1),  -- THERM_FLOOR_STEP2_DELTA
  .mk 0x2800 1 4 1 1 1 0xD0 2 true false 0 0x0280 0 ([118]) (.span 100 118 1),  -- THERM_FLOOR_SHUTDOWN
  .mk 0x2800 1 5 1 1 1 0xD0 2 true false 0 0x0281 0 ([88]) (.span 60 100 1),  -- THERM_STACK_WARN
  .mk 0x2800 1 6 1 1 1 0xD0 2 true false 0 0x0281 0 ([95]) (.span 70 102 1),  -- THERM_STACK_THROTTLE
  .mk 0x2800 1 7 1 1 1 0xD0 2 true false 0 0x0281 0 ([4]) (.span 2 8 1),  -- THERM_STACK_STEP2_DELTA
  .mk 0x2800 1 8 1 1 1 0xD0 2 true false 0 0x0281 0 ([105]) (.span 85 105 1),  -- THERM_STACK_SHUTDOWN
  .mk 0x2800 1 9 1 1 1 0xD0 1 true false 0 0x0000 0 ([6]) (.span 2 12 1),  -- THERM_FAST_BAND
  .mk 0x2800 1 10 1 1 1 0x80 4 false false 0 0x0000 0 ([0]) (.span 1 1 1),  -- THERM_RECAL_NOW
  .mk 0x2810 2 1 1 9 4 0x54 0 false false 0 0x0000 0 (leB 4 0x0) (.span (-2621440) 9830400 1),  -- FLOOR_TEMP_MAX
  .mk 0x2810 2 2 1 7 1 0x54 0 false false 0 0x0000 0 ([0]) (.listed [0, 1, 2, 3, 4]),  -- FLOOR_LEVEL
  .mk 0x2810 2 3 1 9 4 0x50 0 false false 0 0x0000 0 (leB 4 0x0) (.span (-2621440) 9830400 1),  -- BENCHMARK_TEMP
  .mk 0x2810 2 4 1 7 1 0x50 0 false false 0 0x0000 0 ([0]) (.listed [0, 1]),  -- BENCHMARK_STATE
  .mk 0x2810 2 5 1 2 2 0x50 0 false false 0 0x0000 0 (leB 2 0x108) (.span 0 264 1),  -- SENSORS_VALID
  .mk 0x2810 2 6 1 3 4 0x50 0 false false 0 0x0000 0 (leB 4 0x0) (.all),  -- THERMAL_STOPS
  .mk 0x2820 4 1 1 9 4 0x54 0 false false 0 0x0000 0 (leB 4 0x0) (.span (-2621440) 9830400 1),  -- SITE_TEMP_MAX
  .mk 0x2820 4 2 1 7 1 0x54 0 false false 0 0x0000 0 ([0]) (.listed [0, 1, 2, 3, 4]),  -- SITE_LEVEL
  .mk 0x2830 6 1 1 7 1 0x54 0 false false 0 0x0000 0 ([0]) (.listed [0, 1, 2, 3, 4]),  -- STACK_LEVEL
  .mk 0x8000 1 1 1 1 1 0x54 0 false false 0 0x0000 0 ([0]) (.span 0 21 1),  -- SURVEY_STEP
  .mk 0x8000 1 2 1 7 1 0x50 0 false false 0 0x0000 0 ([0]) (.listed [0, 1]),  -- SURVEY_PATH
  .mk 0x8000 1 3 1 3 4 0x50 0 false false 0 0x0000 0 (leB 4 0x0) (.span 1 4294967295 1),  -- SURVEY_NUMBER
  .mk 0x8000 1 4 1 6 1 0xD0 3 false false 0 0x0000 0 ([1]) (.span 0 1 1),  -- SURVEY_FAST_ENABLE
  .mk 0x8000 1 5 1 1 1 0x50 0 false false 0 0x0000 0 ([0]) (.span 0 255 1),  -- SURVEY_FAILED_STARTS
  .mk 0x8000 1 6 1 1 1 0xD0 3 false false 0 0x0000 0 ([3]) (.span 1 15 1),  -- SURVEY_FAIL_LIMIT
  .mk 0x8000 1 7 1 6 1 0xD0 3 false false 0 0x0000 0 ([1]) (.span 0 1 1),  -- SURVEY_SKIP_FAILED
  .mk 0x8000 1 8 1 11 8 0xA0 4 false false 0 0x0000 0 ([]) (.len 8 8 0),  -- SURVEY_LOG_READ
  .mk 0x8000 1 9 1 3 4 0x50 0 false false 0 0x0000 0 (leB 4 0x0) (.all),  -- SURVEY_DURATION
  .mk 0x8000 1 10 1 7 1 0x50 0 false false 0 0x0000 0 ([0]) (.listed [0, 1, 2, 3]),  -- FW_SOURCE_USED
  .mk 0x8000 1 11 1 8 1 0x50 0 false false 0 0x0000 0 ([0]) (.bits 0xF),  -- FW_SOURCES_TRIED
  .mk 0x8000 1 12 1 11 20 0xD0 3 false false 0 0x0000 0 (List.replicate 20 0) (.len 20 20 0),  -- FW_NET_SERVER
  .mk 0x8000 1 13 1 3 4 0xD0 3 false false 0 0x0000 0 (leB 4 0x2710) (.span 1000 600000 1)  -- FW_SOURCE_TIMEOUT
  ]

/-- Rows 441 to 480 of the entry tables. -/
def entryRows12 : List EntryRow := [
  .mk 0x8000 1 14 1 6 1 0xD0 3 false false 0 0x0000 0 ([1]) (.span 0 1 1),  -- FW_REPAIR_FLASH
  .mk 0x8000 1 15 1 11 61440 0x80 4 false false 0 0x0000 0 ([]) (.len 9 61440 1),  -- FW_UPDATE
  .mk 0x8100 1 1 1 6 1 0xD0 3 false false 0 0x0000 0 ([0]) (.span 0 1 1),  -- CAD_RENUMBER
  .mk 0x8100 1 2 1 6 1 0xD0 1 false false 0 0x0000 0 ([1]) (.span 0 1 1),  -- CAD_SPARES_IN_SERVICE
  .mk 0x8100 1 3 1 8 1 0xD0 3 false false 0 0x0000 0 ([0]) (.bits 0x3F),  -- CAD_RETEST
  .mk 0x8100 1 4 1 11 1 0xA0 4 false false 0 0x0000 0 ([]) (.len 1 1 0),  -- CAD_READ
  .mk 0x8100 1 5 1 11 20 0x50 0 false false 0 0x0000 0 ([]) (.len 20 20 0),  -- CAD_SPARES_LEFT
  .mk 0x8100 1 6 1 2 2 0x54 0 false false 0 0x0000 0 (leB 2 0x0) (.span 0 512 1),  -- CAD_WITHDRAWN
  .mk 0x8100 1 7 1 3 4 0x50 0 false false 0 0x0000 0 (leB 4 0x0) (.all),  -- CAD_REMAPS
  .mk 0x8100 1 8 1 11 4 0x80 4 false false 0 0x0000 0 ([]) (.len 4 4 0),  -- CAD_REMAP_UNIT
  .mk 0x8100 1 9 1 7 1 0x50 0 false false 0 0x0000 0 ([0]) (.listed [0, 1, 2, 3]),  -- CAD_MOVE_STATE
  .mk 0x8800 1 1 1 1 1 0xD0 1 true false 0 0x0000 0 ([60]) (.span 0 60 5),  -- MARGIN_VMAX_VGRID
  .mk 0x8800 1 2 1 1 1 0xD0 1 true false 0 0x0000 0 ([60]) (.span 0 60 5),  -- MARGIN_VMAX_VSRAM
  .mk 0x8800 1 3 1 1 1 0xD0 1 true false 0 0x0000 0 ([60]) (.span 0 60 5),  -- MARGIN_VMAX_VMEMIO
  .mk 0x8800 1 4 1 1 1 0xD0 1 true false 0 0x0000 0 ([60]) (.span 0 60 5),  -- MARGIN_VMAX_VSERDES
  .mk 0x8800 1 5 1 1 1 0xD0 1 true false 0 0x0000 0 ([60]) (.span 0 60 5),  -- MARGIN_VMAX_VHOST
  .mk 0x8800 1 6 1 3 4 0xD0 1 true false 0 0x0000 0 (leB 4 0x15180) (.span 3600 604800 1),  -- MARGIN_REPLAN_PERIOD
  .mk 0x8800 1 7 1 1 1 0xD0 1 true false 0 0x0000 0 ([50]) (.span 20 60 5),  -- MARGIN_RETIRE_MV
  .mk 0x8800 1 8 1 11 10 0x50 0 false false 0 0x0000 0 (List.replicate 10 0) (.len 10 10 0),  -- MARGIN_OFFSETS
  .mk 0x8800 1 9 1 3 4 0xD0 1 true false 0 0x0000 0 (leB 4 0x100) (.span 16 65536 1),  -- MARGIN_CE_REFRESH_LIMIT
  .mk 0x8800 1 10 1 1 1 0xA0 4 false false 0 0x0000 0 ([0]) (.span 1 1 1),  -- MARGIN_REPLAN_NOW
  .mk 0x8800 1 11 1 2 2 0xD0 3 true false 0 0x0000 0 (leB 2 0x96) (.span 80 300 1),  -- MARGIN_EYE_FLOOR_LINK
  .mk 0x8800 1 12 1 2 2 0xD0 3 true false 0 0x0000 0 (leB 2 0xA0) (.span 80 300 1),  -- MARGIN_EYE_FLOOR_BRIDGE
  .mk 0x8800 1 13 1 2 2 0xD0 3 true false 0 0x0000 0 (leB 2 0xC8) (.span 100 400 1),  -- MARGIN_EYE_FLOOR_BOND
  .mk 0x8800 1 14 1 11 1 0xA0 4 false false 0 0x0000 0 ([]) (.len 1 1 0),  -- MARGIN_PLAN_READ
  .mk 0x8800 1 15 1 3 4 0x50 0 false false 0 0x0000 0 (leB 4 0x0) (.all),  -- MARGIN_RETIRED
  .mk 0x8200 1 1 1 11 8 0xA0 4 false false 0 0x0000 0 ([]) (.len 8 8 0),  -- LEDGER_READ
  .mk 0x8200 1 2 1 11 8 0xA0 4 false false 0 0x0000 0 ([]) (.len 8 8 0),  -- LEDGER_STANDING_READ
  .mk 0x8200 1 3 1 3 4 0x50 0 false false 0 0x0000 0 (leB 4 0x0) (.all),  -- LEDGER_LAST
  .mk 0x8200 1 4 1 3 4 0x50 0 false false 0 0x0000 0 (leB 4 0x0) (.all),  -- LEDGER_OVERWRITTEN
  .mk 0x8200 1 5 1 2 2 0x50 0 false false 0 0x0000 0 (leB 2 0x0) (.span 0 65535 1),  -- LEDGER_UNACKED
  .mk 0x8200 1 6 1 3 4 0x80 4 false false 0 0x0000 0 (leB 4 0x0) (.all),  -- LEDGER_ACK
  .mk 0x8200 1 7 1 7 1 0x50 0 false false 0 0x0000 0 ([0]) (.listed [0, 1]),  -- LEDGER_STATE
  .mk 0x8200 1 8 1 2 2 0xD0 1 false false 0 0x0000 0 (leB 2 0x64) (.span 10 1000 1),  -- LEDGER_FLUSH
  .mk 0x8210 1 1 1 11 8 0xA0 4 false false 0 0x0000 0 ([]) (.len 8 8 0),  -- HOLDINGS_READ
  .mk 0x8210 1 2 1 2 2 0xD0 1 false false 0 0x0000 0 (leB 2 0x400) (.span 16 57344 1),  -- HOLD_LOCKS_MAX
  .mk 0x8210 1 3 1 11 8 0x50 0 false false 0 0x0000 0 ([]) (.len 8 8 0),  -- HOLDINGS_IN_USE
  .mk 0x8210 1 4 1 11 20 0x50 0 false false 0 0x0000 0 ([]) (.len 20 20 0),  -- FENCES
  .mk 0x8220 1 1 1 8 2 0x50 0 false false 0 0x0000 0 (leB 2 0x0) (.bits 0xFF),  -- ALERT_CAUSES
  .mk 0x8220 1 2 1 11 40 0x50 0 false false 0 0x0000 0 (List.replicate 40 0) (.len 40 40 0)  -- FAULT_COUNTS
  ]

/-- Rows 481 to 481 of the entry tables. -/
def entryRows13 : List EntryRow := [
  .mk 0x8230 2 1 1 3 4 0x50 0 false false 0 0x0000 0 (leB 4 0x0) (.all)  -- FLOOR_RESETS
  ]

/-- Every row of the entry tables. -/
def entryRows : List EntryRow :=
  entryRows1 ++ entryRows2 ++ entryRows3 ++ entryRows4 ++ entryRows5 ++ entryRows6 ++
  entryRows7 ++ entryRows8 ++ entryRows9 ++ entryRows10 ++ entryRows11 ++ entryRows12 ++
  entryRows13

/-- VENDOR (0x1000.01). -/
def kVendor : Nat := 0x100001
/-- PART_FAMILY (0x1000.02). -/
def kPartFamily : Nat := 0x100002
/-- ORDERING_CODE (0x1000.03). -/
def kOrderingCode : Nat := 0x100003
/-- STEPPING (0x1000.04). -/
def kStepping : Nat := 0x100004
/-- MODULE_SERIAL (0x1000.05). -/
def kModuleSerial : Nat := 0x100005
/-- FB_SCHEMA (0x1000.06). -/
def kFbSchema : Nat := 0x100006
/-- FIRMWARE_VERSION (0x1000.07). -/
def kFirmwareVersion : Nat := 0x100007
/-- MONUMENT_DIGEST (0x1000.08). -/
def kMonumentDigest : Nat := 0x100008
/-- MGMT_ROLE (0x1000.09). -/
def kMgmtRole : Nat := 0x100009
/-- LICENCE_PRESENT (0x1100.01). -/
def kLicencePresent : Nat := 0x110001
/-- LICENCE_PENDING (0x1100.02). -/
def kLicencePending : Nat := 0x110002
/-- LICENCE_INSTALL (0x1100.03). -/
def kLicenceInstall : Nat := 0x110003
/-- LICENCE_REMOVE (0x1100.04). -/
def kLicenceRemove : Nat := 0x110004
/-- DRAFT_OPEN (0x1F00.01). -/
def kDraftOpen : Nat := 0x1F0001
/-- DRAFT_DISCARD (0x1F00.02). -/
def kDraftDiscard : Nat := 0x1F0002
/-- DRAFT_STATE (0x1F00.03). -/
def kDraftState : Nat := 0x1F0003
/-- DRAFT_WRITES (0x1F00.04). -/
def kDraftWrites : Nat := 0x1F0004
/-- DRAFT_IDLE_TIMEOUT (0x1F00.05). -/
def kDraftIdleTimeout : Nat := 0x1F0005
/-- COMMIT (0x1F10.01). -/
def kCommit : Nat := 0x1F1001
/-- COMMIT_TIMEOUT (0x1F10.02). -/
def kCommitTimeout : Nat := 0x1F1002
/-- EPOCH_CURRENT (0x1F10.03). -/
def kEpochCurrent : Nat := 0x1F1003
/-- EPOCH_OLDEST_LIVE (0x1F10.04). -/
def kEpochOldestLive : Nat := 0x1F1004
/-- EPOCH_OLD_ITEMS (0x1F10.05). -/
def kEpochOldItems : Nat := 0x1F1005
/-- COMMIT_LAST_STATUS (0x1F10.06). -/
def kCommitLastStatus : Nat := 0x1F1006
/-- COMMIT_LAST_EPOCH (0x1F10.07). -/
def kCommitLastEpoch : Nat := 0x1F1007
/-- COMMIT_FAIL_GROUP (0x1F10.08). -/
def kCommitFailGroup : Nat := 0x1F1008
/-- ACTIVE_SHEET (0xA000.01). -/
def kActiveSheet : Nat := 0xA00001
/-- BOOT_SHEET (0xA000.02). -/
def kBootSheet : Nat := 0xA00002
/-- BASELINE_DIGEST (0xA000.03). -/
def kBaselineDigest : Nat := 0xA00003
/-- BASELINE_ENTRIES (0xA000.04). -/
def kBaselineEntries : Nat := 0xA00004
/-- SAVE_RUNNING (0xA000.05). -/
def kSaveRunning : Nat := 0xA00005
/-- SHEET_ENTRIES (0xA001.01). -/
def kSheetEntries : Nat := 0xA00101
/-- SHEET_DIGEST (0xA001.02). -/
def kSheetDigest : Nat := 0xA00102
/-- SHEET_CLEAR (0xA001.03). -/
def kSheetClear : Nat := 0xA00103
/-- COUNTER_LATCH_TIME (0x9000.01). -/
def kCounterLatchTime : Nat := 0x900001
/-- COUNTER_CLEAR (0x9000.02). -/
def kCounterClear : Nat := 0x900002
/-- GRID_READ_BYTES (0x9100.01). -/
def kGridReadBytes : Nat := 0x910001
/-- GRID_WRITE_BYTES (0x9100.02). -/
def kGridWriteBytes : Nat := 0x910002
/-- GRID_ATOMICS (0x9100.03). -/
def kGridAtomics : Nat := 0x910003
/-- GRID_MERGED_READS (0x9100.04). -/
def kGridMergedReads : Nat := 0x910004
/-- GRID_LAT_SUM_NS (0x9100.05). -/
def kGridLatSumNs : Nat := 0x910005
/-- GRID_LAT_COUNT (0x9100.06). -/
def kGridLatCount : Nat := 0x910006
/-- GRID_LAT_OVER_120 (0x9100.07). -/
def kGridLatOver120 : Nat := 0x910007
/-- GRID_LOWERED_NS (0x9100.08). -/
def kGridLoweredNs : Nat := 0x910008
/-- CHAN_READ_BYTES (0x9200.01). -/
def kChanReadBytes : Nat := 0x920001
/-- CHAN_WRITE_BYTES (0x9200.02). -/
def kChanWriteBytes : Nat := 0x920002
/-- CHAN_ACTIVATES (0x9200.03). -/
def kChanActivates : Nat := 0x920003
/-- CHAN_REFRESHES (0x9200.04). -/
def kChanRefreshes : Nat := 0x920004
/-- CHAN_ROW_HITS (0x9200.05). -/
def kChanRowHits : Nat := 0x920005
/-- CHAN_CAP_WINDOWS (0x9200.06). -/
def kChanCapWindows : Nat := 0x920006
/-- CHAN_STACKPATH_BYTES (0x9200.07). -/
def kChanStackpathBytes : Nat := 0x920007
/-- REG_BYTES (0x9300.01). -/
def kRegBytes : Nat := 0x930001
/-- REG_LOWERED_WINDOWS (0x9300.02). -/
def kRegLoweredWindows : Nat := 0x930002
/-- REG_MISSED_WINDOWS (0x9300.03). -/
def kRegMissedWindows : Nat := 0x930003
/-- ENGINE_BUSY_CYCLES (0x9400.01). -/
def kEngineBusyCycles : Nat := 0x940001
/-- ENGINE_BLOCKS (0x9400.02). -/
def kEngineBlocks : Nat := 0x940002
/-- ENGINE_BYTES (0x9400.03). -/
def kEngineBytes : Nat := 0x940003
/-- ENGINE_ITEMS (0x9400.04). -/
def kEngineItems : Nat := 0x940004
/-- UNIT_ANCH_OPS (0x9500.01). -/
def kUnitAnchOps : Nat := 0x950001
/-- UNIT_INT_OPS (0x9500.02). -/
def kUnitIntOps : Nat := 0x950002
/-- UNIT_UNANCH_OPS (0x9500.03). -/
def kUnitUnanchOps : Nat := 0x950003
/-- UNIT_FLAGGED_OPS (0x9500.04). -/
def kUnitFlaggedOps : Nat := 0x950004
/-- PORT_FRAMES_TX (0x9700.01). -/
def kPortFramesTx : Nat := 0x970001
/-- PORT_FRAMES_RX (0x9700.02). -/
def kPortFramesRx : Nat := 0x970002
/-- PORT_VC0_FRAMES (0x9700.03). -/
def kPortVc0Frames : Nat := 0x970003
/-- PORT_VC1_FRAMES (0x9700.04). -/
def kPortVc1Frames : Nat := 0x970004
/-- PORT_VC2_FRAMES (0x9700.05). -/
def kPortVc2Frames : Nat := 0x970005
/-- PORT_CONTROL_FRAMES (0x9700.06). -/
def kPortControlFrames : Nat := 0x970006
/-- PORT_IDLE_FRAMES (0x9700.07). -/
def kPortIdleFrames : Nat := 0x970007
/-- PORT_CREDIT_STALL_NS (0x9700.08). -/
def kPortCreditStallNs : Nat := 0x970008
/-- BOND_FLITS_TX (0x9780.01). -/
def kBondFlitsTx : Nat := 0x978001
/-- BOND_FLITS_RX (0x9780.02). -/
def kBondFlitsRx : Nat := 0x978002
/-- BOND_CREDIT_STALL_NS (0x9780.03). -/
def kBondCreditStallNs : Nat := 0x978003
/-- BOND_REPLAYS (0x9780.04). -/
def kBondReplays : Nat := 0x978004
/-- CORE_CYCLES (0x9800.01). -/
def kCoreCycles : Nat := 0x980001
/-- CORE_INSTRUCTIONS (0x9800.02). -/
def kCoreInstructions : Nat := 0x980002
/-- CORE_L1I_MISSES (0x9800.03). -/
def kCoreL1iMisses : Nat := 0x980003
/-- CORE_L1D_MISSES (0x9800.04). -/
def kCoreL1dMisses : Nat := 0x980004
/-- CORE_L2_MISSES (0x9800.05). -/
def kCoreL2Misses : Nat := 0x980005
/-- CORE_HALTED_CYCLES (0x9800.06). -/
def kCoreHaltedCycles : Nat := 0x980006
/-- PWR_ACTIVE_US (0x9900.01). -/
def kPwrActiveUs : Nat := 0x990001
/-- PWR_DOZE_US (0x9900.02). -/
def kPwrDozeUs : Nat := 0x990002
/-- PWR_NAP_US (0x9900.03). -/
def kPwrNapUs : Nat := 0x990003
/-- PWR_DORMANT_US (0x9900.04). -/
def kPwrDormantUs : Nat := 0x990004
/-- GATED_GRID_CYCLES (0x9900.05). -/
def kGatedGridCycles : Nat := 0x990005
/-- GATED_SLICE_CYCLES (0x9900.06). -/
def kGatedSliceCycles : Nat := 0x990006
/-- GATED_ENGINE_CYCLES (0x9900.07). -/
def kGatedEngineCycles : Nat := 0x990007
/-- GATED_LINK_ENGINE_CYCLES (0x9900.08). -/
def kGatedLinkEngineCycles : Nat := 0x990008
/-- GATED_CHANNEL_CYCLES (0x9900.09). -/
def kGatedChannelCycles : Nat := 0x990009
/-- RAIL_CURRENT (0x9A00.01). -/
def kRailCurrent : Nat := 0x9A0001
/-- RAIL_VOLTS (0x9A00.02). -/
def kRailVolts : Nat := 0x9A0002
/-- RAIL_LIMIT_HITS (0x9A00.03). -/
def kRailLimitHits : Nat := 0x9A0003
/-- RAIL_ENERGY (0x9A00.04). -/
def kRailEnergy : Nat := 0x9A0004
/-- SENSOR_READ (0x9B00.01). -/
def kSensorRead : Nat := 0x9B0001
/-- ZONE_NORMAL_US (0x9B10.01). -/
def kZoneNormalUs : Nat := 0x9B1001
/-- ZONE_WARNING_US (0x9B10.02). -/
def kZoneWarningUs : Nat := 0x9B1002
/-- ZONE_STEP1_US (0x9B10.03). -/
def kZoneStep1Us : Nat := 0x9B1003
/-- ZONE_STEP2_US (0x9B10.04). -/
def kZoneStep2Us : Nat := 0x9B1004
/-- ZONE_SHUTDOWN_US (0x9B10.05). -/
def kZoneShutdownUs : Nat := 0x9B1005
/-- EYE_HISTORY_READ (0x9C00.01). -/
def kEyeHistoryRead : Nat := 0x9C0001
/-- MONITOR_SLACK_READ (0x9C00.02). -/
def kMonitorSlackRead : Nat := 0x9C0002
/-- RING_COUNTERS (0x9D00.01). -/
def kRingCounters : Nat := 0x9D0001
/-- STREAM_COUNTERS (0x9D00.02). -/
def kStreamCounters : Nat := 0x9D0002
/-- LEG_COUNTERS (0x9D00.03). -/
def kLegCounters : Nat := 0x9D0003
/-- MY_RING_COUNTERS (0x9F00.01). -/
def kMyRingCounters : Nat := 0x9F0001
/-- MY_CORE_COUNTERS (0x9F00.02). -/
def kMyCoreCounters : Nat := 0x9F0002
/-- RLC_ENABLE (0x3200.01). -/
def kRlcEnable : Nat := 0x320001
/-- RLC_ALLOC_CLASSES (0x3200.02). -/
def kRlcAllocClasses : Nat := 0x320002
/-- RLC_WAYS_P0 (0x3201.01). -/
def kRlcWaysP0 : Nat := 0x320101
/-- RLC_WAYS_P1 (0x3201.02). -/
def kRlcWaysP1 : Nat := 0x320102
/-- RLC_WAYS_P2 (0x3201.03). -/
def kRlcWaysP2 : Nat := 0x320103
/-- RLC_WAYS_P3 (0x3201.04). -/
def kRlcWaysP3 : Nat := 0x320104
/-- RLC_FLUSH (0x3202.01). -/
def kRlcFlush : Nat := 0x320201
/-- BRIDGE_LANES (0x3300.01). -/
def kBridgeLanes : Nat := 0x330001
/-- BRIDGE_SPARES_LEFT (0x3300.02). -/
def kBridgeSparesLeft : Nat := 0x330002
/-- BRIDGE_REPLAYS (0x3300.03). -/
def kBridgeReplays : Nat := 0x330003
/-- BRIDGE_LANE_ERR_LIMIT (0x3300.04). -/
def kBridgeLaneErrLimit : Nat := 0x330004
/-- DIE_LOSSES (0x3300.05). -/
def kDieLosses : Nat := 0x330005
/-- DIE_STATE (0x3300.06). -/
def kDieState : Nat := 0x330006
/-- F0_RETURN_TIMEOUT (0x3300.07). -/
def kF0ReturnTimeout : Nat := 0x330007
/-- MIRROR_RESYNC_PENDING (0x3300.08). -/
def kMirrorResyncPending : Nat := 0x330008
/-- GRID_MERGE_ENABLE (0x3000.01). -/
def kGridMergeEnable : Nat := 0x300001
/-- GRID_MERGE_WINDOW (0x3000.02). -/
def kGridMergeWindow : Nat := 0x300002
/-- GRID_AGE_PROMOTE (0x3000.03). -/
def kGridAgePromote : Nat := 0x300003
/-- BUF_SCRUB_PERIOD (0x3000.04). -/
def kBufScrubPeriod : Nat := 0x300004
/-- BUF_CE_COUNT (0x3000.05). -/
def kBufCeCount : Nat := 0x300005
/-- BUF_UE_COUNT (0x3000.06). -/
def kBufUeCount : Nat := 0x300006
/-- BUF_CE_RETIRE_LIMIT (0x3000.07). -/
def kBufCeRetireLimit : Nat := 0x300007
/-- GRID_XLATE_FAULTS (0x3000.08). -/
def kGridXlateFaults : Nat := 0x300008
/-- BUF_POISON_LINES (0x3000.09). -/
def kBufPoisonLines : Nat := 0x300009
/-- SEGMAP_WRITE (0x3100.01). -/
def kSegmapWrite : Nat := 0x310001
/-- SEGMAP_READ (0x3100.02). -/
def kSegmapRead : Nat := 0x310002
/-- SEGMAP_VALID (0x3100.03). -/
def kSegmapValid : Nat := 0x310003
/-- SEGMAP_DRAIN_TIMEOUT (0x3100.04). -/
def kSegmapDrainTimeout : Nat := 0x310004
/-- TCACHE_MISSES (0x3100.05). -/
def kTcacheMisses : Nat := 0x310005
/-- SEGMAP_CLEAR_CONTEXT (0x3100.06). -/
def kSegmapClearContext : Nat := 0x310006
/-- STACK_SCRUB_PERIOD (0x3400.01). -/
def kStackScrubPeriod : Nat := 0x340001
/-- STACK_ROW_CE_LIMIT (0x3400.02). -/
def kStackRowCeLimit : Nat := 0x340002
/-- STACK_ROW_SPARING (0x3400.03). -/
def kStackRowSparing : Nat := 0x340003
/-- STACK_AGE_LIMIT (0x3400.04). -/
def kStackAgeLimit : Nat := 0x340004
/-- STACK_REFRESH_MIN (0x3400.05). -/
def kStackRefreshMin : Nat := 0x340005
/-- STACK_REFRESH_MAX (0x3400.06). -/
def kStackRefreshMax : Nat := 0x340006
/-- STACK_REKEY_SHARE (0x3400.08). -/
def kStackRekeyShare : Nat := 0x340008
/-- STACK_REMAP_SHARE (0x3400.09). -/
def kStackRemapShare : Nat := 0x340009
/-- STACK_EYE_FLOOR (0x3400.0A). -/
def kStackEyeFloor : Nat := 0x34000A
/-- STACK_TEMP_MAX (0x3410.01). -/
def kStackTempMax : Nat := 0x341001
/-- STACK_CAP_NOW (0x3410.02). -/
def kStackCapNow : Nat := 0x341002
/-- STACK_REFRESH_NOW (0x3410.03). -/
def kStackRefreshNow : Nat := 0x341003
/-- STACK_CE_COUNT (0x3410.04). -/
def kStackCeCount : Nat := 0x341004
/-- STACK_UE_COUNT (0x3410.05). -/
def kStackUeCount : Nat := 0x341005
/-- STACK_ROWS_SPARED (0x3410.06). -/
def kStackRowsSpared : Nat := 0x341006
/-- STACK_PAGES_RETIRED (0x3410.07). -/
def kStackPagesRetired : Nat := 0x341007
/-- STACK_PAGES_LOST (0x3410.08). -/
def kStackPagesLost : Nat := 0x341008
/-- STACK_CHANNELS_UP (0x3410.09). -/
def kStackChannelsUp : Nat := 0x341009
/-- STACK_SPARES_LEFT (0x3410.0A). -/
def kStackSparesLeft : Nat := 0x34100A
/-- STACK_POISON_SECTORS (0x3410.0B). -/
def kStackPoisonSectors : Nat := 0x34100B
/-- STACK_THROTTLE_CAP (0x3420.01). -/
def kStackThrottleCap : Nat := 0x342001
/-- STACK_THROTTLE_CAP2 (0x3420.02). -/
def kStackThrottleCap2 : Nat := 0x342002
/-- STACK_RETIRE_LIST (0x3430.01). -/
def kStackRetireList : Nat := 0x343001
/-- REKEY_QUERY (0x3450.01). -/
def kRekeyQuery : Nat := 0x345001
/-- REKEY_MY_STATE (0x3450.02). -/
def kRekeyMyState : Nat := 0x345002
/-- STACK_RETIRE_CLEAR (0x3460.01). -/
def kStackRetireClear : Nat := 0x346001
/-- REG_ENABLE (0x3800.01). -/
def kRegEnable : Nat := 0x380001
/-- REG_MISS_WINDOWS (0x3800.02). -/
def kRegMissWindows : Nat := 0x380002
/-- REG_MISS_HOLDOFF (0x3800.03). -/
def kRegMissHoldoff : Nat := 0x380003
/-- REG_CAPACITY (0x3810.01). -/
def kRegCapacity : Nat := 0x381001
/-- REG_PART_MIN_P0 (0x3810.02). -/
def kRegPartMinP0 : Nat := 0x381002
/-- REG_PART_MIN_P1 (0x3810.03). -/
def kRegPartMinP1 : Nat := 0x381003
/-- REG_PART_MIN_P2 (0x3810.04). -/
def kRegPartMinP2 : Nat := 0x381004
/-- REG_PART_MIN_P3 (0x3810.05). -/
def kRegPartMinP3 : Nat := 0x381005
/-- REG_PART_MIN_POOL (0x3810.06). -/
def kRegPartMinPool : Nat := 0x381006
/-- REG_PART_WEIGHT_P0 (0x3810.07). -/
def kRegPartWeightP0 : Nat := 0x381007
/-- REG_PART_WEIGHT_P1 (0x3810.08). -/
def kRegPartWeightP1 : Nat := 0x381008
/-- REG_PART_WEIGHT_P2 (0x3810.09). -/
def kRegPartWeightP2 : Nat := 0x381009
/-- REG_PART_WEIGHT_P3 (0x3810.0A). -/
def kRegPartWeightP3 : Nat := 0x38100A
/-- REG_PART_WEIGHT_POOL (0x3810.0B). -/
def kRegPartWeightPool : Nat := 0x38100B
/-- REG_MIN_M0 (0x3820.01). -/
def kRegMinM0 : Nat := 0x382001
/-- REG_WEIGHT_M0 (0x3830.01). -/
def kRegWeightM0 : Nat := 0x383001
/-- REG_STACKPATH_WEIGHT (0x3840.01). -/
def kRegStackpathWeight : Nat := 0x384001
/-- REG_GRIDSIDE_WEIGHT (0x3840.02). -/
def kRegGridsideWeight : Nat := 0x384002
/-- REG_MISS_EVENTS (0x3850.01). -/
def kRegMissEvents : Nat := 0x385001
/-- REG_SCALED_WINDOWS (0x3850.02). -/
def kRegScaledWindows : Nat := 0x385002
/-- SWEEP_SUBNORMALS (0x4000.01). -/
def kSweepSubnormals : Nat := 0x400001
/-- SWEEP_EMPTY_OUTPUT (0x4000.02). -/
def kSweepEmptyOutput : Nat := 0x400002
/-- SWEEP_SESSION_LIMIT (0x4000.03). -/
def kSweepSessionLimit : Nat := 0x400003
/-- SWEEP_SESSION_PARTS (0x4000.04). -/
def kSweepSessionParts : Nat := 0x400004
/-- SWEEP_FN_ID (0x4000.05). -/
def kSweepFnId : Nat := 0x400005
/-- SWEEP_SPARE_RETRY (0x4000.06). -/
def kSweepSpareRetry : Nat := 0x400006
/-- SWEEP_ENGINES_UP (0x4010.01). -/
def kSweepEnginesUp : Nat := 0x401001
/-- SWEEP_SPARE_LEFT (0x4010.02). -/
def kSweepSpareLeft : Nat := 0x401002
/-- SWEEP_ITEMS (0x4010.03). -/
def kSweepItems : Nat := 0x401003
/-- SWEEP_RETRIES (0x4010.04). -/
def kSweepRetries : Nat := 0x401004
/-- SWEEP_QUEUED (0x4010.05). -/
def kSweepQueued : Nat := 0x401005
/-- SWEEP_SESSION_OWNER (0x4010.06). -/
def kSweepSessionOwner : Nat := 0x401006
/-- SWEEP_SESSIONS_EXPIRED (0x4010.07). -/
def kSweepSessionsExpired : Nat := 0x401007
/-- ANCHOR_SUBNORMALS (0x4400.01). -/
def kAnchorSubnormals : Nat := 0x440001
/-- ANCHOR_OVERFLOW (0x4400.02). -/
def kAnchorOverflow : Nat := 0x440002
/-- ANCHOR_UNANCHORED_PARTS (0x4400.03). -/
def kAnchorUnanchoredParts : Nat := 0x440003
/-- ANCH_OPS (0x4410.01). -/
def kAnchOps : Nat := 0x441001
/-- UNANCH_OPS (0x4410.02). -/
def kUnanchOps : Nat := 0x441002
/-- ANCH_FLAGGED_OPS (0x4410.03). -/
def kAnchFlaggedOps : Nat := 0x441003
/-- LOCKS_FENCED (0x4410.04). -/
def kLocksFenced : Nat := 0x441004
/-- RING_CREATE (0x4800.01). -/
def kRingCreate : Nat := 0x480001
/-- RING_DELETE (0x4800.02). -/
def kRingDelete : Nat := 0x480002
/-- RING_REOPEN (0x4800.03). -/
def kRingReopen : Nat := 0x480003
/-- RING_QUERY (0x4800.04). -/
def kRingQuery : Nat := 0x480004
/-- RING_LAST_MARKS (0x4800.05). -/
def kRingLastMarks : Nat := 0x480005
/-- RINGS_IN_USE (0x4800.06). -/
def kRingsInUse : Nat := 0x480006
/-- RING_TAKE_BURST (0x4800.07). -/
def kRingTakeBurst : Nat := 0x480007
/-- RING_DOORBELL_DROPS (0x4800.08). -/
def kRingDoorbellDrops : Nat := 0x480008
/-- RING_MARKS_STATE (0x4800.09). -/
def kRingMarksState : Nat := 0x480009
/-- CONTEXT_CREATE (0x4810.01). -/
def kContextCreate : Nat := 0x481001
/-- CONTEXT_DESTROY (0x4810.02). -/
def kContextDestroy : Nat := 0x481002
/-- CONTEXTS_IN_USE (0x4810.03). -/
def kContextsInUse : Nat := 0x481003
/-- CONTEXT_QUERY (0x4810.04). -/
def kContextQuery : Nat := 0x481004
/-- MY_CONTEXT (0x4820.01). -/
def kMyContext : Nat := 0x482001
/-- MY_EVENTS_LOST (0x4820.02). -/
def kMyEventsLost : Nat := 0x482002
/-- MY_EVENT_CLASSES (0x4820.03). -/
def kMyEventClasses : Nat := 0x482003
/-- STATION_ADDR (0x5000.01). -/
def kStationAddr : Nat := 0x500001
/-- TORUS_X (0x5000.02). -/
def kTorusX : Nat := 0x500002
/-- TORUS_Y (0x5000.03). -/
def kTorusY : Nat := 0x500003
/-- TORUS_Z (0x5000.04). -/
def kTorusZ : Nat := 0x500004
/-- PORTS_ENABLED (0x5000.05). -/
def kPortsEnabled : Nat := 0x500005
/-- LINK_WIDTH_RESET (0x5000.06). -/
def kLinkWidthReset : Nat := 0x500006
/-- LINK_LANE_BER_LIMIT (0x5000.07). -/
def kLinkLaneBerLimit : Nat := 0x500007
/-- LINK_RETRY_PERIOD (0x5000.08). -/
def kLinkRetryPeriod : Nat := 0x500008
/-- LINK_TRAIN_TIMEOUT (0x5000.09). -/
def kLinkTrainTimeout : Nat := 0x500009
/-- LINK_RETRAIN (0x5000.0A). -/
def kLinkRetrain : Nat := 0x50000A
/-- PORT_MAP (0x5000.0B). -/
def kPortMap : Nat := 0x50000B
/-- LINK_MIN_WIDTH_L00 (0x5001.01). -/
def kLinkMinWidthL00 : Nat := 0x500101
/-- LINK_PROTECT_L00 (0x5002.01). -/
def kLinkProtectL00 : Nat := 0x500201
/-- LINK_STATE (0x5010.01). -/
def kLinkState : Nat := 0x501001
/-- LINK_DOWN_CAUSE (0x5010.02). -/
def kLinkDownCause : Nat := 0x501002
/-- LINK_WIDTH (0x5010.03). -/
def kLinkWidth : Nat := 0x501003
/-- LINK_LANE_MAP (0x5010.04). -/
def kLinkLaneMap : Nat := 0x501004
/-- LINK_SPARE_USED (0x5010.05). -/
def kLinkSpareUsed : Nat := 0x501005
/-- LINK_PREFEC_ERRS (0x5010.06). -/
def kLinkPrefecErrs : Nat := 0x501006
/-- LINK_POSTFEC_ERRS (0x5010.07). -/
def kLinkPostfecErrs : Nat := 0x501007
/-- LINK_REPLAYS (0x5010.08). -/
def kLinkReplays : Nat := 0x501008
/-- LINK_NEIGHBOUR_THROTTLE (0x5010.09). -/
def kLinkNeighbourThrottle : Nat := 0x501009
/-- LINK_CHAINAGE (0x5010.0A). -/
def kLinkChainage : Nat := 0x50100A
/-- LINK_SB_DISCARDS (0x5010.0B). -/
def kLinkSbDiscards : Nat := 0x50100B
/-- TRAV_PATIENCE (0x5400.01). -/
def kTravPatience : Nat := 0x540001
/-- TRAV_PATIENCE_MAX (0x5400.02). -/
def kTravPatienceMax : Nat := 0x540002
/-- TRAV_HOLD_LIMIT (0x5400.03). -/
def kTravHoldLimit : Nat := 0x540003
/-- TRAV_LIVE (0x5400.04). -/
def kTravLive : Nat := 0x540004
/-- TRAV_ITEMS (0x5400.05). -/
def kTravItems : Nat := 0x540005
/-- TRAV_FAILS (0x5400.06). -/
def kTravFails : Nat := 0x540006
/-- TRAV_FAIL_NOTICES (0x5400.07). -/
def kTravFailNotices : Nat := 0x540007
/-- TRAV_HELD_DISCARDS (0x5400.08). -/
def kTravHeldDiscards : Nat := 0x540008
/-- TRAV_EXTENDED (0x5400.09). -/
def kTravExtended : Nat := 0x540009
/-- GROUP_MEMBER (0x5410.01). -/
def kGroupMember : Nat := 0x541001
/-- GROUP_FWD (0x5410.02). -/
def kGroupFwd : Nat := 0x541002
/-- GROUP_BCAST_PORTS (0x5410.03). -/
def kGroupBcastPorts : Nat := 0x541003
/-- FW_BCAST (0x5410.04). -/
def kFwBcast : Nat := 0x541004
/-- GROUP_VC2_DISCARDS (0x5410.05). -/
def kGroupVc2Discards : Nat := 0x541005
/-- SITE_RATE_MAX (0x5800.01). -/
def kSiteRateMax : Nat := 0x580001
/-- SITE_MIN_MODULES (0x5800.02). -/
def kSiteMinModules : Nat := 0x580002
/-- SITE_WORK_TIMEOUT (0x5800.03). -/
def kSiteWorkTimeout : Nat := 0x580003
/-- SITE_HELLO_TIMEOUT (0x5800.04). -/
def kSiteHelloTimeout : Nat := 0x580004
/-- SITE_PROTO_ERR_LIMIT (0x5800.05). -/
def kSiteProtoErrLimit : Nat := 0x580005
/-- SITE_READMIT (0x5800.07). -/
def kSiteReadmit : Nat := 0x580007
/-- SITE_STATE (0x5810.01). -/
def kSiteState : Nat := 0x581001
/-- SITE_FENCE_CAUSE (0x5810.02). -/
def kSiteFenceCause : Nat := 0x581002
/-- SITE_MODULES_UP (0x5810.03). -/
def kSiteModulesUp : Nat := 0x581003
/-- SITE_RATE (0x5810.04). -/
def kSiteRate : Nat := 0x581004
/-- SITE_VCORE_MIN (0x5810.05). -/
def kSiteVcoreMin : Nat := 0x581005
/-- SITE_VCORE_MAX (0x5810.06). -/
def kSiteVcoreMax : Nat := 0x581006
/-- SITE_VCORE_NOW (0x5810.07). -/
def kSiteVcoreNow : Nat := 0x581007
/-- SITE_TILE_ID (0x5810.08). -/
def kSiteTileId : Nat := 0x581008
/-- SITE_FENCE (0x5810.09). -/
def kSiteFence : Nat := 0x581009
/-- SITE_READMIT_NOW (0x5810.0A). -/
def kSiteReadmitNow : Nat := 0x58100A
/-- SITE_PROTO_ERRS (0x5810.0B). -/
def kSiteProtoErrs : Nat := 0x58100B
/-- SITE_REPLAYS (0x5810.0C). -/
def kSiteReplays : Nat := 0x58100C
/-- SITE_LN_OVERLONG (0x5810.0D). -/
def kSiteLnOverlong : Nat := 0x58100D
/-- HOST_CLOCK_MAX (0x6000.01). -/
def kHostClockMax : Nat := 0x600001
/-- HOST_NAP_CORE (0x6000.02). -/
def kHostNapCore : Nat := 0x600002
/-- HOST_WORK_TIMEOUT (0x6000.03). -/
def kHostWorkTimeout : Nat := 0x600003
/-- HOST_CORE_STATE (0x6010.01). -/
def kHostCoreState : Nat := 0x601001
/-- HOST_CORE_START (0x6010.02). -/
def kHostCoreStart : Nat := 0x601002
/-- HOST_CORE_STOP (0x6010.03). -/
def kHostCoreStop : Nat := 0x601003
/-- HOST_CORE_FENCE (0x6010.04). -/
def kHostCoreFence : Nat := 0x601004
/-- HOST_CORE_BOUND (0x6010.05). -/
def kHostCoreBound : Nat := 0x601005
/-- HOST_FENCE_CAUSE (0x6010.06). -/
def kHostFenceCause : Nat := 0x601006
/-- HOST_CACHE_CE (0x6010.07). -/
def kHostCacheCe : Nat := 0x601007
/-- HOST_WORK_DROPS (0x6010.08). -/
def kHostWorkDrops : Nat := 0x601008
/-- HP_ROLE_STRAPS (0x6400.01). -/
def kHpRoleStraps : Nat := 0x640001
/-- HP_ROLE (0x6410.01). -/
def kHpRole : Nat := 0x641001
/-- HP_LINK_STATE (0x6410.02). -/
def kHpLinkState : Nat := 0x641002
/-- HP_LINK_WIDTH (0x6410.03). -/
def kHpLinkWidth : Nat := 0x641003
/-- HP_LINK_RATE (0x6410.04). -/
def kHpLinkRate : Nat := 0x641004
/-- HP_FLIT (0x6410.05). -/
def kHpFlit : Nat := 0x641005
/-- HP_FENCE (0x6410.06). -/
def kHpFence : Nat := 0x641006
/-- HP_FENCE_CAUSE (0x6410.07). -/
def kHpFenceCause : Nat := 0x641007
/-- HP_SPDM_SESSIONS (0x6410.08). -/
def kHpSpdmSessions : Nat := 0x641008
/-- HP_XFER_AUTH_FAILS (0x6410.09). -/
def kHpXferAuthFails : Nat := 0x641009
/-- HP_NOTICE_DROPS (0x6410.0A). -/
def kHpNoticeDrops : Nat := 0x64100A
/-- FAR_STATE (0x6420.01). -/
def kFarState : Nat := 0x642001
/-- FAR_CAPACITY (0x6420.02). -/
def kFarCapacity : Nat := 0x642002
/-- FAR_DEVICE (0x6420.03). -/
def kFarDevice : Nat := 0x642003
/-- FAR_TEST (0x6420.04). -/
def kFarTest : Nat := 0x642004
/-- FAR_POISON_READS (0x6420.05). -/
def kFarPoisonReads : Nat := 0x642005
/-- FAR_RANGE_P0 (0x6430.01). -/
def kFarRangeP0 : Nat := 0x643001
/-- LIFECYCLE (0x7000.01). -/
def kLifecycle : Nat := 0x700001
/-- SVN_FUSED (0x7000.02). -/
def kSvnFused : Nat := 0x700002
/-- SEC_VERSION_ADVANCE (0x7000.03). -/
def kSecVersionAdvance : Nat := 0x700003
/-- MEAS_GEN (0x7000.04). -/
def kMeasGen : Nat := 0x700004
/-- PLAT_SITES (0x7010.01). -/
def kPlatSites : Nat := 0x701001
/-- PLAT_STACKS (0x7010.02). -/
def kPlatStacks : Nat := 0x701002
/-- PLAT_SLICES_F0 (0x7010.03). -/
def kPlatSlicesF0 : Nat := 0x701003
/-- PLAT_PORTS (0x7010.05). -/
def kPlatPorts : Nat := 0x701005
/-- PLAT_CORES (0x7010.06). -/
def kPlatCores : Nat := 0x701006
/-- PLAT_RINGS (0x7010.07). -/
def kPlatRings : Nat := 0x701007
/-- PLAT_HOST_PORTS (0x7010.08). -/
def kPlatHostPorts : Nat := 0x701008
/-- PLAT_TILE_POLICY (0x7010.09). -/
def kPlatTilePolicy : Nat := 0x701009
/-- TILE_ALLOW (0x7018.01). -/
def kTileAllow : Nat := 0x701801
/-- TILE_RECHECK_PERIOD (0x7018.02). -/
def kTileRecheckPeriod : Nat := 0x701802
/-- ATTEST_REPORT (0x7020.01). -/
def kAttestReport : Nat := 0x702001
/-- ATTEST_CHAIN (0x7020.02). -/
def kAttestChain : Nat := 0x702002
/-- BROKER_ROOT_DIGEST (0x7030.01). -/
def kBrokerRootDigest : Nat := 0x703001
/-- KEY_REQUEST (0x7030.02). -/
def kKeyRequest : Nat := 0x703002
/-- KEY_INSTALL (0x7030.03). -/
def kKeyInstall : Nat := 0x703003
/-- KEY_REQUEST_TTL (0x7030.04). -/
def kKeyRequestTtl : Nat := 0x703004
/-- KEY_REQUESTS_OPEN (0x7030.05). -/
def kKeyRequestsOpen : Nat := 0x703005
/-- KEY_RELEASE_FAILS (0x7030.06). -/
def kKeyReleaseFails : Nat := 0x703006
/-- CONF_CONTEXTS (0x7040.01). -/
def kConfContexts : Nat := 0x704001
/-- DEBUG_PORTS (0x7040.02). -/
def kDebugPorts : Nat := 0x704002
/-- DEBUG_CHALLENGE (0x7040.03). -/
def kDebugChallenge : Nat := 0x704003
/-- DEBUG_UNLOCK (0x7040.04). -/
def kDebugUnlock : Nat := 0x704004
/-- CONF_TRUSTED_PORTS (0x7040.05). -/
def kConfTrustedPorts : Nat := 0x704005
/-- KEY_ROTATE (0x7050.01). -/
def kKeyRotate : Nat := 0x705001
/-- KEY_ERASE (0x7050.02). -/
def kKeyErase : Nat := 0x705002
/-- KEY_QUERY (0x7050.03). -/
def kKeyQuery : Nat := 0x705003
/-- LEASE_UNSEAL (0x7060.01). -/
def kLeaseUnseal : Nat := 0x706001
/-- LEASE_REVOKE (0x7060.02). -/
def kLeaseRevoke : Nat := 0x706002
/-- LEASES (0x7060.03). -/
def kLeases : Nat := 0x706003
/-- LEASE_LIST (0x7060.04). -/
def kLeaseList : Nat := 0x706004
/-- ISLAND_SECONDS (0x7060.05). -/
def kIslandSeconds : Nat := 0x706005
/-- LEASE_FAILS (0x7060.06). -/
def kLeaseFails : Nat := 0x706006
/-- MGMT_ENABLE (0x7800.01). -/
def kMgmtEnable : Nat := 0x780001
/-- MGMT_ADDR_MODE (0x7800.02). -/
def kMgmtAddrMode : Nat := 0x780002
/-- MGMT_IPV4 (0x7800.03). -/
def kMgmtIpv4 : Nat := 0x780003
/-- MGMT_CLIENT_ROOTS (0x7800.04). -/
def kMgmtClientRoots : Nat := 0x780004
/-- MGMT_CLIENT_DENY (0x7800.05). -/
def kMgmtClientDeny : Nat := 0x780005
/-- MGMT_SESSIONS (0x7800.06). -/
def kMgmtSessions : Nat := 0x780006
/-- MGMT_AUTH_FAILS (0x7800.07). -/
def kMgmtAuthFails : Nat := 0x780007
/-- REFSET_DELAY (0x2000.01). -/
def kRefsetDelay : Nat := 0x200001
/-- CLOCK_STATE (0x2000.02). -/
def kClockState : Nat := 0x200002
/-- CLOCK_LOSSES (0x2000.03). -/
def kClockLosses : Nat := 0x200003
/-- PLL_LOCK_TIMEOUT (0x2000.04). -/
def kPllLockTimeout : Nat := 0x200004
/-- CLK_GATE_ENABLE (0x2000.05). -/
def kClkGateEnable : Nat := 0x200005
/-- GCLK_NOW (0x2000.06). -/
def kGclkNow : Nat := 0x200006
/-- CLOCK_LOSS_LAST (0x2000.07). -/
def kClockLossLast : Nat := 0x200007
/-- PLL_LOCKED (0x2010.01). -/
def kPllLocked : Nat := 0x201001
/-- PLL_UNLOCKS (0x2010.02). -/
def kPllUnlocks : Nat := 0x201002
/-- DOMAIN_SWITCHES (0x2010.03). -/
def kDomainSwitches : Nat := 0x201003
/-- PWR_DEEPEST (0x2100.01). -/
def kPwrDeepest : Nat := 0x210001
/-- PWR_IDLE_DOZE (0x2100.02). -/
def kPwrIdleDoze : Nat := 0x210002
/-- PWR_IDLE_NAP (0x2100.03). -/
def kPwrIdleNap : Nat := 0x210003
/-- PWR_IDLE_DORMANT (0x2100.04). -/
def kPwrIdleDormant : Nat := 0x210004
/-- PWR_STATE (0x2100.05). -/
def kPwrState : Nat := 0x210005
/-- PWR_REQUEST (0x2100.06). -/
def kPwrRequest : Nat := 0x210006
/-- PWR_WAKE_TIMER (0x2100.07). -/
def kPwrWakeTimer : Nat := 0x210007
/-- PWR_RETAIN_F0 (0x2100.08). -/
def kPwrRetainF0 : Nat := 0x210008
/-- PWR_OFF (0x2100.0A). -/
def kPwrOff : Nat := 0x21000A
/-- PWR_LAST_WAKE (0x2100.0B). -/
def kPwrLastWake : Nat := 0x21000B
/-- PWR_ENTRIES (0x2100.0C). -/
def kPwrEntries : Nat := 0x21000C
/-- PVIN_VOLTS (0x2200.01). -/
def kPvinVolts : Nat := 0x220001
/-- MODULE_POWER (0x2200.02). -/
def kModulePower : Nat := 0x220002
/-- PFW_CLOSURES (0x2200.03). -/
def kPfwClosures : Nat := 0x220003
/-- PFW_LAST_TIME (0x2200.04). -/
def kPfwLastTime : Nat := 0x220004
/-- PFW_SHORT (0x2200.05). -/
def kPfwShort : Nat := 0x220005
/-- DROOP_HOLDOFF (0x2200.06). -/
def kDroopHoldoff : Nat := 0x220006
/-- FLOOR_POWER (0x2210.01). -/
def kFloorPower : Nat := 0x221001
/-- FLOOR_RAIL_LIMITS (0x2210.02). -/
def kFloorRailLimits : Nat := 0x221002
/-- SITE_POWER_LIMIT (0x2220.01). -/
def kSitePowerLimit : Nat := 0x222001
/-- SITE_POWER_NOW (0x2220.02). -/
def kSitePowerNow : Nat := 0x222002
/-- SITE_VCORE_CEILING (0x2220.03). -/
def kSiteVcoreCeiling : Nat := 0x222003
/-- SITE_DROOP_EVENTS (0x2220.04). -/
def kSiteDroopEvents : Nat := 0x222004
/-- SITE_ILIM_EVENTS (0x2220.05). -/
def kSiteIlimEvents : Nat := 0x222005
/-- SITE_LN_COUNT (0x2220.06). -/
def kSiteLnCount : Nat := 0x222006
/-- THERM_FLOOR_WARN (0x2800.01). -/
def kThermFloorWarn : Nat := 0x280001
/-- THERM_FLOOR_THROTTLE (0x2800.02). -/
def kThermFloorThrottle : Nat := 0x280002
/-- THERM_FLOOR_STEP2_DELTA (0x2800.03). -/
def kThermFloorStep2Delta : Nat := 0x280003
/-- THERM_FLOOR_SHUTDOWN (0x2800.04). -/
def kThermFloorShutdown : Nat := 0x280004
/-- THERM_STACK_WARN (0x2800.05). -/
def kThermStackWarn : Nat := 0x280005
/-- THERM_STACK_THROTTLE (0x2800.06). -/
def kThermStackThrottle : Nat := 0x280006
/-- THERM_STACK_STEP2_DELTA (0x2800.07). -/
def kThermStackStep2Delta : Nat := 0x280007
/-- THERM_STACK_SHUTDOWN (0x2800.08). -/
def kThermStackShutdown : Nat := 0x280008
/-- THERM_FAST_BAND (0x2800.09). -/
def kThermFastBand : Nat := 0x280009
/-- THERM_RECAL_NOW (0x2800.0A). -/
def kThermRecalNow : Nat := 0x28000A
/-- FLOOR_TEMP_MAX (0x2810.01). -/
def kFloorTempMax : Nat := 0x281001
/-- FLOOR_LEVEL (0x2810.02). -/
def kFloorLevel : Nat := 0x281002
/-- BENCHMARK_TEMP (0x2810.03). -/
def kBenchmarkTemp : Nat := 0x281003
/-- BENCHMARK_STATE (0x2810.04). -/
def kBenchmarkState : Nat := 0x281004
/-- SENSORS_VALID (0x2810.05). -/
def kSensorsValid : Nat := 0x281005
/-- THERMAL_STOPS (0x2810.06). -/
def kThermalStops : Nat := 0x281006
/-- SITE_TEMP_MAX (0x2820.01). -/
def kSiteTempMax : Nat := 0x282001
/-- SITE_LEVEL (0x2820.02). -/
def kSiteLevel : Nat := 0x282002
/-- STACK_LEVEL (0x2830.01). -/
def kStackLevel : Nat := 0x283001
/-- SURVEY_STEP (0x8000.01). -/
def kSurveyStep : Nat := 0x800001
/-- SURVEY_PATH (0x8000.02). -/
def kSurveyPath : Nat := 0x800002
/-- SURVEY_NUMBER (0x8000.03). -/
def kSurveyNumber : Nat := 0x800003
/-- SURVEY_FAST_ENABLE (0x8000.04). -/
def kSurveyFastEnable : Nat := 0x800004
/-- SURVEY_FAILED_STARTS (0x8000.05). -/
def kSurveyFailedStarts : Nat := 0x800005
/-- SURVEY_FAIL_LIMIT (0x8000.06). -/
def kSurveyFailLimit : Nat := 0x800006
/-- SURVEY_SKIP_FAILED (0x8000.07). -/
def kSurveySkipFailed : Nat := 0x800007
/-- SURVEY_LOG_READ (0x8000.08). -/
def kSurveyLogRead : Nat := 0x800008
/-- SURVEY_DURATION (0x8000.09). -/
def kSurveyDuration : Nat := 0x800009
/-- FW_SOURCE_USED (0x8000.0A). -/
def kFwSourceUsed : Nat := 0x80000A
/-- FW_SOURCES_TRIED (0x8000.0B). -/
def kFwSourcesTried : Nat := 0x80000B
/-- FW_NET_SERVER (0x8000.0C). -/
def kFwNetServer : Nat := 0x80000C
/-- FW_SOURCE_TIMEOUT (0x8000.0D). -/
def kFwSourceTimeout : Nat := 0x80000D
/-- FW_REPAIR_FLASH (0x8000.0E). -/
def kFwRepairFlash : Nat := 0x80000E
/-- FW_UPDATE (0x8000.0F). -/
def kFwUpdate : Nat := 0x80000F
/-- CAD_RENUMBER (0x8100.01). -/
def kCadRenumber : Nat := 0x810001
/-- CAD_SPARES_IN_SERVICE (0x8100.02). -/
def kCadSparesInService : Nat := 0x810002
/-- CAD_RETEST (0x8100.03). -/
def kCadRetest : Nat := 0x810003
/-- CAD_READ (0x8100.04). -/
def kCadRead : Nat := 0x810004
/-- CAD_SPARES_LEFT (0x8100.05). -/
def kCadSparesLeft : Nat := 0x810005
/-- CAD_WITHDRAWN (0x8100.06). -/
def kCadWithdrawn : Nat := 0x810006
/-- CAD_REMAPS (0x8100.07). -/
def kCadRemaps : Nat := 0x810007
/-- CAD_REMAP_UNIT (0x8100.08). -/
def kCadRemapUnit : Nat := 0x810008
/-- CAD_MOVE_STATE (0x8100.09). -/
def kCadMoveState : Nat := 0x810009
/-- MARGIN_VMAX_VGRID (0x8800.01). -/
def kMarginVmaxVgrid : Nat := 0x880001
/-- MARGIN_VMAX_VSRAM (0x8800.02). -/
def kMarginVmaxVsram : Nat := 0x880002
/-- MARGIN_VMAX_VMEMIO (0x8800.03). -/
def kMarginVmaxVmemio : Nat := 0x880003
/-- MARGIN_VMAX_VSERDES (0x8800.04). -/
def kMarginVmaxVserdes : Nat := 0x880004
/-- MARGIN_VMAX_VHOST (0x8800.05). -/
def kMarginVmaxVhost : Nat := 0x880005
/-- MARGIN_REPLAN_PERIOD (0x8800.06). -/
def kMarginReplanPeriod : Nat := 0x880006
/-- MARGIN_RETIRE_MV (0x8800.07). -/
def kMarginRetireMv : Nat := 0x880007
/-- MARGIN_OFFSETS (0x8800.08). -/
def kMarginOffsets : Nat := 0x880008
/-- MARGIN_CE_REFRESH_LIMIT (0x8800.09). -/
def kMarginCeRefreshLimit : Nat := 0x880009
/-- MARGIN_REPLAN_NOW (0x8800.0A). -/
def kMarginReplanNow : Nat := 0x88000A
/-- MARGIN_EYE_FLOOR_LINK (0x8800.0B). -/
def kMarginEyeFloorLink : Nat := 0x88000B
/-- MARGIN_EYE_FLOOR_BRIDGE (0x8800.0C). -/
def kMarginEyeFloorBridge : Nat := 0x88000C
/-- MARGIN_EYE_FLOOR_BOND (0x8800.0D). -/
def kMarginEyeFloorBond : Nat := 0x88000D
/-- MARGIN_PLAN_READ (0x8800.0E). -/
def kMarginPlanRead : Nat := 0x88000E
/-- MARGIN_RETIRED (0x8800.0F). -/
def kMarginRetired : Nat := 0x88000F
/-- LEDGER_READ (0x8200.01). -/
def kLedgerRead : Nat := 0x820001
/-- LEDGER_STANDING_READ (0x8200.02). -/
def kLedgerStandingRead : Nat := 0x820002
/-- LEDGER_LAST (0x8200.03). -/
def kLedgerLast : Nat := 0x820003
/-- LEDGER_OVERWRITTEN (0x8200.04). -/
def kLedgerOverwritten : Nat := 0x820004
/-- LEDGER_UNACKED (0x8200.05). -/
def kLedgerUnacked : Nat := 0x820005
/-- LEDGER_ACK (0x8200.06). -/
def kLedgerAck : Nat := 0x820006
/-- LEDGER_STATE (0x8200.07). -/
def kLedgerState : Nat := 0x820007
/-- LEDGER_FLUSH (0x8200.08). -/
def kLedgerFlush : Nat := 0x820008
/-- HOLDINGS_READ (0x8210.01). -/
def kHoldingsRead : Nat := 0x821001
/-- HOLD_LOCKS_MAX (0x8210.02). -/
def kHoldLocksMax : Nat := 0x821002
/-- HOLDINGS_IN_USE (0x8210.03). -/
def kHoldingsInUse : Nat := 0x821003
/-- FENCES (0x8210.04). -/
def kFences : Nat := 0x821004
/-- ALERT_CAUSES (0x8220.01). -/
def kAlertCauses : Nat := 0x822001
/-- FAULT_COUNTS (0x8220.02). -/
def kFaultCounts : Nat := 0x822002
/-- FLOOR_RESETS (0x8230.01). -/
def kFloorResets : Nat := 0x823001

end Sys2Proof.Machine
end

