-- ==== Sys2Proof/Syntax.lean ====
section
/-! DEFINITION. The commands of the block: what reaches a Steloth module from outside (a frame, a flit, a store, a pin,
a measured value, the end of an interval), one constructor for each row of the opcode table. -/
namespace Sys2Proof

/-- Who makes a Field Book request (R40, Table 2.4): the path decides the access class. -/
inductive Rq where
  /-- Field Book Access Protocol session 0 to 7 on MG0 or MG1: class O. -/
  | session (n : Nat)
  /-- The mailbox of host port 0 or 1: class H. -/
  | hostPort (n : Nat)
  /-- The mailbox of host core 0 to 31 (floor × 16 + core): class H. -/
  | core (c : Nat)
  /-- Member 0 of the group, through VC 2 channel 0, as host port 0 (R488): class H. -/
  | member (m : Nat)
  /-- An FB_REQUEST item of a ring: class C, for the item's context. -/
  | item (ring seq ctx : Nat)
  deriving DecidableEq, Repr

/-- One operation record (Table 2.9). -/
structure OpRec where
  index : Nat
  sub : Nat
  target : Nat := 0
  ty : Nat := 0
  status : Nat := 0
  value : Bytes := []
  deriving DecidableEq, Repr

/-- What the checks of signed and sealed payloads find: their outcome is the command's operand, since the algorithms
are external standards (log entry 7). -/
structure Verif where
  /-- The certificate chain verifies to the root that the rule names. -/
  chain : Bool := true
  /-- The signature over the payload verifies. -/
  sig : Bool := true
  /-- Values measured while the command runs, in the order its rule names them. -/
  meas : List Nat := []
  deriving DecidableEq, Repr

/-- One Field Book Access Protocol frame (Table 2.7) and the findings its payload meets. -/
structure Frame where
  version : Nat := 1
  ty : Nat
  flags : Nat := 0
  status : Nat := 0
  length : Nat
  reqId : Nat
  rsvd : Nat := 0
  payload : Bytes
  verif : Verif := {}
  deriving DecidableEq, Repr

/-- The errors that the array of the addressed line now holds (R133, R160, R162): for a buffer line the wrong bits of each of its
32 words of 64 bits, for a stack line the wrong symbols of each of its four codewords; a granule past the list's end has
none. -/
structure Ecc where
  errs : List Nat := []
  deriving DecidableEq, Repr

/-- No granule of the line holds an error. -/
def Ecc.clean : Ecc := {}

/-- A party as lock words and holdings name it (Table 8.8): kind 1 tile site, 2 host core, 3 context, 4 neighbour
station, 5 host port. -/
structure Party where
  kind : Nat := 0
  num : Nat := 0
  deriving DecidableEq, Repr

/-- A site protocol flit: its header (Table 12.2), its data slot and its link word (R431). -/
structure Flit where
  op : Nat
  release : Bool := false
  rsvd : Nat := 0
  ctx : Nat := 0
  tag : Nat := 0
  addr : Nat := 0
  len : Nat := 0
  crClass : Nat := 0
  crCount : Nat := 0
  operand : Nat := 0
  data : Bytes := []
  /-- The link word (R431): SEQ, ACK, NAK, the reserved bit 0 and the CRC-16. -/
  seq : Nat := 0
  ack : Nat := 127
  nak : Bool := false
  low : Bool := false
  crc : Nat := 0
  deriving DecidableEq, Repr

/-- What training finds of one direction of a bond module (R414): the failing DQ signals, the number of failing HQ or LQ signals, and
whether VLD or FCLK fails, for which Table 12.1 has no repair signal. -/
structure BondDir where
  dq : List Nat := []
  ctl : Nat := 0
  strobe : Bool := false
  deriving DecidableEq, Repr

/-- What training finds of a bond module, by direction as the floor sees it (R414). -/
structure BondTest where
  tx : BondDir := {}
  rx : BondDir := {}
  deriving DecidableEq, Repr

/-- The operands of an atomic operation (Table 8.4 without ATOP, Table 8.5): who issues it, in which context, where, and
with which word fields and operand bytes. -/
structure AtomArgs where
  party : Party
  /-- Floor of the grid port or link that carries it. -/
  floor : Nat
  ctx : Nat
  va : Nat
  fmt : Nat := 0
  ofmt : Nat := 0
  cnt : Nat := 0
  size : Bool := false
  fetch : Bool := false
  rsvd : Nat := 0
  operand : Bytes := []
  /-- For a tile: the bond module; for a tile or a link engine: the TAG. -/
  bond : Nat := 0
  tag : Nat := 0
  /-- For a tile: the rest of its ATOMIC flit (Table 12.2, R431): OP where reserved, RELEASE, unused fields, credits and link word. -/
  flit : Flit := { op := 3 }
  deriving DecidableEq, Repr

/-- A site sideband message as received (R433): header fields, its CRC, its payload, whose length is LEN, and what the checks of its
evidence find. TYPE is the command's own unless `ty` gives one that no command of a tile has. -/
structure SbMsg where
  ty : Option Nat := none
  version : Nat := 1
  seq : Nat := 0
  rsvd : Nat := 0
  crc : Nat := 0
  payload : Bytes := []
  verif : Verif := {}
  deriving DecidableEq, Repr


/-- A link message as received (Table 10.5): its header fields and the 192 bits of BODY. -/
structure LinkMsg where
  version : Nat := 1
  ty : Nat := 0
  rsvd : Nat := 0
  sender : Nat := 0xFFFF
  senderPort : Nat := 0
  body : Nat := 0
  deriving DecidableEq, Repr

/-- A link frame as received (Table 10.3), with what its CRC, the FEC of its codewords, and on a SEALED port its tag, are found
to be (log 7). -/
structure LinkFrame where
  seq : Nat
  ack : Nat := 0
  nak : Bool := false
  kind : Nat := 0
  vc : Nat := 0
  creditVc : Nat := 0
  credit : Nat := 0
  chainLo : Nat := 0
  bytes : Nat := 256
  stream : Nat := 0
  payload : Bytes := []
  crc : Nat := 0
  /-- The tag of a SEALED frame, whose payload is ciphertext. -/
  tag : Nat := 0
  /-- Symbols the FEC corrected, and codewords that it could not. -/
  fixed : Nat := 0
  lost : Nat := 0
  deriving DecidableEq, Repr

/-- What a survey step finds when it ends (R611): its time, and what its tests measured (log 7). -/
structure Found where
  /-- µs since the step began. -/
  us : Nat := 0
  /-- The step's own check passes. -/
  ok : Bool := true
  /-- Step 05: PLLs locked, per floor; 10: multipliers that the retention pass requires, per stack. -/
  nums : List Nat := []
  /-- Physical units that failed, as kind, parent and index; at step 06 bridge lanes as 1, direction, lane. -/
  units : List (Nat × Nat × Nat) := []
  /-- Step 09 on the warm fast path: channels that failed its steps and took the cold ones (R191), in the same form. -/
  fell : List (Nat × Nat × Nat) := []
  /-- Step 10: a logical address in each row that failed. -/
  rows : List Nat := []
  /-- Step 07: the calibration of both floors, 266 numbers each. -/
  cal : List Nat := []
  /-- Survey-time eyes: kind, number, lane, width and height. -/
  eyes : List (Nat × Nat × Nat × Nat × Nat) := []
  /-- Step 03: ROM digest; 04: the image; 07: F1's digest. -/
  data : Bytes := []
  verif : Verif := {}
  /-- A returned F0's step 04: what the sources 1 to 3 of R619 deliver and the checks of it find (R114). -/
  images : List (Bytes × Verif) := []
  /-- Step 04: ISSUE_IDs of stored licences whose chain or signature fails. -/
  licences : List Nat := []
  deriving DecidableEq, Repr
/-- Whose item or transaction a FILL is for (Table 3.3, R148): its context and its epoch. -/
structure FillReq where
  ctx : Nat
  epoch : Nat
  deriving DecidableEq, Repr

/-- What a port's partner shows as keys are exchanged (R350 to R353): whether its chain and signature verify (log 7), its serial
number and its ephemeral public key. -/
structure LinkPeer where
  auth : Bool := false
  serial : Nat := 0
  pub : Bytes := []
  deriving DecidableEq, Repr

/-- What ends a link port's retraining (R340, R355): whether it succeeds at the current width and then at each narrower one in turn,
and the next chainage that the partner's training frames tell. -/
structure LinkRetrain where
  oks : List Bool
  chain : Nat := 0
  deriving DecidableEq, Repr

/-- The commands. -/
inductive Instr where
  /-- TLS_CONNECT (R73): A TLS connection arrives on MG0 or MG1 and is authenticated and opened as a Field Book Access Protocol session, or refused when 8 sessions are open. -/
  | tlsConnect (p root leaf : Nat) (f : Verif)
  /-- HELLO (R74): The first frame of a session is answered with the serial, schema, session number and greatest payload. -/
  | hello (n : Nat) (f : Frame)
  /-- FB_READ (R76): A READ frame is carried out record by record against the named target layers. -/
  | fbRead (rq : Rq) (f : Frame)
  /-- DESCRIBE (R697): A DESCRIBE frame returns each named entry's descriptor, default, minimum and maximum to any access class. -/
  | describe (rq : Rq) (f : Frame)
  /-- WRITE_DIRECT (R35): A write with target running to a LIVE or COLD entry that has no behaviour of its own is accepted and applied at the owning block's next item boundary, or held as pending. -/
  | writeDirect (rq : Rq) (f : Frame)
  /-- WRITE_DRAFT (R51): A write with target draft is checked for type, range, access class and licence and is stored in the open draft. -/
  | writeDraft (rq : Rq) (f : Frame)
  /-- WRITE_STORED_LAYER (R69): A class O write with target baseline or sheet changes only the stored layer in board flash. -/
  | writeStoredLayer (rq : Rq) (f : Frame)
  /-- SUBSCRIBE (R700): A SUBSCRIBE is checked as a whole and then replaces the session's subscription to event classes and named entries. -/
  | subscribe (n : Nat) (f : Frame)
  /-- UNSUBSCRIBE (R80): An UNSUBSCRIBE ends every subscription of the session. -/
  | unsubscribe (n : Nat) (f : Frame)
  /-- PING (R75): A PING is answered in arrival order. -/
  | ping (n : Nat) (f : Frame)
  /-- BYE (R74): A BYE is answered and the session is closed. -/
  | bye (n : Nat) (f : Frame)
  /-- SESSION_IDLE_TIMEOUT (R73): A session that has sent no frame for 300 s is closed. -/
  | sessionIdleTimeout (n secs : Nat)
  /-- DRAFT_OPEN (R49): A draft is opened for the requesting session or mailbox, or refused with REJECT_BUSY when one is open. -/
  | draftOpen (rq : Rq) (reqId : Nat) (v : Bytes) (f : Verif)
  /-- DRAFT_DISCARD (R50): The owner, or class O for a class H draft, discards the open draft. -/
  | draftDiscard (rq : Rq) (reqId : Nat) (v : Bytes) (f : Verif)
  /-- DRAFT_IDLE_TIMEOUT (R54): A draft that no write has reached for DRAFT_IDLE_TIMEOUT is discarded. -/
  | draftIdleTimeout (ms : Nat)
  /-- COMMIT (R56): A write of 1 to COMMIT checks ownership, licences and coupling groups and begins waiting for at most one live epoch. -/
  | commit (rq : Rq) (reqId : Nat) (v : Bytes) (f : Verif)
  /-- COMMIT_SWITCH (R60): Once at most one epoch is live, the new values are loaded into the free banks, acceptance pauses, the new epoch becomes current and the commit replies. -/
  | commitSwitch
  /-- COMMIT_TIMEOUT_EXPIRED (R56): A commit still waiting at step 4 after COMMIT_TIMEOUT ends with FB_EPOCH_FULL and releases its held draft. -/
  | commitTimeoutExpired (ms : Nat)
  /-- SURVEYOR_COMMIT (R65): The surveyor commits its own draft of cadastre entries at an epoch boundary, ahead of any waiting operator commit. -/
  | surveyorCommit
  /-- LICENCE_INSTALL (R529): A licence is verified for signature and serial binding and stored. -/
  | licenceInstall (rq : Rq) (reqId : Nat) (v : Bytes) (f : Verif)
  /-- LICENCE_REMOVE (R530): Licences carrying the named features are marked for deletion at the next survey. -/
  | licenceRemove (rq : Rq) (reqId : Nat) (v : Bytes) (f : Verif)
  /-- SAVE_RUNNING (R69): All sheet-able runtime overrides are written into the named stored layer. -/
  | saveRunning (rq : Rq) (reqId : Nat) (v : Bytes) (f : Verif)
  /-- SHEET_CLEAR (R69): A stored sheet is emptied. -/
  | sheetClear (n : Nat) (rq : Rq) (reqId : Nat) (v : Bytes) (f : Verif)
  /-- COUNTER_CLEAR (R84): Every counter of the named group is set to 0. -/
  | counterClear (rq : Rq) (reqId : Nat) (v : Bytes) (f : Verif)
  /-- COUNTER_LATCH (R85): While confidential-resident, the counters and telemetry seen by classes O and H are latched at each 100 ms AOCLK boundary. -/
  | counterLatch
  /-- SENSOR_READ (R598): Returns the 264 temperature readings of a floor with their validity bits. -/
  | sensorRead (rq : Rq) (reqId : Nat) (v : Bytes) (f : Verif)
  /-- EYE_HISTORY_READ (R643): Returns the survey-time eye and 64 daily minima of a lane, bit or module. -/
  | eyeHistoryRead (rq : Rq) (reqId : Nat) (v : Bytes) (f : Verif)
  /-- MONITOR_SLACK_READ (R641): Returns the latest slack of each of a floor's 64 path-delay monitors. -/
  | monitorSlackRead (rq : Rq) (reqId : Nat) (v : Bytes) (f : Verif)
  /-- RING_COUNTERS (R85): Returns the taking, acceptance and completion counts of a ring, zeroed for a confidential context's ring. -/
  | ringCounters (rq : Rq) (reqId : Nat) (v : Bytes) (f : Verif)
  /-- STREAM_COUNTERS (R378): Returns the frame, byte, held-frame and leg counts of a stream on a port. -/
  | streamCounters (rq : Rq) (reqId : Nat) (v : Bytes) (f : Verif)
  /-- LEG_COUNTERS (R374): Returns the state, frames and waiting time of each leg of a live traverse item. -/
  | legCounters (rq : Rq) (reqId : Nat) (v : Bytes) (f : Verif)
  /-- MY_RING_COUNTERS (R85): Returns unlatched counters of a ring of the requesting context. -/
  | myRingCounters (rq : Rq) (reqId : Nat) (v : Bytes) (f : Verif)
  /-- MY_CORE_COUNTERS (R85): Returns unlatched counters of a core bound to the requesting context. -/
  | myCoreCounters (rq : Rq) (reqId : Nat) (v : Bytes) (f : Verif)
  /-- SIDEBAND_STATE_MESSAGE (R102): A state message from the other floor's always-on island arrives every 1 µs and is judged for die loss. -/
  | sidebandStateMessage (f msg : Nat)
  /-- SIDEBAND_SILENT (R104): F1 that receives no state message from F0 for 5 µs completes its items, accepts none and asserts ALERT_N. -/
  | sidebandSilent (us : Nat)
  /-- F0_RETURN_TIMEOUT (R113): F1 asserts ALERT_N when F0 has not returned within F0_RETURN_TIMEOUT and keeps waiting. -/
  | f0ReturnTimeout (ms : Nat)
  /-- DIE_READMIT (R114): A returning die is re-surveyed under F0's lead, writes FAIL_DIE records for unanswered items and resynchronises its MIRROR segments. -/
  | dieReadmit (f : Nat) (own : Bool) (g : Found)
  /-- READMIT_COMMIT (R118): Re-admission ends with a surveyor commit that restores the die's units and banks and clears DIE_STATE. -/
  | readmitCommit
  /-- BRIDGE_FLIT_RECEIVE (R97): A bridge flit is received, checked and delivered, or discarded with every later flit and answered by NAK. -/
  | bridgeFlitReceive (f head : Nat) (body : Bytes)
  /-- BRIDGE_NAK_RECEIVE (R98): A NAK makes the bridge transmitter replay from the NAKed point. -/
  | bridgeNakReceive (f ack : Nat)
  /-- BRIDGE_RETRAIN (R99): After 8 NAKs of one flit both floors retrain the bridge, holding traffic, and a failure makes the bridge down. -/
  | bridgeRetrain (ok : Bool) (bad : List Nat)
  /-- BRIDGE_LANE_SPARE (R100): A lane blamed for BRIDGE_LANE_ERR_LIMIT corrupt flits within 1 ms is moved to an unused spare lane. -/
  | bridgeLaneSpare (d lane n us : Nat)
  /-- FILL (R92): The home floor receives a FILL, removes the victim way from its directory and sends DATA or queues the fill. -/
  | fill (r : FillReq) (pa way : Nat) (ecc : Ecc)
  /-- DATA (R91): DATA from the home installs the line and answers every queued requester. -/
  | dataMsg (fl pa st : Nat) (data : Bytes)
  /-- INV (R93): An INV from the home invalidates the remote copy and is answered with INV_ACK. -/
  | invMsg (fl pa : Nat)
  /-- INV_ACK (R94): An INV_ACK at the home releases every held write completion and queued fill. -/
  | invAck (f pa : Nat)
  /-- RLC_FLUSH (R119): Both remote line caches are invalidated. -/
  | rlcFlush (rq : Rq) (reqId : Nat) (v : Bytes) (f : Verif)
  /-- GRID_READ (R16): A read transaction is translated through the segment map and cadastre and served by a slice, channel or the bridge. -/
  | gridRead (fl port tag ctx va len since way : Nat) (ecc : Ecc) (wait : Bool)
  /-- GRID_WRITE (R129): A write transaction is translated and performed at the line's home, after invalidating remote copies and serialising MIRROR copies. -/
  | gridWrite (fl port tag ctx va : Nat) (data : Bytes) (rel : Bool) (ecc : Ecc) (wait : Bool)
  /-- AGE_PROMOTE (R124): A transaction that has waited GRID_AGE_PROMOTE is served before every transaction that has not. -/
  | agePromote (target j ns : Nat)
  /-- BUF_SCRUB (R136): A slice scrubs its lines once per BUF_SCRUB_PERIOD, writing back corrected words. -/
  | bufScrub (slice line : Nat) (ecc : Ecc)
  /-- SLICE_CE_RETIRE (R137): A slice whose corrected errors in one hour exceed BUF_CE_RETIRE_LIMIT is retired to a spare. -/
  | sliceCeRetire (slice : Nat)
  /-- SEGMAP_WRITE (R142): Segment-map records are checked and applied in order, each filling, emptying or changing a slot. -/
  | segmapWrite (rq : Rq) (reqId : Nat) (v : Bytes) (f : Verif)
  /-- SEGMAP_RECORD_DRAINED (R144): A record that waited for its context's earlier items is applied: both copies written, caches invalidated and new buffer footprint zeroed. -/
  | segmapRecordDrained (rq : Rq)
  /-- SEGMAP_DRAIN_TIMEOUT (R143): A record whose wait exceeds SEGMAP_DRAIN_TIMEOUT is refused with REJECT_BUSY. -/
  | segmapDrainTimeout (rq : Rq) (us : Nat)
  /-- SEGMAP_READ (R138): Returns the entries of the named slots. -/
  | segmapRead (rq : Rq) (reqId : Nat) (v : Bytes) (f : Verif)
  /-- SEGMAP_CLEAR_CONTEXT (R143): Empties every slot of the named context after the wait of R143. -/
  | segmapClearContext (rq : Rq) (reqId : Nat) (v : Bytes) (f : Verif)
  /-- STACK_AGE_PROMOTE (R154): A channel transaction that has waited STACK_AGE_LIMIT is issued first. -/
  | stackAgePromote (chan j ns : Nat)
  /-- WRITE_DRAIN (R156): A channel controller drains writes when its write queue reaches 48 or no read waits. -/
  | writeDrain (chan : Nat)
  /-- ROW_NEIGHBOUR_REFRESH (R158): A row reaching 4,096 activations in a refresh window has its two neighbours refreshed first. -/
  | rowNeighbourRefresh (pa n : Nat)
  /-- BANK_REFRESH (R175): A bank refresh falls due and is issued, deferred at most 8 intervals while the bank is busy. -/
  | bankRefresh (chan bank rows : Nat) (busy : Bool)
  /-- STACK_PATROL (R166): Patrol scrub visits a channel's sectors once per STACK_SCRUB_PERIOD, writing back corrected sectors. -/
  | stackPatrol (st chan : Nat) (ecc : Ecc)
  /-- ROW_COPY_DONE (R169): A row copy or page retirement ends and the waiting accesses proceed at the new location. -/
  | rowCopyDone (pa : Nat)
  /-- STACK_TEMP_REPORT (R176): A stack's temperature report arrives and sets its hottest-die reading, refresh multiplier and zone evaluation. -/
  | stackTempReport (st seq : Nat) (words : List Nat) (crc : Nat)
  /-- STACK_REPORT_MISSED (R178): After 3 consecutive missed reports the stack gets the second throttle step and doubled refresh. -/
  | stackReportMissed (st : Nat)
  /-- STACK_REPORT_TIMEOUT (R178): After 100 ms without a report the stack is treated as at its shut-down level. -/
  | stackReportTimeout (st us : Nat)
  /-- STACK_CAP_REACHED (R179): When a channel's bytes in a 1 µs window reach the throttle cap, it issues no further data command until the next window. -/
  | stackCapReached (chan : Nat)
  /-- REKEY_SWEEP_DONE (R187): The re-key sweep finishes in every channel and the context enters ERASING. -/
  | rekeySweepDone (ctx : Nat)
  /-- OLD_KEY_ERASE (R187): Once every item accepted before the sweep finished has its record, the old key is erased and the context is STEADY. -/
  | oldKeyErase (ctx : Nat)
  /-- CHANNEL_COPY_DONE (R193): The raw copy of a channel to a spare ends and the move proceeds to its cadastre flip. -/
  | channelCopyDone (chan : Nat)
  /-- STACK_RETIRE_LIST (R195): Returns a stack's retire list. -/
  | stackRetireList (rq : Rq) (reqId : Nat) (v : Bytes) (f : Verif)
  /-- REKEY_QUERY (R195): Returns a context's rotation state, write slot and sweep progress. -/
  | rekeyQuery (rq : Rq) (reqId : Nat) (v : Bytes) (f : Verif)
  /-- REG_WINDOW_START (R202): At each 1 µs AOCLK edge every regulator judges misses of the last window and computes new budgets. -/
  | regWindowStart (bufDemand stackDemand waited : Nat)
  /-- MASTER_BUDGET_REACHED (R204): A master whose counted bytes reach its budget is lowered for the rest of the window. -/
  | masterBudgetReached (f medium j : Nat)
  /-- SWEEP (R230): A SWEEP item is accepted into its stack's dispatch queue for its engine set. -/
  | sweep (ring : Nat)
  /-- SWEEP_MERGE (R241): A SWEEP_MERGE item combines partial results in list order on one engine. -/
  | sweepMerge (ring : Nat)
  /-- SWEEP_DISPATCH (R244): A queued sweep item starts when every engine of its set is idle and free of sessions it may not use. -/
  | sweepDispatch (stack : Nat)
  /-- SWEEP_COMBINE (R237): When all engines of an item have finished, the lowest engine combines their values, writes outputs and the completion record. -/
  | sweepCombine (ring seq : Nat)
  /-- ENGINE_FAULT (R253): An engine fault remaps the logical engine to the spare, which recomputes the share, or fails the item with FAIL_UNIT. -/
  | engineFault (stack engine : Nat)
  /-- SWEEP_SESSION_OPEN (R249): A session open reserves engines for its context from acceptance. -/
  | sweepSessionOpen (ring : Nat)
  /-- SESSION_OPEN_DONE (R249): An open completes with DONE once the engines have finished items started before it. -/
  | sessionOpenDone (ring seq : Nat)
  /-- SWEEP_SESSION_CLOSE (R251): A session close releases the engines held by the context's session. -/
  | sweepSessionClose (ring : Nat)
  /-- SWEEP_SESSION_EXPIRE (R251): A session open for SWEEP_SESSION_LIMIT ends at the next item boundary of each engine. -/
  | sweepSessionExpire (j us : Nat)
  /-- DOORBELL_PRODUCE (R305): A PRODUCE doorbell from the ring's submitter raises the ring's PRODUCE value. -/
  | doorbellProduce (kind num word : Nat)
  /-- DOORBELL_CONSUME (R305): A CONSUME doorbell from the ring's submitter raises the ring's CONSUMED value. -/
  | doorbellConsume (kind num word : Nat)
  /-- DESCRIPTOR_TAKE (R307): A floor takes the next descriptor of a ring when allowed, checks it and refuses or accepts it with the current epoch. -/
  | descriptorTake (ring : Nat)
  /-- ORDERED_ITEM_START (R313): An ORDER item starts once every earlier item of its ring has its record. -/
  | orderedItemStart (ring seq : Nat)
  /-- FB_REQUEST (R320): An FB_REQUEST item reads its frame, carries out its operations as class C and writes the reply. -/
  | fbRequest (ring : Nat) (f : Verif)
  /-- RING_CREATE (R299): A ring is created from its creation record and its completion area zeroed. -/
  | ringCreate (rq : Rq) (reqId : Nat) (v : Bytes) (f : Verif)
  /-- RING_DELETE (R302): A ring stops taking descriptors, is closed with FAIL_ABORTED and deleted. -/
  | ringDelete (rq : Rq) (reqId : Nat) (v : Bytes) (f : Verif)
  /-- RING_REOPEN (R329): A CLOSED ring returns to ACTIVE keeping its sequences. -/
  | ringReopen (rq : Rq) (reqId : Nat) (v : Bytes) (f : Verif)
  /-- RING_QUERY (R334): Returns a ring's state, sequence values and LOST_SEQ. -/
  | ringQuery (rq : Rq) (reqId : Nat) (v : Bytes) (f : Verif)
  /-- RING_LAST_MARKS (R331): Returns the retained marks of a ring of the previous service. -/
  | ringLastMarks (rq : Rq) (reqId : Nat) (v : Bytes) (f : Verif)
  /-- CONTEXT_CREATE (R292): A context moves from FREE to LIVE and receives its stack key or awaits its confidential keys. -/
  | contextCreate (rq : Rq) (reqId : Nat) (v : Bytes) (f : Verif)
  /-- CONTEXT_DESTROY (R296): A context becomes DESTROYING, its rings stop and its unstarted and abortable items end with FAIL_ABORTED. -/
  | contextDestroy (rq : Rq) (reqId : Nat) (v : Bytes) (f : Verif)
  /-- CONTEXT_DESTROY_FINISH (R296): Once the remaining started items have records, the context is fenced, its slots emptied and zeroed, its keys erased, its rings deleted and it becomes FREE. -/
  | contextDestroyFinish (c : Nat)
  /-- CONTEXT_QUERY (R334): Returns a context's state, partition, confidentiality, rings and items without records. -/
  | contextQuery (rq : Rq) (reqId : Nat) (v : Bytes) (f : Verif)
  /-- LINK_FRAME_RECEIVE (R338): A link frame is received, checked and delivered, or discarded with every later frame and answered by NAK. -/
  | linkFrameReceive (p : Nat) (f : LinkFrame) (v : Verif)
  /-- LINK_NAK_RECEIVE (R339): A NAK makes the port transmitter replay from the named point. -/
  | linkNakReceive (p ack : Nat)
  /-- LINK_NAK_RETRAIN (R340): After 8 NAKs of one frame both ends retrain at the current width, then narrower on failure. -/
  | linkNakRetrain (p : Nat) (g : LinkRetrain)
  /-- LINK_TRAINING (R342): A port trains its lanes, chooses its width, exchanges keys when SEALED and starts its frame layer. -/
  | linkTraining (p tx rx protect : Nat) (w : LinkPeer)
  /-- PARTNER_DETECT_TIMEOUT (R342): A port that detects no partner lane within LINK_TRAIN_TIMEOUT fails training. -/
  | partnerDetectTimeout (p ms : Nat)
  /-- LINK_BER_WINDOW (R345): At the end of each 10 ms window a lane above the error limit is moved to lane 8 or the port retrains narrower. -/
  | linkBerWindow (p dir lane errs bits : Nat)
  /-- LINK_BER_GATE (R348): A port's 1 s PRBS31 gate ends and the port passes or excludes its worst lane and retrains narrower. -/
  | linkBerGate (p : Nat) (errs : List Nat) (bits lost : Nat)
  /-- DISCOVER (R363): A received DISCOVER is checked and the port becomes UP or DOWN with cause 6. -/
  | discover (p : Nat) (msg : LinkMsg)
  /-- THROTTLE (R359): A received THROTTLE counts the neighbour's zone as throttled and records a LINK event. -/
  | throttle (p : Nat) (msg : LinkMsg)
  /-- THROTTLE_REPEAT (R358): THROTTLE is resent every 10 ms while a step is in force. -/
  | throttleRepeat (kind zone us : Nat)
  /-- THROTTLE_EXPIRE (R359): A neighbour's zone is no longer counted as throttled after 30 ms without a repeat. -/
  | throttleExpire (p kind zone us : Nat)
  /-- SLEEP_NOTICE (R705): A received SLEEP_NOTICE is recorded as the neighbour's announced power state. -/
  | sleepNotice (p : Nat) (msg : LinkMsg)
  /-- DOWN_NOTICE (R705): A received DOWN_NOTICE is recorded so that the named ports go down with cause 9. -/
  | downNotice (p : Nat) (msg : LinkMsg)
  /-- LINK_RETRY (R365): A DOWN port tries to train again every LINK_RETRY_PERIOD. -/
  | linkRetry (p ms : Nat)
  /-- LINK_RETRAIN (R346): The operator takes a port down with cause 14 and retrains it from eight lanes. -/
  | linkRetrain (rq : Rq) (reqId : Nat) (v : Bytes) (f : Verif)
  /-- TRAVERSE (R371): A TRAVERSE item has its legs read and validated, claims its streams and starts leg 0. -/
  | traverse (ring : Nat)
  /-- LEG_START (R374): A leg starts once its predecessor has started and the leg named by WAITFOR has finished. -/
  | legStart (ring seq : Nat)
  /-- SEND (R385): A SEND leg sends bytes, or converted packed anchored elements, on its stream. -/
  | send (ring seq leg : Nat)
  /-- RECV (R706): A RECV leg writes its stream's bytes at DST. -/
  | recv (ring seq leg : Nat) (frame : Bytes)
  /-- FORWARD (R706): A FORWARD leg resends each received frame and optionally copies it to DST. -/
  | forward (ring seq leg : Nat) (frame : Bytes)
  /-- REDUCE_RECV (R385): A REDUCE_RECV leg adds a received packed anchored stream to local addends and sends, rounds or writes the sum. -/
  | reduceRecv (ring seq leg : Nat) (frame : Bytes)
  /-- EMAX_SEND (R389): An EMAX_SEND leg sends the largest exponent of its local elements. -/
  | emaxSend (ring seq leg : Nat)
  /-- EMAX_RECV (R389): An EMAX_RECV leg takes the larger exponent and sends it or stores it in an anchor slot. -/
  | emaxRecv (ring seq leg : Nat) (frame : Bytes)
  /-- GRANT (R384): A GRANT leg sends a CREDIT notice for the stream it receives. -/
  | grant (ring seq leg : Nat)
  /-- WAIT_CREDIT (R384): A WAIT_CREDIT leg finishes once arrived CREDIT notices sum to its COUNT. -/
  | waitCredit (ring seq leg : Nat)
  /-- ATOMIC_SEND (R392): An ATOMIC_SEND leg sends atomic records read from memory. -/
  | atomicSend (ring seq leg : Nat)
  /-- ATOMIC_RECV (R391): An ATOMIC_RECV leg performs received atomic records in order and discards, writes or sends the responses. -/
  | atomicRecv (ring seq leg : Nat) (frame : Bytes)
  /-- UNCLAIMED_HOLD_EXPIRE (R378): Frames of an unclaimed stream held for TRAV_HOLD_LIMIT are discarded and a FAIL notice is sent. -/
  | unclaimedHoldExpire (p tag us : Nat)
  /-- CREDIT_NOTICE (R384): A received CREDIT notice adds credits for a claimed tag or is held. -/
  | creditNotice (p : Nat) (msg : LinkMsg)
  /-- HOLD_NOTICE (R393): A received HOLD notice extends the patience of legs on that tag and port. -/
  | holdNotice (p : Nat) (msg : LinkMsg)
  /-- HOLD_NOTICE_SEND (R395): Every 10 ms while a leg waits under the extended limit, HOLD is sent for each claimed tag. -/
  | holdNoticeSend (ring seq us : Nat) (holdAge : Option Nat)
  /-- FAIL_NOTICE (R398): A received FAIL notice ends the claiming live item with FAIL_PATIENCE, or is remembered. -/
  | failNotice (p : Nat) (msg : LinkMsg)
  /-- FAIL_NOTICE_FORGET (R399): A remembered FAIL notice for an unclaimed tag is forgotten after TRAV_HOLD_LIMIT. -/
  | failNoticeForget (p tag us : Nat)
  /-- LEG_PATIENCE_EXPIRE (R394): A leg whose wait reaches its limit ends its item with FAIL_PATIENCE. -/
  | legPatienceExpire (ring seq leg us : Nat) (holdAge : Option Nat)
  /-- VC2_FRAME_RECEIVE (R405): A VC 2 frame is delivered locally, forwarded along GROUP_FWD or broadcast, or discarded. -/
  | vc2FrameReceive (p : Nat) (f : LinkFrame) (v : Verif)
  /-- VC2_MAILBOX (R488): A channel 0 message carries a Field Book frame for a member as host port 0. -/
  | vc2Mailbox (src req : Nat) (b : Bytes) (v : Verif)
  /-- VC2_DOORBELL (R488): A channel 1 message carries a doorbell or a completion notice between member 0 and a member. -/
  | vc2Doorbell (src req : Nat) (b : Bytes)
  /-- VC2_WRITE_DATA (R488): A channel 2 message writes host data at a member and is answered with its status. -/
  | vc2WriteData (src req st : Nat) (b : Bytes)
  /-- VC2_READ_DATA (R488): A channel 3 message reads data at a member and is answered with the data. -/
  | vc2ReadData (src req st : Nat) (b : Bytes)
  /-- GROUP_TRANSFER_REPLY (R489): A VC 2 reply to member 0 advances a transfer to another member toward DONE or its first failing status. -/
  | groupTransferReply (src req st : Nat) (reads : Bool) (b : Bytes)
  /-- GROUP_TRANSFER_TIMEOUT (R489): A transfer to another member without a reply for TRAV_PATIENCE_MAX ends with FAIL_PATIENCE. -/
  | groupTransferTimeout (n k ms : Nat)
  /-- FW_BCAST (R408): Member 0 sends a tile firmware image to the group on channel 4. -/
  | fwBcast (rq : Rq) (reqId : Nat) (v : Bytes) (f : Verif)
  /-- FW_IMAGE_RECEIVED (R409): A member that receives a complete image checks it, stores it as pending tile firmware and answers on channel 5. -/
  | fwImageReceived (busy : Bool)
  /-- FW_BCAST_ANSWER (R410): A member's channel 5 answer is recorded, and FW_BCAST replies once every named member has answered. -/
  | fwBcastAnswer (member st id : Nat)
  /-- FW_BCAST_TIMEOUT (R410): FW_BCAST replies when TRAV_PATIENCE_MAX has passed since its last frame. -/
  | fwBcastTimeout (ms : Nat)
  /-- SITE_READ (R420): A tile READ is translated, performed and answered with READ_RSP. -/
  | siteRead (t b : Nat) (f : Flit) (ecc : Ecc) (since way : Nat) (wait : Bool)
  /-- SITE_WRITE (R420): A tile WRITE is translated, performed and answered with WRITE_ACK once complete. -/
  | siteWrite (t b : Nat) (f : Flit) (ecc : Ecc) (wait : Bool)
  /-- SITE_DOORBELL (R426): A tile DOORBELL is taken as coming from the site, forwarded over the bridge for the other floor's rings. -/
  | siteDoorbell (t b : Nat) (f : Flit)
  /-- WORK_DONE (R318): A tile WORK_DONE answers a SITE_WORK item and its completion record is written. -/
  | workDone (t b : Nat) (f : Flit)
  /-- SITE_WORK (R426): A SITE_WORK item is handed to the site as one WORK message. -/
  | siteWork (ring : Nat)
  /-- VSET (R437): A VSET asks for a VCORE voltage and the floor starts moving the rail or refuses. -/
  | vset (t b : Nat) (f : Flit)
  /-- VSET_SETTLED (R437): VCORE has settled at the asked value and VSET_ACK is sent. -/
  | vsetSettled (t : Nat)
  /-- FW_STATUS (R441): A tile reports the outcome of its firmware load. -/
  | fwStatus (t b : Nat) (f : Flit)
  /-- NULL (R429): A NULL flit returns credits only. -/
  | nullFlit (t b : Nat) (f : Flit)
  /-- SITE_FLIT_CORRUPT (R432): A corrupt site flit is discarded with every later one and answered by NAK. -/
  | siteFlitCorrupt (t b : Nat)
  /-- SITE_NAK_RECEIVE (R432): A NAK makes the bond module replay from its replay buffer. -/
  | siteNakReceive (t b seq : Nat)
  /-- BOND_RETRAIN (R432): After 8 NAKs of one flit both ends retrain the bond module. -/
  | bondRetrain (t b : Nat) (test : BondTest) (rsp work : Nat)
  /-- PROTO_ERR_LIMIT (R425): When SITE_PROTO_ERRS rises by SITE_PROTO_ERR_LIMIT within 1 ms the site is fenced with cause 4. -/
  | protoErrLimit (t rise : Nat)
  /-- SITE_WORK_TIMEOUT (R427): A SITE_WORK item without WORK_DONE for SITE_WORK_TIMEOUT fences the site with cause 3. -/
  | siteWorkTimeout (ring seq us : Nat)
  /-- SB_HELLO (R439): A tile's sideband HELLO starts bond training and leads to OFFER. -/
  | sbHello (t : Nat) (msg : SbMsg) (tests : List (List BondTest)) (rsp work : List Nat)
  /-- SB_ACCEPT (R439): A tile's ACCEPT confirms the offered rate and modules, or a mismatch fences with cause 4. -/
  | sbAccept (t : Nat) (msg : SbMsg)
  /-- SB_EVIDENCE (R510): A tile's EVIDENCE is verified and the security controller admits or refuses the tile under its policy. -/
  | sbEvidence (t : Nat) (msg : SbMsg)
  /-- SB_FENCE_REQ (R443): A tile's FENCE_REQ fences the site. -/
  | sbFenceReq (t : Nat) (msg : SbMsg)
  /-- SB_ACK (R433): A sideband ACK acknowledges the floor's outstanding message. -/
  | sbAck (t : Nat) (msg : SbMsg)
  /-- SIDEBAND_LOST (R434): A sideband silent for 10 ms after HELLO fences the site with cause 6. -/
  | sidebandLost (t us : Nat)
  /-- HELLO_TIMEOUT (R435): No HELLO within SITE_HELLO_TIMEOUT after reset release fences the site with cause 6. -/
  | helloTimeout (t us : Nat)
  /-- EVIDENCE_TIMEOUT (R440): No EVIDENCE within 1 s of a CHALLENGE refuses the tile. -/
  | evidenceTimeout (t us : Nat)
  /-- LN_N_ASSERT (R590): LN_N low puts the site's VCORE regulator into fast-response mode with every phase active. -/
  | lnNAssert (t : Nat)
  /-- LN_N_RELEASE (R590): LN_N released ends fast-response mode. -/
  | lnNRelease (t : Nat)
  /-- LN_N_OVERLONG (R438): An LN_N assertion held beyond 2 µs is ignored until released and counted. -/
  | lnNOverlong (t ns : Nat)
  /-- TILE_RECHECK (R512): Every TILE_RECHECK_PERIOD the site is challenged again and fenced with cause 13 when its evidence changed. -/
  | tileRecheck (t us : Nat)
  /-- SITE_FENCE (R444): The operator fences a site with cause 2. -/
  | siteFence (n : Nat) (rq : Rq) (reqId : Nat) (v : Bytes) (f : Verif)
  /-- SITE_READMIT_NOW (R446): Re-admission of a fenced site through steps 14 to 16 is started. -/
  | siteReadmitNow (n : Nat) (rq : Rq) (reqId : Nat) (v : Bytes) (f : Verif)
  /-- SITE_READMIT_AUTO (R446): With SITE_READMIT set, a fenced site whose cause has ended is re-admitted. -/
  | siteReadmitAuto (t : Nat)
  /-- PARTY_FENCE_DRAINED (R664): Once a fenced party's transactions have completed, its holdings are reclaimed, dependent items closed with FAIL_FENCED and the fence reported. -/
  | partyFenceDrained (kind num : Nat)
  /-- HOST_CORE_START (R454): A core is reset, its caches invalidated, bound to a context and released at the entry address. -/
  | hostCoreStart (n : Nat) (rq : Rq) (reqId : Nat) (v : Bytes) (f : Verif)
  /-- HOST_CORE_STOP (R470): A core is reset and held in RESET. -/
  | hostCoreStop (n : Nat) (rq : Rq) (reqId : Nat) (v : Bytes) (f : Verif)
  /-- HOST_CORE_FENCE (R466): The operator fences a core with cause 2. -/
  | hostCoreFence (n : Nat) (rq : Rq) (reqId : Nat) (v : Bytes) (f : Verif)
  /-- CORE_DOORBELL_WRITE (R456): A core's DOORBELL store is performed after its earlier uncached stores complete. -/
  | coreDoorbellWrite (c word : Nat)
  /-- CORE_WORK (R460): A CORE_WORK item is written as a work entry into a free slot of its target core. -/
  | coreWork (ring : Nat)
  /-- WORK_POP (R455): A read of WORK_POP takes the oldest waiting work entry. -/
  | workPop (c : Nat)
  /-- CORE_WORK_DONE (R460): A write to the core's WORK_DONE registers answers a CORE_WORK item or is dropped and counted. -/
  | coreWorkDone (c val : Nat)
  /-- NOTICE_POP (R462): A read of NOTICE_POP takes the oldest notice vector with its LOST bit. -/
  | noticePop (c : Nat)
  /-- CACHE_CLEAN (R457): CACHE_OP code 1 cleans the named lines in the floor's core caches. -/
  | cacheClean (c lines : Nat)
  /-- CACHE_INVALIDATE (R457): CACHE_OP code 2 invalidates the named lines. -/
  | cacheInvalidate (c lines : Nat)
  /-- CACHE_CLEAN_INVALIDATE (R457): CACHE_OP code 3 cleans and invalidates the named lines. -/
  | cacheCleanInvalidate (c lines : Nat)
  /-- CACHE_OP_DONE (R457): A cache operation ends and CACHE_OP reads 0. -/
  | cacheOpDone (c : Nat)
  /-- DRAW (R464): A read of DRAW returns split of seed and index and increments DRAW_INDEX. -/
  | draw (c : Nat)
  /-- ENTROPY (R465): A read of ENTROPY returns 64 DRBG bits, stalling beyond the rate limit. -/
  | entropy (c : Nat)
  /-- INT_PENDING_CLEAR (R463): A write-1-to-clear of INT_PENDING clears the named interrupt sources. -/
  | intPendingClear (c mask : Nat)
  /-- REGISTER_WRITE (R455): A write to a local-page or BAR0 register that has no behaviour of its own stores its value. -/
  | registerWrite (kind n off val : Nat)
  /-- CORE_MBX_GO (R459): A write of 1 to a core's MBX_GO sends its mailbox request frame to the surveyor as class H. -/
  | coreMbxGo (c : Nat) (f : Verif)
  /-- MBX_REPLY_READY (R459): The surveyor's reply lands in the mailbox and MBX_GO reads 2. -/
  | mbxReplyReady (rq : Rq)
  /-- CORE_SEGMENT_ACCESS (R453): A core load or store to a segment window is a grid transaction tagged with the bound context. -/
  | coreSegmentAccess (c addr len : Nat) (store : Option Bytes) (evict : List Nat) (ecc : Ecc) (wait : Bool)
  /-- HOST_WORK_TIMEOUT (R461): A CORE_WORK item without WORK_DONE for HOST_WORK_TIMEOUT fences the core with cause 3. -/
  | hostWorkTimeout (ring seq us : Nat)
  /-- CORE_CACHE_UE (R467): An uncorrectable error in a dirty core cache line fences the core with cause 4 and spares or withdraws it. -/
  | coreCacheUe (c : Nat)
  /-- HP_DOORBELL_WRITE (R477): A BAR0 DOORBELL write is sent to the GROUP_TARGET member after earlier BAR2 writes and transfers complete. -/
  | hpDoorbellWrite (n word : Nat)
  /-- HP_MBX_GO (R476): A host port's MBX_GO sends its request frame as class H, to itself or a group member. -/
  | hpMbxGo (n : Nat) (f : Verif)
  /-- FW_READY (R620): At survey step 04 the host declares a staged image in BAR4 for verification. -/
  | fwReady (n v : Nat) (image : Bytes) (f : Verif) (bad : List Nat)
  /-- BAR2_READ (R479): A BAR2 read is a grid read of APERTURE_CTX, or Unsupported Request. -/
  | bar2Read (n tag off len : Nat) (ecc : Ecc) (since way : Nat) (wait : Bool)
  /-- BAR2_WRITE (R479): A BAR2 write is a grid write of APERTURE_CTX, or is dropped. -/
  | bar2Write (n tag off : Nat) (data : Bytes) (ecc : Ecc) (wait : Bool)
  /-- XFER_TO_MODULE (R481): GO with DIR 0 starts a host-to-module transfer on a channel. -/
  | xferToModule (n k ctl : Nat) (data records : Bytes)
  /-- XFER_TO_HOST (R481): GO with DIR 1 starts a module-to-host transfer on a channel. -/
  | xferToHost (n k ctl : Nat)
  /-- XFER_END (R482): A transfer ends, its STATUS is set and MSI-X vector 2,032 + k is raised. -/
  | xferEnd (n k : Nat)
  /-- SPDM_REQUEST (R484): A DOE SPDM request is answered by F0's security controller with the settings of Table 14.4. -/
  | spdmRequest (n code sess : Nat)
  /-- GET_MEASUREMENTS (R521): An SPDM GET_MEASUREMENTS returns the measurement blocks and a KIND 0 report. -/
  | getMeasurements (n idx : Nat) (nonce : Bytes)
  /-- XFER_BIND (R485): A channel is bound to a context for sealed transfers after its authorisation value is checked. -/
  | xferBind (n sess k ctx : Nat) (auth : Bytes)
  /-- XFER_UNBIND (R485): A channel's sealed-transfer binding ends. -/
  | xferUnbind (n sess k : Nat)
  /-- HP_LINK_DOWN (R498): Loss of a host port's PCIe link fences the port. -/
  | hpLinkDown (n : Nat)
  /-- FUNCTION_LEVEL_RESET (R498): A Function Level Reset fences the host port. -/
  | functionLevelReset (n : Nat)
  /-- HP_PERST (R695): HPn_PERST_N asserted takes an endpoint port's link down and fences it with cause 4. -/
  | hpPerst (n : Nat)
  /-- HP_FENCE (R498): The operator fences a host port with cause 2. -/
  | hpFence (n : Nat) (rq : Rq) (reqId : Nat) (v : Bytes) (f : Verif)
  /-- FAR_DEVICE_ATTACH (R490): A root port enumerates its CXL device, programs its decoder or reports UNSUPPORTED. -/
  | farDeviceAttach (n kind cap : Nat) (device : Bytes)
  /-- FAR_DEVICE_DOWN (R499): The far device link goes down and running checkpoint items fail with FAIL_UNIT. -/
  | farDeviceDown (n : Nat)
  /-- FAR_TEST (R500): PRBS31 is written over a far range and read back, returning the error count. -/
  | farTest (n : Nat) (rq : Rq) (reqId : Nat) (v : Bytes) (f : Verif)
  /-- CHECKPOINT_SAVE (R495): A CHECKPOINT_SAVE item starts moving its lines to a far extent. -/
  | checkpointSave (ring : Nat)
  /-- CHECKPOINT_LOAD (R496): A CHECKPOINT_LOAD item starts reading and verifying a far extent. -/
  | checkpointLoad (ring : Nat)
  /-- CHECKPOINT_MOVE_DONE (R496): A checkpoint item's data movement ends, a LOAD writes its destination after verification and the record is written. -/
  | checkpointMoveDone (ring seq : Nat) (h b : Bytes) (hPoison bPoison : Bool)
  /-- ANCH_INIT_FIXED (R274): Cells are cleared and given the stated anchor. -/
  | anchInitFixed (a : AtomArgs) (wait : Bool)
  /-- ANCH_INIT_AUTO (R274): Cells are cleared with AUTO set and no anchor. -/
  | anchInitAuto (a : AtomArgs) (wait : Bool)
  /-- ANCH_EMAX (R277): Each cell still gathering its anchor takes the larger exponent, or sets LATE. -/
  | anchEmax (a : AtomArgs) (wait : Bool)
  /-- ANCH_ADD (R275): Elements are converted under the cell anchor and added exactly to the cells. -/
  | anchAdd (a : AtomArgs) (wait : Bool)
  /-- ANCH_ADD_RAW (R276): Cell images of equal anchor are merged into the cells, or none is merged. -/
  | anchAddRaw (a : AtomArgs) (wait : Bool)
  /-- ANCH_READ (R268): Cells are rounded once to the output format and returned with flag words. -/
  | anchRead (a : AtomArgs) (wait : Bool)
  /-- ANCH_READ_RAW (R274): Raw cell images are returned. -/
  | anchReadRaw (a : AtomArgs) (wait : Bool)
  /-- ANCH_FETCH_CLEAR (R287): Cell images are returned and the cells cleared, keeping their anchors. -/
  | anchFetchClear (a : AtomArgs) (wait : Bool)
  /-- FADD_FP32 (R702): An unanchored FP32 addition is performed at the target. -/
  | faddFp32 (a : AtomArgs) (wait : Bool)
  /-- FADD_BF16 (R702): An unanchored BF16 addition is performed at the target. -/
  | faddBf16 (a : AtomArgs) (wait : Bool)
  /-- FADD_FP16 (R702): An unanchored FP16 addition is performed at the target. -/
  | faddFp16 (a : AtomArgs) (wait : Bool)
  /-- IADD (R287): An integer addition modulo the width is performed at the target. -/
  | iadd (a : AtomArgs) (wait : Bool)
  /-- IAND (R287): A bitwise AND is performed at the target. -/
  | iand (a : AtomArgs) (wait : Bool)
  /-- IOR (R287): A bitwise OR is performed at the target. -/
  | ior (a : AtomArgs) (wait : Bool)
  /-- IXOR (R287): A bitwise XOR is performed at the target. -/
  | ixor (a : AtomArgs) (wait : Bool)
  /-- SMIN (R287): A signed minimum is performed at the target. -/
  | smin (a : AtomArgs) (wait : Bool)
  /-- SMAX (R287): A signed maximum is performed at the target. -/
  | smax (a : AtomArgs) (wait : Bool)
  /-- UMIN (R287): An unsigned minimum is performed at the target. -/
  | umin (a : AtomArgs) (wait : Bool)
  /-- UMAX (R287): An unsigned maximum is performed at the target. -/
  | umax (a : AtomArgs) (wait : Bool)
  /-- SWAP (R287): The operand is written and the old value returned. -/
  | swap (a : AtomArgs) (wait : Bool)
  /-- CAS (R287): The new value is written when the old equals the compare value, and the old value returned. -/
  | cas (a : AtomArgs) (wait : Bool)
  /-- LOCK (R283): A free lock word is taken for the issuing party and the holding recorded. -/
  | lock (a : AtomArgs) (wait : Bool)
  /-- UNLOCK (R284): A lock word held by the issuing party is freed and its holding removed. -/
  | unlock (a : AtomArgs) (wait : Bool)
  /-- SEC_VERSION_ADVANCE (R508): SVN_FUSES are burned up to the running image's security version. -/
  | secVersionAdvance (rq : Rq) (reqId : Nat) (v : Bytes) (f : Verif)
  /-- ATTEST_REPORT (R521): A KIND 0 attestation report over the given nonce is signed and returned. -/
  | attestReport (rq : Rq) (reqId : Nat) (v : Bytes) (f : Verif)
  /-- KEY_REQUEST (R523): An ephemeral key pair and REQ_ID are drawn and a signed key-release request returned. -/
  | keyRequest (rq : Rq) (reqId : Nat) (v : Bytes) (f : Verif)
  /-- KEY_INSTALL (R525): A broker's release message is verified, unwrapped and its key installed with the granted lease. -/
  | keyInstall (rq : Rq) (reqId : Nat) (v : Bytes) (f : Verif)
  /-- KEY_REQUEST_EXPIRE (R526): An open key request ends and its ephemeral key is erased after KEY_REQUEST_TTL. -/
  | keyRequestExpire (id ms : Nat)
  /-- KEY_ROTATE (R540): A context's stack key is rotated: new key installed in the free slot, write slot flipped and re-key sweep started. -/
  | keyRotate (rq : Rq) (reqId : Nat) (v : Bytes) (f : Verif)
  /-- KEY_ERASE (R559): A context's CHECKPOINT key is erased. -/
  | keyErase (rq : Rq) (reqId : Nat) (v : Bytes) (f : Verif)
  /-- KEY_QUERY (R559): Returns the presence of a context's keys, stack state and leases. -/
  | keyQuery (rq : Rq) (reqId : Nat) (v : Bytes) (f : Verif)
  /-- LEASE_UNSEAL (R546): A lease record is checked and its key installed without the broker. -/
  | leaseUnseal (rq : Rq) (reqId : Nat) (v : Bytes) (f : Verif)
  /-- LEASE_REVOKE (R547): The named lease records are erased. -/
  | leaseRevoke (rq : Rq) (reqId : Nat) (v : Bytes) (f : Verif)
  /-- LEASE_LIST (R559): Returns the stored lease records with their time left. -/
  | leaseList (rq : Rq) (reqId : Nat) (v : Bytes) (f : Verif)
  /-- LEASE_EXPIRY (R547): A lease record whose EXPIRY reaches ISLAND_SECONDS is erased. -/
  | leaseExpiry (secs : Nat)
  /-- DEBUG_CHALLENGE (R550): Returns a fresh nonce for a debug unlock. -/
  | debugChallenge (rq : Rq) (reqId : Nat) (v : Bytes) (f : Verif)
  /-- DEBUG_UNLOCK (R550): A Cloesk debug token is verified and every instrument and console opened until PORST_N. -/
  | debugUnlock (rq : Rq) (reqId : Nat) (v : Bytes) (f : Verif)
  /-- JTAG_INSTRUCTION (R548): A TAP instruction acts or is treated as BYPASS according to confidential residence and DEBUG_PORTS. -/
  | jtagInstruction (code : Nat)
  /-- CONSOLE_INPUT (R692): Console input is acted on or ignored as R548 and R549 decide. -/
  | consoleInput (console code : Nat)
  /-- PLL_LOCK (R563): A PLL passes 8 consecutive count windows and is locked. -/
  | pllLock (f bit n : Nat)
  /-- PLL_UNLOCK (R565): A PLL outside tolerance for 2 windows is taken as unlocked and acted on as Table 17.2 gives. -/
  | pllUnlock (f bit n : Nat)
  /-- DOMAIN_SWITCH (R567): A clock domain is stopped, switched to another source and restarted, losing 16 destination cycles. -/
  | domainSwitch (f dom : Nat)
  /-- REFERENCE_LOSS (R568): Reference loss raises CLOCK_LOSS, stops ports, fences sites and ends items with FAIL_CLOCK. -/
  | referenceLoss
  /-- REFERENCE_RETURN (R571): Reference edges return and each floor begins its settle wait. -/
  | referenceReturn
  /-- SETTLE_DELAY_EXPIRE (R562): The REFSET settle delay ends and the floor re-locks, clears CLOCK_LOSS, wakes stacks, trains the bridge and resumes acceptance. -/
  | settleDelayExpire (us : Nat)
  /-- POWER_IDLE_TIMEOUT (R574): After the idle time of DOZE, NAP or DORMANT the module enters that state, within PWR_DEEPEST. -/
  | powerIdleTimeout (us : Nat)
  /-- PWR_REQUEST (R574): The module enters the named power state at once when idle, or wakes to ACTIVE. -/
  | pwrRequest (rq : Rq) (reqId : Nat) (v : Bytes) (f : Verif)
  /-- PWR_WAKE_TIMER (R578): PWR_WAKE_TIMER expires and the module wakes. -/
  | pwrWakeTimer (ms : Nat)
  /-- PWR_OFF (R582): The power-fail closure is started from its step 2. -/
  | pwrOff (rq : Rq) (reqId : Nat) (v : Bytes) (f : Verif)
  /-- PFW_N_FALL (R592): PFW_N low for 1 µs starts the power-fail closure on both floors. -/
  | pfwNFall (ns : Nat)
  /-- CLOSURE_COMPLETE (R592): The closure ends with records written, stacks in self-refresh, rails down and the module OFF. -/
  | closureComplete (us : Nat)
  /-- PVIN_LOW_STOP (R593): PVIN below 2.10 V stops the module where it is and sets PFW_SHORT. -/
  | pvinLowStop (mv : Nat)
  /-- V1P8_AON_LOSS (R686): V1P8_AON below 1.62 V resets the module at once, losing retained counters and leases. -/
  | v1p8AonLoss (mv : Nat)
  /-- SITE_POWER_OVER (R588): A site's 1 ms power mean above SITE_POWER_LIMIT holds a VCORE ceiling. -/
  | sitePowerOver (t w : Nat)
  /-- SITE_CEILING_RELEASE (R588): The ceiling is released after the mean stays below 95 % for 10 ms. -/
  | siteCeilingRelease (t w ms : Nat)
  /-- VCORE_CURRENT_LIMIT (R589): VCORE above 550 A for 1 µs is held there and counted. -/
  | vcoreCurrentLimit (t ma ns : Nat)
  /-- DROOP_EVENT (R591): VCORE falling 30 mV below set without notice is counted and reported within the holdoff. -/
  | droopEvent (t mv : Nat)
  /-- BENCHMARK_RECAL (R597): Every 100 ms the common drift is computed against the benchmark and subtracted from all sensors. -/
  | benchmarkRecal (f : Nat) (bench : Int) (near : List (Nat × Int))
  /-- THERM_RECAL_NOW (R596): The sensor calibration is run on both floors on command. -/
  | thermRecalNow (rq : Rq) (reqId : Nat) (v : Bytes) (f : Verif)
  /-- ZONE_SAMPLE (R601): A floor or site zone is sampled every 1 ms, or 62.5 µs near a threshold. -/
  | zoneSample (kind zone : Nat) (reads : List Int) (odd dead : List Nat)
  /-- FLOOR_THERMAL_RETURN (R605): A stopped floor whose benchmark falls below shut-down less 8 °C returns under re-admission. -/
  | floorThermalReturn (f : Nat) (bench : Int)
  /-- PORST_N_FALL (R685): PORST_N falling after step 21 starts the reset closure. -/
  | porstNFall
  /-- WRST_N_FALL (R685): WRST_N falling after step 21 starts the reset closure. -/
  | wrstNFall
  /-- RESET_CLOSURE_END (R685): Closure step 8 ends and the reset takes hold. -/
  | resetClosureEnd (us : Nat) (flash : List Nat)
  /-- SURVEY_START (R610): Reset release samples the straps and starts the survey, choosing the cold or warm path. -/
  | surveyStart (porst : Bool) (hpStraps bootsrc refset test : Nat) (flash : List Nat)
  /-- SURVEY_STEP_END (R611): A survey step ends on both floors and the next step begins. -/
  | surveyStepEnd (g : Found) (total : Nat)
  /-- FW_SOURCE_TIMEOUT (R620): A firmware source that delivers no image within FW_SOURCE_TIMEOUT counts as failed and the next is tried. -/
  | fwSourceTimeout (ms : Nat)
  /-- FW_SOURCE_RETRY (R621): With no image accepted, the whole order of sources is retried every 10 s. -/
  | fwSourceRetry (ms : Nat)
  /-- FLASH_REPAIR_DONE (R622): The background write of a non-flash image into flash completes. -/
  | flashRepairDone
  /-- FW_UPDATE (R623): A chunk of a new firmware image is checked and written to flash, the last chunk verifying the whole. -/
  | fwUpdate (rq : Rq) (reqId : Nat) (v : Bytes) (f : Verif)
  /-- SURVEY_LOG_READ (R630): Returns survey log records. -/
  | surveyLogRead (rq : Rq) (reqId : Nat) (v : Bytes) (f : Verif)
  /-- CAD_READ (R631): Returns a cadastre bank and the physical unit states. -/
  | cadRead (rq : Rq) (reqId : Nat) (v : Bytes) (f : Verif)
  /-- CAD_REMAP_UNIT (R635): The operator moves a logical unit to a spare. -/
  | cadRemapUnit (rq : Rq) (reqId : Nat) (v : Bytes) (f : Verif)
  /-- UNIT_FAIL (R660): A unit meeting its failure condition in service is drained for a move to a spare or withdrawn. -/
  | unitFail (kind num cause : Nat) (serves spare : Bool)
  /-- SLICE_COPY_DONE (R635): A slice's contents have been copied to its spare and the flip follows. -/
  | sliceCopyDone (slice : Nat)
  /-- MOVE_RETIRE (R635): When the last epoch mapping the old unit retires, the old unit is marked failed or retired. -/
  | moveRetire (kind num : Nat)
  /-- MOVE_START_QUEUED (R637): A failing slice or channel waiting on a running move begins its own move when that move ends. -/
  | moveStartQueued (f : Nat)
  /-- SURVEYOR_LOCKSTEP_FAULT (R660): A surveyor or security controller self-check failure resets its die. -/
  | surveyorLockstepFault (f : Nat)
  /-- MONITOR_SAMPLE (R641): Every 1 ms each path-delay monitor reports its setup slack. -/
  | monitorSample (f : Nat) (reads : List Int) (bad : List Nat)
  /-- EYE_MEASURE (R643): Every 60 s the eyes of every lane, bit and module are measured. -/
  | eyeMeasure (eyes : List (Nat × Nat × Nat × Nat × Nat))
  /-- MARGIN_REPLAN (R649): Every MARGIN_REPLAN_PERIOD the voltage offsets and refresh requirements are re-planned. -/
  | marginReplan (secs : Nat)
  /-- MARGIN_REPLAN_NOW (R649): A re-plan is run on command. -/
  | marginReplanNow (rq : Rq) (reqId : Nat) (v : Bytes) (f : Verif)
  /-- MARGIN_PLAN_READ (R657): Returns a floor's offsets, refresh requirements and per-monitor required offsets. -/
  | marginPlanRead (rq : Rq) (reqId : Nat) (v : Bytes) (f : Verif)
  /-- LEVEL_RUN (R645): A margining pass steps a canary's phase, reference and refresh window until errors appear. -/
  | levelRun (kind unit lane phase ref req : Nat) (ends : Bool)
  /-- LEDGER_FLUSH (R669): History records are written to board flash no later than LEDGER_FLUSH after containment. -/
  | ledgerFlush (ok : Bool)
  /-- LEDGER_READ (R672): Returns history records. -/
  | ledgerRead (rq : Rq) (reqId : Nat) (v : Bytes) (f : Verif)
  /-- LEDGER_STANDING_READ (R673): Returns standing table entries. -/
  | ledgerStandingRead (rq : Rq) (reqId : Nat) (v : Bytes) (f : Verif)
  /-- LEDGER_ACK (R671): Acknowledges every history record up to an LSEQ. -/
  | ledgerAck (rq : Rq) (reqId : Nat) (v : Bytes) (f : Verif)
  /-- HOLDINGS_READ (R661): Returns holdings records of a floor and party. -/
  | holdingsRead (rq : Rq) (reqId : Nat) (v : Bytes) (f : Verif)
  /-- MPLL_RELOCK_TIMEOUT (R565): A stack whose MPLL has not re-locked 10 ms after an unlock has its channels treated as failing training under R190. -/
  | mpllRelockTimeout (st us : Nat)
  /-- HP_LINK_UP (R474): A host port's PCIe link finishes training, in endpoint role after HPn_PERST_N release or link loss, and becomes UP. -/
  | hpLinkUp (n width rate : Nat) (flit : Bool)
  /-- SPDM_HEARTBEAT_EXPIRE (R484): An SPDM session whose 60 s heartbeat lapses ends, together with its transfer bindings under R485. -/
  | spdmHeartbeatExpire (n sess us : Nat)
  /-- V1P8_AON_RISE (R543): V1P8_AON comes up, the always-on island starts, ISLAND_SECONDS restarts from 0 and a new AON_ID is drawn. -/
  | v1p8AonRise
  /-- PFW_N_RISE (R684): PFW_N rises high and ends the wait that survey step 01 holds while PFW_N is low. -/
  | pfwNRise
  /-- RAILS_IN_RANGE (R684): PVIN, VDRAM and VPP_D come within range, which starts the regulators and ends the wait at survey step 02. -/
  | railsInRange
  deriving DecidableEq, Repr

end Sys2Proof
end

