-- ==== Sys2Proof/Machine/State.lean ====
section
/-! DEFINITION. The state of one Steloth module as plain data, the state after reset, and its faults and refusals.
Every field's docstring names the spec's file or rule, the width where the spec gives one, and the reset value. -/
namespace Sys2Proof.Machine

/-- Why a step stops. -/
inductive Fault where
  /-- Raised by a command whose operand numbers a unit, port, floor or session outside Table 0.2: the module has no such
  unit, so no such command can reach it (R4). Safe: the model stops where the hardware has nothing that could go on. -/
  | noSuchUnit
  deriving DecidableEq, Repr

/-- Why a command has no meaning here. -/
inductive Refusal where
  /-- Raised by `exec` for a command without a meaning, by its mnemonic. Safe: nothing is claimed of it. -/
  | notModelled (mnemonic : String)
  deriving DecidableEq, Repr

/-- Status codes (Table 0.4, R8): only the codes the table names exist here, so a reserved code cannot be emitted. -/
inductive Status where
  | done | doneFlagged
  | failUnit | failMemLost | failLink | failPatience | failFenced | failThermal | failPower | failClock | failKey
  | failDie | failAborted
  | rejectFormat | rejectAccess | rejectRange | rejectLicence | rejectBusy
  | fbCoupled | fbType | fbValue | fbAccessClass | fbNoDraft | fbConflict | fbEpochFull
  deriving DecidableEq, Repr

/-- A unit as records name it (Table 9.9): kind and number. -/
structure UnitRef where
  kind : Nat := 0
  num : Nat := 0
  deriving DecidableEq, Repr

/-- A cause that ends an access or an item (R11, R324): its fail-class status and the unit DETAIL names. -/
structure Fail where
  st : Status
  unit : UnitRef := {}
  deriving DecidableEq, Repr

/-- An event record (Table 9.10); MARK is always 0xE0. -/
structure Event where
  cls : Nat
  code : Nat
  sev : Nat
  unit : UnitRef
  ctx : Nat
  data : Nat
  time : Nat
  evseq : Nat
  epoch : Nat
  deriving DecidableEq, Repr

/-- Who waits for the answer of a grid transaction. -/
inductive Origin where
  /-- A grid requester port (Table 4.1). -/
  | port (floor port tag : Nat)
  /-- A bond module of a tile site; `tag` is the flit's TAG. -/
  | site (site bond tag : Nat)
  /-- A host core, for destination register `tag`. -/
  | core (core tag : Nat)
  /-- A BAR2 access of a host port. -/
  | bar2 (port tag : Nat)
  /-- An engine's operation for a party, at a grid requester port of a floor. -/
  | agent (party : Party) (floor port tag : Nat)
  deriving DecidableEq, Repr

/-- What a transaction asks. -/
inductive TxnKind where
  | read (len : Nat)
  | write (data : Bytes) (release : Bool)
  | atomic (word : Nat) (operand : Bytes) (release : Bool)
  deriving DecidableEq, Repr

/-- A transaction waiting at its target (R124, R153). -/
structure Txn where
  org : Origin
  ctx : Nat
  va : Nat
  kind : TxnKind
  /-- It has waited GRID_AGE_PROMOTE or STACK_AGE_LIMIT (R124, R154). -/
  aged : Bool := false
  /-- It stands in the channel controller's queue of 64 (R153), not before the controller for want of a credit. -/
  queued : Bool := false
  /-- A read's merge window (R125), by the window's number. -/
  win : Option Nat := none
  /-- The read arrived within the window of an earlier one, to whose access it attaches (R125). -/
  merged : Bool := false
  /-- Its place in the order in which transactions reached their targets (R128, R131, R286). -/
  seq : Nat := 0
  /-- The way that its remote line cache picks for a fill (R92). -/
  way : Nat := 0
  deriving DecidableEq, Repr

/-- A completion that the home floor holds until INV_ACK (R94): the requester, its context, and an atomic operation's response,
none for a write. -/
structure HeldRsp where
  org : Origin
  ctx : Nat
  rsp : Option (Status × Bytes) := none
  deriving DecidableEq, Repr

/-- Everything the module shows outside itself, in the order it shows it. -/
inductive Emit where
  /-- A Field Book reply frame: type, status, request id and payload (Table 2.7). -/
  | reply (dst : Rq) (ty : Nat) (st : Status) (reqId : Nat) (payload : Bytes)
  /-- A NOTIFY frame to a session: LOST count and payload. -/
  | notify (session lost : Nat) (payload : Bytes)
  /-- A session closed by the module, or a TLS connection refused. -/
  | closed (session : Nat)
  | refusedTls
  /-- The answer to a grid read or write. -/
  | readData (dst : Origin) (st : Status) (data : Bytes)
  | writeAck (dst : Origin) (st : Status)
  /-- An atomic operation's response: status and bytes (Table 8.5). -/
  | atomicRsp (dst : Party) (st : Status) (data : Bytes)
  /-- A bridge message: sending floor, message code, line or object, and data. -/
  | bridge (floor code line aux : Nat) (data : Bytes)
  /-- A link frame: port, and the frame's 270 or 286 bytes (R337). -/
  | link (port : Nat) (frame : Bytes)
  /-- A bond flit: site, bond module, and its 276 bytes: header, data slot and link word (R413). -/
  | flit (site bond : Nat) (bytes : Bytes)
  /-- A sideband message to a tile: site, and header, payload and CRC (R433). -/
  | sideband (site : Nat) (bytes : Bytes)
  /-- An MSI-X vector of a host port. -/
  | msix (port vector : Nat)
  /-- An SPDM or DOE answer of a host port. -/
  | spdm (port code : Nat) (payload : Bytes)
  /-- A write of transfer data to host memory, or a read request for it. -/
  | hostMem (port chan addr : Nat) (data : Bytes)
  /-- A write or read of far memory. -/
  | far (port addr : Nat) (data : Bytes)
  /-- A notice in a host core's queue, an interrupt, a reset of a core. -/
  | coreSignal (core code arg : Nat)
  /-- A TAP or console action taken. -/
  | debug (code arg : Nat)
  /-- The state message the floor's always-on island now sends (0 RUN, 1 RESET, 2 CLOCK_LOSS, 3 PFW, 4 THERMAL_STOP). -/
  | island (floor msg : Nat)
  /-- A pin driven by the module: 0 ALERT_N, 1 TILE_RST of site arg, 3 THERMTRIP_N. -/
  | pin (pin arg : Nat) (level : Bool)
  deriving DecidableEq, Repr


/-- A frame or flit in a replay buffer (R98, R339, R432): its sequence, its code, its fields and its data. A flit's fields are TAG,
OPERAND, CR_CLASS, CR_COUNT and LEN (Table 12.2). -/
structure Sent where
  seq : Nat
  code : Nat
  fields : List Nat
  data : Bytes
  deriving DecidableEq, Repr
/-- The fuse blocks (R501, Table 15.1, 15_trust.md). The spec fuses each module on its own: every value here is a DESIGN
CHOICE, log 3; a claim about a fuse holds for every value. -/
structure Fuses where
  /-- UDS, F0, 384 bits, secret; DESIGN CHOICE 0, log 3. -/
  uds : Nat := 0
  /-- PAIR_KEY of F0 and F1, 256 bits each, secret; DESIGN CHOICE equal, 0, log 3. -/
  pair0 : Nat := 0
  pair1 : Nat := 0
  /-- MODULE_SERIAL, 64 bits; DESIGN CHOICE 0, log 3. -/
  serial : Nat := 0
  /-- ORDERING_CODE, 128 bits of ASCII; DESIGN CHOICE STL2-576-K4, log 3. -/
  order : Bytes := [83, 84, 76, 50, 45, 53, 55, 54, 45, 75, 52]
  /-- SITE_POPULATION, 8 bits; DESIGN CHOICE 0x0F as Table 0.1 gives it for that code, log 3. -/
  sites : Nat := 15
  /-- LIFECYCLE, 8 bits: 1 PRODUCTION, 2 RETURNED, 3 SCRAPPED; DESIGN CHOICE 1, log 3. -/
  life : Nat := 1
  /-- CLOESK_ROOT_DIGEST, 384 bits; DESIGN CHOICE 0, log 3. -/
  root : Nat := 0
  /-- SVN_FUSES, a thermometer code read as 0 to 64 (R508); DESIGN CHOICE 0, log 3. -/
  svn : Nat := 0
  /-- DEBUG_FUSES, 8 bits; DESIGN CHOICE 0, log 3. -/
  debug : Nat := 0
  deriving DecidableEq, Repr
/-- One configuration bank (R36): runtime overrides and the values the layers gave when they were last applied (R66). -/
structure Bank where
  /-- Runtime overrides by entry key (index × 256 + sub). -/
  ovr : SMap Bytes := []
  /-- Values of the active sheet over the baseline, as last applied. -/
  lay : SMap Bytes := []
  deriving DecidableEq, Repr

/-- The operator or host draft (R49 to R54). -/
structure Draft where
  owner : Rq
  ents : SMap Bytes := []
  /-- From step 1 of a commit until it replies the draft is held (R698). -/
  held : Bool := false
  /-- The owner's session or mailbox closed while the draft was held (R698). -/
  orphan : Bool := false
  deriving DecidableEq, Repr

/-- What a CMD entry whose action takes more than this command still waits for (R79). -/
inductive Wait where
  | commit
  | segmap
  | ctxDestroy (ctx : Nat)
  | fwBcast
  | siteFence (t : Nat)
  | siteReadmit (t : Nat)
  | coreFence (c : Nat)
  | hpFence (n : Nat)
  | pwrOff
  | cadRemap (kind num : Nat)
  | linkRetrain (p : Nat)
  deriving DecidableEq, Repr

/-- A frame whose carrying out has begun and waits for one of its operations (R76, R79). -/
structure Partial where
  rq : Rq
  ty : Nat
  reqId : Nat
  verif : Verif
  /-- Answered operation records, latest first. -/
  done : List OpRec
  /-- The operation that waits. -/
  cur : OpRec
  /-- Operations not begun, in order. -/
  rest : List OpRec
  wait : Wait
  deriving DecidableEq, Repr

/-- The request channel of one requester: the frame in progress and those held behind it (R75: at most 16 unanswered). -/
structure Chan where
  cur : Option Partial := none
  held : List Frame := []
  /-- Mailboxes: the reply frame that has not landed yet (R459). -/
  reply : Option Bytes := none
  /-- REQ_ID of the VC 2 message that carried the request of another member's host (R488). -/
  vc2 : Nat := 0
  deriving DecidableEq, Repr

/-- A notification record queued for a session (R82, R83). -/
inductive Note where
  | event (e : Event)
  | entry (key : Nat) (value : Bytes)
  deriving DecidableEq, Repr

/-- A Field Book Access Protocol session (R72 to R75, R80 to R82). -/
structure Session where
  port : Nat
  hello : Bool := false
  /-- Class mask of the subscription. -/
  mask : Nat := 0
  /-- Keys of the named entries. -/
  ents : List Nat := []
  /-- Running values of the named entries as last told (R81). -/
  seen : SMap Bytes := []
  /-- Queued notification records, oldest first, at most 1,024. -/
  queue : List Note := []
  /-- Records dropped since the last NOTIFY. -/
  lost : Nat := 0
  deriving DecidableEq, Repr

/-- The Field Book (The Field Book; reset values from Tables 2.11 to 2.14). -/
structure Fb where
  /-- EPOCH_CURRENT (R59, 02_field_book.md); 32 bits; 0 before survey step 20 creates epoch 1: DESIGN CHOICE 0, log 3. -/
  epoch : Nat := 0
  /-- Bank of the current epoch (R36, R61); 02_field_book.md; empty: every entry at its default (R66). -/
  cur : Bank := {}
  /-- The older live epoch and its bank (R63); 02_field_book.md; none. -/
  old : Option (Nat × Bank) := none
  /-- Stored baseline layer (R66, R69), board flash; 02_field_book.md; DESIGN CHOICE empty, log 3. -/
  baseline : SMap Bytes := []
  /-- Stored sheets 0 to 7 (R66, R69), board flash; 02_field_book.md; DESIGN CHOICE empty, log 3. -/
  sheets : SMap (SMap Bytes) := []
  /-- Cold-entry store: pending values of COLD entries (R39, R617), board flash; 02_field_book.md; empty. -/
  pend : SMap Bytes := []
  /-- Pending values that a change of sheet gives COLD entries (R70); 02_field_book.md; empty. -/
  pendSheet : SMap Bytes := []
  /-- Running values of COLD entries, in effect since the last survey (R39); 02_field_book.md; empty. -/
  coldRun : SMap Bytes := []
  /-- The open draft (R49); 02_field_book.md; none. -/
  draft : Option Draft := none
  /-- Who waits at step 4 of Table 2.6 (R56); 02_field_book.md; none. -/
  committing : Option Rq := none
  /-- A surveyor commit waits at step 4 (R30, R65); 02_field_book.md; false. -/
  survWaiting : Bool := false
  /-- COMMIT_LAST_STATUS 0x1F10.06 (R58); 8 bits; 0x00. -/
  lastStatus : Status := .done
  /-- COMMIT_LAST_EPOCH 0x1F10.07 (R58); 32 bits; 1. -/
  lastEpoch : Nat := 1
  /-- COMMIT_FAIL_GROUP 0x1F10.08 (R47); 16 bits; 0. -/
  failGroup : Nat := 0
  /-- Open sessions by number 0 to 7 (R73); 02_field_book.md; none open. -/
  sessions : SMap Session := []
  /-- Request channels by requester (R75, R79); 02_field_book.md; none busy. -/
  chans : SMap Chan := []
  /-- LICENCE_PRESENT 0x1100.01 (R44), 8 bits; the reset default is a dash: DESIGN CHOICE 0, log 3. -/
  licences : Nat := 0
  /-- Stored licences by ISSUE_ID, as their bytes (R529), board flash; 15_trust.md; DESIGN CHOICE none, log 3. -/
  stored : SMap Bytes := []
  /-- Features marked for removal at the next survey (R530), 8 bits; 15_trust.md; 0. -/
  removing : Nat := 0
  /-- MGMT_ROLE 0x1000.09 (R111); 1 bit; 0: F0 leads. -/
  role : Nat := 0
  /-- Counters and counting read-only entries by key (R84, Tables 2.16 and every entry table); each as wide as its
  entry; 0. -/
  ctr : SMap Nat := []
  /-- LIVE values that items already running finish under (R35): entry, value before the direct write, and their item keys,
  oldest write first; 02_field_book.md; none. -/
  late : List (Nat × Bytes × List Nat) := []
  /-- Event records made since survey, latest first (R327); 09_work_rings.md; none. -/
  events : List Event := []
  /-- EVSEQ of the last event record (Table 9.10), 32 bits; 09_work_rings.md; 0. -/
  evseq : Nat := 0
  /-- What both consoles have printed since survey, latest first: survey log lines and event records (R551, R692); 16_confidential.md;
  none. -/
  lines : List Bytes := []
  deriving DecidableEq, Repr

/-- A line of a remote line cache (Table 3.1); a way that holds none is I. -/
inductive RlcLine where
  /-- Fill pending, with the queued readers in order (origin, first byte, length). -/
  | fill (pa : Nat) (queue : List (Origin × Nat × Nat))
  /-- Shared and clean, with its 256 bytes. -/
  | shared (pa : Nat) (data : Bytes)
  deriving DecidableEq, Repr

/-- A line of a home directory (Table 3.2); an absent line is N. -/
inductive DirLine where
  /-- Held by the other floor in the way named. -/
  | held (way : Nat)
  /-- Invalidation outstanding: completions held, and fills queued (context, epoch, way), in order. -/
  | inval (held : List HeldRsp) (fills : List (Nat × Nat × Nat))
  deriving DecidableEq, Repr

/-- The bridge, remote line caches, directories and always-on sideband (Two Floor Dies as One Module). -/
structure Die where
  /-- Remote line caches by floor × 262,144 + set × 16 + way (R91); 03_floor_dies.md; every way I. -/
  rlc : SMap RlcLine := []
  /-- INV_ACKs of each line that an item's access has taken before their commands come (log 8), by line address; 0. -/
  ackEarly : SMap Nat := []
  /-- Home directories by logical line address (R91 to R95); 03_floor_dies.md; every line N. -/
  dir : SMap DirLine := []
  /-- DIE_STATE 0x3300.06 (R107, R114, R118), ENUM; 0. -/
  state : Nat := 0
  /-- The floor declared lost and not yet re-admitted (R102, R107, R118); 03_floor_dies.md; none. -/
  lost : Option Nat := none
  /-- The bridge is down (R99, R101); 03_floor_dies.md; false. -/
  bridgeDown : Bool := false
  /-- The bridge is fenced after a die loss (Table 3.5 step 1); 03_floor_dies.md; false. -/
  bridgeFenced : Bool := false
  /-- SEQ expected next by each floor's receiver, 12 bits, Table 3.3; 03_floor_dies.md; 0. -/
  rxSeq : List Nat := [0, 0]
  /-- A direction is discarding since a corrupt flit (R97); 03_floor_dies.md; no. -/
  rxDiscard : List Bool := [false, false]
  /-- SEQ of the next flit sent per direction, 12 bits, Table 3.3; 03_floor_dies.md; 0. -/
  txSeq : List Nat := [0, 0]
  /-- Replay buffers per direction, oldest first: SEQ, message code, line and auxiliary field, data, at most 256 (R98);
  03_floor_dies.md; empty. -/
  replay : List (List Sent) := [[], []]
  /-- Messages that wait while a direction's replay buffer is full, oldest first (R98); 03_floor_dies.md; none. -/
  waitTx : List (List (Nat × Nat × Nat × Bytes)) := [[], []]
  /-- NAKs in a row of the same flit per direction (R99); 03_floor_dies.md; 0. -/
  naks : List Nat := [0, 0]
  /-- NAKed sequence those counts belong to (R99); 03_floor_dies.md; 0. -/
  nakSeq : List Nat := [0, 0]
  /-- The bridge holds all traffic while it retrains (R99); 03_floor_dies.md; false. -/
  retraining : Bool := false
  /-- Physical lane of each moved active lane, by direction × 128 + lane (R100); 03_floor_dies.md; identity. -/
  laneMap : SMap Nat := []
  /-- Bad physical lanes by direction × 128 + lane (R100, R101); 03_floor_dies.md; none. -/
  badLanes : SMap Unit := []
  /-- Width in lanes per direction (R101): 64, 32 or 0; 64. -/
  width : List Nat := [64, 64]
  /-- Last state message of each floor (R102): 0 RUN, 1 RESET, 2 CLOCK_LOSS, 3 PFW, 4 THERMAL_STOP, 5 silent; 0. -/
  sideMsg : List Nat := [0, 0]
  /-- The commit that ends a re-admission waits while two epochs are live (R30, R118); 03_floor_dies.md; false. -/
  readmitWaits : Bool := false
  /-- F1 has stopped accepting because F0 is silent (R104) or lost (R111); 03_floor_dies.md; false. -/
  f1Stopped : Bool := false
  /-- Slots whose MIRROR segment awaits resynchronisation (R117); 03_floor_dies.md; none. -/
  resync : SMap Unit := []
  /-- Floors withdrawn at survey (R106); 03_floor_dies.md; none. -/
  withdrawn : List Bool := [false, false]
  deriving DecidableEq, Repr

/-- A segment-map entry (Table 4.4); `raw` is its 128 bits. -/
structure SegEnt where
  ctx : Nat
  vaBase : Nat
  size : Nat
  policy : Nat
  medium : Nat
  home : Nat
  stack : Nat
  unit : Nat
  rd : Bool
  wr : Bool
  at' : Bool
  noAlloc : Bool
  unitOff : Nat
  deriving DecidableEq, Repr

/-- A segment-map record that waits for its context's earlier items (R143). -/
structure SegWait where
  rq : Rq
  slot : Nat
  /-- The entry to write, or none to empty the slot. -/
  ent : Option SegEnt
  /-- Context whose items it waits for, and the items accepted before the write was received (ring × 2^48 + seq). -/
  ctx : Nat
  items : List Nat
  /-- Statuses of the records of this write already answered, latest first. -/
  answered : List Status
  /-- Records of this write not yet begun: slot and 128-bit entry. -/
  rest : List (Nat × Nat)
  /-- The write is a SEGMAP_CLEAR_CONTEXT: every slot of `ctx` is emptied at once. -/
  clearAll : Bool
  /-- Every record is answered and the reply is due. -/
  finished : Bool := false
  deriving DecidableEq, Repr

/-- The grids, the shared buffer's control and the segment map (The Grid, the Shared Buffer and the Segment Map). -/
structure Grid where
  /-- Segment map by slot 0 to 65535 (R138), the same on both floors; 04_grid.md; empty after every survey (R146). -/
  seg : SMap SegEnt := []
  /-- The writes whose record waits under R143, one of a requester; 04_grid.md; none. -/
  segWait : List SegWait := []
  /-- Translation caches: slots cached by floor × 48 + port, newest first, at most 1,024 (R147); 04_grid.md; empty. -/
  tcache : SMap (List Nat) := []
  /-- Transactions waiting by target: slice = floor × 64 + slice, channel = 128 + stack × 32 + channel (R124, R153);
  04_grid.md; none. -/
  wait : SMap (List Txn) := []
  /-- Open merge windows by line address: context, and the window's number (R125); 04_grid.md; none. -/
  merge : SMap (Nat × Nat) := []
  /-- Merge windows opened so far, the number of the next one (R125); 04_grid.md; 0. -/
  mergeSeq : Nat := 0
  /-- Transactions that have arrived so far, the place of the next one in that order (R128); 0. -/
  txnSeq : Nat := 0
  /-- Ports in the order served, least recent first, by target (R124); 04_grid.md; none served. -/
  served : SMap (List Nat) := []
  /-- RELEASE writes held until earlier writes of their port and context complete (R129); 04_grid.md; none. -/
  relWait : List Txn := []
  /-- Writes and atomics not yet complete (R94, R129): origin, context and line; 04_grid.md; none. -/
  openWr : List (Origin × Nat × Nat) := []
  /-- Corrected errors of each slice, as the hour of AOCLK and the count in it (R137); 04_grid.md; 0. -/
  ceHour : SMap (Nat × Nat) := []
  /-- Distinct uncorrectable lines of each slice, each with the AOCLK µs of its last finding (R660); 04_grid.md; none. -/
  ueSecond : SMap (List (Nat × Nat)) := []
  /-- Grid ports that take no transaction, by floor × 48 + port (R121); 04_grid.md; none. -/
  closed : SMap Unit := []
  deriving DecidableEq, Repr

/-- Rotation state of a context's stack key (R185 to R188). -/
inductive Rot where
  | steady | sweeping | erasing
  deriving DecidableEq, Repr

/-- The two generation slots of one context, the same in every stack (R182): key identities, the write slot, the
rotation and its sweep. -/
structure StkKeys where
  slot0 : Option Nat := none
  slot1 : Option Nat := none
  write : Nat := 0
  rot : Rot := .steady
  /-- Segments that the sweep visits, those valid when the rotation began (R186); none. -/
  segs : List SegEnt := []
  /-- Pages of `segs` that the sweep has come past in each channel (R186); 0. -/
  swept : SMap Nat := []
  toSweep : Nat := 0
  /-- Bytes short of a page that a channel's sweep may still move (R186); 0. -/
  credit : SMap Nat := []
  /-- Items accepted before the sweep finished and still without a record (R187), ring × 2^48 + seq. -/
  older : List Nat := []
  deriving DecidableEq, Repr

/-- Failure state of a logical row (Table 5.5); absent is NORMAL. -/
inductive RowState where
  | spared1 | spared2
  deriving DecidableEq, Repr

/-- One entry of a retire list (R170, R171, R195): state 1 retired, 2 lost. -/
structure Retired where
  chan : Nat
  state : Nat
  reserve : Nat
  page : Nat
  deriving DecidableEq, Repr

/-- One DRAM stack as the surveyor and the controllers see it (Bonded DRAM Stacks). -/
structure Stack where
  /-- STACK_TEMP_MAX 0x3410+s.01 (R177), 1/16 °C two's complement as an integer; no reset value: DESIGN CHOICE 0, log 3. -/
  temp : Int := 0
  /-- Zone level (R601, STACK_LEVEL 0x2830+s.01): 0 NORMAL to 4 SHUTDOWN; 0. -/
  level : Nat := 0
  /-- Consecutive missed temperature reports (R178); 05_stacks.md; 0. -/
  missed : Nat := 0
  /-- Reports have been missed three times running (R178), second step and doubled refresh; false. -/
  missStep : Bool := false
  /-- No report for 100 ms: treated as at its shut-down level (R178); false. -/
  silent : Bool := false
  /-- Valid reports in a row that put a shut-down stack's hottest die below its return threshold (R604); 0. -/
  cool : Nat := 0
  /-- Sequence number of the last report, 16 bits (R176); DESIGN CHOICE 0, log 3. -/
  repSeq : Nat := 0
  /-- The 85 °C refresh step is in force, left only below 82 °C (R174); false. -/
  hot : Bool := false
  /-- Multiplier in force, STACK_REFRESH_NOW 0x3410+s.03 (R174): 1, 2, 4 or 8; 1. -/
  refresh : Nat := 1
  /-- Multiplier that weak-cell trends require (R174, R648); 1. -/
  weak : Nat := 1
  /-- Retire list (R170, R171); empty (reloaded from the ledger at step 09). -/
  retired : List Retired := []
  /-- Stack in self-refresh (R194); false. -/
  selfRefresh : Bool := false
  deriving DecidableEq, Repr

/-- The stacks, their channel controllers and key stores (Bonded DRAM Stacks). -/
structure Stk where
  /-- Stacks S0 to S5 (R150, R195); 05_stacks.md; see Stack. -/
  dev : List Stack := List.replicate 6 {}
  /-- Key stores by context (R182); 05_stacks.md; every slot empty. -/
  keys : SMap StkKeys := []
  /-- Each written sector by logical sector address / 64: the key it was encrypted with (R181), and how many re-encryptions of its
  page (`recrypt`) came before that write; its plaintext is listed in memory; 05_stacks.md; none written. -/
  tag : SMap (Nat × Nat) := []
  /-- Re-encryptions of all 64 sectors of a page, by logical page address / 4096, oldest first: old key and new key (R184, R186);
  05_stacks.md; none. -/
  recrypt : SMap (List (Nat × Nat)) := []
  /-- How often each channel's arrays have lost their contents, by channel, and under 192 all channels' (R170, R193); it numbers the
  free value that a sector never written since holds; 05_stacks.md; 0. -/
  fresh : SMap Nat := []
  /-- Symbols in error of each sector's codeword, by logical sector address / 64 (R160, R162); 05_stacks.md; none. -/
  errs : SMap Nat := []
  /-- GEN of each page by logical page address / 4096 (R161); 05_stacks.md; DESIGN CHOICE 0, log 3. -/
  gen : SMap Nat := []
  /-- Poisoned sectors by logical sector address / 64 (R164, R165); 05_stacks.md; none. -/
  poison : SMap Unit := []
  /-- Failure state by logical row: channel × 2^32 + die × 2^20 + bank × 2^16 + row (Table 5.5); every row NORMAL. -/
  rows : SMap RowState := []
  /-- Spare rows used by bank: channel × 64 + die × 4 + bank (R168); 0 of 32. -/
  spareRows : SMap Nat := []
  /-- Rows whose copy is under way and whose accesses wait (R169), by row key; true: the row's whole page is being retired; none. -/
  copying : SMap Bool := []
  /-- Write queue of each channel, oldest first, at most 64 (R153): address and bytes of each write that reads are served from
  (R155, R156); empty. -/
  writeQ : SMap (List (Nat × Nat)) := []
  /-- A channel's drain has started (R156); no. -/
  draining : SMap Unit := []
  /-- Row that each bank holds open, by channel × 64 + die × 4 + bank (R154); none. -/
  openRow : SMap Nat := []
  /-- Activations of a row since its last refresh, by row key (R158); 0. -/
  acts : SMap Nat := []
  /-- Row that the next refresh of a bank begins with, by channel × 64 + die × 4 + bank, C32 and C33 of stack s as channels
  192 + 2s and 193 + 2s (R174, R192); 0. -/
  refreshAt : SMap Nat := []
  /-- Refresh intervals a bank's refresh has been deferred, by channel × 64 + bank (R175); 0. -/
  deferred : SMap Nat := []
  /-- Bytes a channel moved in the present 1 µs window (R179, R180), and those of its grid side among them (R157); 0. -/
  window : SMap Nat := []
  gridWin : SMap Nat := []
  /-- Stack-path bytes of each channel that the engines have asked for and the channel has still to move (R157); 0. -/
  path : SMap Nat := []
  /-- Bytes of the grid side of each channel that items' accesses have asked for and that go in later windows (R179); 0. -/
  debt : SMap Nat := []
  /-- Bytes that the copy of each moving channel has come past (R193); 0. -/
  copied : SMap Nat := []
  /-- Writes at the front of each channel's write queue that have waited STACK_AGE_LIMIT (R154); 0. -/
  agedW : SMap Nat := []
  /-- Background bytes of each stack in the present window: stack path, patrol, sweep, channel copy (R180, R202); 0. -/
  backNow : SMap Nat := []
  /-- Channels that issue no further data command in this window (R179); none. -/
  capped : SMap Unit := []
  /-- Next sector of each channel's patrol (R166); 0. -/
  patrol : SMap Nat := []
  /-- Distinct corrected sectors of each row within 24 h, each with the AOCLK µs of its last correction (R167); none. -/
  ceRow : SMap (List (Nat × Nat)) := []
  /-- Stored training values of each physical channel that last passed step 09, by stack × 34 + channel: the floor's trim store
  (R191); DESIGN CHOICE none before the first training, log 3. -/
  trims : SMap Unit := []
  /-- Unused C32 and C33 that carry the PRBS31 write-and-read pattern over their whole array, by stack × 2 + spare (R192); none. -/
  prbs : SMap Unit := []
  /-- Distinct rows of each channel with uncorrectable sectors, each with the AOCLK µs of its last finding (R660); none. -/
  ueRows : SMap (List (Nat × Nat)) := []
  /-- Background bytes (stack path, patrol, sweep, copy) of each stack in the last window, `other_prev` of R202; 0. -/
  otherPrev : SMap Nat := []
  deriving DecidableEq, Repr

/-- Memory: bytes by logical module physical address (Table 4.5). -/
structure Mem where
  /-- Listed bytes (R141), addresses strictly rising; nothing listed: a buffer byte reads 0 (DESIGN CHOICE, log 4), a stack
  byte reads as bytes of no value (R183). -/
  cells : List Host.Cell := []
  /-- Poisoned buffer lines by logical line address (R134, R135); 04_grid.md; none. -/
  poison : SMap Unit := []
  /-- Wrong bits of each 64-bit word of the buffer, check bits included, by logical word address / 8 (R133); 04_grid.md; none. -/
  errs : SMap Nat := []
  deriving DecidableEq, Repr

/-- One master of one medium in the present window (R200 to R208). -/
structure Master where
  /-- Bytes counted in this window (R201); 06_regulation.md; 0. -/
  bytes : Nat := 0
  /-- Budget and guarantee of this window (R202); 06_regulation.md; 0 before the first window. -/
  budget : Nat := 0
  guar : Nat := 0
  /-- Lowered for the rest of the window (R204); false. -/
  lowered : Bool := false
  /-- Consecutive windows missed (R208); 0. -/
  run : Nat := 0
  /-- Windows missed since the last event of the run, and µs since that event (R208); 0. -/
  since : Nat := 0
  quietUs : Nat := 0
  /-- The run has had its event (R208); false. -/
  told : Bool := false
  deriving DecidableEq, Repr

/-- The regulators (Bandwidth Regulation): masters by 9 × k + j, k = 2 × floor + medium. -/
structure Reg where
  /-- Masters' windows (R200); 06_regulation.md; see Master. -/
  masters : SMap Master := []
  /-- The present window of k is scaled (R212); 06_regulation.md; no. -/
  scaled : SMap Unit := []
  /-- REG_ENABLE, REG_MISS_WINDOWS and REG_MISS_HOLDOFF as the present window took them at its start (R206); their entries'
  defaults 1, 4 and 1,000. -/
  enable : Bool := true
  missWindows : Nat := 4
  missHoldoff : Nat := 1000
  /-- REG_GRIDSIDE_WEIGHT and REG_STACKPATH_WEIGHT of each stack as the present window took them (R206, R211); their entries'
  defaults 0. -/
  weights : List (Nat × Nat) := List.replicate 6 (0, 0)
  deriving DecidableEq, Repr

/-- Running values of one (row, head) pair on one engine (R230): FP32 codes. -/
structure Att where
  m : Nat := 0xFF800000
  l : Nat := 0
  o : List Nat := []
  /-- A non-zero value was flushed (R234). -/
  flushed : Bool := false
  /-- The pair is non-finite (R233). -/
  bad : Bool := false
  deriving DecidableEq, Repr

/-- A sweep item that runs (R244): its engines' running values by engine, each pair in row then head order. -/
structure SwpRun where
  stack : Nat
  first : Nat
  count : Nat
  parts : List (List Att)
  /-- The broadest fault its reads met (R257). -/
  fail : Option Fail
  /-- Engines whose share was recomputed on the spare (R253). -/
  retried : List Nat := []
  deriving DecidableEq, Repr

/-- A sweep session (R248 to R252). -/
structure SwpSess where
  stack : Nat
  first : Nat
  count : Nat
  ctx : Nat
  /-- The open still waits for items started before it on these engines: the item's key. -/
  opening : Option Nat
  /-- Items that ran on these engines when the open was accepted and have not finished (R249). -/
  waitFor : List Nat := []
  /-- Engines already released while the session expires (R251). -/
  expiring : Bool := false
  freed : List Nat := []
  deriving DecidableEq, Repr

/-- The sweep engines (Sweep Engines: Attention at the Memory). -/
structure Swp where
  /-- Dispatch queues by stack, oldest first, at most 256 (R244); 07_sweep_engines.md; empty. -/
  queue : SMap (List Nat) := []
  /-- Items that run, by item key (R246); 07_sweep_engines.md; none. -/
  runs : SMap SwpRun := []
  /-- Open sessions (R249); 07_sweep_engines.md; none. -/
  sess : List SwpSess := []
  deriving DecidableEq, Repr

/-- Standing of a context (R290). -/
inductive CtxSt where
  | live | destroying
  deriving DecidableEq, Repr

/-- A context that is not FREE (R290 to R297, R328). -/
structure Ctx where
  st : CtxSt := .live
  part : Nat := 0
  conf : Bool := false
  evAddr : Nat := 0
  /-- Event depth log2; 0: no event area (R292). -/
  evLog2 : Nat := 0
  /-- Records given a slot so far (R328). -/
  evCount : Nat := 0
  /-- MY_EVENTS_LOST (R328), 32 bits. -/
  evLost : Nat := 0
  /-- Slots of the event area that hold a record (R328); none. -/
  evHeld : SMap Unit := []
  /-- MY_EVENT_CLASSES (R328), 16 bits. -/
  evClasses : Nat := 0
  deriving DecidableEq, Repr

/-- A completion record that waits for earlier writes of its port and context (R129, R322). -/
structure RecWait where
  ring : Nat
  seq : Nat
  kind : Nat
  user : Nat
  epoch : Nat
  notify : Bool
  st : Status
  unit : UnitRef
  flags : Nat
  result : Nat
  deriving DecidableEq, Repr

/-- A ring (R298 to R308, R329, R330). -/
structure Ring where
  ctx : Nat
  ty : Nat
  depthLog2 : Nat
  descAddr : Nat
  cplAddr : Nat
  start : Nat
  high : Bool := false
  subKind : Nat := 0
  submitter : Nat := 0
  target : Nat := 0
  vector : Nat := 0
  produce : Nat
  consumed : Nat
  /-- Sequence of the next descriptor to take. -/
  taken : Nat
  closed : Bool := false
  /-- Lowest sequence without a complete record, and the ANSWERED and OK maps above it (R330), 64 bits each. -/
  ansLow : Nat
  ans : Nat := 0
  ok : Nat := 0
  /-- Lowest SEQ whose record could not be written (R326). -/
  lost : Option Nat := none
  /-- Status class of the last item answered by sequence, for SKIP_ON_FAIL (R314): failed sequences near the low mark. -/
  failed : List Nat := []
  /-- A SECURITY event for a dropped doorbell has been made (R304). -/
  dropSeen : Bool := false
  /-- RING_COUNTERS (Table 2.16): taken, accepted, refused, done-class, fail-class. -/
  cTaken : Nat := 0
  cAccepted : Nat := 0
  cRefused : Nat := 0
  cDone : Nat := 0
  cFail : Nat := 0
  deriving DecidableEq, Repr

/-- An accepted item without its completion record (R310, R704). -/
structure Item where
  ring : Nat
  seq : Nat
  /-- The 512 bits of its descriptor (R315). -/
  desc : Nat
  kind : Nat
  epoch : Nat
  ctx : Nat
  order : Bool
  skip : Bool
  notify : Bool
  user : Nat
  /-- R704. -/
  started : Bool
  /-- µs since its work was handed over (R427, R461). -/
  age : Nat := 0
  deriving DecidableEq, Repr

/-- The marks of a ring of the previous service (R331). -/
structure Marks where
  produce : Nat
  consumed : Nat
  taken : Nat
  ansLow : Nat
  ans : Nat
  ok : Nat
  deriving DecidableEq, Repr

/-- Rings, items and contexts (Work Rings, Items and Contexts). -/
structure Rings where
  /-- Contexts that are not FREE (R290, R291); 09_work_rings.md; context 0 LIVE. -/
  ctxs : SMap Ctx := [(0, {})]
  /-- Rings by number (R298); 09_work_rings.md; none. -/
  rings : SMap Ring := []
  /-- Accepted items without their record, in order of acceptance (R310); 09_work_rings.md; none. -/
  items : List Item := []
  /-- Items of a lost floor's rings that count as finished for R63 and owe their record until re-admission (R108, R116);
  03_floor_dies.md; none. -/
  owed : List Item := []
  /-- Completion records not yet written, for writes of their port and context that are not complete (R129); 09_work_rings.md; none. -/
  recWait : List RecWait := []
  /-- Marks store (R331), by ring; 09_work_rings.md; none. -/
  marks : SMap Marks := []
  /-- Retained counters of the rings of the service before this survey, until its step 02 copies them (R331); 09_work_rings.md; none. -/
  kept : Option (SMap Marks) := none
  /-- RING_MARKS_STATE 0x4800.09 (R331); 0. -/
  marksState : Nat := 0
  /-- Last ring served per floor and priority (2 × floor, + 1 for high) and descriptors taken of its turn (R308); 0. -/
  turn : List Nat := [0, 0, 0, 0]
  burst : List Nat := [0, 0, 0, 0]
  deriving DecidableEq, Repr

/-- What a partner's DISCOVER told (Table 10.6, R363). -/
structure Partner where
  station : Nat
  port : Nat
  serial : Nat
  /-- Torus sizes X, Y, Z. -/
  dims : List Nat
  licences : Nat
  protect : Nat
  deriving DecidableEq, Repr

/-- A neighbour's zone at a throttle step (R359). -/
structure NbrZone where
  kind : Nat
  zone : Nat
  step : Nat
  cap : Nat
  /-- AOCLK µs when the last THROTTLE for it arrived. -/
  seen : Nat
  deriving DecidableEq, Repr

/-- One link port (Link Ports). -/
structure Port where
  /-- LINK_STATE 0x5010+p.01: 0 OFF, 1 DOWN, 2 TRAINING, 3 GATE, 4 DISCOVERY, 5 UP, 6 RETRAINING; 0. -/
  state : Nat := 0
  /-- LINK_DOWN_CAUSE 0x5010+p.02, ENUM; 0. -/
  cause : Nat := 0
  /-- LINK_WIDTH 0x5010+p.03: 0, 1, 2, 4, 8; 0. -/
  width : Nat := 0
  /-- Physical lane of each logical lane, transmit (LINK_LANE_MAP 0x5010+p.04) and receive (R342); none is given: DESIGN
  CHOICE empty, log 3. -/
  txMap : List Nat := []
  rxMap : List Nat := []
  /-- Good physical lanes of each direction, 9 bits (R342); DESIGN CHOICE 0, log 3. -/
  txGood : Nat := 0
  rxGood : Nat := 0
  /-- Width recorded in the survey log (R344), board flash; none recorded: 0. -/
  recWidth : Nat := 0
  /-- SEQ of the next frame sent and of the last received in order, 12 bits (Table 10.3); 0, 4095. -/
  txSeq : Nat := 0
  rxSeq : Nat := 4095
  /-- Discarding since a corrupt frame (R338); false. -/
  discard : Bool := false
  /-- Replay buffer, oldest first: SEQ, frame code (KIND × 16 + VC), STREAM, BYTES, CREDIT_VC and CREDIT, payload, at most 1,024
  (R339); empty. -/
  replay : List Sent := []
  /-- NAKs received in a row of the same frame and its SEQ, and NAKs sent in a row for the same frame (R340); 0. -/
  naks : Nat := 0
  nakSeq : Nat := 0
  nakSent : Nat := 0
  /-- The retraining under way interrupted DISCOVERY (R340, R364); false. -/
  disc : Bool := false
  /-- Credits the transmitter holds for VC 0, 1 and 2 (R341); 0 before training. -/
  credit : List Nat := [0, 0, 0]
  /-- Receive buffers in use for VC 0, 1 and 2 (R341); 0. -/
  used : List Nat := [0, 0, 0]
  /-- Frames that wait for a credit: VC, STREAM and payload, oldest first (R341); none. -/
  waitOut : List (Nat × Nat × Bytes) := []
  /-- Messages that wait while the port retrains (Table 10.8), each as its 32 bytes (Table 10.5); none. -/
  waitMsg : List Bytes := []
  /-- Credits to return for VC 0, 1 and 2 that no frame has carried yet (R341); 0. -/
  owed : List Nat := [0, 0, 0]
  /-- Frames sent since the last control frame (R356); 7, so that a control frame may go. -/
  sinceCtl : Nat := 7
  /-- The survey's training, and its gate where it runs one, have passed; DISCOVER waits for step 19 (R347, R363); false. -/
  gated : Bool := false
  /-- Errors and bits of the last window of lane 8 while it is unused, transmit and receive (R349); 0. -/
  spareBer : List (Nat × Nat) := [(0, 0), (0, 0)]
  /-- The port runs SEALED since its last training: the PRK of its key exchange and the direction it sends in (R350 to R352); none. -/
  sealKey : Option (Nat × Nat) := none
  /-- Transmit chainage, LINK_CHAINAGE 0x5010+p.0A, 64 bits (R353); 0. -/
  chainTx : Nat := 0
  /-- Last accepted receive chainage (R354); none. -/
  chainRx : Option Nat := none
  /-- The partner, once its DISCOVER has arrived (R363, R364); none. -/
  partner : Option Partner := none
  /-- Neighbour's zones at a throttle step (R359); none. -/
  zones : List NbrZone := []
  /-- Announced power state of the neighbour: SLEEP_NOTICE's STATE and WAKE_US (R705); none. -/
  sleep : Option (Nat × Nat) := none
  /-- A DOWN_NOTICE named this port, with its CAUSE (R360, R705); none. -/
  down : Option Nat := none
  /-- Protection in force since the last training (R350): 0 TRUSTED, 1 SEALED; 0. -/
  protect : Nat := 0
  /-- Training skips this port at the present start (R627); false. -/
  skipped : Bool := false
  deriving DecidableEq, Repr

/-- The link ports. -/
structure Links where
  /-- L00 to L23 (Table 0.2); see Port. -/
  dev : List Port := List.replicate 24 {}
  deriving DecidableEq, Repr
/-- A claim of a stream (R377): port, whether it is sent, tag, and the leg it serves. -/
structure Claim where
  port : Nat
  send : Bool
  tag : Nat
  leg : Nat
  deriving DecidableEq, Repr

/-- Progress of one started leg (R374, R383). -/
structure LegRun where
  /-- Bytes of its stream received, and sent or written so far. -/
  got : Nat := 0
  put : Nat := 0
  /-- Received bytes kept for a sum, a record or an exponent (R385, R389, R391). -/
  buf : Bytes := []
  /-- Responses formed by an ATOMIC_RECV (R391), and records performed. -/
  rsp : Bytes := []
  recs : Nat := 0
  /-- The leg's anchor, taken when it started (R388); none was needed: 0. -/
  anchor : Nat := 0
  /-- First fail-class status an atomic record met (R391). -/
  bad : Option Fail := none
  /-- Frames moved. -/
  frames : Nat := 0
  /-- AOCLK µs of its start or last advance, and µs it has waited in all. -/
  since : Nat := 0
  waited : Nat := 0
  /-- Its progress is complete and only frames that wait for credit keep it; and it has finished. -/
  full : Bool := false
  done : Bool := false
  deriving DecidableEq, Repr

/-- A live traverse item (R371 to R375), by item key. -/
structure Trav where
  /-- The legs as read at acceptance, 256 bits each (R371). -/
  legs : List Nat
  /-- Started legs by index (R374). -/
  runs : SMap LegRun := []
  /-- Legs started so far: 0 to `started` - 1. -/
  started : Nat := 0
  claims : List Claim
  /-- Anchor slots 0 to 7, 16 bits each (R388); 0x8000. -/
  slots : List Nat := List.replicate 8 0x8000
  /-- FLAGS gathered so far (R375). -/
  flags : Nat := 0
  /-- The FAIL notice that ends the item: ORIGIN, CAUSE and HOPS (R397). -/
  failFrom : Option (Nat × Nat × Nat) := none
  /-- CREDIT notices received by port × 32768 + tag (R384). -/
  credits : SMap Nat := []
  deriving DecidableEq, Repr

/-- Frames of an unclaimed stream (R378): port, VC, tag, payloads oldest first, and AOCLK µs since the first. -/
structure HeldStream where
  port : Nat
  vc : Nat
  tag : Nat
  frames : List Bytes
  since : Nat
  deriving DecidableEq, Repr

/-- A FAIL notice remembered for a tag nobody claims (R399). -/
structure HeldFail where
  port : Nat
  tag : Nat
  origin : Nat
  cause : Nat
  hops : Nat
  since : Nat
  deriving DecidableEq, Repr

/-- A firmware broadcast under way at member 0 (R408 to R410). -/
structure Bcast where
  rq : Rq
  id : Nat
  mask : Nat
  /-- Status bytes answered so far, by member. -/
  answers : SMap Nat := []
  deriving DecidableEq, Repr

/-- A firmware image under way at a member (R409): announced length, BCAST_ID, digest, and bytes so far. -/
structure RxImage where
  len : Nat
  id : Nat
  digest : Bytes
  data : Bytes := []
  deriving DecidableEq, Repr

/-- A message to another member that waits for its reply (R488, R489): REQ_ID, what waits (0 mailbox, 2 write data,
3 read data), the host port channel it serves (32, none, once that has ended without it), and its bytes. -/
structure GroupWait where
  req : Nat
  member : Nat
  what : Nat
  chan : Nat
  bytes : Nat
  deriving DecidableEq, Repr

/-- Traverses and the group (Traverses and In-Network Reduction). -/
structure Travs where
  /-- Live traverse items by item key (R382: at most 16 per floor); 11_traverses.md; none. -/
  live : SMap Trav := []
  /-- Frames held for unclaimed streams (R378); 11_traverses.md; none. -/
  held : List HeldStream := []
  /-- CREDIT notices held for unclaimed tags (R384): port, tag, credits, AOCLK µs; none. -/
  heldCredits : List (Nat × Nat × Nat × Nat) := []
  /-- FAIL notices remembered (R399); none. -/
  fails : List HeldFail := []
  /-- HOLD notices by port × 32768 + tag: AOCLK µs of the last (R393); none. -/
  holds : SMap Nat := []
  /-- FW_BCAST under way (R410); none. -/
  bcast : Option Bcast := none
  /-- BCAST_ID of the next broadcast; DESIGN CHOICE 0, log 3. -/
  bcastId : Nat := 0
  /-- An image being received (R409); none. -/
  rxImage : Option RxImage := none
  /-- Pending tile firmware in board flash (R409, R616); DESIGN CHOICE empty, log 3. -/
  pendTile : Bytes := []
  /-- BCAST_ID it was stored under (R409, R441), board flash; DESIGN CHOICE 0, log 3. -/
  pendId : Nat := 0
  /-- VC 2 messages arriving in parts: source × 2^24 + channel × 2^16 + REQ_ID to the content so far (Table 14.6); none. -/
  parts : SMap Bytes := []
  /-- Messages to other members that wait for replies (R489); none. -/
  waits : List GroupWait := []
  /-- VC 2 frames made here for this member, by tag, not yet delivered (R405), oldest first; none. -/
  selfVc2 : List (Nat × Bytes) := []
  /-- REQ_ID of the next VC 2 message, 16 bits; DESIGN CHOICE 0, log 3. -/
  reqId : Nat := 0
  /-- STREAM_COUNTERS (Table 2.16) by port × 32768 + tag: frames, bytes, held, legs; none. -/
  counters : SMap (List Nat) := []
  deriving DecidableEq, Repr
/-- One logical bond module of a site (R431, R432, Table 12.4). -/
structure Bond where
  /-- SEQ of the next flit sent, modulo 128 (R431); 0. -/
  txSeq : Nat := 0
  /-- SEQ of the last flit received in order (R431); 127, so that the first flit is 0: DESIGN CHOICE, log 3. -/
  rxSeq : Nat := 127
  /-- Discarding since a corrupt flit, until its replay (R432); false. -/
  discard : Bool := false
  /-- Replay buffer, oldest first: SEQ, OP, fields and data, at most 64 (R432); empty. -/
  replay : List Sent := []
  /-- NAKs in a row of the same flit and its SEQ (R432); 0. -/
  naks : Nat := 0
  nakSeq : Nat := 0
  /-- NAKs in a row that the floor has sent for one flit (R432); 0. -/
  nakSent : Nat := 0
  /-- The module retrains and its traffic waits (R432); false. -/
  retraining : Bool := false
  /-- RSP and WORK credits the tile has granted and the floor holds (R429); 0. -/
  rsp : Nat := 0
  work : Nat := 0
  /-- REQ and WRQ credits the floor has granted and the tile holds (R429); 0. -/
  req : Nat := 0
  wrq : Nat := 0
  /-- Messages that wait for a credit of their class (R429): OP, fields and data, oldest first; none. -/
  waitOut : List (Nat × List Nat × Bytes) := []
  /-- REQ and WRQ messages not taken for want of an RSP credit (R430), oldest first, each with what its line meets: the array's
  errors, the time since the line's read and the remote line cache's way; none. -/
  waitIn : List (Flit × Ecc × Nat × Nat) := []
  deriving DecidableEq, Repr

/-- A tile's evidence as recorded (R510 to R512, Table 15.5). -/
structure Evid where
  /-- The last evidence verified. -/
  verified : Bool
  /-- A number that stands for the leaf public key. -/
  leaf : Nat
  /-- The measurement list as sent: 52 bytes an entry. -/
  list : Bytes
  deriving DecidableEq, Repr

/-- A tile site (Tile Sites). -/
structure Site where
  /-- SITE_STATE 0x5810+t.01: 0 EMPTY to 7 REFUSED; the reset value is a dash: DESIGN CHOICE 0 EMPTY, log 3. -/
  state : Nat := 0
  /-- SITE_FENCE_CAUSE 0x5810+t.02; 0. -/
  cause : Nat := 0
  /-- A fence is under way, with its cause (R444, R666); none. -/
  fencing : Option Nat := none
  /-- SITE_MODULES_UP 0x5810+t.03, 16 bits; 0. -/
  up : Nat := 0
  /-- SITE_RATE 0x5810+t.04; 0. -/
  rate : Nat := 0
  /-- SITE_VCORE_NOW 0x5810+t.07, mV; 0. -/
  vcore : Nat := 0
  /-- SITE_TILE_ID 0x5810+t.08: HELLO payload; the reset value is a dash: DESIGN CHOICE empty, log 3. -/
  tileId : Bytes := []
  /-- VSET under way: asked voltage, module and TAG (R437); none. -/
  vset : Option (Nat × Nat × Nat) := none
  /-- Rails, SCLK and SRST_N of Table 12.6: VBOND and VCORE on, SCLK running, SRST_N released; all off. -/
  railsOn : Bool := false
  sclk : Bool := false
  srstReleased : Bool := false
  /-- LN_N low, and the assertion is ignored as overlong (R438); false. -/
  lnLow : Bool := false
  lnIgnored : Bool := false
  /-- Bond modules by logical number; see Bond. -/
  bonds : SMap Bond := []
  /-- Physical modules that passed training at the rate in force, bit n module n, M16 bit 16 (R414, R416); 0. -/
  trained : Nat := 0
  /-- What training found of each physical module at that rate: the signals that its repair signals replace (R414); none. -/
  repair : List BondTest := []
  /-- Sideband SEQ of the floor's outstanding message, if any (R433); none. -/
  sbOut : Option Nat := none
  sbSeq : Nat := 0
  /-- Messages that wait until the outstanding one is acknowledged: TYPE and payload, oldest first (R433); none. -/
  sbWait : List (Nat × Bytes) := []
  /-- HELLO has been received since the last reset release (R434, R435); false. -/
  hello : Bool := false
  /-- Phase and nonce draw of the open CHALLENGE (R440, R441); none. -/
  challenge : Option (Nat × Nat) := none
  /-- Evidence as recorded, the latest phase's (R510, R512); 15_trust.md; none. -/
  evidence : Option Evid := none
  /-- Admissions since survey (Table 15.5), 32 bits; 15_trust.md; 0. -/
  admissions : Nat := 0
  /-- FW_DATA lines sent and the BCAST_ID of the load (R441); none. -/
  fwLoad : Option Nat := none
  fwOk : Bool := false
  /-- The digest of the image sent (R441); none. -/
  fwSent : Bytes := []
  /-- Re-admission is under way (R446); false. -/
  readmitting : Bool := false
  /-- VCORE ceiling of R588 in mV, SITE_VCORE_CEILING 0x2220+t.03; 950. -/
  ceiling : Nat := 950
  /-- The power limit holds the ceiling (R588); false. -/
  powerCap : Bool := false
  /-- The ceiling is held, by the power limit or a thermal step (R588, R603); false. -/
  held : Bool := false
  /-- Zone level, SITE_LEVEL 0x2820+t.02; 0. -/
  level : Nat := 0
  /-- SITE_TEMP_MAX 0x2820+t.01, 1/16 °C; the reset value is a dash: DESIGN CHOICE 0, log 3. -/
  temp : Int := 0
  /-- SITE_POWER_NOW 0x2220+t.02, W; 0. -/
  power : Nat := 0
  /-- Droop events not yet reported (R591); 0. -/
  droopsOwed : Nat := 0
  /-- Requests of a bond module that failed, not yet performed, whose responses are discarded (R418): bond × 65536 + TAG; none. -/
  stale : List Nat := []
  deriving DecidableEq, Repr

/-- The four sites. -/
structure Sites where
  /-- T0 to T3 (Table 0.2); see Site. -/
  dev : List Site := List.replicate 4 {}
  deriving DecidableEq, Repr

/-- A line in a floor's core caches (R451): its 256 bytes, whether dirty, and the core that last wrote or read it. -/
structure CacheLine where
  ctx : Nat
  va : Nat
  data : Bytes
  dirty : Bool := false
  core : Nat
  deriving DecidableEq, Repr

/-- A work entry of a core (R460): slot 0 to 15, item, the 64 bytes, and whether WORK_POP has taken it. It keeps its slot until
its item is answered. -/
structure WorkEnt where
  slot : Nat
  item : Nat
  bytes : Bytes
  popped : Bool := false
  deriving DecidableEq, Repr

/-- A host core as the floor sees it (Host Cores and the Serving Loop). -/
structure Core where
  /-- HOST_CORE_STATE 0x6010+c.01: 0 RESET, 1 RUNNING, 2 HALTED, 3 FENCED, 4 WITHDRAWN; 0. -/
  state : Nat := 0
  /-- Bound context, HOST_CORE_BOUND 0x6010+c.05; 0 none. -/
  ctx : Nat := 0
  /-- HOST_FENCE_CAUSE 0x6010+c.06; 0. -/
  cause : Nat := 0
  /-- A fence is under way with its cause (R466, R666); none. -/
  fencing : Option Nat := none
  /-- Address the core was released at (R454), 64 bits; 0. -/
  entry : Nat := 0
  /-- The RISC-V state of Table 13.1: privilege mode 0 user, 1 supervisor, 3 machine; pc; x1 to x31 by number, f0 to f31 from 32, the 512-bit
  v0 to v31 from 64 (R450); machine, 0, every register 0: PRESUMED, log 87. -/
  priv : Nat := 3
  pc : Nat := 0
  regs : SMap Nat := []
  /-- Work entries, oldest first, at most 16 (R460); none. -/
  work : List WorkEnt := []
  /-- Notice queue, oldest first, each with its LOST mark (R462), at most 64; empty. -/
  notices : List (Nat × Bool) := []
  /-- A notice was dropped since the last vector entered (R462); false. -/
  noticeLost : Bool := false
  /-- INT_PENDING and INT_ENABLE (R463), 64 bits; 0. -/
  intPending : Nat := 0
  intEnable : Nat := 0
  /-- CACHE_ADDR and the running CACHE_OP: code and lines (R457); 0, none. -/
  cacheAddr : Nat := 0
  cacheOp : Option (Nat × Nat) := none
  /-- Cache operations that wait for it: code, first address and lines, oldest first (R457); none. -/
  cacheWait : List (Nat × Nat × Nat) := []
  /-- ATOM_ADDR, ATOM_WORD, the status of the last ATOM_GO, operands and results (R458); 0. -/
  atomAddr : Nat := 0
  atomWord : Nat := 0
  atomOps : Bytes := []
  atomGo : Nat := 0
  atomRes : Bytes := []
  /-- DRAW_SEED and DRAW_INDEX (R464), 64 bits; 0: DESIGN CHOICE, log 3. -/
  drawSeed : Nat := 0
  drawIndex : Nat := 0
  /-- WORK_DONE registers, bytes 0 to 23 (Table 13.3); 0. -/
  workDone : Bytes := []
  /-- Mailbox request and reply frames (Table 13.2); empty. -/
  mbxReq : Bytes := []
  mbxReply : Bytes := []
  /-- MBX_GO: 0 idle, 1 busy, 2 reply ready; 0. -/
  mbxGo : Nat := 0
  /-- Doorbell words held until the core's earlier uncached stores are complete (R456); none. -/
  heldBells : List Nat := []
  deriving DecidableEq, Repr

/-- The host cores and the caches of each floor. -/
structure Cores where
  /-- Cores 0 to 31 (floor × 16 + core; R450); see Core. -/
  dev : List Core := List.replicate 32 {}
  /-- Cached lines by floor × 2^60 + context × 2^44 + segment address (R451); none. -/
  cache : SMap CacheLine := []
  /-- ENTROPY reads served per floor: the AOCLK second and the count in it (R465); 0. -/
  entropy : List (Nat × Nat) := [(0, 0), (0, 0)]
  /-- Core that stalls for ENTROPY bits (R465); none. -/
  stalled : List Nat := []
  deriving DecidableEq, Repr

/-- A transfer channel (Table 14.3, R481 to R487). -/
structure Xfer where
  /-- HOST_ADDR, SEG_ADDR, LENGTH and the control word at 0x14 as last written; 0. -/
  hostAddr : Nat := 0
  segAddr : Nat := 0
  length : Nat := 0
  ctl : Nat := 0
  /-- DONE_LINES, BUSY and STATUS; 0. -/
  lines : Nat := 0
  busy : Bool := false
  status : Nat := 0
  /-- The cause that has already ended the running transfer, if any. -/
  fail : Option Status := none
  /-- Binding: context, SPDM session and bind count (R485); none. -/
  bound : Option (Nat × Nat × Nat) := none
  /-- Next SEQ of the binding, host to module and module to host (R487); 0. -/
  seqIn : Nat := 0
  seqOut : Nat := 0
  deriving DecidableEq, Repr

/-- An SPDM session of a host port (R484, R485): identifier and bind count. -/
structure Spdm where
  id : Nat
  binds : Nat := 0
  deriving DecidableEq, Repr

/-- A host or far-tier port (Host Bridge and Far Tier). -/
structure HostPort where
  /-- HP_ROLE 0x6410+n.01: 0 DISABLED, 1 ENDPOINT, 2 ROOT; 0. -/
  role : Nat := 0
  /-- HP_LINK_STATE .02: 0 DOWN, 1 TRAINING, 2 UP; 0. -/
  link : Nat := 0
  /-- HP_LINK_WIDTH .03, HP_LINK_RATE .04, HP_FLIT .05; 0. -/
  width : Nat := 0
  rate : Nat := 0
  flit : Bool := false
  /-- HP_FENCE_CAUSE .07; 0. -/
  cause : Nat := 0
  /-- A fence is under way with its cause (R498, R666); none. -/
  fencing : Option Nat := none
  /-- The register window and BAR2 take no transaction since a fence (R498); false. -/
  stopped : Bool := false
  /-- Open SPDM sessions (R484); none. -/
  sessions : List Spdm := []
  /-- Identifier of the next session; DESIGN CHOICE 0, log 3. -/
  nextSession : Nat := 0
  /-- GROUP_TARGET (Table 14.2); none written: the own member, or 0 when GROUP_MEMBER is 0xFF. -/
  target : Option Nat := none
  /-- APERTURE_CTX, APERTURE_BASE; 0. -/
  apCtx : Nat := 0
  apBase : Nat := 0
  /-- ATOM_ADDR, ATOM_WORD, ATOM_OPERANDS, ATOM_RESULTS (R480); the table gives no reset value: DESIGN CHOICE 0, log 3. -/
  atomAddr : Nat := 0
  atomWord : Nat := 0
  atomOps : Bytes := []
  atomGo : Nat := 0
  atomRes : Bytes := []
  /-- Mailbox frames and MBX_GO (R476); empty, 0. -/
  mbxReq : Bytes := []
  mbxReply : Bytes := []
  mbxGo : Nat := 0
  /-- Transfer channels 0 to 15; see Xfer. -/
  xfer : List Xfer := List.replicate 16 {}
  /-- Reads of ATOM_GO that wait for the first to return (R480): ATOM_ADDR, ATOM_WORD and ATOM_OPERANDS as they were read, oldest
  first; none. -/
  atomWait : List (Nat × Nat × Bytes) := []
  /-- Doorbell words held behind BAR2 writes that are not complete (R477); none. -/
  heldBells : List Nat := []
  /-- Image staged in BAR4 (Table 14.2); DESIGN CHOICE empty, log 3. -/
  bar4 : Bytes := []
  /-- FAR_STATE 0x6420+n.01: 0 NONE, 1 TRAINING, 2 READY, 3 DOWN, 4 UNSUPPORTED; 0. -/
  far : Nat := 0
  /-- FAR_CAPACITY .02, bytes; 0. -/
  capacity : Nat := 0
  /-- FAR_DEVICE .03, 16 bytes; DESIGN CHOICE zeros, log 3. -/
  device : Bytes := List.replicate 16 0
  /-- Checkpoint items whose data moves, by item key: draw number of the SAVE's nonce (R495), and checkpoint key in force
  at the start (R541); none. -/
  moves : SMap (Nat × Option Nat) := []
  deriving DecidableEq, Repr

/-- The host and far-tier ports. -/
structure Hps where
  /-- HP0 and HP1 (Table 0.2); see HostPort. -/
  dev : List HostPort := List.replicate 2 {}
  deriving DecidableEq, Repr
/-- An open key-release request (R523, R526). -/
structure KeyReq where
  id : Nat
  ctx : Nat
  kind : Nat
  lease : Nat
  /-- Draw number of its ephemeral key, and AOCLK µs when it was issued. -/
  draw : Nat
  time : Nat
  deriving DecidableEq, Repr

/-- A lease record in board flash (Table 16.2). -/
structure Lease where
  kind : Nat
  ctx : Nat
  part : Nat
  id : Nat
  expiry : Nat
  measure : Bytes
  aonId : Nat
  /-- NONCE, and the key as sealed with its tag (R544). -/
  nonce : Nat
  wrapped : Bytes
  tag : Bytes
  deriving DecidableEq, Repr

/-- Keys of one context that F0's security controller holds (Table 16.1): CONTEXT_ROOT and CHECKPOINT, 32 bytes each as
numbers, most significant byte first. -/
structure CtxKeys where
  root : Option Nat := none
  ckpt : Option Nat := none
  deriving DecidableEq, Repr

/-- The security controller (Identity, Measurement and Attestation; Confidential Operation). -/
structure Sec where
  /-- Draws of the DRBG so far (R293, R465, R502); 15_trust.md; DESIGN CHOICE 0, log 3. -/
  draws : Nat := 0
  /-- Measurements 1 to 14 (Table 15.3), 48 bytes each; 15_trust.md; DESIGN CHOICE empty before each is taken, log 3. -/
  meas : SMap Bytes := []
  /-- MEAS_GEN 0x7000.04, 32 bits (R509); 1. -/
  measGen : Nat := 1
  /-- SECURITY_VERSION and FIRMWARE_VERSION of the running image (R507); DESIGN CHOICE 0, log 3. -/
  version : Nat := 0
  fwVersion : Nat := 0
  /-- SVN_FUSES value asked of the fuse block by the last SEC_VERSION_ADVANCE (R508); 0. -/
  burn : Nat := 0
  /-- PARTNER_CODE and PARTNER_ROOT of the PARTNER licence counted (Table 15.11); none: 0. -/
  partner : Nat := 0
  partnerRoot : Bytes := []
  /-- Open key-release requests (R523), oldest first; none. -/
  reqs : List KeyReq := []
  /-- REQ_ID of the next request, 32 bits; DESIGN CHOICE 0, log 3. -/
  reqId : Nat := 0
  /-- Keys by context (Table 16.1); 16_confidential.md; none. -/
  keys : SMap CtxKeys := []
  /-- Security store of R518: entries by key, and whether its digest passes; board flash; DESIGN CHOICE none, log 3. -/
  store : Option (SMap Bytes) := none
  storeGood : Bool := true
  /-- Lease records (R544), board flash; 16_confidential.md; DESIGN CHOICE none, log 3. -/
  leases : List Lease := []
  /-- ISLAND_SECONDS 0x7060.05, 64 bits, and AON_ID, 64 bits (R543); 0, and DESIGN CHOICE 0, log 3. -/
  island : Nat := 0
  aonId : Nat := 0
  /-- V1P8_AON is up (R543, R686); false until V1P8_AON_RISE: DESIGN CHOICE true, log 3: reset is a module under power. -/
  aonUp : Bool := true
  /-- Last value DEBUG_CHALLENGE returned (R550), by draw number; none. -/
  challenge : Option Nat := none
  /-- A Cloesk debug unlock is in force (R550), bit 4 of DEBUG_STATE; false. -/
  unlocked : Bool := false
  /-- The TAP is in Test-Logic-Reset since the last forced reset; its instruction: 0 BYPASS, 1 IDCODE, else another (R691);
  DESIGN CHOICE 1 (IEEE 1149.1 resets to IDCODE), log 3. -/
  tap : Nat := 1
  /-- Coarsening of readings goes on until the next 100 ms boundary (R554); false. -/
  coarse : Bool := false
  /-- Root and leaf digests of the client of each open session (R556, R557), by session; none. -/
  clients : SMap (Nat × Nat) := []
  deriving DecidableEq, Repr
/-- Clocks, time and power states (Clocks and Power States). -/
structure Clk where
  /-- AOCLK count since the survey began, in µs (Table 9.10, 17_clocks.md); 64 bits; 0. -/
  us : Nat := 0
  /-- REFSET[1:0] as sampled (R562), REFSET_DELAY 0x2000.01; the reset value is a dash: DESIGN CHOICE 0 (a strap left open
  reads 0, R680), log 3. -/
  refset : Nat := 0
  /-- CLOCK_STATE 0x2000.02: 0 LOCKED, 1 SETTLING, 2 CLOCK_LOSS, 3 RELOCKING (Table 17.10); 0. -/
  state : Nat := 0
  /-- Floors in CLOCK_LOSS (R568, R565); none. -/
  loss : List Bool := [false, false]
  /-- AOCLK µs when the last loss was declared (R571); 0. -/
  lossAt : Nat := 0
  /-- PLL_LOCKED 0x2010+f.01, bits 0 to 21; the reset value is a dash: DESIGN CHOICE 0, log 3. -/
  locked : List Nat := [0, 0]
  /-- CPLL that feeds the cores of each floor (0 A, 1 B) and their clock in MHz (R567); DESIGN CHOICE 0 and the default of
  HOST_CLOCK_MAX, log 3. -/
  cpll : List Nat := [0, 0]
  coreMhz : List Nat := [3200, 3200]
  /-- A switch waits for the other CPLL to lock, with the clock it then runs at (R567); none. -/
  coreTo : List (Option Nat) := [none, none]
  /-- The always-on island of each floor runs on GPLL ÷ 400 (R561); false. -/
  coasting : List Bool := [false, false]
  /-- Cores halted by a clock loss, by number (R571); none. -/
  haltedClk : List Nat := []
  /-- Stacks whose MPLL re-locks and whose accesses wait (R565); none. -/
  relock : List Nat := []
  /-- PWR_STATE 0x2100.05: 0 ACTIVE, 1 DOZE, 2 NAP, 3 DORMANT (Table 17.10); 0. -/
  pwr : Nat := 0
  /-- PWR_LAST_WAKE 0x2100.0B (Tables 17.7, 17.10); 0. -/
  wake : Nat := 0
  /-- PWR_ENTRIES 0x2100.0C: entries to DOZE, NAP and DORMANT since survey, 64 bits each (Table 17.10, whose reset value is a dash); DESIGN CHOICE 0, log 3. -/
  entries : List Nat := [0, 0, 0]
  /-- Cores whose state DORMANT retains (R576), with their states; none. -/
  retained : List (Nat × Nat) := []
  /-- Link ports that DORMANT stopped (R572, R581); 17_clocks.md; none. -/
  portsStopped : List Nat := []
  deriving DecidableEq, Repr
/-- A temperature sensor of a floor (R595 to R598). -/
structure Sensor where
  /-- Reading and calibration offset, 1/16 °C; DESIGN CHOICE 0, log 3. -/
  temp : Int := 0
  off : Int := 0
  /-- Samples in a row more than 15 °C from its neighbours (R598); 0. -/
  odd : Nat := 0
  valid : Bool := true
  deriving DecidableEq, Repr

/-- Heat of one floor (Power Delivery and Thermal Management). -/
structure Heat where
  /-- FLOOR_LEVEL 0x2810+f.02: 0 NORMAL to 4 SHUTDOWN; 0. -/
  level : Nat := 0
  /-- FLOOR_TEMP_MAX .01, 1/16 °C; the reset value is a dash: DESIGN CHOICE 0, log 3. -/
  temp : Int := 0
  /-- BENCHMARK_TEMP .03, 1/16 °C; DESIGN CHOICE 0, log 3. -/
  bench : Int := 0
  /-- BENCHMARK_STATE .04: the benchmark has failed (R599); false. -/
  failed : Bool := false
  /-- Recalibrations in a row with the benchmark off by more than 5 °C (R599); 0. -/
  benchOdd : Nat := 0
  /-- Common ageing drift, 1/16 °C (R597); 0. -/
  drift : Int := 0
  /-- Sensors 0 to 263: 256 of the die, then 4 under each site region (R595); see Sensor. -/
  sensors : List Sensor := List.replicate 264 {}
  /-- The floor is in thermal stop (R605); false. -/
  stopped : Bool := false
  /-- Items that its thermal stop ended, until the loss of the floor is reported (R605, R669); 0. -/
  ended : Nat := 0
  /-- µs since THROTTLE for the floor's zones began, by ZONE_KIND 2 (R358): AOCLK µs of the step's start; 0. -/
  stepAt : Nat := 0
  deriving DecidableEq, Repr

/-- A closure under way (Table 18.2, R685): 1 power-fail (PFW_N), 2 PWR_OFF, 3 reset by PORST_N, 4 reset by WRST_N. -/
structure Closure where
  by_ : Nat
  /-- AOCLK µs when it was declared. -/
  since : Nat
  deriving DecidableEq, Repr

/-- Power, pins and closures. -/
structure Pwr where
  /-- F0 and F1 (R595 to R605); see Heat. -/
  heat : List Heat := List.replicate 2 {}
  /-- AOCLK µs when each stack's throttle step began (R358); 0. -/
  stackStep : List Nat := [0, 0, 0, 0, 0, 0]
  /-- The closure under way (R592); none. -/
  closure : Option Closure := none
  /-- The module is OFF (R582); false. -/
  off : Bool := false
  /-- PORST_N, WRST_N and PFW_N are low (Table 22.3); DESIGN CHOICE high: reset is the moment the survey begins, log 3. -/
  porstLow : Bool := false
  wrstLow : Bool := false
  pfwLow : Bool := false
  /-- PVIN, VDRAM and VPP_D in range, and the regulators run (R587, R684); DESIGN CHOICE true, log 3. -/
  railsOk : Bool := true
  /-- Rails of each floor run (Table 18.1, R605); true. -/
  floorOn : List Bool := [true, true]
  /-- THERMTRIP_N is driven low (R606); false. -/
  trip : Bool := false
  /-- ALERT_N and THERMTRIP_N are driven: survey step 02 has come since V1P8_AON rose (R690); before it they are high-impedance;
  false. -/
  driven : Bool := false
  /-- AOCLK µs of the last POWER event for droops of each site (R591); none. -/
  droopAt : List (Option Nat) := [none, none, none, none]
  /-- A reset that waits for its rising edge (R685, R695): 3 PORST_N, 4 WRST_N, 5 power lost without warning (R593, R686);
  none. -/
  reset : Option Nat := none
  deriving DecidableEq, Repr
/-- One cadastre bank (R148, R631): physical index of each moved logical unit and the withdrawn logical units, by
unit kind × 65536 + number (Table 9.9). -/
structure CadBank where
  phys : SMap Nat := []
  gone : SMap Unit := []
  deriving DecidableEq, Repr

/-- An in-service move (Table 19.9). -/
structure Move where
  unit : UnitRef
  /-- Physical index behind the unit before and after. -/
  from_ : Nat
  spare : Nat
  /-- CAD_MOVE_STATE: 1 copying, 2 awaiting flip, 3 awaiting retirement. -/
  stage : Nat
  /-- State the old unit takes at the end: 2 failed, 3 retired before failure (R635). -/
  final : Nat
  /-- The epoch whose retirement ends stage 3. -/
  until_ : Nat := 0
  deriving DecidableEq, Repr

/-- A survey log record (Table 19.6). -/
structure LogRec where
  survey : Nat
  time : Nat
  unit : UnitRef := {}
  phys : Nat := 0xFF
  step : Nat
  ty : Nat
  attempt : Nat := 0
  status : Nat := 0
  path : Nat := 0
  data : Nat := 0
  deriving DecidableEq, Repr

/-- A FW_UPDATE under way (R623): TOTAL and the bytes accepted so far. -/
structure Update where
  total : Nat
  data : Bytes
  deriving DecidableEq, Repr

/-- The cadastre, the survey and board flash (The Survey and the Cadastre). -/
structure Cad where
  /-- Bank of the current epoch (R148, R631); 19_survey.md; identity, nothing withdrawn. -/
  cur : CadBank := {}
  /-- Bank of the older live epoch (R631); 19_survey.md; none. -/
  old : Option (Nat × CadBank) := none
  /-- Placement of a returning floor's units, which the commit of its re-admission puts into the new epoch's bank (R28, R118);
  none. -/
  back : Option CadBank := none
  /-- State of each physical unit that is not as built (R632), by kind × 65536 + parent × 256 + index: 0 in service, 1 free
  spare, 2 failed, 3 retired, 4 copy target; as built units of Table 19.8 are 0 and spares 1. -/
  units : SMap Nat := []
  /-- Moves under way, oldest first (R637); none. -/
  moves : List Move := []
  /-- Failed slices and channels that wait for a running move (R637), with the state the old unit then takes; none. -/
  queued : List (UnitRef × Nat) := []
  /-- SURVEY_STEP 0x8000.01 (Table 19.12, R611); 0. -/
  step : Nat := 0
  /-- SURVEY_PATH 0x8000.02: the warm fast path (Table 19.12, R624); 0 cold. -/
  warm : Bool := false
  /-- The survey has halted (R614); false. -/
  halted : Bool := false
  /-- Straps as sampled at PORST_N (R471, R619, R679): HP roles, BOOTSRC, CLOESK_TEST; a strap left open reads 0 (R680). -/
  hpStraps : Nat := 0
  bootsrc : Nat := 0
  testStrap : Nat := 0
  /-- The last survey reached step 21 (R610); false. -/
  lastOk : Bool := false
  /-- PORST_N, a fall of PVIN below 2.10 V, or a change of AON_ID since that step 21 (R610); DESIGN CHOICE true: the first
  survey is cold, log 3. -/
  coldNeeded : Bool := true
  /-- LSEQ at that step 21 (R610); 0. -/
  ledgerAt : Nat := 0
  /-- IMAGE_DIGEST of the last survey's image (R610); DESIGN CHOICE empty, log 3. -/
  lastImage : Bytes := []
  /-- SURVEY_FAILED_STARTS 0x8000.05, 8 bits (R624); 0. -/
  fails : Nat := 0
  /-- Firmware source being tried at step 04 and those tried so far (R619), FW_SOURCES_TRIED 0x8000.0B; none, 0. -/
  source : Option Nat := none
  tried : Nat := 0
  /-- FW_SOURCE_USED 0x8000.0A (Table 19.12); 0. -/
  used : Nat := 0
  /-- The next start begins at this source (R622, R626); none. -/
  firstSource : Option Nat := none
  /-- Flash repair of R622 under way; false. -/
  repairing : Bool := false
  /-- FW_UPDATE under way (R623); none. -/
  update : Option Update := none
  /-- The running image (R619); DESIGN CHOICE empty before step 04, log 3. -/
  running : Bytes := []
  /-- AON_ID at the last step 21 (R331, R610), survey log; DESIGN CHOICE 0, log 3. -/
  aonLast : Nat := 0
  /-- Physical units that failed at steps 08 to 12 of this survey (R633); none. -/
  badNow : List Nat := []
  /-- Firmware region of board flash, and whether the layout header marks its digest valid (R616, R623); DESIGN CHOICE
  empty and valid, log 3. -/
  image : Bytes := []
  imageGood : Bool := true
  /-- Digests of stored layers that no longer match (R71): 0 to 7 sheets, 8 baseline; none. -/
  badLayers : List Nat := []
  /-- The standing table fails its digest (R674); false. -/
  badStanding : Bool := false
  /-- Survey log, latest first (R630), board flash; DESIGN CHOICE empty, log 3. -/
  log : List LogRec := []
  /-- Sites and ports whose optional step failed at the last start (R626, R627): kind × 65536 + number; none. -/
  failedOpt : List Nat := []
  /-- Closure record (Table 18.2 step 7): the closure ended, and its duration in µs; none. -/
  closureRec : Option Nat := none
  /-- AOCLK µs when the running survey began its present step (R630); 0. -/
  stepAt : Nat := 0
  deriving DecidableEq, Repr
/-- Eye history of a lane, bit or module (R643): survey-time eye, daily minima latest first (64), and whether the last
measurement lay below its floor (R652). Width in mUI and height together as one number each. -/
structure Eye where
  survey : Nat × Nat := (0, 0)
  minima : List (Nat × Nat) := []
  /-- AOCLK day of the latest minimum. -/
  day : Nat := 0
  low : Bool := false
  deriving DecidableEq, Repr

/-- Monitors and the margin plan (Ageing and Margin Planning). -/
structure Age where
  /-- Latest slack of each monitor in 0.1 ps, by floor × 64 + monitor (R641); DESIGN CHOICE none before the first reading,
  log 3. -/
  slack : SMap Int := []
  /-- Readings of the last 10 s taken with the zone below STEP1 that no later one undercuts (R642), oldest first: AOCLK µs and
  slack; same numbering; none. -/
  least : SMap (List (Nat × Int)) := []
  /-- Monitors that are invalid (R648), same numbering; none. -/
  invalid : SMap Unit := []
  /-- MARGIN_OFFSETS 0x8800.08: 5 domains of F0 then F1, mV (R647); cadastre store; 0. -/
  offsets : List Nat := [0, 0, 0, 0, 0, 0, 0, 0, 0, 0]
  /-- Domains at limit on a floor (R655), by floor × 5 + domain; none. -/
  atLimit : SMap Unit := []
  /-- Logical cores whose retirement is pending (R651); none. -/
  retire : List Nat := []
  /-- Eye histories by unit code × 128 + lane (R643); board flash; none. -/
  eyes : SMap Eye := []
  /-- AOCLK µs of the corrections that patrol made in each stack in the last 24 h, latest first (R644, R646); none. -/
  ceDay : List (List Nat) := [[], [], [], [], [], []]
  /-- Multiplier each stack's last retention pass requires (R646); cadastre store; 1. -/
  levelReq : List Nat := [1, 1, 1, 1, 1, 1]
  /-- Multiplier that each stack's retention pass of survey step 10 requires (R646); cadastre store; 1. -/
  surveyReq : List Nat := [1, 1, 1, 1, 1, 1]
  /-- Level runs under way, by unit code × 128 + lane (R645); none. -/
  runs : List Nat := []
  /-- Level runs that ended early and are retried at their floor's next re-plan (R656), same numbering; none. -/
  again : List Nat := []
  /-- How far the last level run pushed each canary: phase in mUI and reference in mV (R645), same numbering; none. -/
  levels : SMap (Nat × Nat) := []
  deriving DecidableEq, Repr
/-- A fault-ledger history record (Table 21.6). -/
structure Hist where
  lseq : Nat
  survey : Nat
  time : Nat
  unit : UnitRef
  phys : Nat
  fclass : Nat
  cause : Nat
  outcome : Nat
  status : Nat
  items : Nat
  ctx : Nat
  sev : Nat
  data : Nat
  /-- Written to board flash (R669). -/
  flushed : Bool := false
  deriving DecidableEq, Repr

/-- A standing-table entry (R673). -/
structure Standing where
  kind : Nat
  unitKind : Nat
  parent : Nat
  index : Nat
  rowOrPage : Nat
  deriving DecidableEq, Repr

/-- A holdings record (Table 21.4) on the floor that is home to its object. -/
structure Holding where
  floor : Nat
  kind : Nat
  party : Party
  ctx : Nat
  since : Nat
  object : Nat
  deriving DecidableEq, Repr

/-- A fence under way whose drain has not ended (R664): the party and its cause. -/
structure Fence where
  party : Party
  cause : Nat
  /-- Part of a closure: no history record (R665). -/
  quiet : Bool
  deriving DecidableEq, Repr

/-- Faults, ledger, holdings and alerts (Faults and Work in Flight). -/
structure Flt where
  /-- History records, latest first (R672); board flash; DESIGN CHOICE none, log 3. -/
  hist : List Hist := []
  /-- LEDGER_LAST 0x8200.03, 32 bits (R672); 0. -/
  lseq : Nat := 0
  /-- Highest LSEQ acknowledged (R671); 0. -/
  acked : Nat := 0
  /-- LEDGER_STATE 0x8200.07: the ledger is DEGRADED (R674); false. -/
  degraded : Bool := false
  /-- Standing table (R673); board flash; DESIGN CHOICE none, log 3. -/
  standing : List Standing := []
  /-- Holdings of both floors, oldest first (R661); none. -/
  holdings : List Holding := []
  /-- Fences whose parties still drain (R664); none. -/
  fencing : List Fence := []
  /-- FENCES 0x8210.04 by PARTY_KIND 1 to 5 (R676), 32 bits each; 0. -/
  fences : List Nat := [0, 0, 0, 0, 0]
  /-- FAULT_COUNTS 0x8220.02 by class 0x01 to 0x0A, 32 bits each (Table 21.11); 0. -/
  counts : List Nat := [0, 0, 0, 0, 0, 0, 0, 0, 0, 0]
  /-- ALERT_CAUSES bits other than bit 1 and bit 7 (R671), 16 bits; DESIGN CHOICE 0x0001: the survey is not at step 21
  (the entry's meaning), where the table's default column says 0, log 3. -/
  alert : Nat := 1
  deriving DecidableEq, Repr

/-- Counters and telemetry as classes O and H see them while confidential-resident (R85, R552): the values at the last 100 ms boundary
of AOCLK. -/
structure Latch where
  /-- AOCLK µs of the boundary, COUNTER_LATCH_TIME 0x9000.01, U64 (R552, Table 2.16); 02_field_book.md; 0. -/
  time : Nat := 0
  /-- The counters (Table 2.16); none before the first boundary. -/
  ctr : SMap Nat := []
  /-- Readings of both floors (SENSOR_READ); DESIGN CHOICE none before the first boundary, log 3. -/
  sensors : List (List Sensor) := []
  /-- Slacks (MONITOR_SLACK_READ) and eye histories (EYE_HISTORY_READ) as latched (R85, R552); none. -/
  slack : SMap Int := []
  eyes : SMap Eye := []
  /-- RING_COUNTERS by ring, STREAM_COUNTERS by stream, LEG_COUNTERS by item, as latched (R85, R552); none. -/
  rings : SMap (List Nat) := []
  streams : SMap (List Nat) := []
  legs : SMap (List Nat) := []
  /-- SITE_VCORE_NOW of the sites while power readings are coarsened (R554), mV; 0. -/
  vcore : List Nat := [0, 0, 0, 0]
  deriving DecidableEq, Repr

/-- The module but for its fuses and its command queue. -/
structure Mach where
  /-- The Field Book, its sessions, licences, counters and events (02_field_book.md). -/
  fb : Fb := {}
  /-- Bridge, remote line caches and the other die's standing (03_floor_dies.md). -/
  die : Die := {}
  /-- Grid, buffer control and segment map (04_grid.md). -/
  grid : Grid := {}
  /-- Buffer and stack bytes (04_grid.md, 05_stacks.md). -/
  mem : Mem := {}
  /-- DRAM stacks and their controllers (05_stacks.md). -/
  stk : Stk := {}
  /-- Bandwidth regulators (06_regulation.md). -/
  reg : Reg := {}
  /-- Contexts, rings and items (09_work_rings.md). -/
  rng : Rings := {}
  /-- The cadastre and the surveyor's moves (19_survey.md). -/
  cad : Cad := {}
  /-- Tile sites (12_tile_sites.md). -/
  site : Sites := {}
  /-- Host cores (13_host_cores.md). -/
  core : Cores := {}
  /-- Clocks and time (17_clocks.md). -/
  clk : Clk := {}
  /-- Faults, ledger and holdings (21_faults.md). -/
  flt : Flt := {}
  /-- Sweep engines (07_sweep_engines.md). -/
  swp : Swp := {}
  /-- Link ports (10_link_ports.md). -/
  lnk : Links := {}
  /-- Traverses and the group (11_traverses.md). -/
  trv : Travs := {}
  /-- Host and far-tier ports (14_host_bridge.md). -/
  hp : Hps := {}
  /-- Security controller, keys and leases (15_trust.md, 16_confidential.md). -/
  sec : Sec := {}
  /-- Power, heat, pins and closures (18_power_thermal.md, 22_package.md). -/
  pwr : Pwr := {}
  /-- Monitors, eyes and the margin plan (20_ageing.md). -/
  age : Age := {}
  /-- Latched counters and telemetry (02_field_book.md). -/
  lat : Latch := {}
  /-- Everything the module has shown outside, latest first (the model's own record of its outputs); none. -/
  out : List Emit := []
  deriving DecidableEq, Repr

/-- `m` with its `fb` put to `x`. -/
@[simps] def Mach.setFb (m : Mach) (x : Fb) : Mach := { m with fb := x }
/-- `m` with its `die` put to `x`. -/
@[simps] def Mach.setDie (m : Mach) (x : Die) : Mach := { m with die := x }
/-- `m` with its `grid` put to `x`. -/
@[simps] def Mach.setGrid (m : Mach) (x : Grid) : Mach := { m with grid := x }
/-- `m` with its `mem` put to `x`. -/
@[simps] def Mach.setMem (m : Mach) (x : Mem) : Mach := { m with mem := x }
/-- `m` with its `stk` put to `x`. -/
@[simps] def Mach.setStk (m : Mach) (x : Stk) : Mach := { m with stk := x }
/-- `m` with its `reg` put to `x`. -/
@[simps] def Mach.setReg (m : Mach) (x : Reg) : Mach := { m with reg := x }
/-- `m` with its `rng` put to `x`. -/
@[simps] def Mach.setRng (m : Mach) (x : Rings) : Mach := { m with rng := x }
/-- `m` with its `cad` put to `x`. -/
@[simps] def Mach.setCad (m : Mach) (x : Cad) : Mach := { m with cad := x }
/-- `m` with its `site` put to `x`. -/
@[simps] def Mach.setSite (m : Mach) (x : Sites) : Mach := { m with site := x }
/-- `m` with its `core` put to `x`. -/
@[simps] def Mach.setCore (m : Mach) (x : Cores) : Mach := { m with core := x }
/-- `m` with its `clk` put to `x`. -/
@[simps] def Mach.setClk (m : Mach) (x : Clk) : Mach := { m with clk := x }
/-- `m` with its `flt` put to `x`. -/
@[simps] def Mach.setFlt (m : Mach) (x : Flt) : Mach := { m with flt := x }
/-- `m` with its `swp` put to `x`. -/
@[simps] def Mach.setSwp (m : Mach) (x : Swp) : Mach := { m with swp := x }
/-- `m` with its `lnk` put to `x`. -/
@[simps] def Mach.setLnk (m : Mach) (x : Links) : Mach := { m with lnk := x }
/-- `m` with its `trv` put to `x`. -/
@[simps] def Mach.setTrv (m : Mach) (x : Travs) : Mach := { m with trv := x }
/-- `m` with its `hp` put to `x`. -/
@[simps] def Mach.setHp (m : Mach) (x : Hps) : Mach := { m with hp := x }
/-- `m` with its `sec` put to `x`. -/
@[simps] def Mach.setSec (m : Mach) (x : Sec) : Mach := { m with sec := x }
/-- `m` with its `pwr` put to `x`. -/
@[simps] def Mach.setPwr (m : Mach) (x : Pwr) : Mach := { m with pwr := x }
/-- `m` with its `age` put to `x`. -/
@[simps] def Mach.setAge (m : Mach) (x : Age) : Mach := { m with age := x }
/-- `m` with its `lat` put to `x`. -/
@[simps] def Mach.setLat (m : Mach) (x : Latch) : Mach := { m with lat := x }
/-- `m` with its `out` put to `x`. -/
@[simps] def Mach.setOut (m : Mach) (x : List Emit) : Mach := { m with out := x }

/-- The state: fuses, the module, and the commands that wait, first in first out. -/
structure State where
  /-- One-time-programmable fuses (R501, Table 15.1); see Fuses. -/
  fuses : Fuses := {}
  /-- Everything else the spec gives the module; see Mach. -/
  hw : Mach := {}
  /-- Commands waiting, the front one next (the model's own queue); empty. -/
  pending : List Instr := []
  deriving DecidableEq, Repr

/-- `s` with its module put to `x`. -/
@[simps] def State.setHw (s : State) (x : Mach) : State := { s with hw := x }

/-- `s` with its fuses put to `x`. -/
@[simps] def State.setFuses (s : State) (x : Fuses) : State := { s with fuses := x }

/-- `s` with its queue put to `q`. -/
@[simps] def State.setPending (s : State) (q : List Instr) : State := { s with pending := q }

/-- The module right after reset: every field at the value its docstring names. -/
def State.reset : State := {}

/-- The outcome of a command. -/
abbrev Result := Host.Outcome State Fault Refusal

end Sys2Proof.Machine
end

