-- ==== Sys2Proof/Machine/Ops.lean ====
section
/-! DEFINITION. The named operations every family uses: outcomes, status codes and their orders, counters, configuration
values, outputs. -/
namespace Sys2Proof.Machine

/-- A command whose effect on the module is `f`, which may read the fuses. What the module asks to burn of SVN_FUSES, a thermometer
code of 64 bits, is burned: the fused version never falls (R501, R508). -/
def runFz (s : State) (f : Fuses → Mach → Mach) : Result :=
  let m := f s.fuses s.hw
  .next ((s.setHw m).setFuses { s.fuses with svn := max s.fuses.svn (min 64 m.sec.burn) })

/-- As `runFz`, for a command that names a unit: where no such unit exists the command cannot be (R4). -/
def runFzIf (ok : Bool) (s : State) (f : Fuses → Mach → Mach) : Result :=
  if ok then runFz s f else .fault .noSuchUnit

/-- As `runFz`, for a command that reads no fuse. -/
def run (s : State) (f : Mach → Mach) : Result := runFz s fun _ m => f m

/-- As `runFzIf`, for a command that reads no fuse. -/
def runIf (ok : Bool) (s : State) (f : Mach → Mach) : Result := runFzIf ok s fun _ m => f m

/-- What a CMD entry's action answers (R79): the module after it, its status and value, or what its reply waits for. -/
structure CmdRes where
  m : Mach
  st : Status := .done
  val : Bytes := []
  wait : Option Wait := none

/-- An action refused, or ended, with a status and no effect. -/
def Mach.refuse (m : Mach) (st : Status) : CmdRes := { m, st }

/-- The module shows `e` outside. -/
def Mach.emit (m : Mach) (e : Emit) : Mach := m.setOut (e :: m.out)

/-! Status codes. -/

/-- Table 0.4. -/
def Status.code : Status → Nat
  | .done => 0x00 | .doneFlagged => 0x01
  | .failUnit => 0x10 | .failMemLost => 0x11 | .failLink => 0x12 | .failPatience => 0x13 | .failFenced => 0x14
  | .failThermal => 0x15 | .failPower => 0x16 | .failClock => 0x17 | .failKey => 0x18 | .failDie => 0x19
  | .failAborted => 0x1A
  | .rejectFormat => 0x20 | .rejectAccess => 0x21 | .rejectRange => 0x22 | .rejectLicence => 0x23 | .rejectBusy => 0x24
  | .fbCoupled => 0x30 | .fbType => 0x31 | .fbValue => 0x32 | .fbAccessClass => 0x33 | .fbNoDraft => 0x34
  | .fbConflict => 0x35 | .fbEpochFull => 0x36

/-- Every status of Table 0.4, by rising code. -/
def Status.list : List Status :=
  [.done, .doneFlagged, .failUnit, .failMemLost, .failLink, .failPatience, .failFenced, .failThermal, .failPower,
   .failClock, .failKey, .failDie, .failAborted, .rejectFormat, .rejectAccess, .rejectRange, .rejectLicence,
   .rejectBusy, .fbCoupled, .fbType, .fbValue, .fbAccessClass, .fbNoDraft, .fbConflict, .fbEpochFull]

/-- The status of a code, where Table 0.4 names it. -/
def Status.ofCode (c : Nat) : Option Status := Status.list.find? fun s => s.code = c

/-- Done class: upper nibble 0 (Table 0.4). -/
def Status.isDone (s : Status) : Bool := s.code / 16 = 0
/-- Fail class. -/
def Status.isFail (s : Status) : Bool := s.code / 16 = 1
/-- Reject class. -/
def Status.isReject (s : Status) : Bool := s.code / 16 = 2

/-- Place of a fail-class status in the order of R11, broadest first. -/
def Status.failRank : Status → Nat
  | .failPower => 0 | .failClock => 1 | .failDie => 2 | .failThermal => 3 | .failFenced => 4 | .failUnit => 5
  | .failMemLost => 6 | .failKey => 7 | .failLink => 8 | .failPatience => 9 | .failAborted => 10 | _ => 11

/-- Place of a reject-class status in the order of R12. -/
def Status.rejectRank : Status → Nat
  | .rejectFormat => 0 | .rejectAccess => 1 | .rejectLicence => 2 | .rejectRange => 3 | .rejectBusy => 4 | _ => 5

/-- The first of two causes in the order of R11. -/
def Fail.worse (a b : Fail) : Fail := if a.st.failRank ≤ b.st.failRank then a else b

/-- The cause a record carries when several apply (R11). -/
def worstFail : List Fail → Option Fail
  | [] => none
  | f :: fs => some (match worstFail fs with | none => f | some g => f.worse g)

/-- The first failing check of a list of checks (each a condition that refuses, with its cause), by the order of R12. -/
def firstReject (checks : List (Bool × Fail)) : Option Fail :=
  (checks.filter (·.1)).foldl (fun best c =>
    match best with
    | none => some c.2
    | some b => if c.2.st.rejectRank < b.st.rejectRank then some c.2 else some b) none

/-- A check that refuses when `bad`. -/
def chk (bad : Bool) (st : Status) (unit : UnitRef := {}) : Bool × Fail := (bad, ⟨st, unit⟩)

/-- The descriptor field whose lowest bit is `b`, as DETAIL names it (Table 9.9, R324). -/
def descBit (b : Nat) : UnitRef := ⟨0x80, b⟩

/-- A unit reference in the 24 bits of Table 9.9. -/
def UnitRef.code (u : UnitRef) : Nat := u.kind * 65536 + u.num

/-! Entries and configuration values. -/

/-- The key of sub-index `s` of index `i`. -/
def key (i s : Nat) : Nat := i * 256 + s

/-- The row that describes an entry, where the entry exists (R31). -/
def entryRow (k : Nat) : Option EntryRow :=
  entryRows.find? fun r => r.idx ≤ k / 256 ∧ k / 256 < r.idx + r.n ∧ r.sub ≤ k % 256 ∧ k % 256 < r.sub + r.k

/-- The entry table's default of an entry. -/
def dfltVal (k : Nat) : Bytes := match entryRow k with | some r => r.dflt | none => []

/-- The value a bank holds for an entry: override, else layers, else default (R66). -/
def Bank.val (b : Bank) (k : Nat) : Bytes :=
  match sget b.ovr k with
  | some v => v
  | none => match sget b.lay k with
    | some v => v
    | none => dfltVal k

/-- The bank an epoch's items run under (R61): the older live epoch's, or the current one's. -/
def Mach.bankOf (m : Mach) (epoch : Nat) : Bank :=
  match m.fb.old with
  | some (e, b) => if e = epoch then b else m.fb.cur
  | none => m.fb.cur

/-- Writability code of an entry (Table 2.3), 0 where it does not exist. -/
def wrOf (k : Nat) : Nat := match entryRow k with | some r => r.wr | none => 0

/-- The running value of a configuration entry (R39, R66): a COLD entry's since the last survey. -/
def Mach.runVal (m : Mach) (k : Nat) : Bytes :=
  if wrOf k = 3 then sgetD (dfltVal k) m.fb.coldRun k else m.fb.cur.val k

/-- The running value of a configuration entry as a number. -/
def Mach.cfg (m : Mach) (k : Nat) : Nat := leN (m.runVal k)

/-- The value of a configuration entry under the epoch stamped on an item (R61). -/
def Mach.cfgE (m : Mach) (epoch k : Nat) : Nat := leN ((m.bankOf epoch).val k)

/-! Counters. -/

/-- Bytes of an entry's value, 8 where the counter has no entry. -/
def lenOf (k : Nat) : Nat := match entryRow k with | some r => r.len | none => 8

/-- The value a counting entry holds. -/
def Mach.count (m : Mach) (k : Nat) : Nat := sgetD (leN (dfltVal k)) m.fb.ctr k

/-- A counting entry put to `v`, at its entry's width (R84). -/
def Mach.setCount (m : Mach) (k v : Nat) : Mach :=
  m.setFb { m.fb with ctr := sput m.fb.ctr k (v % 2 ^ (8 * lenOf k)) }

/-- A counting entry counts `n` more, modulo its width (R84). -/
def Mach.bump (m : Mach) (k : Nat) (n : Nat := 1) : Mach := m.setCount k (m.count k + n)

/-- Totals of Table 2.16 that no command carries: latencies, lowered time, stalls, idle frames, core and gating cycles, and energy. -/
def isMeasured (k : Nat) : Bool :=
  let i := k / 256
  let s := k % 256
  if i < 0x9100 then false
  else if i < 0x9160 then s = 5 || 7 ≤ s
  else if i < 0x9700 then false
  else if i < 0x9780 then 7 ≤ s
  else if i < 0x9800 then s = 3
  else if i < 0x9900 then true
  else if i < 0x9A00 then 5 ≤ s
  else i < 0x9B00 && s = 4

/-- The measured totals of the indices `lo` to `hi - 1`. -/
def measuredKeys (lo hi : Nat) : List Nat :=
  entryRows.flatMap fun r =>
    if r.idx < 0x9100 || 0x9B00 ≤ r.idx then []
    else (List.range r.n).filterMap fun i =>
      let k := key (r.idx + i) r.sub
      if isMeasured k && lo ≤ r.idx + i && r.idx + i < hi then some k else none

/-- The counters of the indices `lo` to `hi - 1` put to 0 (R84). A measured total counts from the value it has now. -/
def Mach.zeroArea (m : Mach) (lo hi : Nat) : Mach :=
  let rest := m.fb.ctr.filter fun c => c.1 / 256 < lo || hi ≤ c.1 / 256
  m.setFb { m.fb with ctr := (measuredKeys lo hi).foldl (fun s k => sput s k (Config.reading k m.clk.us % 2 ^ 64)) rest }

/-! Licences. -/

/-- Licences by their bit in LICENCE_PRESENT. -/
def licConfidential : Nat := 0
def licLinksec : Nat := 1
def licPartner : Nat := 2
def licIsland : Nat := 3
def licScale : Nat := 4
def licFarroot : Nat := 5

/-- The module holds the licence at bit `b` (R44). -/
def Mach.hasLicence (m : Mach) (b : Nat) : Bool := bitOf m.fb.licences b

/-- The number of a requester's channel in `Fb.chans`. -/
def rqCode : Rq → Nat
  | .session n => n
  | .hostPort n => 16 + n
  | .core c => 32 + c
  | .member m => 64 + m
  | .item ring seq _ => 1024 + (ring * 2 ^ 48 + seq)

/-- The key of an item in lists that name items: ring × 2^48 + sequence. -/
def itemKey (ring seq : Nat) : Nat := ring * 2 ^ 48 + seq

/-- The key of an accepted item. -/
def Item.key (i : Item) : Nat := itemKey i.ring i.seq

/-- The floor a ring belongs to (Table 0.2: bit 14). -/
def ringFloor (ring : Nat) : Nat := if bitOf ring 14 then 1 else 0

end Sys2Proof.Machine
end

