-- ==== Sys2Proof/Machine/Crypto.lean ====
section
/-! DEFINITION. Key derivation and sealing (R352, R353, R486, R487, R495, R504, R524, R536, R537, R544): HMAC and HKDF over SHA-384
(RFC 2104, RFC 5869), AES-256-GCM, ECDH on brainpoolP384r1. SHA-384, the cipher and the curve are opaque constants of Config. -/
namespace Sys2Proof.Machine

/-- A number with its most significant byte first (R504), and the number that bytes so spell. -/
def beB (n v : Nat) : Bytes := (leB n v).reverse
def beN (b : Bytes) : Nat := leN b.reverse

/-- The bytes of a label. -/
def label (s : String) : Bytes := s.toList.map fun c => BitVec.ofNat 8 c.toNat

/-- A digest as the 48 bytes SHA-384 produces. -/
def digest (b : Bytes) : Bytes := leB 48 (Config.sha384 b).toNat

/-- HMAC-SHA384 (RFC 2104): blocks of 128 bytes. -/
def hmac (k m : Bytes) : Bytes :=
  let k := padTo 128 (if k.length > 128 then digest k else k)
  digest ((k.map (· ^^^ 0x5C)) ++ digest ((k.map (· ^^^ 0x36)) ++ m))

/-- Extract of RFC 5869. -/
def hkdfExtract (salt ikm : Bytes) : Bytes := hmac salt ikm

/-- The blocks of Expand (RFC 5869) from block `i` on, `t` the one before. -/
def hkdfBlocks (prk info : Bytes) : Nat → Nat → Bytes → Bytes
  | 0, _, _ => []
  | n + 1, i, t =>
    let b := hmac prk (t ++ info ++ leB 1 i)
    b ++ hkdfBlocks prk info n (i + 1) b

/-- Expand of RFC 5869 to `n` bytes. -/
def hkdfExpand (prk info : Bytes) (n : Nat) : Bytes := (hkdfBlocks prk info ((n + 47) / 48) 1 []).take n

/-- Bytes under the keystream of AES-256-GCM (R353, R487, R495, R524, R544): the same function seals and opens. -/
def sealBytes (k nonce : Nat) (data : Bytes) : Bytes := data.zipIdx.map fun x => x.1 ^^^ Config.gcmByte k nonce x.2

/-- The 16-byte tag of a ciphertext under a key and nonce with its additional data. -/
def gcmTag (k nonce : Nat) (aad data : Bytes) : Bytes := beB 16 (Config.gcmTag k nonce aad data).toNat

/-- The order of brainpoolP384r1 (RFC 5639). -/
def curveOrder : Nat :=
  0x8CB91E82A3386D280F5D6F7E50E641DF152F7109ED5456B31F166E6CAC0425A7CF3AB6AF6B7FC3103B883202E9046565

/-- The private key of a 64-byte seed (R504). -/
def privKey (seed : Bytes) : Nat := beN seed % (curveOrder - 1) + 1

/-- The monument key (R504). -/
def monumentKey (z : Fuses) : Nat :=
  privKey (hkdfExpand (hkdfExtract (label "STL2 monument" ++ leB 1 z.life) (beB 48 z.uds)) (label "key") 64)

/-! Links (R352, R353). -/

/-- The PRK of a SEALED port: the serials, lower first, each a U64 in R7's byte order, and the shared secret. -/
def linkPrk (own other : Nat) (z : Bytes) : Bytes :=
  hkdfExtract (leB 8 (min own other) ++ leB 8 (max own other)) z

/-- The direction in which a module of serial `own` sends to `other`. -/
def linkDir (own other : Nat) : Nat := if own ≤ other then 0 else 1

/-- The key of a direction for a chainage, and the nonce of a frame. -/
def linkKey (prk : Bytes) (d chain : Nat) : Nat := beN (hkdfExpand prk (label "STL2 link" ++ leB 1 d ++ beB 4 (chain / 2 ^ 32)) 32)
def linkNonce (prk : Bytes) (d chain : Nat) : Nat := beN (hkdfExpand prk (label "STL2 salt" ++ leB 1 d) 4 ++ beB 8 chain)

/-- A frame's payload as it leaves a SEALED port; for the PRK and the partner's direction, as the partner's payload opens. -/
def linkSeal (k : Nat × Nat) (chain : Nat) (payload : Bytes) : Bytes :=
  let prk := beB 48 k.1
  sealBytes (linkKey prk k.2 chain) (linkNonce prk k.2 chain) payload

/-- The header of a frame as its 10 bytes (Table 10.3, R7). -/
def frameHeader (f : LinkFrame) : Bytes :=
  leB 10 (f.seq * 2 ^ 68 + f.ack * 2 ^ 56 + (if f.nak then 2 ^ 55 else 0) + f.kind * 2 ^ 52 + f.vc * 2 ^ 50 + f.creditVc * 2 ^ 48 +
    f.credit * 2 ^ 40 + f.chainLo * 2 ^ 24 + f.bytes * 2 ^ 15 + f.stream)

/-- The CRC-32C of a frame: over header and payload, and over the tag of a SEALED one (R337). -/
def frameCrc (f : LinkFrame) (sealed : Bool) : Nat :=
  crc32c (frameHeader f ++ padTo 256 f.payload ++ if sealed then beB 16 f.tag else [])

/-- The tag of a SEALED frame for the PRK, the direction it travels in and its chainage: its additional data is its header (R353). -/
def frameTag (f : LinkFrame) (k : Nat × Nat) (chain : Nat) : Bytes :=
  let prk := beB 48 k.1
  gcmTag (linkKey prk k.2 chain) (linkNonce prk k.2 chain) (frameHeader f) (padTo 256 f.payload)

/-- The 270 bytes of a TRUSTED frame, the 286 of a SEALED one (R337): header, payload, tag and CRC-32C. -/
def linkBytes (f : LinkFrame) (sealed : Bool) : Bytes :=
  frameHeader f ++ padTo 256 f.payload ++ (if sealed then beB 16 f.tag else []) ++ leB 4 (frameCrc f sealed)

/-! Link messages (Tables 10.5, 10.6, 11.6). -/

/-- Widths of the fields of BODY from its highest bit down, by TYPE; what they leave is reserved. -/
def bodyWidths (ty : Nat) : List Nat :=
  match ty with
  | 1 => [64, 5, 5, 4, 2, 8, 8, 32]
  | 2 => [8, 8, 8, 8, 32]
  | 3 => [8, 32]
  | 4 => [8, 24]
  | _ => [8, 16, 32, 16, 8, 8]

/-- Fields packed below bit `top`, the first highest. -/
def packDown : Nat → List (Nat × Nat) → Nat
  | _, [] => 0
  | top, x :: r => x.2 % 2 ^ x.1 * 2 ^ (top - x.1) + packDown (top - x.1) r

/-- The 32 bytes of a link message of a station's port (Table 10.5). -/
def msgBytes (station port ty : Nat) (body : List Nat) : Bytes :=
  leB 32 (packDown 256 ((bodyWidths ty).zip body) + station % 65536 * 2 ^ 48 + port % 256 * 2 ^ 40 + ty * 2 ^ 8 + 1)

end Sys2Proof.Machine
end

