-- ==== Sys2Proof/Machine/PortOut.lean ====
section
/-! DEFINITION. Frames and messages that leave a link port (R337 to R341, R353, R356), VC 2 messages to other members
(R404, R405, Table 14.6), and flits that leave a floor on the bridge (R97, R98). -/
namespace Sys2Proof.Machine

/-- A link port, and a link port changed. -/
def Mach.portAt (m : Mach) (p : Nat) : Port := nth {} m.lnk.dev p
def Mach.setPort (m : Mach) (p : Nat) (x : Port) : Mach := m.setLnk { m.lnk with dev := setAt m.lnk.dev p x }

/-- LINK_STATE UP. -/
def Port.isUp (x : Port) : Bool := x.state = 5
/-- A port that a traverse may name (Table 11.5): UP or RETRAINING. -/
def Port.usable (x : Port) : Bool := x.state = 5 || x.state = 6

/-- Training starts. -/
def Mach.startTraining (m : Mach) (p : Nat) : Mach :=
  let x := m.portAt p
  m.setPort p { recWidth := x.recWidth, cause := x.cause, state := 2, skipped := x.skipped }

/-- The flits or frames that an ACK names leave a replay buffer. -/
def acked (r : List Sent) (ack : Nat) : List Sent :=
  if r.any fun s => s.seq = ack then (r.dropWhile fun s => s.seq ≠ ack).drop 1 else r

/-- A port's replay buffer of 1,024 frames has room; with none, the transmitter waits, and no frame is lost (R339). -/
def Port.room (x : Port) : Bool := x.replay.length < 1024

/-- A frame of a port as it leaves now (Table 10.3): its ACK, NAK where `nak`, and on a SEALED port its chainage, ciphertext and tag
(R353). -/
def Port.frameOf (x : Port) (s : Sent) (nak : Bool := false) : LinkFrame :=
  let f : LinkFrame := { seq := s.seq, ack := x.rxSeq, nak, kind := s.code / 16, vc := s.code % 16, creditVc := nth 0 s.fields 2
                         credit := nth 0 s.fields 3, bytes := nth 0 s.fields 1, stream := nth 0 s.fields 0
                         payload := padTo 256 s.data }
  match x.sealKey with
  | none => f
  | some k =>
    let f := { f with chainLo := x.chainTx % 65536, payload := linkSeal k x.chainTx f.payload }
    { f with tag := beN (frameTag f k x.chainTx) }

/-- The bytes of a frame as it leaves a port now (R337). -/
def Port.shown (x : Port) (s : Sent) (nak : Bool := false) : Bytes := linkBytes (x.frameOf s nak) x.sealKey.isSome

/-- A frame leaves on a port's lanes, whatever its kind: a SEALED direction takes its next chainage (R353). -/
def Mach.showFrame (m : Mach) (p : Nat) (s : Sent) (nak : Bool := false) : Mach :=
  let x := m.portAt p
  (m.setPort p { x with chainTx := if x.sealKey.isSome then (x.chainTx + 1) % 2 ^ 64 else x.chainTx }).emit (.link p (x.shown s nak))

/-- A frame leaves a port whose replay buffer has room, with its SEQ and its place in that buffer (R339). `code` is KIND × 16 + VC,
`fields` STREAM, BYTES, CREDIT_VC and CREDIT. -/
def Mach.putFrame (m : Mach) (p code : Nat) (fields : List Nat) (payload : Bytes) : Mach :=
  let s : Sent := ⟨(m.portAt p).txSeq, code, fields, payload⟩
  let m := m.showFrame p s
  let x := m.portAt p
  let m := m.setPort p { x with txSeq := (x.txSeq + 1) % 4096, replay := x.replay ++ [s]
                                sinceCtl := if code = 16 then 0 else x.sinceCtl + 1 }
  let m := m.bump (key (0x9700 + p) 1)
  if code < 3 then m.bump (key (0x9700 + p) (3 + code)) else if code = 16 then m.bump (key (0x9700 + p) 6) else m

/-- Credits return to the sender of VC `vc` in an idle frame of their own; while none may leave, they are owed (R341, log 82). -/
def Mach.returnLink (m : Mach) (p vc n : Nat) : Mach :=
  let x := m.portAt p
  if n = 0 then m
  else if x.state = 5 && x.room then m.putFrame p 32 [0, 0, vc, n] []
  else m.setPort p { x with owed := setAt x.owed vc (nth 0 x.owed vc + n) }

/-- The credits owed leave, as they may. -/
def Mach.returnOwed (m : Mach) (p : Nat) : Mach :=
  let o := (m.portAt p).owed
  (List.range 3).foldl (fun m vc => m.returnLink p vc (nth 0 o vc)) (m.setPort p { m.portAt p with owed := [0, 0, 0] })

/-- STREAM_COUNTERS' number of a stream (Table 2.16): direction 0 receive, 1 send. -/
def streamKey (p dir tag : Nat) : Nat := (2 * p + dir) * 32768 + tag

/-- A frame of a stream is counted (Table 2.16). -/
def Mach.countStream (m : Mach) (p dir tag bytes : Nat) : Mach :=
  let c := sgetD [0, 0, 0] m.trv.counters (streamKey p dir tag)
  let c := [(nth 0 c 0 + 1) % 2 ^ 64, (nth 0 c 1 + bytes) % 2 ^ 64, nth 0 c 2]
  m.setTrv { m.trv with counters := sput m.trv.counters (streamKey p dir tag) c }

/-- A data frame is sent while a credit of its VC is held, the replay buffer has room and the port is not retraining, and waits
otherwise (R339 to R341). -/
def Mach.sendFrame (m : Mach) (p vc stream : Nat) (payload : Bytes) : Mach :=
  let x := m.portAt p
  let m := if vc < 2 then m.countStream p 1 stream payload.length else m
  if x.state = 5 && x.room && nth 0 x.credit vc > 0 && (x.waitOut.all fun w => w.1 ≠ vc) then
    (m.setPort p { x with credit := setAt x.credit vc (nth 0 x.credit vc - 1) }).putFrame p vc
      [stream, payload.length] payload
  else m.setPort p { x with waitOut := x.waitOut ++ [(vc, stream, payload)] }

/-- The frames of a run of bytes: 256 bytes each, the last with the remainder (R706). -/
def framesOf (data : Bytes) : List Bytes := chunks 256 (data.length / 256 + 1) data

/-- A run of bytes sent as frames of one stream. -/
def Mach.sendBytes (m : Mach) (p vc stream : Nat) (data : Bytes) : Mach :=
  (framesOf data).foldl (fun m f => m.sendFrame p vc stream f) m

/-- A control frame with one link message. -/
def Mach.putMsg (m : Mach) (p : Nat) (b : Bytes) : Mach := m.putFrame p 16 [0, 32] b

/-- What waits on a port and may go now: messages ahead of data, but of data frames that may go, no fewer than 7 between two control
frames (R356); data in order, where the first of each VC decides (R341). -/
def Mach.drainPort : Nat → Mach → Nat → Mach
  | 0, m, _ => m
  | fuel + 1, m, p =>
    let x := m.portAt p
    if !(x.state = 5 || x.state = 4) || !x.room then m
    else
      let data := if x.state = 5 then x.waitOut.find? fun w => nth 0 x.credit w.1 > 0 else none
      match x.waitMsg, data with
      | [], none => m
      | [], some w => Mach.drainPort fuel (go m p x w) p
      | b :: r, none => Mach.drainPort fuel ((m.setPort p { x with waitMsg := r }).putMsg p b) p
      | b :: r, some w =>
        if x.sinceCtl ≥ 7 then Mach.drainPort fuel ((m.setPort p { x with waitMsg := r }).putMsg p b) p
        else Mach.drainPort fuel (go m p x w) p
where
  /-- The waiting data frame `w` leaves. -/
  go (m : Mach) (p : Nat) (x : Port) (w : Nat × Nat × Bytes) : Mach :=
    (m.setPort p { x with waitOut := x.waitOut.erase w, credit := setAt x.credit w.1 (nth 0 x.credit w.1 - 1) }).putFrame p w.1
      [w.2.1, w.2.2.length] w.2.2

/-- Everything that waits on a port leaves, as it may: credits owed, messages and data. -/
def Mach.drainAll (m : Mach) (p : Nat) : Mach :=
  let m := m.returnOwed p
  let x := m.portAt p
  Mach.drainPort (x.waitOut.length + x.waitMsg.length + 1) m p

/-- Message types (Table 10.6). -/
def msgDiscover : Nat := 1
def msgThrottle : Nat := 2
def msgSleep : Nat := 3
def msgDown : Nat := 4
def msgTraverse : Nat := 5

/-- A link message leaves a port that is UP (or in the states that carry DISCOVER); while the port retrains, or its replay buffer has
no room, it waits (R339, Table 10.8). `body` holds BODY's fields in the order of Table 10.6. -/
def Mach.sendMsg (m : Mach) (p ty : Nat) (body : List Nat) : Mach :=
  let x := m.portAt p
  let b := msgBytes (m.cfg kStationAddr) p ty body
  if x.state = 6 || ((x.state = 5 || x.state = 4) && (!x.room || !x.waitMsg.isEmpty)) then m.setPort p { x with waitMsg := x.waitMsg ++ [b] }
  else if x.state = 5 || x.state = 4 then m.putMsg p b
  else m

/-- The ports, and those that are UP. -/
def portList : List Nat := List.range 24
def Mach.upPorts (m : Mach) : List Nat := portList.filter fun p => (m.portAt p).isUp

/-- A message on every UP port. -/
def Mach.sendAll (m : Mach) (ty : Nat) (body : List Nat) : Mach := m.upPorts.foldl (fun m p => m.sendMsg p ty body) m

/-! VC 2. -/

/-- GROUP_MEMBER (R403); 0xFF when the module takes no part. -/
def Mach.member (m : Mach) : Nat := m.cfg kGroupMember

/-- The VC 2 tag of a message to a member (Table 11.8). -/
def vc2Tag (member chan : Nat) : Nat := member % 128 * 128 + chan

/-- A unicast VC 2 frame resent on the port that GROUP_FWD names for its member, or discarded; one made here for this member is delivered
here (R405, R406). -/
def Mach.forwardVc2 (m : Mach) (from_ : Option Nat) (tag : Nat) (payload : Bytes) : Mach :=
  let b := num (m.runVal kGroupFwd) (tag / 128 % 128) 1
  if from_.isNone && m.member ≠ 0xFF && tag / 128 % 128 = m.member then
    m.setTrv { m.trv with selfVc2 := m.trv.selfVc2 ++ [(tag, payload)] }
  else if b < 24 && (m.portAt b).isUp && from_ ≠ some b then m.sendFrame b 2 tag payload else m.bump kGroupVc2Discards

/-- The 16-byte header of a VC 2 message (Table 14.6). -/
def vc2Header (src req len off st : Nat) : Bytes :=
  leB 1 src ++ leB 1 0 ++ leB 2 req ++ leB 4 len ++ leB 4 off ++ leB 1 st ++ leB 3 0

/-- A message sent to another member on a channel, split at 240 content bytes (Table 14.6); its frames are unicast. -/
def Mach.sendVc2 (m : Mach) (dest chan req st : Nat) (content : Bytes) : Mach :=
  if m.member = 0xFF then m.bump kGroupVc2Discards
  else
    let parts := if content.isEmpty then [[]] else chunks 240 (content.length / 240 + 1) content
    parts.zipIdx.foldl (fun m c =>
      m.forwardVc2 none (vc2Tag dest chan)
        (vc2Header m.member req content.length (240 * c.2) st ++ c.1)) m

/-! The bridge. -/

/-- The bridge carries flits: neither down, nor fenced, nor retraining (R99, R101, R107). -/
def Mach.bridgeOpen (m : Mach) : Bool := !m.die.bridgeDown && !m.die.bridgeFenced && !m.die.retraining

/-- Bridge messages, by code. -/
def bFill : Nat := 1
def bData : Nat := 2
def bInv : Nat := 3
def bInvAck : Nat := 4
def bWrite : Nat := 5
def bRead : Nat := 6
def bBell : Nat := 7

/-- A flit leaves floor `f` on the bridge: its SEQ and its place in the replay buffer of 256 (R98), where it stays while the
bridge carries nothing. With the buffer full the transmitter waits, and nothing is lost. -/
def Mach.putBridge (m : Mach) (f code line aux : Nat) (data : Bytes) : Mach :=
  let s := nth 0 m.die.txSeq f
  let r := nth [] m.die.replay f
  let w := nth [] m.die.waitTx f
  if r.length ≥ 256 || !w.isEmpty then m.setDie { m.die with waitTx := setAt m.die.waitTx f (w ++ [(code, line, aux, data)]) }
  else
    let m' := m.setDie { m.die with
      txSeq := setAt m.die.txSeq f ((s + 1) % 4096)
      replay := setAt m.die.replay f (r ++ [(⟨s, code, [line, aux], data⟩ : Sent)]) }
    if m.bridgeOpen then m'.emit (.bridge f code line aux data) else m'

/-- Messages that wait leave as the replay buffer has room (R98). -/
def Mach.drainBridge : Nat → Mach → Nat → Mach
  | 0, m, _ => m
  | fuel + 1, m, f =>
    match nth [] m.die.waitTx f with
    | [] => m
    | x :: rest =>
      if (nth [] m.die.replay f).length ≥ 256 then m
      else
        let w := m.setDie { m.die with waitTx := setAt m.die.waitTx f [] }
        let w := w.putBridge f x.1 x.2.1 x.2.2.1 x.2.2.2
        Mach.drainBridge fuel (w.setDie { w.die with waitTx := setAt w.die.waitTx f rest }) f

end Sys2Proof.Machine
end

