-- ==== Sys2Proof/Machine/Memory.lean ====
section
/-! DEFINITION. The segment map's arithmetic (R139, R140, Table 4.6), the bytes of buffer and stacks, their ECC, poison and
keys, the remote line caches and directories, and a read or write of a run of bytes by a context. -/
namespace Sys2Proof.Machine

/-! Segment-map entries (Table 4.4). -/

/-- The entry that 128 bits spell. -/
def SegEnt.ofBits (v : Nat) : SegEnt :=
  { ctx := fld v 115 12, vaBase := fld v 96 19, size := fld v 92 4, policy := fld v 89 3, medium := fld v 88 1,
    home := fld v 87 1, stack := fld v 85 2, unit := fld v 79 6, rd := bitOf v 78, wr := bitOf v 77, at' := bitOf v 76,
    noAlloc := bitOf v 75, unitOff := fld v 40 24 }

/-- The 128 bits of a valid entry. -/
def SegEnt.bits (e : SegEnt) : Nat :=
  2 ^ 127 + e.ctx * 2 ^ 115 + e.vaBase * 2 ^ 96 + e.size * 2 ^ 92 + e.policy * 2 ^ 89 + e.medium * 2 ^ 88 +
    e.home * 2 ^ 87 + e.stack * 2 ^ 85 + e.unit * 2 ^ 79 + e.rd.toNat * 2 ^ 78 + e.wr.toNat * 2 ^ 77 +
    e.at'.toNat * 2 ^ 76 + e.noAlloc.toNat * 2 ^ 75 + e.unitOff * 2 ^ 40

/-- Segment size in bytes: 2^(21 + SIZE). -/
def SegEnt.bytes (e : SegEnt) : Nat := 2 ^ (21 + e.size)

/-- First segment address. -/
def SegEnt.va (e : SegEnt) : Nat := e.vaBase * 2 ^ 21

/-- MIRROR policy. -/
def SegEnt.mirror (e : SegEnt) : Bool := e.policy = 4

/-- Whether the policy uses STACK and UNIT (R139). -/
def SegEnt.usesStack (e : SegEnt) : Bool := e.policy = 1 || (e.policy = 2 && e.medium = 1)

/-- R139 on the 128 bits of a record that makes or keeps an entry valid: malformed. -/
def segMalformed (v : Nat) : Bool :=
  let e := SegEnt.ofBits v
  fld v 64 11 ≠ 0 || fld v 0 40 ≠ 0 || e.size > 9 || e.policy > 4 || e.stack = 3 ||
  e.vaBase % 2 ^ e.size ≠ 0 || (e.policy = 1 && e.medium = 0) || (e.home = 1 && e.policy = 3) ||
  (e.stack ≠ 0 && !e.usesStack) || (e.unit ≠ 0 && e.policy ≠ 2) || (e.at' && !e.wr) ||
  (e.policy = 2 && e.medium = 0 && e.size > 2) || (e.policy = 2 && e.medium = 1 && e.unit ≥ 32)

/-- Footprint in lines per unit (Table 4.6). -/
def SegEnt.foot (e : SegEnt) : Nat :=
  let s := e.bytes
  if e.medium = 0 then
    match e.policy with
    | 2 => s / 256
    | 3 => s / 32768
    | _ => s / 16384
  else
    match e.policy with
    | 0 => (s + 24575) / 24576
    | 1 => s / 8192
    | 2 => s / 256
    | 3 => (s + 49151) / 49152
    | _ => (s + 24575) / 24576

/-- Lines of one unit: a slice of 8 MiB or a channel of 3 GiB. -/
def unitLines (medium : Nat) : Nat := if medium = 0 then 32768 else 12582912

/-- Where a line lies: floor, medium, stack of the module (0 to 5), unit (slice of the floor or channel of the stack),
line within the unit. -/
structure Place where
  floor : Nat
  medium : Nat
  stack : Nat := 0
  unit : Nat
  line : Nat
  deriving DecidableEq, Repr

/-- FINE placement of line number `l` on floor `f` (R140). -/
def SegEnt.fine (e : SegEnt) (f l : Nat) : Place :=
  if e.medium = 0 then ⟨f, 0, 0, l % 64, e.unitOff + l / 64⟩
  else ⟨f, 1, 3 * f + l % 3, l / 3 % 32, e.unitOff + l / 96⟩

/-- The placement of offset `off` of a segment, a MIRROR line on floor `f` (R140). -/
def SegEnt.place (e : SegEnt) (off f : Nat) : Place :=
  let line := off / 256
  match e.policy with
  | 0 => e.fine e.home line
  | 1 => ⟨e.home, 1, 3 * e.home + e.stack, line % 32, e.unitOff + line / 32⟩
  | 2 => ⟨e.home, e.medium, if e.medium = 1 then 3 * e.home + e.stack else 0, e.unit, e.unitOff + line⟩
  | 3 =>
    let g := off / 4096
    e.fine (g % 2) (g / 2 * 16 + line % 16)
  | _ => e.fine f line

/-- The logical module physical address of a line's byte `b` (Table 4.5). -/
def Place.pa (p : Place) (b : Nat) : Nat :=
  if p.medium = 0 then p.floor * 2 ^ 45 + p.unit * 2 ^ 23 + p.line * 256 + b
  else 2 ^ 46 + p.floor * 2 ^ 45 + (p.stack - 3 * p.floor) * 2 ^ 43 + p.unit * 2 ^ 32 + p.line * 256 + b

/-- The unit a placement names (Table 9.9). -/
def Place.ref (p : Place) : UnitRef :=
  if p.medium = 0 then ⟨0x04, p.floor * 64 + p.unit⟩ else ⟨0x03, p.stack * 32 + p.unit⟩

/-- The number of a placement's target among the waiting queues. -/
def Place.target (p : Place) : Nat := if p.medium = 0 then p.floor * 64 + p.unit else 128 + p.stack * 32 + p.unit

/-- Floor and medium of a logical physical address. -/
def paFloor (pa : Nat) : Nat := fld pa 45 1
def paMedium (pa : Nat) : Nat := fld pa 46 1

/-- The placement a logical physical address spells. -/
def Place.ofPa (pa : Nat) : Place :=
  if paMedium pa = 0 then ⟨paFloor pa, 0, 0, fld pa 23 6, fld pa 8 15⟩
  else ⟨paFloor pa, 1, 3 * paFloor pa + fld pa 43 2, fld pa 32 5, fld pa 8 24⟩

/-! Footprints (Table 4.6). -/

/-- The segment has lines on floor `f`. -/
def SegEnt.onFloor (e : SegEnt) (f : Nat) : Bool := e.policy ≥ 3 || e.home = f

/-- The segment has lines in unit `u` (of stack `s` of floor `f`, counted within the floor, for a stack segment). -/
def SegEnt.uses (e : SegEnt) (f s u : Nat) : Bool :=
  e.onFloor f &&
  (match e.policy with
   | 1 => e.stack = s
   | 2 => (e.medium = 0 || e.stack = s) && e.unit = u
   | _ => true)

/-- A line lies in the segment's footprint. -/
def SegEnt.inFoot (e : SegEnt) (pa : Nat) : Bool :=
  let p := Place.ofPa pa
  p.medium = e.medium && e.uses p.floor (p.stack - 3 * p.floor) p.unit && e.unitOff ≤ p.line && p.line < e.unitOff + e.foot

/-- Page number of a stack address (bits above 11) and its sector number. -/
def paPage (pa : Nat) : Nat := pa / 4096
def paSector (pa : Nat) : Nat := pa / 64

/-- The slots of a context's valid entries with the entries. -/
def Mach.segsOf (m : Mach) (ctx : Nat) : List (Nat × SegEnt) := m.grid.seg.filter fun p => p.2.ctx = ctx

/-- The valid entry of a context whose range contains `va` (R140). -/
def Mach.findSeg (m : Mach) (ctx va : Nat) : Option (Nat × SegEnt) :=
  m.grid.seg.find? fun p => p.2.ctx = ctx ∧ p.2.va ≤ va ∧ va < p.2.va + p.2.bytes

/-- The valid entry whose footprint holds a logical physical address (R142: no two footprints meet). -/
def Mach.segAt (m : Mach) (pa : Nat) : Option SegEnt := (m.grid.seg.find? fun s => s.2.inFoot pa).map (·.2)

/-- The other floor's copy of a MIRROR line: the same unit and line, so that only the floor bit of the address differs (R140). -/
def mirrorPa (pa : Nat) : Nat := if bitOf pa 45 then pa - 2 ^ 45 else pa + 2 ^ 45

/-! Bytes. -/

/-- What an unlisted byte reads as: a buffer byte 0 (log 4); a stack byte has no such value (R183). -/
def Memory.dflt (a : Nat) : Option Byte := if paMedium a = 0 then some 0 else none

/-- Memory's canonical form: addresses strictly rising, no entry equal to what an unlisted address reads as. -/
def Memory.wf : List Host.Cell → Bool
  | [] => true
  | [(a, b)] => Memory.dflt a ≠ some b
  | (a, b) :: (a', b') :: r => Memory.dflt a ≠ some b && a < a' && Memory.wf ((a', b') :: r)

/-- A byte written, in canonical form. -/
def Memory.put (c : List Host.Cell) (a : Nat) (b : Byte) : List Host.Cell :=
  if Memory.dflt a = some b then sdel c a else sput c a b

/-- A run of bytes written from address `a`. -/
def Memory.putRun (c : List Host.Cell) (a : Nat) : Bytes → List Host.Cell
  | [] => c
  | b :: bs => Memory.putRun (Memory.put c a b) (a + 1) bs

/-- The keys of a context (R182); none where no slot was ever filled. -/
def Mach.keysOf (m : Mach) (ctx : Nat) : StkKeys := sgetD {} m.stk.keys ctx

/-- The key in generation slot `g`. -/
def StkKeys.slot (k : StkKeys) (g : Nat) : Option Nat := if g = 0 then k.slot0 else k.slot1

/-- The key a context reads a page with (R183): the slot GEN names, else the write slot. -/
def Mach.readKey (m : Mach) (ctx pa : Nat) : Option Nat :=
  let k := m.keysOf ctx
  match k.slot (sgetD 0 m.stk.gen (paPage pa)) with
  | some x => some x
  | none => k.slot k.write

/-- The re-encryptions of a sector's page (R184). -/
def Mach.stepsOf (m : Mach) (s : Nat) : List (Nat × Nat) := sgetD [] m.stk.recrypt (s / 64)

/-- What re-encryptions make of a sector: under the key that reads its plaintext they carry the plaintext on; any other is left to
be computed. The result is the key its listed plaintext stands under, if any, and the re-encryptions that come after. -/
def encFate (k : Option Nat) (steps : List (Nat × Nat)) : Option Nat × List (Nat × Nat) :=
  steps.foldl (fun e st => if e.2.isEmpty && e.1 = some st.1 then (some st.2, []) else (e.1, e.2 ++ [st])) (k, [])

/-- The standing of a sector: as `encFate`, from its last write. -/
def Mach.sectorEnc (m : Mach) (s : Nat) : Option Nat × List (Nat × Nat) :=
  match sget m.stk.tag s with
  | some t => encFate (some t.1) ((m.stepsOf s).drop t.2)
  | none => encFate none (m.stepsOf s)

/-- The data-unit number of a sector (R181): bits [47:6] of its logical module physical address. -/
def dataUnit (s : Nat) : Nat := s % 2 ^ 42

/-- The count of losses that a sector's unwritten contents go by. -/
def Mach.freshOf (m : Mach) (s : Nat) : Nat :=
  let p := Place.ofPa (64 * s)
  sgetD 0 m.stk.fresh 192 * 2 ^ 32 + sgetD 0 m.stk.fresh (p.stack * 32 + p.unit)

/-- The listed plaintext of a sector. -/
def Mach.plain (m : Mach) (s : Nat) : BitVec 512 :=
  BitVec.ofNat 512 (leN ((List.range 64).map fun i => sgetD 0 m.mem.cells (64 * s + i)))

/-- The 512 bits of ciphertext that a sector's array holds (R181, R184). -/
def Mach.cipher (m : Mach) (s : Nat) : BitVec 512 :=
  let e := m.sectorEnc s
  let u := dataUnit s
  let base := match e.1 with
    | some k => Config.xts k u (m.plain s)
    | none => Config.rawSector s (m.freshOf s)
  e.2.foldl (fun c st => Config.xts st.2 u ((Config.xts st.1 u).symm c)) base

/-- The metadata of a sector (Table 5.4): GEN of its page in bit 15, POISON in bit 14. -/
def Mach.sectorMeta (m : Mach) (s : Nat) : Nat :=
  sgetD 0 m.stk.gen (s / 64) % 2 * 2 ^ 15 + (shas m.stk.poison s).toNat * 2 ^ 14

/-- The 72 symbols of a sector's codeword (R160): 64 of data, 2 of metadata, 6 of check, before the errors of `Stk.errs`. -/
def Mach.codeword (m : Mach) (s : Nat) : Bytes :=
  let d := leB 64 (m.cipher s).toNat ++ leB 2 (m.sectorMeta s)
  d ++ leB 6 (Config.rsCheck d).toNat

/-- The byte a context reads at a logical physical address (R181, R183): of a stack sector, the decryption of its ciphertext. -/
def Mach.rdByte (m : Mach) (ctx pa : Nat) : Byte :=
  if paMedium pa = 0 then sgetD 0 m.mem.cells pa
  else match m.readKey ctx pa with
    | none => 0
    | some k =>
      let s := paSector pa
      if m.sectorEnc s = (some k, []) then sgetD 0 m.mem.cells pa
      else ((Config.xts k (dataUnit s)).symm (m.cipher s)).extractLsb' (8 * (pa % 64)) 8

/-- The promotion of a page to the write slot (R184): all 64 sectors are decrypted with the old key and encrypted with the new one,
and written with the new GEN. -/
def Mach.promote (m : Mach) (ctx page : Nat) : Mach :=
  let k := m.keysOf ctx
  match m.readKey ctx (page * 4096), k.slot k.write with
  | some old, some new =>
    m.setStk { m.stk with
      recrypt := if old = new then m.stk.recrypt else smod [] m.stk.recrypt page (· ++ [(old, new)])
      gen := if k.write = 0 then sdel m.stk.gen page else sput m.stk.gen page k.write }
  | _, _ => m

/-- Bytes of one line written by a context, key and page rules included (R181, R184). A sector that the write covers in
part keeps its other bytes as they read before (R163); the words and sectors written hold no error any more. -/
def Mach.wrLine (m : Mach) (ctx pa : Nat) (data : Bytes) : Mach :=
  if paMedium pa = 0 then
    let last := (pa + data.length - 1) / 8
    m.setMem { m.mem with
      cells := Memory.putRun m.mem.cells pa data
      errs := if m.mem.errs.isEmpty then m.mem.errs
        else m.mem.errs.filter fun e => !(pa / 8 ≤ e.1 && e.1 ≤ last) }
  else
    let k := m.keysOf ctx
    match k.slot k.write with
    | none => m
    | some w =>
      let m := if sgetD 0 m.stk.gen (paPage pa) = k.write then m else m.promote ctx (paPage pa)
      let last := (pa + data.length - 1) / 64
      let secs := (List.range 5).map (fun i => paSector pa + i) |>.filter (· ≤ last)
      let cells := secs.foldl (fun c s =>
        if m.sectorEnc s = (some w, []) then c
        else Memory.putRun c (s * 64) ((List.range 64).map fun i => m.rdByte ctx (s * 64 + i))) m.mem.cells
      let m := m.setStk { m.stk with
        tag := secs.foldl (fun t s => sput t s (w, (m.stepsOf s).length)) m.stk.tag
        errs := secs.foldl sdel m.stk.errs }
      m.setMem { m.mem with cells := Memory.putRun cells pa data }

/-! Errors of the arrays (R133, R160, R162). -/

/-- Errors that one granule corrects: one bit of a buffer word, three symbols of a stack sector. -/
def eccLimit (medium : Nat) : Nat := if medium = 0 then 1 else 3

/-- Bytes of a granule: a word of the buffer, a sector of a stack. -/
def eccGrain (medium : Nat) : Nat := if medium = 0 then 8 else 64

/-- Errors of the granule that holds an address. -/
def Mach.errsAt (m : Mach) (pa : Nat) : Nat :=
  if paMedium pa = 0 then sgetD 0 m.mem.errs (pa / 8) else sgetD 0 m.stk.errs (paSector pa)

/-- The granule that holds an address put to `n` errors. -/
def Mach.setErrs (m : Mach) (pa n : Nat) : Mach :=
  if paMedium pa = 0 then
    m.setMem { m.mem with errs := if n = 0 then sdel m.mem.errs (pa / 8) else sput m.mem.errs (pa / 8) n }
  else m.setStk { m.stk with errs := if n = 0 then sdel m.stk.errs (paSector pa) else sput m.stk.errs (paSector pa) n }

/-- The array of a line has come to hold the errors of `e`; a granule for which `e` has none stays as it was. -/
def Mach.plant (m : Mach) (line : Nat) (e : Ecc) : Mach :=
  let g := eccGrain (paMedium line)
  (List.range (min e.errs.length (256 / g))).foldl (fun m i =>
    if nth 0 e.errs i = 0 then m else m.setErrs (line + g * i) (nth 0 e.errs i)) m

/-- First addresses of the granules that a read of `[pa, pa + n)` of one line takes from the array: every word of a buffer line, the
sectors of a stack line that hold the bytes. -/
def readGrains (pa n : Nat) : List Nat :=
  if paMedium pa = 0 then (List.range 32).map fun i => pa / 256 * 256 + 8 * i
  else ((List.range 5).map fun i => 64 * (paSector pa + i)).filter fun a => a / 64 ≤ (pa + n - 1) / 64

/-- First addresses of the granules that a write of `[pa, pa + n)` covers in part, which the array reads before it writes (R133,
R163). -/
def partGrains (pa n : Nat) : List Nat :=
  let g := eccGrain (paMedium pa)
  ((List.range 34).map fun i => g * (pa / g + i)).filter fun a =>
    a ≤ pa + n - 1 && !(pa ≤ a && a + g ≤ pa + n)

/-- Some of the granules cannot be corrected. -/
def Mach.grainsBad (m : Mach) (l : List Nat) : Bool := l.any fun a => m.errsAt a > eccLimit (paMedium a)

/-! Merge windows. -/

/-- The merge window of a line is closed (R126). -/
def Mach.closeMerge (m : Mach) (pa : Nat) : Mach :=
  m.setGrid { m.grid with merge := sdel m.grid.merge (pa / 256 * 256) }

/-! Whether a line can be reached. -/

/-- The cadastre bank of an epoch (R148). -/
def Mach.cadOf (m : Mach) (epoch : Nat) : CadBank :=
  match m.cad.old with
  | some (e, b) => if e = epoch then b else m.cad.cur
  | none => m.cad.cur

/-- A channel or slice is withdrawn under an epoch, or stands on a physical unit that has failed and waits for its move
(R635, R637). -/
def Mach.unitGone (m : Mach) (epoch : Nat) (u : UnitRef) : Bool :=
  let b := m.cadOf epoch
  let n := if u.kind = 3 then 32 else 64
  shas b.gone u.code ||
    sgetD 0 m.cad.units (u.kind * 65536 + u.num / n * 256 + sgetD (u.num % n) b.phys u.code) = 2

/-- The floor has been declared lost, or was withdrawn at survey (R102, R106). -/
def Mach.floorLost (m : Mach) (f : Nat) : Bool := m.die.lost = some f
def Mach.floorGone (m : Mach) (f : Nat) : Bool := nth false m.die.withdrawn f

/-- A stack of the module. -/
def Mach.stackAt (m : Mach) (s : Nat) : Stack := nth {} m.stk.dev s

/-- A stack changed. -/
def Mach.setStack (m : Mach) (s : Nat) (x : Stack) : Mach := m.setStk { m.stk with dev := setAt m.stk.dev s x }

/-- The stack is at its shut-down level (R178, R601). -/
def Stack.shut (x : Stack) : Bool := x.level = 4 || x.silent

/-- The page of a stack line is lost (R172). -/
def Mach.pageLost (m : Mach) (pa : Nat) : Bool :=
  let p := Place.ofPa pa
  (m.stackAt p.stack).retired.any fun r => r.state = 2 && r.chan = p.unit && r.page = fld pa 12 20

/-- Every cause that keeps a context from reaching a placement under an epoch, apart from poison (R106, R107, R164, R178,
R182, R190). -/
def Mach.placeFails (m : Mach) (epoch ctx : Nat) (p : Place) : List Fail :=
  (if m.floorLost p.floor then [⟨.failDie, ⟨0x01, p.floor⟩⟩] else []) ++
  (if p.medium = 1 && (m.stackAt p.stack).shut then [⟨.failThermal, ⟨0x02, p.stack⟩⟩] else []) ++
  (if m.unitGone epoch p.ref || m.floorGone p.floor then [⟨.failUnit, p.ref⟩] else []) ++
  (if p.medium = 1 && m.pageLost (p.pa 0) then [⟨.failMemLost, p.ref⟩] else []) ++
  (if p.medium = 1 && ((m.keysOf ctx).slot0.isNone && (m.keysOf ctx).slot1.isNone) then [⟨.failKey, ⟨0x0B, ctx⟩⟩]
   else [])

/-- Some of bytes `[pa, pa + n)` of one line are poisoned (R135, R165). -/
def Mach.poisoned (m : Mach) (pa n : Nat) : Bool :=
  if paMedium pa = 0 then shas m.mem.poison (pa / 256 * 256)
  else (List.range 5).any fun i => paSector pa + i ≤ (pa + n - 1) / 64 && shas m.stk.poison (paSector pa + i)

/-- A write of bytes `[pa, pa + n)` meets poison that it does not cover whole (R135, R165). -/
def Mach.writeMeetsPoison (m : Mach) (pa n : Nat) : Bool :=
  if paMedium pa = 0 then shas m.mem.poison (pa / 256 * 256) && !(n = 256 && pa % 256 = 0)
  else (List.range 5).any fun i =>
    let s := paSector pa + i
    s ≤ (pa + n - 1) / 64 && shas m.stk.poison s && !(pa ≤ s * 64 && s * 64 + 64 ≤ pa + n)

/-- The poison that a write of bytes `[pa, pa + n)` clears (R135, R165). -/
def Mach.clearPoison (m : Mach) (pa n : Nat) : Mach :=
  if paMedium pa = 0 then
    if n = 256 && pa % 256 = 0 then m.setMem { m.mem with poison := sdel m.mem.poison pa } else m
  else
    let full := (List.range 5).map (paSector pa + ·) |>.filter fun s => pa ≤ s * 64 && s * 64 + 64 ≤ pa + n
    m.setStk { m.stk with poison := full.foldl sdel m.stk.poison }

/-- A line or sector is marked poisoned (R134, R164). -/
def Mach.addPoison (m : Mach) (pa : Nat) : Mach :=
  if paMedium pa = 0 then m.setMem { m.mem with poison := sput m.mem.poison (pa / 256 * 256) () }
  else m.setStk { m.stk with poison := sput m.stk.poison (paSector pa) () }

/-! Runs of bytes. -/

/-- `[va, va + n)` cut at 256-byte lines: segment address and length of each piece. -/
def linePieces : Nat → Nat → Nat → List (Nat × Nat)
  | 0, _, _ => []
  | fuel + 1, va, n =>
    if n = 0 then []
    else
      let k := min n (256 - va % 256)
      (va, k) :: linePieces fuel (va + k) (n - k)

/-- The pieces of a run. -/
def pieces (va n : Nat) : List (Nat × Nat) := linePieces (n / 256 + 2) va n

/-- What a transaction asks of an entry (R145). -/
inductive Access where
  | rd | wr | atomic
  deriving DecidableEq, Repr

/-- The entry allows the access. -/
def SegEnt.allows (e : SegEnt) : Access → Bool
  | .rd => e.rd
  | .wr => e.wr
  | .atomic => e.at'

/-- One piece of a run resolved: slot, entry, placement for a requester on floor `fl`, address and length. -/
structure Piece where
  slot : Nat
  seg : SegEnt
  place : Place
  pa : Nat
  va : Nat
  len : Nat
  deriving DecidableEq, Repr

/-- Every piece of a run resolved; FAIL_ABORTED where one is not mapped or not allowed (R145). -/
def Mach.resolve (m : Mach) (fl ctx va n : Nat) (k : Access) : Except Fail (List Piece) :=
  (pieces va n).foldr (fun p acc =>
    match acc, m.findSeg ctx p.1 with
    | .error e, _ => .error e
    | .ok _, none => .error ⟨.failAborted, ⟨0x0B, ctx⟩⟩
    | .ok l, some (slot, e) =>
      if e.allows k then
        let pl := e.place (p.1 - e.va) fl
        .ok (⟨slot, e, pl, pl.pa (p.1 % 256), p.1, p.2⟩ :: l)
      else .error ⟨.failAborted, ⟨0x0B, ctx⟩⟩) (.ok [])

/-- The floor a MIRROR read is served from: the requester's own, or the other while its copy awaits resynchronisation
(R88, R117). -/
def Mach.mirrorFloor (m : Mach) (fl slot : Nat) : Nat :=
  if m.floorLost fl then 1 - fl else if shas m.die.resync slot && m.die.lost.isNone then 1 - fl else fl

/-- The set of a line: its low address bits above the line (DESIGN CHOICE, log 9). -/
def rlcSet (pa : Nat) : Nat := pa / 256 % 16384

/-- The number of a way of a floor's cache. -/
def rlcKey (fl pa way : Nat) : Nat := fl * 262144 + rlcSet pa * 16 + way

/-- The way of a floor's cache that holds or fills a line, with what it holds. -/
def Mach.rlcFind (m : Mach) (fl pa : Nat) : Option (Nat × RlcLine) :=
  if m.die.rlc.isEmpty then none
  else (List.range 16).findSome? fun w =>
    match sget m.die.rlc (rlcKey fl pa w) with
    | some (.shared a d) => if a = pa / 256 * 256 then some (w, .shared a d) else none
    | some (.fill a q) => if a = pa / 256 * 256 then some (w, .fill a q) else none
    | none => none

/-- The bytes that a floor's remote line cache serves of a line, where it is enabled in the epoch of who reads and holds it (R61, R91). -/
def Mach.rlcHit (m : Mach) (epoch fl pa len : Nat) : Option Bytes :=
  if paFloor pa = fl || !bitOf (m.cfgE epoch kRlcEnable) fl then none
  else match m.rlcFind fl pa with
    | some (_, .shared _ d) => some ((d.drop (pa % 256)).take len)
    | _ => none

/-- A floor's copy of a line is invalidated (R93). A local write to a line whose fill is pending leaves the fill pending, for which
Table 3.1 has no row (DESIGN CHOICE, log 72). -/
def Mach.rlcInvalidate (m : Mach) (fl pa : Nat) : Mach :=
  match m.rlcFind fl pa with
  | some (w, .shared _ _) => m.setDie { m.die with rlc := sdel m.die.rlc (rlcKey fl pa w) }
  | _ => m

/-- A piece read: its bytes, from the requester floor's remote line cache where that holds the line (R91), or the cause it cannot
be read (R133, R135, R162, R165, R182). -/
def Mach.readPiece (m : Mach) (epoch ctx fl : Nat) (p : Piece) : Except Fail Bytes :=
  let pl := if p.seg.mirror then p.seg.place (p.va - p.seg.va) (m.mirrorFloor fl p.slot) else p.place
  let pa := pl.pa (p.va % 256)
  match if p.seg.mirror then none else m.rlcHit epoch fl pa p.len with
  | some d => .ok d
  | none =>
    match worstFail (m.placeFails epoch ctx pl ++
        (if m.poisoned pa p.len || m.grainsBad (readGrains pa p.len) then [⟨.failMemLost, pl.ref⟩] else [])) with
    | some f => .error f
    | none => .ok ((List.range p.len).map fun i => m.rdByte ctx (pa + i))

/-- A run of bytes read by a context from a floor: its bytes, or the broadest of the causes that its lines meet (R11). -/
def Mach.readMem (m : Mach) (epoch fl ctx va n : Nat) : Except Fail Bytes :=
  (pieces va n).foldr (fun p acc =>
    let r : Except Fail Bytes := match m.resolve fl ctx p.1 p.2 .rd with
      | .error e => .error e
      | .ok [] => .ok []
      | .ok (q :: _) => m.readPiece epoch ctx fl q
    match r, acc with
    | .ok a, .ok b => .ok (a ++ b)
    | .ok _, .error e => .error e
    | .error e, .ok _ => .error e
    | .error e, .error f => .error (e.worse f)) (.ok [])

/-- A line's remote copy goes as a write from floor `fl` is performed at its home (R93, R94, Table 3.2), the exchange ended within
the step (log 8): from H the tag is cleared, after INV and INV_ACK where the writer is at home; in W the copy goes, and what
is held and queued stays for the INV_ACK that is under way. -/
def Mach.dropRemote (m : Mach) (fl pa : Nat) : Mach :=
  let line := pa / 256 * 256
  let home := paFloor pa
  match sget m.die.dir line with
  | none => m
  | some (.held _) =>
    let m := m.rlcInvalidate (1 - home) pa
    let m := m.setDie { m.die with dir := sdel m.die.dir line }
    if fl = home then (m.putBridge home bInv (pa / 256) 0 []).putBridge (1 - home) bInvAck (pa / 256) 0 [] else m
  | some (.inval _ _) => m.rlcInvalidate (1 - home) pa

/-- A write or atomic operation from floor `fl` leaves for its home: from the other floor its own copy goes first, and it crosses
the bridge (R93). -/
def Mach.crossWrite (m : Mach) (fl pa ctx : Nat) (data : Bytes) : Mach :=
  if paFloor pa = fl then m else (m.rlcInvalidate fl pa).putBridge fl bWrite (pa / 256) ctx data

/-- The copies a write of a piece goes to, the serialising one first (R88, Table 3.5 step 5). -/
def Mach.writeCopies (m : Mach) (p : Piece) : List Place :=
  if p.seg.mirror then
    ([p.seg.home, 1 - p.seg.home].filter fun f => !m.floorLost f && !m.floorGone f).map
      fun f => p.seg.place (p.va - p.seg.va) f
  else [p.place]

/-- A piece written into the arrays of every copy, each line's merge window closed (R126), or the cause it cannot be. -/
def Mach.putPiece (m : Mach) (epoch ctx : Nat) (p : Piece) (data : Bytes) : Mach × Option Fail :=
  let copies := m.writeCopies p
  match worstFail (copies.flatMap fun pl => m.placeFails epoch ctx pl ++
      (let pa := pl.pa (p.va % 256)
       if m.writeMeetsPoison pa data.length || m.grainsBad (partGrains pa data.length) then [⟨.failMemLost, pl.ref⟩] else [])) with
  | some f => (m, some f)
  | none =>
    let m := copies.foldl (fun m pl =>
      let pa := pl.pa (p.va % 256)
      ((m.wrLine ctx pa data).clearPoison pa data.length).closeMerge pa) m
    (if p.seg.mirror && m.die.lost.isSome then m.setDie { m.die with resync := sput m.die.resync p.slot () } else m, none)

/-- A piece written from floor `fl`, its exchange with the other floor ended within the step, or the cause it cannot be. -/
def Mach.writePiece (m : Mach) (epoch ctx fl : Nat) (p : Piece) (data : Bytes) : Mach × Option Fail :=
  let r := m.putPiece epoch ctx p data
  if r.2.isSome || p.seg.mirror then r else ((r.1.crossWrite fl p.pa ctx data).dropRemote fl p.pa, none)

/-- The pieces of a run written in order with their data; those that can be written are, and the broadest cause of the others is kept
(R11). -/
def Mach.writePieces (m : Mach) (epoch ctx fl : Nat) : List (Nat × Nat) → Bytes → Option Fail → Mach × Option Fail
  | [], _, f => (m, f)
  | p :: ps, data, f =>
    let r := match m.resolve fl ctx p.1 p.2 .wr with
      | .error e => (m, some e)
      | .ok [] => (m, none)
      | .ok (q :: _) => m.writePiece epoch ctx fl q (data.take p.2)
    r.1.writePieces epoch ctx fl ps (data.drop p.2)
      (match f, r.2 with
        | none, x => x
        | some a, none => some a
        | some a, some b => some (a.worse b))

/-- A run of bytes written by a context from a floor. -/
def Mach.writeMem (m : Mach) (epoch fl ctx va : Nat) (data : Bytes) : Mach × Option Fail :=
  m.writePieces epoch ctx fl (pieces va data.length) data none

/-- A run is wholly mapped and allowed (R299). -/
def Mach.mapped (m : Mach) (ctx va n : Nat) (k : Access) : Bool :=
  match m.resolve 0 ctx va n k with
  | .ok _ => true
  | .error _ => false

/-! Who asks. -/

/-- The floor of a requester. -/
def Origin.floor : Origin → Nat
  | .port f _ _ => f
  | .site t _ _ => t / 2
  | .core c _ => c / 16
  | .bar2 n _ => n
  | .agent _ f _ _ => f

/-- The grid requester port of its floor (Table 4.1). -/
def Origin.gport : Origin → Nat
  | .port _ p _ => p
  | .site t b _ => t % 2 * 16 + b
  | .core c _ => 32 + c % 16 / 4
  | .bar2 _ _ => 47
  | .agent _ _ p _ => p

/-- Its number among all ports: 48 × floor + port. -/
def Origin.g (o : Origin) : Nat := 48 * o.floor + o.gport

/-! Translation caches (R147). -/

/-- An address translated at a network interface: the map's entry, with the cache and its misses. The cache holds slots, the newest
first, and replaces the least recently used one (DESIGN CHOICE, log 75). An address that no entry holds misses too. -/
def Mach.xlate (m : Mach) (o : Origin) (ctx va : Nat) : Mach × Option (Nat × SegEnt) :=
  match m.findSeg ctx va with
  | none => (m.bump kTcacheMisses, none)
  | some (slot, e) =>
    let l := sgetD [] m.grid.tcache o.g
    let hit := l.contains slot
    let l := (slot :: l.filter (· ≠ slot)).take 1024
    let m := m.setGrid { m.grid with tcache := sput m.grid.tcache o.g l }
    (if hit then m else m.bump kTcacheMisses, some (slot, e))

/-- A transaction that reads. -/
def TxnKind.isRead : TxnKind → Bool | .read _ => true | .write _ _ => false | .atomic _ _ _ => false

/-- Earlier writes of the same port and context are not complete (R129). -/
def Mach.writesOpen (m : Mach) (o : Origin) (ctx : Nat) : Bool :=
  m.grid.openWr.any (fun w => w.1.g = o.g && w.2.1 = ctx) ||
  m.grid.wait.any fun q => q.2.any fun t => t.org.g = o.g && t.ctx = ctx && !t.kind.isRead

/-- A record of at most one line that the machinery of rings writes at the surveyor's port of floor `fl` (log 78), its translation
and faults counted as any transaction's (R145, R147). -/
def Mach.recordWrite (m : Mach) (epoch fl ctx va : Nat) (data : Bytes) : Mach × Option Fail :=
  let x := m.xlate (.port fl 47 0) ctx va
  let m := match x.2 with
    | some (_, e) => if e.wr then x.1 else x.1.bump kGridXlateFaults
    | none => x.1.bump kGridXlateFaults
  m.writeMem epoch fl ctx va data

end Sys2Proof.Machine
end

