-- ==== Sys2Proof/Machine/Events.lean ====
section
/-! DEFINITION. Event records and who receives them (R327, R328, R553), the fault ledger (R669 to R672), ALERT_N (R671),
holdings (R661) and notices to submitters (R325, R428, R462, R478). -/
namespace Sys2Proof.Machine

/-! Event classes (Table 0.5). -/
def evThermal : Nat := 0x01
def evPower : Nat := 0x02
def evClock : Nat := 0x03
def evRemap : Nat := 0x04
def evLedger : Nat := 0x05
def evRegMiss : Nat := 0x06
def evLink : Nat := 0x07
def evTile : Nat := 0x08
def evSecurity : Nat := 0x09
def evMargin : Nat := 0x0A
def evEpoch : Nat := 0x0B

/-- The 32 bytes of an event record (Table 9.10), stored under R7. -/
def Event.bytes (e : Event) : Bytes :=
  leB 32 (e.data % 2 ^ 64 * 2 ^ 192 + e.time % 2 ^ 64 * 2 ^ 128 + e.evseq * 2 ^ 96 + e.epoch * 2 ^ 64 +
    e.unit.code * 2 ^ 40 + e.ctx * 2 ^ 28 + e.sev * 2 ^ 24 + e.code * 2 ^ 16 + e.cls * 2 ^ 8 + 0xE0)

/-- A context that is not FREE, by number. -/
def Mach.ctx? (m : Mach) (c : Nat) : Option Ctx := sget m.rng.ctxs c

/-- The context is confidential. -/
def Mach.confCtx (m : Mach) (c : Nat) : Bool := match m.ctx? c with | some x => x.conf | none => false

/-- The module is confidential-resident: some context is confidential and not FREE (R532, R552). -/
def Mach.confResident (m : Mach) : Bool := m.rng.ctxs.any fun p => p.2.conf

/-- An event record as sessions of class O receive it (R553). -/
def Mach.eventFor (m : Mach) (e : Event) : Event :=
  if e.cls = evSecurity then e
  else if m.confCtx e.ctx then { e with data := 0, time := e.time / 100000 * 100000 }
  else if m.confResident && (e.cls = evPower || e.cls = evRegMiss) then { e with time := e.time / 100000 * 100000 }
  else e

/-- A notification record joins a session's queue; past 1,024 the oldest is dropped and counted (R82). -/
def Session.push (x : Session) (n : Note) : Session :=
  if x.queue.length < 1024 then { x with queue := x.queue ++ [n] }
  else { x with queue := x.queue.drop 1 ++ [n], lost := x.lost + 1 }

/-- A host core changed. -/
def Mach.coreAt (m : Mach) (c : Nat) : Core := nth {} m.core.dev c
def Mach.setCoreAt (m : Mach) (c : Nat) (x : Core) : Mach := m.setCore { m.core with dev := setAt m.core.dev c x }

/-- Interrupt source `b` of a core becomes pending; a halted core with it enabled wakes (R463). -/
def Core.interrupt (x : Core) (b : Nat) : Core :=
  { x with intPending := putBit x.intPending b true
           state := if x.state = 2 && bitOf x.intEnable b then 1 else x.state }

/-- Source `b` becomes pending at every running or halted core bound to a context. -/
def Mach.interruptBound (m : Mach) (c b : Nat) : Mach :=
  m.setCore { m.core with dev := m.core.dev.map fun x =>
    if x.ctx = c && c ≠ 0 && (x.state = 1 || x.state = 2) then x.interrupt b else x }

/-- A record into the event area of the context it names (R328). -/
def Mach.eventToArea (m : Mach) (e : Event) : Mach :=
  match m.ctx? e.ctx with
  | none => m
  | some x =>
    if e.ctx = 0 || x.evLog2 = 0 || !bitOf x.evClasses e.cls then m
    else
      let depth := 2 ^ x.evLog2
      let slot := x.evCount % depth
      let r := m.recordWrite m.fb.epoch (if m.floorLost 0 then 1 else 0) e.ctx (x.evAddr + 32 * slot) e.bytes
      let lost := if r.2.isSome || shas x.evHeld slot then 1 else 0
      let x := { x with evCount := x.evCount + 1, evLost := (x.evLost + lost) % 2 ^ 32
                        evHeld := if r.2.isSome then x.evHeld else sput x.evHeld slot () }
      let m := if r.2.isSome then r.1 else r.1.interruptBound e.ctx 3
      m.setRng { m.rng with ctxs := sput m.rng.ctxs e.ctx x }

/-- An event record is made and reaches its receivers (R327, R328): the consoles print it as class O receives it (R551). -/
def Mach.event (m : Mach) (cls code sev : Nat) (unit : UnitRef := {}) (ctx : Nat := 0) (data : Nat := 0) : Mach :=
  let e : Event := { cls, code, sev, unit, ctx, data, time := m.clk.us, evseq := (m.fb.evseq + 1) % 2 ^ 32,
                     epoch := m.fb.epoch }
  let seen := m.eventFor e
  let m := m.setFb { m.fb with
    evseq := (m.fb.evseq + 1) % 2 ^ 32
    events := e :: m.fb.events
    lines := seen.bytes :: m.fb.lines
    sessions := smap (fun x => if bitOf x.mask cls then x.push (.event seen) else x) m.fb.sessions }
  m.eventToArea e

/-! ALERT_N. -/

/-- Some history record of severity fault is unacknowledged (R671). -/
def Mach.unacked (m : Mach) : Nat := (m.flt.hist.filter fun h => h.sev = 3 && h.lseq > m.flt.acked).length

/-- ALERT_CAUSES (0x8220.01). -/
def Mach.alertCauses (m : Mach) : Nat :=
  putBit (putBit m.flt.alert 1 (m.unacked > 0)) 7 m.flt.degraded

/-- ALERT_N follows ALERT_CAUSES (R671): it is driven low while any bit is set, and not driven before the first survey step 02
(R690). -/
def Mach.driveAlert (old m : Mach) : Mach :=
  if m.pwr.driven = false ∨ (old.alertCauses = 0) = (m.alertCauses = 0) then m else m.emit (.pin 0 0 (m.alertCauses = 0))

/-- Cause `b` of ALERT_N set or cleared. -/
def Mach.alert (m : Mach) (b : Nat) (on : Bool) : Mach :=
  Mach.driveAlert m (m.setFlt { m.flt with alert := putBit m.flt.alert b on })

/-! The ledger. -/

/-- SEVERITY of a fault class (Table 21.1). -/
def faultSev (cls : Nat) : Nat := nth 3 [0, 0, 1, 2, 3, 2, 3, 2, 3, 3, 3] cls

/-- A history record is kept, the oldest of more than 131,072 in board flash overwritten (R672); while DEGRADED at most 4,096 are
held in memory and the rest counted (R674). -/
def Mach.addHist (m : Mach) (h : Hist) : Mach :=
  let held := (m.flt.hist.filter fun x => !x.flushed).length
  if m.flt.degraded && held ≥ 4096 then m.bump kLedgerOverwritten
  else if m.flt.hist.length < 131072 || m.flt.degraded then m.setFlt { m.flt with hist := h :: m.flt.hist }
  else (m.setFlt { m.flt with hist := h :: m.flt.hist.take 131071 }).bump kLedgerOverwritten

/-- A fault is reported: the LEDGER event record and the history record it announces (R669, R670). -/
def Mach.ledger (m : Mach) (cls cause outcome : Nat) (unit : UnitRef) (st : Nat := 0) (items : Nat := 0)
    (ctx : Nat := 0) (data : Nat := 0) (phys : Nat := 0xFF) : Mach :=
  let n := (m.flt.lseq + 1) % 2 ^ 32
  let h : Hist := { lseq := n, survey := m.count kSurveyNumber, time := m.clk.us, unit, phys, fclass := cls, cause, outcome,
                    status := st, items, ctx := if m.confCtx ctx then 0 else ctx, sev := faultSev cls, data }
  let c := (nth 0 m.flt.counts (cls - 1) + 1) % 2 ^ 32
  let m' := (m.setFlt { m.flt with lseq := n, counts := setAt m.flt.counts (cls - 1) c }).addHist h
  (Mach.driveAlert m m').event evLedger cls (faultSev cls) unit ctx
    (n * 2 ^ 32 + cause * 2 ^ 16 + outcome * 2 ^ 8 + st)

/-- `n` more items ended by the fault last reported (Table 21.6, ITEMS, until its flush). -/
def Mach.ledgerItems (m : Mach) (n : Nat) : Mach :=
  match m.flt.hist with
  | [] => m
  | h :: r => if h.flushed then m else m.setFlt { m.flt with hist := { h with items := min (h.items + n) 0xFFFFFFFF } :: r }

/-- An event of a fault already reported, for a fence that is part of a closure (R665): no history record. -/
def Mach.ledgerQuiet (m : Mach) (quiet : Bool) (cls cause outcome : Nat) (unit : UnitRef) (st items ctx data : Nat) :
    Mach := if quiet then m else m.ledger cls cause outcome unit st items ctx data

/-- A standing-table entry is kept (R673). -/
def Mach.addStanding (m : Mach) (x : Standing) : Mach := m.setFlt { m.flt with standing := m.flt.standing ++ [x] }

/-! Holdings. -/

/-- Records of a floor in use. -/
def Mach.holdingsOn (m : Mach) (f : Nat) : List Holding := m.flt.holdings.filter fun h => h.floor = f

/-- A holding is recorded (R661). -/
def Mach.hold (m : Mach) (floor kind : Nat) (party : Party) (ctx object : Nat) : Mach :=
  m.setFlt { m.flt with holdings := m.flt.holdings ++
    [{ floor, kind, party, ctx, since := m.clk.us / 1000 % 2 ^ 32, object }] }

/-- Holdings that meet `p` are removed. -/
def Mach.unhold (m : Mach) (p : Holding → Bool) : Mach :=
  m.setFlt { m.flt with holdings := m.flt.holdings.filter fun h => !p h }

/-- The first holding that meets `p` is removed. -/
def Mach.unholdFirst (m : Mach) (p : Holding → Bool) : Mach :=
  match m.flt.holdings.find? p with
  | none => m
  | some h => m.setFlt { m.flt with holdings := m.flt.holdings.erase h }

/-- The 16 bytes of a holdings record (Table 21.4). -/
def Holding.bytes (h : Holding) : Bytes :=
  leB 16 (h.kind * 2 ^ 120 + h.party.kind * 2 ^ 116 + h.party.num * 2 ^ 92 + h.ctx * 2 ^ 80 + h.since * 2 ^ 48 +
    h.object % 2 ^ 48)

/-! Bond modules: sending under credits (R424, R429). -/

def Mach.siteAt (m : Mach) (t : Nat) : Site := nth {} m.site.dev t
def Mach.setSiteAt (m : Mach) (t : Nat) (x : Site) : Mach := m.setSite { m.site with dev := setAt m.site.dev t x }
def Site.bond (x : Site) (b : Nat) : Bond := sgetD {} x.bonds b
def Site.setBond (x : Site) (b : Nat) (y : Bond) : Site := { x with bonds := sput x.bonds b y }

/-- Credit class that a floor message uses (Table 12.3): 2 RSP, 3 WORK, 4 none. -/
def opClass (op : Nat) : Nat :=
  match op with
  | 0x21 | 0x22 | 0x23 | 0x27 => 2
  | 0x24 | 0x25 | 0x26 => 3
  | _ => 4

/-- The 128 bits of a flit's header (Table 12.2). -/
def flitHeader (f : Flit) : Nat :=
  f.op * 2 ^ 122 + f.release.toNat * 2 ^ 121 + f.rsvd * 2 ^ 120 + f.ctx * 2 ^ 108 + f.tag * 2 ^ 92 + f.addr * 2 ^ 52 + f.len * 2 ^ 43 +
  f.crClass * 2 ^ 40 + f.crCount * 2 ^ 32 + f.operand

/-- What the CRC-16 of a flit covers: header, data slot and the link word's low half (R431). -/
def flitCovered (f : Flit) : Bytes :=
  leB 16 (flitHeader f) ++ padTo 256 f.data ++ leB 2 (f.seq * 512 + f.ack * 4 + f.nak.toNat * 2 + f.low.toNat)

/-- The CRC-16 that a flit should carry (R431). -/
def flitCheck (f : Flit) : Nat := crc16 (flitCovered f)

/-- The 276 bytes of a flit as the floor sends it (R413, R431). -/
def flitWire (f : Flit) : Bytes := flitCovered f ++ leB 2 (flitCheck f)

/-- A flit of a module as it leaves now (Table 12.2, R431): the floor's ACK is the last flit it took, and NAK where `nak`. -/
def Bond.shown (y : Bond) (s : Sent) (nak : Bool := false) : Flit :=
  { op := s.code, tag := nth 0 s.fields 0, operand := nth 0 s.fields 1, crClass := nth 0 s.fields 2, crCount := nth 0 s.fields 3
    len := nth 0 s.fields 4, data := s.data, seq := s.seq, ack := y.rxSeq, nak }

/-- A flit leaves on a module's wires. -/
def Mach.showFlit (m : Mach) (t b : Nat) (s : Sent) (nak : Bool := false) : Mach :=
  m.emit (.flit t b (flitWire (((m.siteAt t).bond b).shown s nak)))

/-- A flit leaves a bond module whose replay buffer of 64 has room: its SEQ, its place in that buffer (R431, R432). -/
def Mach.putFlit (m : Mach) (t b op : Nat) (fields : List Nat) (data : Bytes) : Mach :=
  let x := m.siteAt t
  let y := x.bond b
  let s : Sent := ⟨y.txSeq, op, fields, data⟩
  let y := { y with txSeq := (y.txSeq + 1) % 128, replay := y.replay ++ [s] }
  ((m.setSiteAt t (x.setBond b y)).showFlit t b s).bump (key (0x9780 + 16 * t + b) 1)

/-- A message is sent on a bond module when a credit of its class is held and the replay buffer has room, and waits otherwise
(R429, R432). -/
def Mach.sendFlit (m : Mach) (t b op : Nat) (fields : List Nat) (data : Bytes) : Mach :=
  let x := m.siteAt t
  let y := x.bond b
  let c := opClass op
  if y.retraining || y.replay.length ≥ 64 || (c = 2 && y.rsp = 0) || (c = 3 && y.work = 0) then
    m.setSiteAt t (x.setBond b { y with waitOut := y.waitOut ++ [(op, fields, data)] })
  else
    (m.setSiteAt t (x.setBond b
      { y with rsp := if c = 2 then y.rsp - 1 else y.rsp, work := if c = 3 then y.work - 1 else y.work })).putFlit
      t b op fields data

/-! The sideband: sending (R433). -/

/-- The bytes of a sideband message: header, payload, and the CRC-32C of both (R433). -/
def sbCovered (ty version len seq rsvd : Nat) (payload : Bytes) : Bytes :=
  leB 1 ty ++ leB 1 version ++ leB 2 len ++ leB 2 seq ++ leB 2 rsvd ++ payload
def sbBytes (ty seq : Nat) (payload : Bytes) : Bytes :=
  let h := sbCovered ty 1 payload.length seq 0 payload
  h ++ leB 4 (crc32c h)

/-- A sideband message leaves the floor and is outstanding until it is acknowledged; while one is, it waits (R433). -/
def Mach.sbSend (m : Mach) (t ty : Nat) (payload : Bytes) : Mach :=
  let x := m.siteAt t
  if x.sbOut.isSome then m.setSiteAt t { x with sbWait := x.sbWait ++ [(ty, payload)] }
  else (m.setSiteAt t { x with sbOut := some x.sbSeq, sbSeq := (x.sbSeq + 1) % 65536 }).emit (.sideband t (sbBytes ty x.sbSeq payload))

/-- The tile acknowledges the outstanding message by its SEQ; the next that waits goes (R433). -/
def Mach.sbAcked (m : Mach) (t seq : Nat) : Mach :=
  let x := m.siteAt t
  if x.sbOut ≠ some seq then m
  else match x.sbWait with
    | [] => m.setSiteAt t { x with sbOut := none }
    | w :: r => (m.setSiteAt t { x with sbOut := none, sbWait := r }).sbSend t w.1 w.2

/-- The lowest-numbered logical bond module that is up (R424). -/
def Site.lowestUp (x : Site) : Option Nat := (bitList 16 x.up).head?

/-! Notices to submitters (R325). -/

/-- A notice for a core enters its queue of 64, or is dropped with LOST to follow (R462, R463). -/
def Mach.coreNotice (m : Mach) (c vector : Nat) : Mach :=
  let x := m.coreAt c
  if x.notices.length < 64 then
    m.setCoreAt c ({ x with notices := x.notices ++ [(vector, false)] }.interrupt 1)
  else m.setCoreAt c ({ x with noticeLost := true }.interrupt 2)

/-- A notice for host port `n` raises its MSI-X vector (R478); a member's goes to member 0 on channel 1 (R488). -/
def Mach.hpNotice (m : Mach) (n vector : Nat) : Mach :=
  if n = 0 && m.member ≠ 0 && m.member ≠ 0xFF then
    (m.setTrv { m.trv with reqId := (m.trv.reqId + 1) % 65536 }).sendVc2 0 1 m.trv.reqId 0
      (leB 8 1 ++ leB 2 vector)
  else if vector < 2032 then m.emit (.msix n vector)
  else m.bump (key (0x6410 + n) 0x0A)

/-- A completion notice to a ring's submitter (R325). -/
def Mach.notice (m : Mach) (r : Ring) : Mach :=
  match r.subKind with
  | 1 =>
    match (m.siteAt r.submitter).lowestUp with
    | some b => if (m.siteAt r.submitter).state = 5 then m.sendFlit r.submitter b 0x25 [] (leB 2 r.vector) else m
    | none => m
  | 2 => m.coreNotice r.submitter r.vector
  | 5 => m.hpNotice r.submitter r.vector
  | _ => m

end Sys2Proof.Machine
end

