-- ==== Sys2Proof/Machine/Atomic.lean ====
section
/-! DEFINITION. Atomic operations at memory (R274 to R288, R702, R89, R662): checks, effect, response and holdings of lock
words. -/
namespace Sys2Proof.Machine

/-- The fields of an operation word (Table 8.4). -/
structure AtomWord where
  atop : Nat
  fmt : Nat := 0
  ofmt : Nat := 0
  cnt : Nat := 0
  size : Bool := false
  fetch : Bool := false
  rsvd : Nat := 0
  deriving DecidableEq, Repr

/-- The operation word that 32 bits spell. -/
def AtomWord.ofNat (v : Nat) : AtomWord :=
  ⟨fld v 24 8, fld v 20 4, fld v 18 2, fld v 15 3, bitOf v 14, bitOf v 13, fld v 0 13⟩

/-- Families by the upper nibble of ATOP. -/
def AtomWord.anchored (w : AtomWord) : Bool := w.atop / 16 = 1
def AtomWord.unanchored (w : AtomWord) : Bool := w.atop / 16 = 2
def AtomWord.integer (w : AtomWord) : Bool := w.atop / 16 = 3

/-- Bytes of the target that the operation covers, which for all but anchored ones is also its alignment. -/
def AtomWord.bytes (w : AtomWord) : Nat :=
  if w.anchored then 32 * (w.cnt + 1)
  else if w.unanchored then (if w.atop = 0x20 then 4 else 2)
  else if w.size then 8 else 4

/-- Target alignment (Table 8.5). -/
def AtomWord.align (w : AtomWord) : Nat := if w.anchored then 32 else w.bytes

/-- R278 and the reserved codes. -/
def AtomWord.malformed (w : AtomWord) (va : Nat) (operand : Bytes) : Bool :=
  w.rsvd ≠ 0 ||
  !(0x10 ≤ w.atop && w.atop ≤ 0x17 || 0x20 ≤ w.atop && w.atop ≤ 0x22 || 0x30 ≤ w.atop && w.atop ≤ 0x3B) ||
  w.fmt > 6 || w.ofmt = 3 ||
  va % w.align ≠ 0 || (w.anchored && va % 256 + w.bytes > 256) || (!w.anchored && w.cnt ≠ 0) ||
  (!w.integer && w.size) || (w.anchored && w.fetch) ||
  (w.atop = 0x10 && (signed 16 (num operand 0 2) < -512 || signed 16 (num operand 0 2) > 511)) ||
  ((w.atop = 0x3A || w.atop = 0x3B) && !w.size)

/-- The floor a party's transactions leave from, for the parties whose number says it. -/
def Party.onFloor (p : Party) (f : Nat) : Bool :=
  match p.kind with
  | 1 => p.num / 2 = f
  | 2 => p.num / 16 = f
  | 5 => p.num = f
  | _ => false

/-- A party in unit form (Table 9.9). -/
def Party.unit (p : Party) : UnitRef :=
  match p.kind with
  | 1 => ⟨0x06, p.num⟩
  | 2 => ⟨0x09, p.num⟩
  | 3 => ⟨0x0B, p.num⟩
  | 4 => ⟨0x0D, fld p.num 19 5 * 512 + fld p.num 14 5 * 16 + fld p.num 10 4⟩
  | 5 => ⟨0x0A, p.num⟩
  | _ => {}

/-- A lock word (Table 8.8) held by a party. -/
def lockWord (st : Nat) (p : Party) (tag : Nat) : Nat :=
  st * 2 ^ 62 + p.kind * 2 ^ 56 + p.num % 2 ^ 24 * 2 ^ 32 + tag % 2 ^ 32

/-- The new bytes of the target, the bytes returned, and the flags raised or returned (Table 8.6), for one operation on old
bytes; none where it is not performed for R276. -/
def atomEffect (w : AtomWord) (p : Party) (ovf flush : Bool) (old operand : Bytes) : Option (Bytes × Bytes × Nat) :=
  let n := w.cnt + 1
  let cells := (List.range n).map fun i => Cell.ofNat (num old (32 * i) 32)
  let eb := fmtBytes w.fmt
  let elem (i : Nat) : Addend := addendOf w.fmt (num operand (eb * i) eb)
  let put (cs : List (Cell × BitVec 7)) : Option (Bytes × Bytes × Nat) :=
    some (cs.flatMap fun c => c.1.bytes, [], cs.foldl (fun f c => Nat.lor f c.2.toNat) 0)
  let word (f : Nat → Nat → Nat) : Option (Bytes × Bytes × Nat) :=
    let k := w.bytes
    some (leB k (f (leN old) (num operand 0 k)), if w.fetch then old else [], 0)
  let bits := 8 * w.bytes
  let fadd (f : Fmt) : Option (Bytes × Bytes × Nat) := word fun a b =>
    match f.val? a, f.val? b with
    | some x, some y =>
      let s := x.add y
      if s.m = 0 then (if f.neg a && f.neg b then f.sign else 0) else f.round s
    | _, _ =>
      if f.isNan a || f.isNan b then f.nan
      else if f.isInf a && f.isInf b then (if a = b then a else f.nan)
      else if f.isInf a then a else b
  match w.atop with
  | 0x10 => put (cells.map fun _ => ({ anchor := BitVec.ofNat 16 (num operand 0 2) }, 0))
  | 0x11 => put (cells.map fun _ => ({ anchor := 0x8000, flags := flAuto }, 0))
  | 0x12 => put (cells.zipIdx.map fun c => c.1.emax (elem c.2))
  | 0x13 => put (cells.zipIdx.map fun c => c.1.add (elem c.2))
  | 0x14 =>
    let imgs := (List.range n).map fun i => Cell.ofNat (num operand (32 * i) 32)
    if (cells.zip imgs).all fun c => c.1.anchor = c.2.anchor then put ((cells.zip imgs).map fun c => c.1.addRaw c.2)
    else none
  | 0x15 =>
    let rs := cells.map fun c => c.read (outFmt w.ofmt) ovf flush
    let ob := (outFmt w.ofmt).width / 8
    some (old, (rs.flatMap fun r => leB ob r.1) ++ rs.flatMap fun r => leB 2 r.2, rs.foldl (fun f r => Nat.lor f r.2) 0)
  | 0x16 => some (old, old, 0)
  | 0x17 =>
    some (cells.flatMap fun c => ({ c with value := 0, count := 0, flags := 0 } : Cell).bytes, old, 0)
  | 0x20 => fadd fp32
  | 0x21 => fadd bf16
  | 0x22 => fadd fp16
  | 0x30 => word fun a b => (a + b) % 2 ^ bits
  | 0x31 => word fun a b => Nat.land a b
  | 0x32 => word fun a b => Nat.lor a b
  | 0x33 => word fun a b => Nat.xor a b
  | 0x34 => word fun a b => if signed bits a ≤ signed bits b then a else b
  | 0x35 => word fun a b => if signed bits a ≥ signed bits b then a else b
  | 0x36 => word fun a b => min a b
  | 0x37 => word fun a b => max a b
  | 0x38 => some (leB w.bytes (num operand 0 w.bytes), old, 0)
  | 0x39 =>
    some (if leN old = num operand 0 w.bytes then leB w.bytes (num operand w.bytes w.bytes) else old, old, 0)
  | 0x3A => some (if fld (leN old) 62 2 = 0 then leB 8 (lockWord 1 p (num operand 0 4)) else old, old, 0)
  | _ =>
    some (if fld (leN old) 56 4 = p.kind && fld (leN old) 32 24 = p.num then leB 8 0 else old, old, 0)

/-- The number of an anchored-sum unit among the unit counters (Table 2.16). -/
def Place.sumUnit (p : Place) : Nat := if p.medium = 0 then 64 * p.floor + p.unit else 128 + 32 * p.stack + p.unit

/-- The counts of a performed operation (Tables 8.10, 2.16). -/
def Mach.countAtomic (m : Mach) (w : AtomWord) (p : Place) (flagged : Bool) : Mach :=
  let f := 0x4410 + p.floor
  let u := 0x9500 + p.sumUnit
  let m := if w.anchored then (m.bump (key f 1)).bump (key u 1)
    else if w.unanchored then (m.bump (key f 2)).bump (key u 3) else m.bump (key u 2)
  if flagged then (if w.anchored then m.bump (key f 3) else m).bump (key u 4) else m

/-- LOCK would pass the bounds of R662 on the floor. -/
def Mach.lockRefused (m : Mach) (f : Nat) (p : Party) : Bool :=
  let l := (m.holdingsOn f).filter fun h => h.kind = 1
  (l.filter fun h => h.party = p).length ≥ m.cfg kHoldLocksMax || l.length ≥ 57344

/-- The answer to an atomic operation: the module after it, its status, the bytes returned and the unit at fault. -/
structure AtomRes where
  m : Mach
  st : Status
  data : Bytes := []
  unit : UnitRef := {}
  /-- Flags raised or returned (Table 8.6). -/
  flags : Nat := 0
  /-- Address of the target, where the operation was performed. -/
  pa : Option Nat := none

/-- The piece that an atomic operation's target lies in, where the segment map allows it (R89, R145): the entry is checked before all
else. -/
def Mach.atomPiece (m : Mach) (floor ctx va : Nat) (w : AtomWord) : Option Piece :=
  match m.findSeg ctx va with
  | none => none
  | some (slot, e) =>
    if !e.at' then none
    else
      let pl := e.place (va - e.va) floor
      some ⟨slot, e, pl, pl.pa (va % 256), va, w.bytes⟩

/-- Why the unit does not look at the target of an operation that the entry allows, in the order of R12 (R89, R278, R279). -/
def Mach.atomRefused (m : Mach) (epoch ctx va : Nat) (w : AtomWord) (operand : Bytes) (q : Piece) : Option Status :=
  let part := match m.ctx? ctx with | some c => c.part | none => 0
  if w.malformed va operand then some .rejectFormat
  else if w.unanchored && !bitOf (m.cfgE epoch kAnchorUnanchoredParts) part then some .rejectAccess
  else if q.seg.mirror then some .rejectRange else none

/-- An operation at its target (R274 to R286): performed as a write of its bytes, whatever they are (R281). -/
def Mach.atomTarget (m : Mach) (epoch : Nat) (p : Party) (ctx : Nat) (w : AtomWord) (operand : Bytes) (q : Piece) : AtomRes :=
  match worstFail (m.placeFails epoch ctx q.place ++
      (if m.poisoned q.pa w.bytes then [⟨.failMemLost, q.place.ref⟩] else [])) with
  | some f => { m, st := f.st, unit := f.unit }
  | none =>
    let old := (List.range w.bytes).map fun i => m.rdByte ctx (q.pa + i)
    let free := fld (leN old) 62 2 = 0
    let mine := fld (leN old) 56 4 = p.kind && fld (leN old) 32 24 = p.num
    if w.atop = 0x3A && free && m.lockRefused q.place.floor p then { m, st := .rejectRange }
    else if w.atop = 0x3B && !mine then { m, st := .rejectAccess, data := old }
    else match atomEffect w p (m.cfgE epoch kAnchorOverflow = 1) (m.cfgE epoch kAnchorSubnormals = 1) old operand with
    | none => { m, st := .rejectRange }
    | some (new, ret, fl) =>
      let m := (m.wrLine ctx q.pa new).closeMerge q.pa
      let m := if w.atop = 0x3A && free then m.hold q.place.floor 1 p ctx q.pa
        else if w.atop = 0x3B then m.unhold fun h => h.kind = 1 && h.object = q.pa && h.party = p else m
      { m := m.countAtomic w q.place (fl ≠ 0), st := if fl ≠ 0 then .doneFlagged else .done, data := ret, flags := fl
        pa := some q.pa }

/-- An atomic operation of a party on segment address `va` of a context, under an epoch's bank (R274 to R285). -/
def Mach.atomic (m : Mach) (epoch : Nat) (p : Party) (floor ctx va : Nat) (w : AtomWord) (operand : Bytes) : AtomRes :=
  match m.atomPiece floor ctx va w with
  | none => { m := m.bump kGridXlateFaults, st := .failAborted, unit := ⟨0x0B, ctx⟩ }
  | some q =>
    match m.atomRefused epoch ctx va w operand q with
    | some st => { m, st, unit := if st = .rejectAccess then ⟨0x0B, ctx⟩ else {} }
    | none => m.atomTarget epoch p ctx w operand q

/-- A neighbour station as a party (Table 8.8). -/
def stationParty (st : Nat) : Party := ⟨4, st / 512 % 32 * 2 ^ 19 + st / 16 % 32 * 2 ^ 14 + st % 16 * 2 ^ 10⟩

/-- Lock words that a party holds become fenced and their holdings are removed (R285); `on` limits it to a floor's. -/
def Mach.fenceLocks (m : Mach) (p : Party) (on : Nat → Bool) : Mach :=
  let ls := m.flt.holdings.filter fun h => h.kind = 1 && h.party = p && on h.floor
  let m := ls.foldl (fun m h =>
    let old := leN ((List.range 8).map fun i => m.rdByte h.ctx (h.object + i))
    let new := leB 8 (old % 2 ^ 62 + 2 * 2 ^ 62)
    (((m.wrLine h.ctx h.object new).closeMerge h.object).dropRemote (paFloor h.object) h.object).bump
      (key (0x4410 + h.floor) 4)) m
  m.unhold fun h => h.kind = 1 && h.party = p && on h.floor

end Sys2Proof.Machine
end

