-- ==== Sys2Proof/Machine/Attention.lean ====
section
/-! DEFINITION. The arithmetic of a sweep: formats of K and V (Table 7.5), the running values of one share (R230), their
combination (R237), outputs (R232 to R234) and the merge of partials (R241). -/
namespace Sys2Proof.Machine

/-- One rounding to FP32 with R234's flush: code and whether a non-zero subnormal was flushed. -/
def flushSub (f : Fmt) (on : Bool) (c : Nat) : Nat × Bool :=
  if on && f.isSub c then (if f.neg c then f.sign else 0, true) else (c, false)

/-- rnd32 of R230 under R234. -/
def rnd32 (on : Bool) (x : Dy) : Nat × Bool := flushSub fp32 on (fp32.round x)

/-- exp32 of R231 under R234. -/
def expFl (on : Bool) (x : Nat) : Nat × Bool := flushSub fp32 on (exp32 x)

/-- The exact sum of products of two lists. -/
def dot : List Dy → List Dy → Dy
  | a :: as, b :: bs => (a.mul b).add (dot as bs)
  | _, _ => Dy.zero

/-- Head dimension of code D (Table 7.3). -/
def headDim (d : Nat) : Nat := 64 * 2 ^ d

/-- Row bytes of a KV format (Table 7.5). -/
def rowBytes (fmt d : Nat) : Nat :=
  match fmt with
  | 0 | 1 => d
  | 2 | 3 | 6 => d + d / 32
  | 4 | 5 => 3 * d / 4 + d / 32
  | _ => 2 * d

/-- The 6-bit code `i` of packed code bytes (Table 7.5). -/
def code6 (codes : Bytes) (i : Nat) : Nat := fld (num codes (6 * i / 8) 2) (6 * i % 8) 6

/-- One row of K or V as exact values, none where an element or a scale is a NaN or an infinity (R223, Table 7.5). -/
def decodeRow (fmt d : Nat) (row : Bytes) : Option (List Dy) :=
  let sc := d / 32
  let codes := row.drop sc
  (List.range d).foldr (fun i acc =>
    let scaled (x : Option Dy) : Option Dy :=
      match e8m0? (num row (i / 32) 1), x with
      | some s, some v => some ⟨v.m, v.e + s⟩
      | _, _ => none
    let v : Option Dy :=
      match fmt with
      | 0 => e4m3Val? (num row i 1)
      | 1 => e5m2Val? (num row i 1)
      | 2 => scaled (e4m3Val? (num codes i 1))
      | 3 => scaled (e5m2Val? (num codes i 1))
      | 4 => scaled (some (e2m3Val (code6 codes i)))
      | 5 => scaled (some (e3m2Val (code6 codes i)))
      | 6 => scaled (some (mxintVal (num codes i 1)))
      | _ => bf16.val? (num row (2 * i) 2)
    match v, acc with
    | some x, some l => some (x :: l)
    | _, _ => none) (some [])

/-- One position as read: its number, K and V (none where not finite). -/
structure PosData where
  p : Nat
  k : Option (List Dy)
  v : Option (List Dy)
  deriving DecidableEq, Repr

/-- What one (row, head) pair needs beside the positions: its query (none where not finite), limits and bias by position. -/
structure PairIn where
  q : Option (List Dy)
  first : Int
  last : Int
  scale : Nat
  /-- Bias codes by distance, FP32; none without BIAS_EN. -/
  bias : Option (List Nat)
  flush : Bool
  deriving DecidableEq, Repr

/-- The bias of a position (R226). -/
def PairIn.biasAt (x : PairIn) (p : Nat) : Option Nat :=
  x.bias.map fun b => nth 0 b (min (x.last - p).toNat (b.length - 1))

/-- The position is masked for the pair: outside its limits, or by a bias of −∞ (R225, R226). -/
def PairIn.masked (x : PairIn) (p : Nat) : Bool :=
  (p : Int) < x.first || (p : Int) > x.last || x.biasAt p = some negInf

/-- The sum of two FP32 codes, infinities kept; a NaN where the sum has no value. -/
def addCodes (on : Bool) (a b : Nat) : Nat × Bool :=
  match fp32.val? a, fp32.val? b with
  | some x, some y => rnd32 on (x.add y)
  | _, _ =>
    if fp32.isNan a || fp32.isNan b then (qNan, false)
    else if fp32.isInf a && fp32.isInf b then (if a = b then (a, false) else (qNan, false))
    else if fp32.isInf a then (a, false) else (b, false)

/-- The final score of an unmasked position with finite K: FP32 code and flush mark (R230). -/
def PairIn.score (x : PairIn) (q k : List Dy) (p : Nat) : Nat × Bool :=
  let d := rnd32 x.flush (dot q k)
  let s := match fp32.val? d.1 with
    | some v => rnd32 x.flush (v.mul (fp32.val x.scale))
    | none => (d.1, false)
  match x.biasAt p with
  | none => (s.1, d.2 || s.2)
  | some b =>
    let t := addCodes x.flush s.1 b
    (t.1, d.2 || s.2 || t.2)

/-- exp32(rnd32(a − b)) of R230 and R237, `a` and `b` finite. -/
def expDiff (on : Bool) (a b : Nat) : Nat × Bool :=
  let d := rnd32 on ((fp32.val a).add (fp32.val b).neg)
  let e := expFl on d.1
  (e.1, d.2 || e.2)

/-- The larger of two codes that are not NaN. -/
def maxCode (a b : Nat) : Nat := if fkey a ≥ fkey b then a else b

/-- One block visited for one pair (R230, R233): positions in share order. -/
def PairIn.block (x : PairIn) (r : Att) (ps : List PosData) : Att :=
  match x.q with
  | none => { r with bad := true }
  | some q =>
    let seen := ps.filter fun p => !x.masked p.p
    if seen.any (fun p => p.k.isNone || p.v.isNone) then { r with bad := true }
    else
      let ss := seen.map fun p => (x.score q (p.k.getD []) p.p, p.v.getD [])
      let fl := r.flushed || ss.any (·.1.2)
      if ss.any (fun s => fp32.isNan s.1.1 || s.1.1 = fp32.inf) then { r with bad := true, flushed := fl }
      else
        let mn := ss.foldl (fun a s => maxCode a s.1.1) r.m
        if mn = negInf then { r with flushed := fl }
        else
          let a := if r.m = negInf then (0, false) else expDiff x.flush r.m mn
          let es := ss.map fun s => (if s.1.1 = negInf then (0, false) else expDiff x.flush s.1.1 mn, s.2)
          let ad := fp32.val a.1
          let l := rnd32 x.flush (es.foldl (fun t e => t.add (fp32.val e.1.1)) ((fp32.val r.l).mul ad))
          let o := (List.range q.length).map fun k =>
            rnd32 x.flush (es.foldl (fun t e => t.add ((fp32.val e.1.1).mul (nth Dy.zero e.2 k)))
              ((fp32.val (nth 0 r.o k)).mul ad))
          { m := mn, l := l.1, o := o.map (·.1),
            flushed := fl || a.2 || es.any (·.1.2) || l.2 || o.any (·.2),
            bad := r.bad || fp32.isInf l.1 || o.any fun c => fp32.isInf c.1 }

/-- One engine's share for one pair: its blocks in order (R230). -/
def PairIn.share (x : PairIn) (blocks : List (List PosData)) : Att :=
  blocks.foldl (fun r b => if r.bad then r else x.block r b)
    { o := List.replicate (match x.q with | some q => q.length | none => 0) 0, bad := x.q.isNone }

/-- One step of the combination (R237): the values so far and one engine's. -/
def combine2 (on : Bool) (A e : Att) : Att :=
  if A.bad || e.bad then { A with bad := true, flushed := A.flushed || e.flushed }
  else if e.m = negInf then { A with flushed := A.flushed || e.flushed }
  else
    let mn := maxCode A.m e.m
    let a := if A.m = negInf then (0, false) else expDiff on A.m mn
    let b := expDiff on e.m mn
    let l := rnd32 on (((fp32.val A.l).mul (fp32.val a.1)).add ((fp32.val e.l).mul (fp32.val b.1)))
    let o := (List.range e.o.length).map fun k =>
      rnd32 on (((fp32.val (nth 0 A.o k)).mul (fp32.val a.1)).add ((fp32.val (nth 0 e.o k)).mul (fp32.val b.1)))
    { m := mn, l := l.1, o := o.map (·.1),
      flushed := A.flushed || e.flushed || a.2 || b.2 || l.2 || o.any (·.2),
      bad := fp32.isInf l.1 || o.any fun c => fp32.isInf c.1 }

/-- The engines' values combined in ascending engine order (R237). -/
def combineAll (on : Bool) (d : Nat) (es : List Att) : Att :=
  es.foldl (combine2 on) { o := List.replicate d 0 }

/-- A pair's outputs, log-sum-exp and flags (R232 to R234): NONFINITE bit 8, EMPTY bit 9, FLUSHED bit 7 (Table 9.8). -/
structure PairOut where
  o : List Nat
  lse : Nat
  flags : Nat
  deriving DecidableEq, Repr

/-- The quiet NaN of an output format. -/
def nanOut (f : Fmt) (d : Nat) (flags : Nat) : PairOut := ⟨List.replicate d f.nan, qNan, flags⟩

/-- FLUSHED in the flags. -/
def flagFlushed (b : Bool) : Nat := if b then 128 else 0

/-- The outputs of a combined pair. -/
def Att.out (A : Att) (f : Fmt) (d : Nat) (flush emptyNan : Bool) : PairOut :=
  if A.bad then nanOut f d (256 + flagFlushed A.flushed)
  else if A.m = negInf then
    if emptyNan then nanOut f d (512 + flagFlushed A.flushed)
    else ⟨List.replicate d 0, negInf, 512 + flagFlushed A.flushed⟩
  else
    let lv := fp32.val A.l
    let o := A.o.map fun c =>
      let v := fp32.val c
      flushSub f flush (f.roundQ (v.m < 0) v.m.natAbs lv.m.natAbs (v.e - lv.e))
    let s := rnd32 flush ((fp32.val A.m).add (fp32.val (ln32 A.l)))
    ⟨o.map (·.1), s.1, flagFlushed (A.flushed || o.any (·.2) || s.2)⟩

/-- One pair of a SWEEP_MERGE: partials as (outputs, log-sum-exp) codes in list order (R241); a numerator that rounds to infinity gives an
infinite quotient. -/
def mergePair (f : Fmt) (d : Nat) (flush emptyNan : Bool) (ps : List (List Nat × Nat)) : PairOut :=
  if ps.any (fun p => (fp32.mag p.2 ≥ fp32.inf && p.2 ≠ negInf) || p.1.any fun c => fp32.mag c ≥ fp32.inf) then
    nanOut f d 256
  else
    let used := ps.filter fun p => p.2 ≠ negInf
    if used.isEmpty then
      if emptyNan then nanOut f d 512 else ⟨List.replicate d 0, negInf, 512⟩
    else
      let M := used.foldl (fun a p => maxCode a p.2) negInf
      let ws := used.map fun p => (expDiff flush p.2 M, p.1)
      let W := rnd32 flush (ws.foldl (fun t w => t.add (fp32.val w.1.1)) Dy.zero)
      let wv := fp32.val W.1
      let o := (List.range d).map fun k =>
        let n := rnd32 flush (ws.foldl (fun t w => t.add ((fp32.val w.1.1).mul (fp32.val (nth 0 w.2 k)))) Dy.zero)
        let nv := fp32.val n.1
        if fp32.isInf n.1 then ((if fp32.neg n.1 then f.sign else 0) + f.inf, n.2)
        else
          let q := flushSub f flush (f.roundQ (nv.m < 0) nv.m.natAbs wv.m.natAbs (nv.e - wv.e))
          (q.1, n.2 || q.2)
      let s := rnd32 flush ((fp32.val M).add (fp32.val (ln32 W.1)))
      ⟨o.map (·.1), s.1, flagFlushed (ws.any (·.1.2) || W.2 || o.any (·.2) || s.2)⟩

end Sys2Proof.Machine
end

