-- ==== Sys2Proof/Machine/Dests.lean ====
section
/-! DEFINITION. What an item's descriptor and legs name as destinations (Tables 7.3, 7.7, 9.5, 9.6, 11.2 and 11.3), which the contents
of a failed item's destinations need (R25). -/
namespace Sys2Proof.Machine

/-- Item kinds of Table 9.5. -/
def kindNop : Nat := 0x01
def kindFb : Nat := 0x02
def kindSweep : Nat := 0x10
def kindMerge : Nat := 0x11
def kindSession : Nat := 0x12
def kindTraverse : Nat := 0x20
def kindSave : Nat := 0x30
def kindLoad : Nat := 0x31
def kindSite : Nat := 0x40
def kindCore : Nat := 0x41

/-- Stack that a sweep item names (Tables 7.3, 7.7, R248). -/
def swpStack (kind desc : Nat) : Nat :=
  if kind = kindSweep then fld desc 179 3 else if kind = kindMerge then fld desc 441 3 else fld desc 509 3

/-- Query heads and rows of a SWEEP or SWEEP_MERGE item. -/
def swpG (kind desc : Nat) : Nat := if kind = kindSweep then fld desc 165 5 else fld desc 427 5
def swpT (kind desc : Nat) : Nat := (if kind = kindSweep then fld desc 163 2 else fld desc 425 2) + 1

/-- Code D of a SWEEP or SWEEP_MERGE item. -/
def swpD (kind desc : Nat) : Nat := if kind = kindSweep then fld desc 161 2 else fld desc 423 2

/-- Bytes of one partial of a SWEEP_MERGE (R239). -/
def partialBytes (desc : Nat) : Nat :=
  let n := 4 * swpG kindMerge desc * swpT kindMerge desc * (headDim (swpD kindMerge desc) + 1)
  (n + 63) / 64 * 64

/-- Fields of a checkpoint descriptor (Table 14.7). -/
def ckptVa (d : Nat) : Nat := fld d 480 32 * 256
def ckptFar (d : Nat) : Nat := fld d 451 29 * 4096
def ckptLines (d : Nat) : Nat := fld d 428 23 + 1
def ckptId (d : Nat) : Nat := fld d 396 32
def ckptPort (d : Nat) : Nat := fld d 395 1
def ckptSeal (d : Nat) : Bool := bitOf d 394

/-- FB_REQUEST body (Table 9.6). -/
def fbAddr (d : Nat) : Nat := fld d 478 34 * 64
def fbReply (d : Nat) : Nat := fld d 444 34 * 64
def fbLen (d : Nat) : Nat := fld d 427 17
def fbMax (d : Nat) : Nat := fld d 410 17

/-- A leg (Table 11.2). -/
structure Leg where
  op : Nat
  wait : Nat
  port : Nat
  outPort : Nat
  vc : Nat
  outVc : Nat
  stream : Nat
  streamOut : Nat
  fmt : Nat
  ofmt : Nat
  mode : Nat
  convert : Bool
  copy : Bool
  ancSrc : Nat
  anchor : Nat
  addr : Nat
  dst : Nat
  count : Nat
  deriving DecidableEq, Repr

/-- The leg that 256 bits spell; addresses in bytes. -/
def Leg.ofNat (v : Nat) : Leg :=
  { op := fld v 248 8, wait := fld v 237 11, port := fld v 232 5, outPort := fld v 227 5, vc := fld v 226 1,
    outVc := fld v 225 1, stream := fld v 210 15, streamOut := fld v 195 15, fmt := fld v 191 4, ofmt := fld v 189 2,
    mode := fld v 187 2, convert := bitOf v 186, copy := bitOf v 185, ancSrc := fld v 181 4, anchor := fld v 165 16,
    addr := fld v 131 34 * 64, dst := fld v 97 34 * 64, count := fld v 65 32 }

/-- Fields that the leg's OP uses, by lowest bit (Table 11.3). -/
def Leg.uses (l : Leg) : List Nat :=
  let out := [227, 225, 195]
  match l.op with
  | 1 => out ++ [131, 65, 186] ++ (if l.convert then [191, 181, 165] else [])
  | 2 => [232, 226, 210, 97, 65]
  | 3 => [232, 226, 210, 65, 185] ++ out ++ (if l.copy then [97] else [])
  | 4 => [232, 226, 210, 65, 187, 181, 165, 186] ++ (if l.convert then [191, 131] else []) ++
      (match l.mode with | 0 => out | 1 => [97, 189] | _ => [97])
  | 5 => out ++ [191, 131, 65]
  | 6 => [232, 226, 210, 187, 181, 186] ++ (if l.convert then [191, 131, 65] else []) ++
      (if l.mode = 1 then [] else out)
  | 7 => [232, 210, 65]
  | 8 => [227, 195, 65]
  | 9 => out ++ [131, 65]
  | _ => [232, 226, 210, 65, 187] ++ (match l.mode with | 1 => [97] | 2 => out | _ => [])

/-- The range of addresses that a leg writes. -/
def Leg.dests (l : Leg) : List (Nat × Nat) :=
  let n := match l.op with
    | 2 | 3 => l.count
    | 4 => if l.mode = 1 then l.count * ((outFmt l.ofmt).width / 8) else 16 + 24 * l.count
    | _ => 272 * l.count
  if l.uses.contains 97 then [(l.dst, n)] else []

/-- The destinations that an item names, with the bits of its legs where they have been read. A tile's or a core's destinations are not
the item's to name. -/
def Item.dests (i : Item) (legs : List Nat) : List (Nat × Nat) :=
  let d := i.desc
  let n := swpT i.kind d * swpG i.kind d
  let dim := headDim (swpD i.kind d)
  if i.kind = kindSweep then [(fld d 412 34 * 64, n * dim * (if bitOf d 153 then 2 else 4) + (if bitOf d 152 then 4 * n else 0))]
  else if i.kind = kindMerge then
    [(fld d 444 34 * 64, n * dim * (if bitOf d 422 then 2 else 4) + (if bitOf d 421 then 4 * n else 0))]
  else if i.kind = kindTraverse then legs.flatMap fun v => (Leg.ofNat v).dests
  else if i.kind = kindFb then [(fbReply d, fbMax d)]
  else if i.kind = kindLoad then [(fld d 480 32 * 256, 256 * (fld d 428 23 + 1))]
  else []

end Sys2Proof.Machine
end

