-- ==== Sys2Proof/Machine/Items.lean ====
section
/-! DEFINITION. How an item is answered: the completion record (R321 to R326), the retained counters (R330), the retirement
of an epoch (R64) and ring closure (R329). -/
namespace Sys2Proof.Machine

/-- A ring by number. -/
def Mach.ring? (m : Mach) (r : Nat) : Option Ring := sget m.rng.rings r

/-- A ring changed. -/
def Mach.setRing (m : Mach) (r : Nat) (x : Ring) : Mach := m.setRng { m.rng with rings := sput m.rng.rings r x }

/-- DEPTH of a ring. -/
def Ring.depth (x : Ring) : Nat := 2 ^ x.depthLog2

/-- An accepted item without its record, by key. -/
def Mach.item? (m : Mach) (k : Nat) : Option Item := m.rng.items.find? fun i => i.key = k

/-- An item changed in place. -/
def Mach.setItem (m : Mach) (i : Item) : Mach :=
  m.setRng { m.rng with items := m.rng.items.map fun j => if j.key = i.key then i else j }

/-- Unanswered items of a ring. -/
def Mach.itemsOf (m : Mach) (r : Nat) : List Item := m.rng.items.filter fun i => i.ring = r

/-- The 32 bytes of a completion record (Table 9.7). -/
def recordBytes (user seq ring epoch result flags kind : Nat) (st : Status) (detail : UnitRef) (depth : Nat) : Bytes :=
  leB 32 (user % 2 ^ 64 * 2 ^ 192 + seq % 2 ^ 48 * 2 ^ 144 + ring * 2 ^ 128 + epoch * 2 ^ 96 + result % 2 ^ 32 * 2 ^ 64 +
    flags % 2 ^ 16 * 2 ^ 48 + kind * 2 ^ 40 + st.code * 2 ^ 32 + detail.code * 2 ^ 8 +
    (if seq / depth % 2 = 0 then 1 else 0))

/-- ANSWERED_LOW advances past every answered sequence (R330); `fuel` bounds the sequences taken. -/
def Ring.advance : Nat → Ring → Ring
  | 0, x => x
  | n + 1, x =>
    if bitOf x.ans 0 then Ring.advance n { x with ansLow := x.ansLow + 1, ans := x.ans / 2, ok := x.ok / 2 } else x

/-- Sequence `s` of a ring is answered (R330), with its status class counted (RING_COUNTERS) and remembered for
SKIP_ON_FAIL (R314) while the sequence above it may be unanswered. The maps hold every answered sequence above ANSWERED_LOW, and readers
see their low 64 bits (DESIGN CHOICE, log 96). -/
def Ring.markAnswered (x : Ring) (s : Nat) (st : Status) : Ring :=
  let i := s - x.ansLow
  let x := { x with
    ans := putBit x.ans i true
    ok := putBit x.ok i st.isDone
    failed := if st.isDone then x.failed.filter (· ≠ s) else s :: x.failed.filter (· ≠ s)
    cDone := if st.isDone then (x.cDone + 1) % 2 ^ 64 else x.cDone
    cFail := if st.isFail then (x.cFail + 1) % 2 ^ 64 else x.cFail }
  let x := x.advance (x.taken + 1 - x.ansLow)
  { x with failed := x.failed.filter fun f => f + 1 ≥ x.ansLow }

/-- The status a record carries: DONE_FLAGGED exactly when FLAGS is non-zero (R323). -/
def flagStatus (st : Status) (flags : Nat) : Status :=
  if st.isDone then (if flags = 0 then .done else .doneFlagged) else st

/-- Fault class of a cause that keeps a record from being written (R326, Table 21.1). -/
def recordFaultClass (f : Fail) : Nat :=
  match f.st with
  | .failMemLost => 0x03
  | .failUnit => 0x04
  | .failKey => 0x05
  | .failThermal => 0x08
  | .failDie => 0x09
  | _ => 0x03

/-- CAUSE that goes with it (Table 21.7): 0x01 where a withdrawn unit or floor lost the record (DESIGN CHOICE, log 95). -/
def recordFaultCause (f : Fail) : Nat :=
  match f.st with
  | .failKey => 0x0A
  | .failThermal => 0x07
  | _ => 0x01

/-- The record of sequence `seq` is written (R322), its item counted as answered, a notice sent when asked; a record that cannot be
written closes the ring (R326). -/
def Mach.answerNow (m : Mach) (r seq kind user epoch : Nat) (notify : Bool) (st : Status) (unit : UnitRef := {})
    (flags : Nat := 0) (result : Nat := 0) : Mach :=
  match m.ring? r with
  | none => m
  | some x =>
    let st := flagStatus st flags
    let flags := if st.isDone then flags else 0
    let detail := if st.isDone then {} else unit
    let w := m.recordWrite epoch (ringFloor r) x.ctx (x.cplAddr + 32 * (seq % x.depth))
      (recordBytes user seq r (if st.isReject then 0 else epoch) result flags kind st detail x.depth)
    match w.2 with
    | none =>
      let m := w.1.setRing r (x.markAnswered seq st)
      if notify then m.notice x else m
    | some f =>
      let x := x.markAnswered seq st
      let m := w.1.setRing r { x with closed := true, lost := some (match x.lost with | some l => min l seq | none => seq) }
      m.ledger (recordFaultClass f) (recordFaultCause f) 0 ⟨0x0C, r⟩ st.code 0 x.ctx

/-- A record is written with RELEASE (R322): it waits while earlier writes of its port and context are not complete (R129). -/
def Mach.answer (m : Mach) (r seq kind user epoch : Nat) (notify : Bool) (st : Status) (unit : UnitRef := {})
    (flags : Nat := 0) (result : Nat := 0) : Mach :=
  match m.ring? r with
  | none => m
  | some x =>
    if m.writesOpen (.port (ringFloor r) 47 0) x.ctx then
      m.setRng { m.rng with recWait := m.rng.recWait ++ [⟨r, seq, kind, user, epoch, notify, st, unit, flags, result⟩] }
    else m.answerNow r seq kind user epoch notify st unit flags result

/-- Records that waited are written as they may (R129). -/
def Mach.recordsGo (m : Mach) : Mach :=
  let l := m.rng.recWait
  if l.isEmpty then m
  else l.foldl (fun m w => m.answer w.ring w.seq w.kind w.user w.epoch w.notify w.st w.unit w.flags w.result)
    (m.setRng { m.rng with recWait := [] })

/-- The older epoch retires when no unanswered item carries it, and its banks are freed (R64, R631). -/
def Mach.retireEpoch (m : Mach) : Mach :=
  match m.fb.old with
  | none => m
  | some (e, _) =>
    if m.rng.items.any (fun i => i.epoch = e) then m
    else
      let m := m.setCad { m.cad with old := none }
      (m.setFb { m.fb with old := none }).event evEpoch 0x02 0 {} 0 (e * 2 ^ 32)

/-- The value of a LIVE or STAGED entry that a started item runs under (R35, R36, R61): the value before a direct write that came
after its start, else its epoch's bank. -/
def Mach.cfgItem (m : Mach) (i : Item) (k : Nat) : Nat :=
  match m.fb.late.find? fun l => l.1 = k && l.2.2.contains i.key with
  | some l => leN l.2.1
  | none => m.cfgE i.epoch k

/-! What an item's end releases. -/

/-- OBJECT of a traverse claim's holding (Table 21.4). -/
def Claim.object (c : Claim) : Nat := c.port * 2 ^ 40 + (if c.send then 2 ^ 39 else 0) + c.tag * 2 ^ 24

/-- The floor of a link port. -/
def portFloor (p : Nat) : Nat := if p < 12 then 0 else 1

/-- A traverse item ends: FAIL notices for a fail-class status (R397), its claims and their holdings released, its counts. -/
def Mach.dropTraverse (m : Mach) (k ctx : Nat) (st : Status) : Mach :=
  match sget m.trv.live k with
  | none => m
  | some t =>
    let n := match t.failFrom with
      | some (o, c, h) => (o, c, h + 1)
      | none => (m.cfg kStationAddr, st.code, 0)
    let m := if st.isFail && n.2.2 < 256 then
        t.claims.foldl (fun m c =>
          if (m.portAt c.port).usable then
            (m.sendMsg c.port msgTraverse [3, c.tag, 0, n.1, n.2.1, n.2.2]).bump kTravFailNotices
          else m) m
      else m
    let m := m.setTrv { m.trv with live := sdel m.trv.live k }
    let m := m.unhold fun h => h.kind = 2 && h.ctx = ctx && t.claims.any fun c => c.object = h.object
    (if st.isFail then m.bump kTravFails else m).bump kTravItems

/-! Sessions. -/

/-- A session holds an engine of its stack. -/
def SwpSess.holds (x : SwpSess) (stack e : Nat) : Bool :=
  x.stack = stack && x.first ≤ e && e < x.first + x.count && !x.freed.contains e

/-- The engines of a set. -/
def engines (first count : Nat) : List Nat := (List.range count).map (first + ·)

/-- OBJECT of a session's holding (Table 21.4). -/
def SwpSess.object (x : SwpSess) : Nat := x.stack * 2 ^ 45 + (2 ^ x.count - 1) * 2 ^ x.first

/-- The sessions changed; those without an engine left end, with their holdings (R252). -/
def Mach.setSessions (m : Mach) (l : List SwpSess) : Mach :=
  let gone := l.filter fun x => x.freed.length ≥ x.count
  let m := m.setSwp { m.swp with sess := l.filter fun x => x.freed.length < x.count }
  gone.foldl (fun m x => m.unholdFirst fun h => h.kind = 3 && h.ctx = x.ctx && h.object = x.object) m

/-- An engine of a session is released. -/
def SwpSess.free (x : SwpSess) (e : Nat) : SwpSess := { x with freed := e :: x.freed.filter (· ≠ e) }

/-- The engines of a run that ends are at an item boundary: those of expiring sessions are released (R251). -/
def Mach.runOver (m : Mach) (k : Nat) : Mach :=
  match sget m.swp.runs k with
  | none => m
  | some r =>
    let m := m.setSwp { m.swp with runs := sdel m.swp.runs k }
    m.setSessions (m.swp.sess.map fun x =>
      if x.expiring then (engines r.first r.count).foldl (fun x e => if x.holds r.stack e then x.free e else x) x else x)

/-- A sweep item or session open leaves the dispatch queues, the engines and, where the open did not end well, the sessions. -/
def Mach.dropSweep (m : Mach) (k : Nat) (st : Status) : Mach :=
  let gone := if st.isDone then [] else m.swp.sess.filter fun x => x.opening = some k
  let m := m.setSwp { m.swp with
    queue := smap (fun q => q.filter (· ≠ k)) m.swp.queue
    sess := m.swp.sess.filter fun x => !gone.contains x }
  (gone.foldl (fun m x => m.unhold fun h => h.kind = 3 && h.ctx = x.ctx && h.object = x.object) m).runOver k

/-- A sweep item that ends is counted at its stack (SWEEP_ITEMS, Table 7.14). -/
def Mach.countItem (m : Mach) (i : Item) : Mach :=
  if i.kind = kindSweep || i.kind = kindMerge || i.kind = kindSession then m.bump (kSweepItems + 256 * swpStack i.kind i.desc) else m

/-- A CORE_WORK item leaves its core: its waiting work entry and its outstanding mark; a checkpoint item leaves its port. -/
def Mach.dropHanded (m : Mach) (k : Nat) : Mach :=
  let m := match indexOf? (fun (x : Core) => x.work.any fun w => w.item = k) m.core.dev with
    | none => m
    | some c =>
      let x := m.coreAt c
      let y := { x with work := x.work.filter fun w => w.item ≠ k }
      (m.setCoreAt c y).unholdFirst fun h => h.kind = 10 && h.party.kind = 2 && h.party.num = c
  m.setHp { m.hp with dev := m.hp.dev.map fun x => { x with moves := sdel x.moves k } }

/-- Pieces of a failed item's destination take free values, those too that no access reaches now (R25). -/
def Mach.spoilPieces (m : Mach) (epoch ctx fl : Nat) : List (Nat × Nat) → Bytes → Mach
  | [], _ => m
  | p :: ps, data =>
    let b := data.take p.2
    let m := match m.resolve fl ctx p.1 p.2 .wr with
      | .ok (q :: _) =>
        let r := m.writePiece epoch ctx fl q b
        if r.2.isNone then r.1
        else
          let copies : List Place := if q.seg.mirror then [0, 1].map fun f => q.seg.place (q.va - q.seg.va) f else [q.place]
          copies.foldl (fun (m : Mach) (pl : Place) => m.wrLine ctx (pl.pa (q.va % 256)) b) m
      | _ => m
    m.spoilPieces epoch ctx fl ps (data.drop p.2)

/-- The contents of a failed item's destinations are unspecified (R25): free values in every byte of them that the item could write;
poison stays (log 11). -/
def Mach.spoil (m : Mach) (i : Item) : Mach :=
  let legs := match sget m.trv.live i.key with | some t => t.legs | none => []
  let w := (i.dests legs).foldl (fun w d =>
    let b := (List.range d.2).map fun j => Config.lostByte (2 ^ 150 + (i.key * 2 ^ 32 + m.fb.evseq) * 2 ^ 42 + d.1 + j)
    w.spoilPieces i.epoch i.ctx (ringFloor i.ring) (pieces d.1 b.length) b) m
  (w.setMem { w.mem with poison := m.mem.poison }).setStk { w.stk with poison := m.stk.poison }

/-- The cause that the record of an item carries (R11, R257): a read that a run could not make comes before a narrower cause of its
end. -/
def Mach.endCause (m : Mach) (k : Nat) (f : Fail) : Fail :=
  match sget m.swp.runs k with
  | some r => match r.fail with
    | some g => if f.st.isFail then f.worse g else f
    | none => f
  | none => f

/-- An accepted item ends: its one completion record, then whatever its end releases (R64, R659). The RESULT of a traverse that fails
is the number of its legs that finished (R375). -/
def Mach.finish (m : Mach) (k : Nat) (st : Status) (unit : UnitRef := {}) (flags : Nat := 0) (result : Nat := 0) : Mach :=
  match m.item? k with
  | none => m
  | some i =>
    let f := m.endCause k ⟨st, unit⟩
    let st := f.st
    let unit := f.unit
    let m := m.setRng { m.rng with items := m.rng.items.filter fun j => j.key ≠ k }
    let m := m.setFb { m.fb with
      late := (m.fb.late.map fun l => (l.1, l.2.1, l.2.2.filter (· ≠ k))).filter fun l => !l.2.2.isEmpty }
    let legs := match sget m.trv.live k with | some t => (svals t.runs).countP (·.done) | none => 0
    let result := if st.isFail && i.kind = kindTraverse then legs else result
    let m := if st.isFail then m.spoil i else m
    let m := (((m.dropTraverse k i.ctx st).dropSweep k st).dropHanded k).countItem i
    (m.answer i.ring i.seq i.kind i.user i.epoch i.notify st unit flags result).retireEpoch

/-- Several items end with one cause. -/
def Mach.finishAll (m : Mach) (ks : List Nat) (st : Status) (unit : UnitRef := {}) : Mach :=
  ks.foldl (fun m k => m.finish k st unit) m

/-- Insertion of an item by sequence. -/
def insertItem (i : Item) : List Item → List Item
  | [] => [i]
  | j :: r => if i.key ≤ j.key then i :: j :: r else j :: insertItem i r

/-- Items by ascending ring and sequence. -/
def sortItems (l : List Item) : List Item := l.foldr insertItem []

/-- Closing a ring with a status: every unfinished item ends with it, in ascending sequence (R329). -/
def Mach.closeRing (m : Mach) (r : Nat) (st : Status) (unit : UnitRef := {}) : Mach :=
  match m.ring? r with
  | none => m
  | some x =>
    let m := m.setRing r { x with closed := true }
    m.finishAll ((sortItems (m.itemsOf r)).map Item.key) st unit

/-- An item has started (R704). -/
def Mach.startItem (m : Mach) (k : Nat) : Mach :=
  match m.item? k with
  | none => m
  | some i => m.setItem { i with started := true }

/-- Every earlier item of the ring has its record (R313). -/
def Mach.orderReady (m : Mach) (i : Item) : Bool :=
  !((m.itemsOf i.ring).any fun j => j.seq < i.seq) && !m.rng.recWait.any fun w => w.ring = i.ring && w.seq < i.seq

/-- The predecessor of an item ended with a fail-class or reject-class code (R314). -/
def Mach.predecessorFailed (m : Mach) (i : Item) : Bool :=
  match m.ring? i.ring with
  | none => false
  | some x => i.seq > x.start && x.failed.contains (i.seq - 1)

/-- Bytes `[i, i + n)` of a descriptor's bits. -/
def Item.bits (i : Item) (lo w : Nat) : Nat := fld i.desc lo w

end Sys2Proof.Machine
end

