-- ==== Sys2Proof/Machine/Cadastre.lean ====
section
/-! DEFINITION. The cadastre: physical units and their states (R631, R632), the failure, move and withdrawal of a unit in
service (R635 to R638, R660), and the switch to a new epoch (R60, R63 to R65). -/
namespace Sys2Proof.Machine

/-- The 32 bytes of a survey log record (Table 19.6). -/
def LogRec.bytes (r : LogRec) : Bytes :=
  leB 32 (0x5C + r.time / 2 ^ 32 % 2 ^ 32 * 2 ^ 8 + r.path % 16 * 2 ^ 60 + r.status * 2 ^ 64 + r.attempt % 256 * 2 ^ 72 +
    r.ty * 2 ^ 80 + r.step * 2 ^ 88 + r.phys % 256 * 2 ^ 96 + r.unit.code * 2 ^ 104 + r.survey % 2 ^ 32 * 2 ^ 128 +
    r.time % 2 ^ 32 * 2 ^ 160 + r.data % 2 ^ 64 * 2 ^ 192)

/-- The survey log once it has room for a record of survey `n` (R630): a full region of 2 MiB, 65,536 records, loses the oldest whole
survey's, but never those of survey `n` or of the one before it. -/
def roomInLog (n : Nat) (l : List LogRec) : List LogRec :=
  if l.length < 65536 then l
  else match l.getLast? with
  | some r => if r.survey + 1 < n then l.filter fun x => x.survey ≠ r.survey else l
  | none => l

/-- The survey log with one record more; a region that two surveys fill takes none (DESIGN CHOICE, log 107). -/
def logPut (l : List LogRec) (r : LogRec) : List LogRec :=
  let l := roomInLog r.survey l
  if l.length < 65536 then r :: l else l

/-- A survey log record is written (R630, Table 19.6) and both consoles print it (R551). -/
def Mach.surveyLog (m : Mach) (ty : Nat) (unit : UnitRef := {}) (data : Nat := 0) (st : Nat := 0) (path : Nat := 0)
    (phys : Nat := 0xFF) (attempt : Nat := 1) : Mach :=
  let step := if 1 ≤ m.cad.step && m.cad.step ≤ 21 then m.cad.step else 0
  let r : LogRec := { survey := m.count kSurveyNumber, time := m.clk.us, unit, phys, step, ty, attempt, status := st, path, data }
  (m.setCad { m.cad with log := logPut m.cad.log r }).setFb { m.fb with lines := r.bytes :: m.fb.lines }

/-- ATTEMPT of the next record of a type for a unit in the step under way (Table 19.6): one more than this survey's records that meet
`p`. -/
def Mach.nextAttempt (m : Mach) (ty : Nat) (unit : UnitRef) (p : LogRec → Bool := fun _ => true) : Nat :=
  let step := if 1 ≤ m.cad.step && m.cad.step ≤ 21 then m.cad.step else 0
  1 + m.cad.log.countP fun r => r.survey = m.count kSurveyNumber && r.step = step && r.ty = ty && r.unit = unit && p r

/-! Units of Table 19.8. -/

/-- Logical units of one parent, and its spares, for a kind of Table 9.9 that has spares. -/
def unitsOf (kind : Nat) : Nat :=
  match kind with | 3 => 32 | 4 => 64 | 5 => 16 | 7 => 16 | 9 => 16 | _ => 1
def sparesOf (kind : Nat) : Nat := match kind with | 3 => 2 | 4 => 4 | 5 => 1 | 7 => 1 | 9 => 2 | _ => 0
/-- Parents of a kind: stacks, floors or sites. -/
def parentsOf (kind : Nat) : Nat := match kind with | 3 => 6 | 4 => 2 | 5 => 6 | 7 => 4 | 9 => 2 | _ => 0
/-- The kinds that have spares, in the order of Table 19.8. -/
def cadKinds : List Nat := [3, 4, 5, 7, 9]

/-- Parent and number within it of a logical unit. -/
def UnitRef.parent (u : UnitRef) : Nat := u.num / unitsOf u.kind
def UnitRef.idx (u : UnitRef) : Nat := u.num % unitsOf u.kind

/-- The floor a logical unit belongs to. -/
def UnitRef.floor (u : UnitRef) : Nat :=
  match u.kind with
  | 1 => u.num % 2 | 2 => u.num / 3 | 3 => u.num / 96 | 4 => u.num / 64 | 5 => u.num / 48 | 6 => u.num / 2 | 7 => u.num / 32
  | 8 => u.num / 12 | 9 => u.num / 16 | 10 => u.num % 2 | 12 => ringFloor u.num | _ => 0

/-- A logical unit of Table 19.8. -/
def UnitRef.isCad (u : UnitRef) : Bool := cadKinds.contains u.kind && u.num < unitsOf u.kind * parentsOf u.kind

/-- The logical units of a kind, and those of a floor. -/
def logicals (kind : Nat) : List UnitRef := (List.range (unitsOf kind * parentsOf kind)).map fun n => ⟨kind, n⟩
def floorUnits (f : Nat) : List UnitRef := (cadKinds.flatMap logicals).filter fun u => u.floor = f

/-- The number of a physical unit among the states of R632. -/
def physKey (kind parent idx : Nat) : Nat := kind * 65536 + parent * 256 + idx

/-- State of a physical unit (R632): 0 in service, 1 free spare, 2 failed, 3 retired before failure, 4 copy target. -/
def Mach.physState (m : Mach) (kind parent idx : Nat) : Nat :=
  sgetD (if idx < unitsOf kind then 0 else 1) m.cad.units (physKey kind parent idx)

/-- A physical unit's state put to `x`. -/
def Mach.setPhys (m : Mach) (kind parent idx x : Nat) : Mach :=
  m.setCad { m.cad with units := sput m.cad.units (physKey kind parent idx) x }

/-- The physical index behind a logical unit, 0xFF where it is withdrawn (Table 19.8). -/
def CadBank.physOf (b : CadBank) (u : UnitRef) : Nat := if shas b.gone u.code then 0xFF else sgetD u.idx b.phys u.code

/-- The lowest free spare of a parent (R633): a retested unit without a logical number counts among them. -/
def Mach.freeSpare (m : Mach) (kind parent : Nat) : Option Nat :=
  (List.range (unitsOf kind + sparesOf kind)).find? fun i => m.physState kind parent i = 1

/-- Free spares of a parent. -/
def Mach.sparesLeft (m : Mach) (kind parent : Nat) : Nat :=
  ((List.range (unitsOf kind + sparesOf kind)).filter fun i => m.physState kind parent i = 1).length

/-- A bank with a unit behind another physical index. -/
def CadBank.place (b : CadBank) (u : UnitRef) (i : Nat) : CadBank :=
  { b with phys := if i = u.idx then sdel b.phys u.code else sput b.phys u.code i, gone := sdel b.gone u.code }

/-- A bank with a unit withdrawn. -/
def CadBank.drop (b : CadBank) (u : UnitRef) : CadBank := { b with gone := sput b.gone u.code () }

/-- Every live epoch's bank changed (R636). -/
def Mach.eachBank (m : Mach) (f : CadBank → CadBank) : Mach :=
  m.setCad { m.cad with cur := f m.cad.cur, old := m.cad.old.map fun x => (x.1, f x.2) }

/-- A physical unit leaves service in state `st` (2 failed, 3 retired) and enters the standing table (R632, R673). -/
def Mach.endPhys (m : Mach) (u : UnitRef) (i st : Nat) : Mach :=
  (m.setPhys u.kind u.parent i st).addStanding ⟨4, u.kind, u.parent, i, 0⟩

/-- A logical unit is withdrawn at once (R635), with its REMAP event. -/
def Mach.withdraw (m : Mach) (u : UnitRef) (st : Nat) : Mach :=
  let i := m.cad.cur.physOf u
  let m := if i = 0xFF then m else m.endPhys u i st
  (m.eachBank fun b => b.drop u).event evRemap 0x02 3 u 0 (i * 2 ^ 56)

/-- The SPARE_TAKEN event (Table 9.15) with its reason from the state the old unit takes: 1 after failure, 2 retired before failure;
3 in advance at survey. -/
def Mach.spareTaken (m : Mach) (u : UnitRef) (old new st : Nat) : Mach :=
  m.event evRemap 0x01 1 u 0 (old * 2 ^ 56 + new * 2 ^ 48 + (match st with | 2 => 1 | 3 => 2 | _ => 3) * 2 ^ 40)

/-- A kind whose move copies contents: slices and channels (Table 19.9). -/
def UnitRef.copies (u : UnitRef) : Bool := u.kind = 3 || u.kind = 4

/-- A move that copies contents runs on a floor (R637). -/
def Mach.moving (m : Mach) (f : Nat) : Bool := m.cad.moves.any fun x => x.unit.copies && x.unit.floor = f

/-- A spare may be consumed in service (R635). -/
def Mach.spareFor (m : Mach) (u : UnitRef) : Option Nat :=
  if m.cfg kCadSparesInService = 1 then m.freeSpare u.kind u.parent else none

/-- A MARGIN event (R654): the floor, the domain or unit kind, and the values before and after. -/
def Mach.marginEvent (m : Mach) (code sev : Nat) (unit : UnitRef) (floor what old new : Nat) : Mach :=
  m.event evMargin code sev unit 0 (floor * 2 ^ 56 + what * 2 ^ 48 + old % 65536 * 2 ^ 32 + new % 65536 * 2 ^ 16)

/-- The MARGIN RETIRED event: the values before and after are the states of R632 of the unit retired, in service and retired before
failure (R651, R654); physical numbers stay out of it (R5). -/
def Mach.retiredEvent (m : Mach) (u : UnitRef) (floor : Nat) : Mach := m.marginEvent 0x02 1 u floor u.kind 0 3

/-- Level runs that meet `p` end with RUN_ABANDONED (R654, R656). A run is named by its unit and lane. -/
def Mach.abandonRuns (m : Mach) (p : Nat → Bool) : Mach :=
  let gone := m.age.runs.filter p
  let m := m.setAge { m.age with runs := m.age.runs.filter fun r => !p r }
  gone.foldl (fun m r =>
    let u : UnitRef := ⟨r / 128 / 65536, r / 128 % 65536⟩
    m.marginEvent 0x06 0 u u.floor u.kind 0 0) m

/-- Every level run ends for a loss of the reference, a closure or a sleep state, and is retried at the next re-plan (Table 20.5). -/
def Mach.endRuns (m : Mach) : Mach :=
  let l := m.age.runs
  let m := m.abandonRuns fun _ => true
  m.setAge { m.age with again := m.age.again ++ l.filter fun r => !m.age.again.contains r }

/-- The name of a canary's level run (R645): a unit and its spare's number. -/
def runKey (u : UnitRef) (lane : Nat) : Nat := u.code * 128 + lane

/-- A spare that is taken ends its level run (Table 20.5) and its pattern (R192). -/
def Mach.spareRuns (m : Mach) (kind parent i : Nat) : Mach :=
  let u : UnitRef := if kind = 3 then ⟨2, parent⟩ else if kind = 7 then ⟨6, parent⟩ else ⟨0, 0⟩
  let m := if kind = 3 then m.setStk { m.stk with prbs := sdel m.stk.prbs (parent * 2 + i - 32) } else m
  if u.kind = 0 then m else m.abandonRuns (· = runKey u i)

/-- The contents of a slice or channel that can no longer be read: each line of the slice is poisoned (Table 19.9 step 2), and the
bytes of the channel have no value any more. -/
def Mach.loseContents (m : Mach) (u : UnitRef) : Mach :=
  if u.kind = 4 then
    (List.range (unitLines 0)).foldl (fun m l =>
      m.addPoison (Place.pa ⟨u.num / 64, 0, 0, u.num % 64, l⟩ 0)) m
  else
    let here (pa : Nat) : Bool := paMedium pa = 1 && (Place.ofPa pa).ref = u
    (m.setMem { m.mem with cells := m.mem.cells.filter fun c => !here c.1 }).setStk
      { m.stk with
        poison := m.stk.poison.filter fun s => !here (64 * s.1)
        tag := m.stk.tag.filter fun s => !here (64 * s.1)
        errs := m.stk.errs.filter fun s => !here (64 * s.1)
        recrypt := m.stk.recrypt.filter fun s => !here (4096 * s.1)
        fresh := smod 0 m.stk.fresh u.num (· + 1) }

/-! What the channel controllers hold of rows and pages (R168, R170, R173). -/

/-- The number of a bank of channel `c`, and of a row of it, from the die, bank and row of a standing entry (R673). -/
def standBank (c x : Nat) : Nat := c * 64 + x / 4 % 16 * 4 + x % 4
def standRow (c x : Nat) : Nat := c * 2 ^ 32 + x / 4 % 16 * 2 ^ 20 + x % 4 * 2 ^ 16 + x / 64

/-- One entry of the standing table enters channel `c` (R173): a spare row in use, a retired page, which gets the next reserve page
(DESIGN CHOICE, log 74), or a lost page. -/
def Mach.loadStanding (m : Mach) (c : Nat) (x : Standing) : Mach :=
  let s := m.stackAt (c / 32)
  match x.kind with
  | 1 =>
    let k := standRow c x.rowOrPage
    m.setStk { m.stk with
      rows := sput m.stk.rows k (if shas m.stk.rows k then .spared2 else .spared1)
      spareRows := smod 0 m.stk.spareRows (standBank c x.rowOrPage) (· + 1) }
  | 2 =>
    let n := s.retired.countP fun r => r.chan = c % 32 && r.state = 1
    m.setStack (c / 32) { s with retired := s.retired ++ [⟨c % 32, 1, n, x.rowOrPage⟩] }
  | 3 => m.setStack (c / 32) { s with retired := s.retired ++ [⟨c % 32, 2, 0, x.rowOrPage⟩] }
  | _ => m

/-- A channel's rows, pages and refresh counts are those of the physical channel that now stands behind it: the standing table names
rows and pages by physical channel (DEDUCED, log 74). -/
def Mach.reloadChan (m : Mach) (c : Nat) : Mach :=
  let row {α : Type} (s : SMap α) : SMap α := s.filter fun e => e.1 / 2 ^ 32 ≠ c
  let bank {α : Type} (s : SMap α) : SMap α := s.filter fun e => e.1 / 64 ≠ c
  let x := m.stackAt (c / 32)
  let m := m.setStk { m.stk with
    rows := row m.stk.rows, ceRow := row m.stk.ceRow, acts := row m.stk.acts, copying := row m.stk.copying
    spareRows := bank m.stk.spareRows, openRow := bank m.stk.openRow, refreshAt := bank m.stk.refreshAt
    deferred := bank m.stk.deferred }
  let m := m.setStack (c / 32) { x with retired := x.retired.filter fun r => r.chan ≠ c % 32 }
  let i := m.cad.cur.physOf (⟨0x03, c⟩ : UnitRef)
  (m.flt.standing.filter fun e => e.unitKind = 3 && e.parent = c / 32 && e.index = i).foldl (fun m e => m.loadStanding c e) m

/-- A moved channel's entries leave the controllers with its old physical channel; its lost pages stay lost (R172, R173). -/
def Mach.clearRetired (m : Mach) (u : UnitRef) : Mach :=
  if u.kind ≠ 3 then m
  else
    let lost := (m.stackAt (u.num / 32)).retired.filter fun r => r.chan = u.num % 32 && r.state = 2
    let i := m.cad.cur.physOf u
    let m := lost.foldl (fun m r =>
      let x : Standing := ⟨3, 3, u.num / 32, i, r.page⟩
      if m.flt.standing.contains x then m else m.addStanding x) m
    m.reloadChan u.num

/-- A logical unit starts its move to a spare, or is withdrawn (R635). `serves` tells whether the old unit can still serve:
when it cannot, the new placement is written into every live bank at once (R636), and contents that could not be copied are
lost. -/
def Mach.moveUnit (m : Mach) (u : UnitRef) (st : Nat) (serves : Bool) : Mach :=
  match m.spareFor u with
  | none => m.withdraw u st
  | some i =>
    let old := m.cad.cur.physOf u
    let m := m.spareRuns u.kind u.parent i
    if old = 0xFF then m
    else if u.copies && m.moving u.floor then
      let m := if serves then m else m.setPhys u.kind u.parent old 2
      m.setCad { m.cad with queued := m.cad.queued ++ [(u, st)] }
    else if serves then
      let m := m.setPhys u.kind u.parent i 4
      m.setCad { m.cad with moves := m.cad.moves ++
        [{ unit := u, from_ := old, spare := i, stage := if u.copies then 1 else 2, final := st }] }
    else
      let m := if u.copies then m.loseContents u else m
      let m := ((m.setPhys u.kind u.parent i 0).endPhys u old st).eachBank fun b => b.place u i
      ((m.clearRetired u).bump kCadRemaps).spareTaken u old i st

/-- A logical unit without a physical unit in service gets a spare, whose contents have no value, or is withdrawn (R633 steps 2 and
3, R190), with its REMAP event (R27) and its survey log record, whose PATH is 2 and STATUS 0 (DESIGN CHOICE, log 88): in advance at survey, but for a unit retired in state `st` (Table 9.15). Units of a withdrawn
floor stay withdrawn (R106). -/
def Mach.placeUnit (m : Mach) (u : UnitRef) (st : Nat := 0) : Mach :=
  let i := m.cad.cur.physOf u
  if (i ≠ 0xFF && m.physState u.kind u.parent i < 2) || m.floorGone u.floor then m
  else match m.freeSpare u.kind u.parent with
  | some j =>
    let m := if u.kind = 3 then m.loseContents u else m
    let m := (m.spareRuns u.kind u.parent j).setPhys u.kind u.parent j 0
    ((m.setCad { m.cad with cur := m.cad.cur.place u j }).spareTaken u i j st).surveyLog 0x04 u j 0 2 i
  | none =>
    if i = 0xFF then m
    else ((m.setCad { m.cad with cur := m.cad.cur.drop u }).event evRemap 0x02 3 u 0 (i * 2 ^ 56)).surveyLog 0x05 u 0 0 2 i

/-- Outcome of a unit's failure as the ledger gives it: moved to a spare or withdrawn (Table 21.8). -/
def Mach.moveOutcome (m : Mach) (u : UnitRef) : Nat := if (m.spareFor u).isSome then 0x03 else 0x04

/-- A unit in service fails (R660): the fault is class UNIT, and the unit moves or is withdrawn (R635). -/
def Mach.unitFails (m : Mach) (u : UnitRef) (cause : Nat) (serves : Bool) (st items : Nat) : Mach :=
  let o := m.moveOutcome u
  let i := m.cad.cur.physOf u
  if i = 0xFF then m else (m.moveUnit u 2 serves).ledger 0x04 cause o u st items 0 0 i

/-- A unit is retired before it fails (R137, R172, R651): class ABSORBED behind a spare, UNIT where it is withdrawn. -/
def Mach.unitRetires (m : Mach) (u : UnitRef) (cause : Nat) : Mach :=
  let o := m.moveOutcome u
  let i := m.cad.cur.physOf u
  if i = 0xFF then m else (m.moveUnit u 3 true).ledger (if o = 3 then 0x02 else 0x04) cause o u 0 0 0 0 i

/-! The switch to a new epoch. -/

/-- A new epoch becomes current (R60 steps 6 and 7): the bank and cadastre bank it runs under; the epoch before it stays
live while an item carries it (R63). `entries` is the draft's size; `by_` 1 operator or host, 2 surveyor. -/
def Mach.switchEpoch (m : Mach) (bank : Bank) (cad : CadBank) (entries by_ : Nat) : Mach :=
  let before := m.fb.epoch
  let e := before % 0xFFFFFFFF + 1
  let m := m.setFb { m.fb with old := some (before, m.fb.cur), cur := bank, epoch := e, lastEpoch := e, lastStatus := .done }
  let m := m.setCad { m.cad with old := some (before, m.cad.cur), cur := cad }
  (m.event evEpoch 0x01 0 {} 0 (e * 2 ^ 32 + entries % 65536 * 2 ^ 16 + by_)).retireEpoch

/-- The grid ports of re-admitted sites open, and their re-admission ends (R442, R446). -/
def Mach.openSites (m : Mach) : Mach :=
  let done := (List.range 4).filter fun t => (nth {} m.site.dev t).readmitting && (nth {} m.site.dev t).state = 5
  let m := m.setSite { m.site with dev := m.site.dev.map fun x =>
    if x.readmitting && x.state = 5 then { x with readmitting := false } else x }
  m.setGrid { m.grid with closed := m.grid.closed.filter fun g =>
    !(g.1 % 48 < 32 && done.contains (2 * (g.1 / 48) + g.1 % 48 / 16)) }

/-- The units of floor `f` placed as another bank has them. -/
def CadBank.takeFloor (b n : CadBank) (f : Nat) : CadBank :=
  let there (k : Nat) : Bool := (⟨k / 65536, k % 65536⟩ : UnitRef).floor = f
  { phys := (n.phys.filter fun e => there e.1).foldl (fun s e => sput s e.1 e.2) (b.phys.filter fun e => !there e.1)
    gone := (n.gone.filter fun e => there e.1).foldl (fun s e => sput s e.1 ()) (b.gone.filter fun e => !there e.1) }

/-- The surveyor has something to commit (R28, R65, R446): moves that await their flip, re-admitted sites, a commit or a re-admission
that waited. The operator's commit comes after it (R30, Table 19.11). -/
def Mach.surveyorHas (m : Mach) : Bool :=
  (m.cad.moves.any fun x => x.stage = 2) || m.fb.survWaiting || m.die.readmitWaits ||
    m.site.dev.any fun x => x.readmitting && x.state = 5

/-- The surveyor's commit of cadastre entries (R28, R30, R65): every move that awaits its flip enters the new epoch's bank, and the
placement of a floor that it re-admits (`back`); it waits while two epochs are live. It opens the ports of sites it re-admits. -/
def Mach.surveyorCommit (m : Mach) (entries : Nat) (back : Option (Nat × CadBank) := none) : Mach :=
  if m.fb.old.isSome then m.setFb { m.fb with survWaiting := true }
  else
    let ready := m.cad.moves.filter fun x => x.stage = 2
    let now := match back with | some x => m.cad.cur.takeFloor x.2 x.1 | none => m.cad.cur
    let bank := ready.foldl (fun b x => b.place x.unit x.spare) now
    let m := ready.foldl (fun m x => m.setPhys x.unit.kind x.unit.parent x.spare 0) m
    let before := m.fb.epoch
    let keep := (m.fb.lastStatus, m.fb.lastEpoch)
    let m := m.setCad { m.cad with moves := m.cad.moves.map fun x =>
      if x.stage = 2 then { x with stage := 3, until_ := before } else x }
    let m := m.switchEpoch m.fb.cur bank (entries + ready.length) 2
    (m.setFb { m.fb with survWaiting := false, lastStatus := keep.1, lastEpoch := keep.2 }).openSites

/-- A core whose retirement is pending moves to a spare as it starts or stops (R651, R653). -/
def Mach.coreRetires (m : Mach) (c : Nat) : Mach :=
  if !m.age.retire.contains c then m
  else
    let m := m.setAge { m.age with retire := m.age.retire.filter (· ≠ c) }
    let u : UnitRef := ⟨0x09, c⟩
    match m.spareFor u with
    | none => m
    | some _ => (((m.unitRetires u 0x05).bump kMarginRetired).retiredEvent u (c / 16)).surveyorCommit 0

/-- The last epoch that maps the old unit of a move has retired: the old unit leaves service (Table 19.9 step 4). -/
def Mach.moveRetire (m : Mach) (x : Move) : Mach :=
  if x.stage = 3 && !(m.fb.old.any fun o => o.1 = x.until_) then
    let m := m.setCad { m.cad with moves := m.cad.moves.filter (· ≠ x) }
    (((m.endPhys x.unit x.from_ x.final).clearRetired x.unit).bump kCadRemaps).spareTaken x.unit x.from_ x.spare x.final
  else m

/-- The oldest waiting slice or channel of a floor begins its move once no move that copies runs there (R637). -/
def Mach.startQueued (m : Mach) (f : Nat) : Mach :=
  match m.cad.queued.find? fun q => q.1.floor = f with
  | none => m
  | some q =>
    if m.moving f then m
    else
      let old := m.cad.cur.physOf q.1
      (m.setCad { m.cad with queued := m.cad.queued.erase q }).moveUnit q.1 q.2 (m.physState q.1.kind q.1.parent old ≠ 2)

end Sys2Proof.Machine
end

