-- ==== Sys2Proof/Machine/Stacks.lean ====
section
/-! DEFINITION. The stacks' repair and refresh (R158, R162 to R175), the refresh multiplier (R174, R178), the throttle cap
(R179), and the key slots' rotation (R185 to R188). -/
namespace Sys2Proof.Machine

/-- A channel of the module from a stack address. -/
def paChan (pa : Nat) : Nat := (Place.ofPa pa).stack * 32 + (Place.ofPa pa).unit

/-- The offset within the channel (Table 4.5). -/
def paOff (pa : Nat) : Nat := pa % 2 ^ 32

/-- Row, die and bank of a channel offset (Table 5.2). -/
def offRow (o : Nat) : Nat := fld o 17 15
def offDie (o : Nat) : Nat := fld o 13 4
def offBank (o : Nat) : Nat := fld o 11 2

/-- The number of a row: channel, die, bank and row. -/
def rowKey (pa : Nat) : Nat :=
  paChan pa * 2 ^ 32 + offDie (paOff pa) * 2 ^ 20 + offBank (paOff pa) * 2 ^ 16 + offRow (paOff pa)

/-- The number of a bank: channel, die and bank. -/
def bankKey (pa : Nat) : Nat := paChan pa * 64 + offDie (paOff pa) * 4 + offBank (paOff pa)

/-- A channel as a unit, and a stack as one. -/
def chanRef (c : Nat) : UnitRef := ⟨0x03, c⟩
def stackRef (s : Nat) : UnitRef := ⟨0x02, s⟩

/-- The two rows of a 4 KiB page: one in each of banks 2k and 2k + 1 of one die (Table 5.2). -/
def pageRows (pa : Nat) : List Nat := [rowKey (pa / 4096 * 4096), rowKey (pa / 4096 * 4096 + 2048)]

/-- An access to the row, or to the page whose rows both are copied, waits (R169). -/
def Mach.isCopying (m : Mach) (pa : Nat) : Bool := shas m.stk.copying (rowKey pa)

/-- The copy of a row, or of the whole page that is being retired, ends (R169). -/
def Mach.endCopy (m : Mach) (pa : Nat) : Mach :=
  match sget m.stk.copying (rowKey pa) with
  | none => m
  | some true => m.setStk { m.stk with copying := (pageRows pa).foldl sdel m.stk.copying }
  | some false => m.setStk { m.stk with copying := sdel m.stk.copying (rowKey pa) }

/-- Who moves data on a channel: the grid side of its controller, the stack path, the background traffic of R202's list (patrol, sweep,
channel copy), or the controller's repairs: row and page copies, promotions by a write, write-backs and mirror copies (R180). -/
inductive Mover where
  | grid | path | back | repair
  deriving DecidableEq, Repr

/-- `n` bytes moved on channel `c` in this window (R179, R180). -/
def Mach.moved (m : Mach) (c n : Nat) (by_ : Mover) : Mach :=
  if n = 0 then m else
  let s := { m.stk with window := smod 0 m.stk.window c (· + n) }
  m.setStk (match by_ with
    | .grid => { s with gridWin := smod 0 s.gridWin c (· + n) }
    | .repair => s
    | _ => { s with backNow := smod 0 s.backNow (c / 32) (· + n) })

/-- As `moved`, on the channel of an address; a buffer address lies on none. -/
def Mach.movedAt (m : Mach) (pa n : Nat) (by_ : Mover) : Mach := if paMedium pa = 0 then m else m.moved (paChan pa) n by_

/-- `n` bytes of a copy written from another (R180). -/
def Mach.copyBytes (m : Mach) (ctx src dst n : Nat) : Mach :=
  (((m.wrLine ctx dst ((List.range n).map fun i => m.rdByte ctx (src + i))).clearPoison dst n).movedAt src n .repair).movedAt
    dst n .repair

/-- A MIRROR line's other copy can serve `n` bytes at `pa` of this one: the other floor runs and holds them whole (R134, R164). Where
that copy is itself poisoned, uncorrectable or out of reach the line is treated as in any other segment (DESIGN CHOICE, log
73). -/
def Mach.mirrorGood (m : Mach) (epoch ctx pa n : Nat) : Bool :=
  let q := mirrorPa pa
  m.die.lost.isNone && !m.floorGone (paFloor q) && !m.poisoned q n && !m.grainsBad (readGrains q n) &&
    (m.placeFails epoch ctx (Place.ofPa q)).isEmpty

/-- What a copy or promotion makes of the errors in the sectors it reads: a correctable one is written corrected, another is
recovered from a mirror or written with POISON (R169). -/
def Mach.cleanErrs (m : Mach) (here : Nat → Bool) : Mach :=
  (m.stk.errs.filter fun e => here (64 * e.1)).foldl (fun m e =>
    let pa := 64 * e.1
    let n := m.setErrs pa 0
    if e.2 ≤ eccLimit 1 then n
    else match m.segAt pa with
      | some g => if g.mirror && m.mirrorGood m.fb.epoch g.ctx pa 64 then n.copyBytes g.ctx (mirrorPa pa) pa 64 else n.addPoison pa
      | none => n.addPoison pa) m

/-! Data moved on a channel, and its rows (R154, R158, R179, R180). -/


/-- A row is activated `n` more times since its last refresh; at 4,096 its two neighbours are refreshed before the next, and its
count begins again (R158). -/
def Mach.rowActivated (m : Mach) (pa n : Nat) : Mach :=
  let c := paChan pa
  let m := m.bump (key (0x9200 + c) 3) n
  let a := sgetD 0 m.stk.acts (rowKey pa) + n
  let m := if a ≥ 4096 then m.bump (key (0x9200 + c) 4) (2 * (a / 4096)) else m
  m.setStk { m.stk with acts := if a % 4096 = 0 then sdel m.stk.acts (rowKey pa) else sput m.stk.acts (rowKey pa) (a % 4096) }

/-- The row of a stack address stands open in its bank. -/
def Mach.rowOpen (m : Mach) (pa : Nat) : Bool := sget m.stk.openRow (bankKey pa) = some (offRow (paOff pa))

/-- An access opens its row where it is not open (R154, R158); `read` counts a read that hits an open row. -/
def Mach.openRowOf (m : Mach) (pa : Nat) (read : Bool) : Mach :=
  if m.rowOpen pa then (if read then m.bump (key (0x9200 + paChan pa) 5) else m)
  else
    let m := m.rowActivated pa 1
    m.setStk { m.stk with openRow := sput m.stk.openRow (bankKey pa) (offRow (paOff pa)) }

/-- The two rows of a page are read (R158, R180). -/
def Mach.openPage (m : Mach) (pa : Nat) : Mach :=
  (m.openRowOf (pa / 4096 * 4096) false).openRowOf (pa / 4096 * 4096 + 2048) false

/-- Retire-list entries of a channel of a stack. -/
def Stack.entriesOf (x : Stack) (c : Nat) : List Retired := x.retired.filter fun r => r.chan = c

/-- The page of a stack address has been retired. -/
def Mach.pageRetired (m : Mach) (pa : Nat) : Bool :=
  let p := Place.ofPa pa
  (m.stackAt p.stack).retired.any fun r => r.chan = p.unit && r.page = fld pa 12 20

/-- A page is retired to a free reserve page of its channel, or lost where none is free (R170, R172); at 112 reserve pages
the channel moves to a spare where one may be used. Reserve pages are taken in rising order (DESIGN CHOICE, log 74), and none
is used again while its entry stands: a page that fails on its reserve page keeps the entry beside its new one. -/
def Mach.retirePage (m : Mach) (pa cause : Nat) : Mach :=
  let p := Place.ofPa pa
  let x := m.stackAt p.stack
  let page := fld pa 12 20
  let u := chanRef (paChan pa)
  let i := m.cad.cur.physOf u
  let used := (x.entriesOf p.unit).countP fun r => r.state = 1
  let m := m.cleanErrs fun a => a / 4096 = pa / 4096
  if used < 128 then
    let m := m.setStack p.stack { x with retired := x.retired ++ [⟨p.unit, 1, used, page⟩] }
    let m := m.setStk { m.stk with copying := (pageRows pa).foldl (fun c k => sput c k true) m.stk.copying }
    let m := (m.openPage pa).movedAt pa 8192 .repair
    let m := m.event evRemap 0x04 2 u 0 (page * 2 ^ 32 + used * 2 ^ 16 + 1)
    let m := (m.addStanding ⟨2, 3, p.stack, i, page⟩).ledger 0x02 cause 0x09 u
    if used + 1 ≥ 112 && (m.spareFor u).isSome && !(m.cad.moves.any fun v => v.unit = u) &&
        !(m.cad.queued.any fun q => q.1 = u) then m.unitRetires u 0x05 else m
  else if m.pageLost pa then m
  else
    let m := m.setStack p.stack { x with retired := x.retired ++ [⟨p.unit, 2, 0, page⟩] }
    let m := m.event evRemap 0x04 2 u 0 (page * 2 ^ 32 + 2)
    (m.addStanding ⟨3, 3, p.stack, i, page⟩).ledger 0x03 cause 0x09 u 0 0 0 64

/-- A row fails (Table 5.5, R168): a spare row of its bank takes its place twice at most; then its page is retired. -/
def Mach.rowFails (m : Mach) (pa cause : Nat) : Mach :=
  let p := Place.ofPa pa
  let k := rowKey pa
  let used := sgetD 0 m.stk.spareRows (bankKey pa)
  let st := sget m.stk.rows k
  if m.pageRetired pa || m.cfg kStackRowSparing = 0 || st = some .spared2 || used ≥ 32 then m.retirePage pa cause
  else
    let m := m.cleanErrs fun a => rowKey a = k
    let m := m.setStk { m.stk with
      rows := sput m.stk.rows k (if st.isNone then .spared1 else .spared2)
      spareRows := sput m.stk.spareRows (bankKey pa) (used + 1)
      copying := sput m.stk.copying k false }
    let m := (m.openRowOf pa false).movedAt pa 4096 .repair
    let o := paOff pa
    let m := m.event evRemap 0x03 1 (chanRef (paChan pa)) 0
      (offDie o * 2 ^ 56 + offBank o * 2 ^ 48 + offRow o * 2 ^ 32 + (31 - used) * 2 ^ 24)
    (m.addStanding ⟨1, 3, p.stack, m.cad.cur.physOf (chanRef (paChan pa)), offRow o * 64 + offDie o * 4 + offBank o⟩).ledger 0x02 cause 0x09
      (chanRef (paChan pa))

/-- µs in a day and an hour. -/
def dayUs : Nat := 86400000000
def hourUs : Nat := 3600000000

/-- A sector was corrected (R162, R167): counted, and the row fails at its limit of distinct sectors in 24 h. -/
def Mach.sectorCorrected (m : Mach) (pa : Nat) : Mach :=
  let p := Place.ofPa pa
  let m := m.bump (key (0x3410 + p.stack) 4)
  let now := m.clk.us
  let l := (paSector pa, now) :: (sgetD [] m.stk.ceRow (rowKey pa)).filter fun e => e.1 ≠ paSector pa && e.2 + dayUs > now
  let m := m.setStk { m.stk with ceRow := sput m.stk.ceRow (rowKey pa) l }
  if l.length ≥ m.cfg kStackRowCeLimit then
    (m.setStk { m.stk with ceRow := sdel m.stk.ceRow (rowKey pa) }).rowFails pa 0x04
  else m

/-- Entries no older than a second, with a new finding of `x` at `now` (R660). -/
def noteRecent (l : List (Nat × Nat)) (x now : Nat) : List (Nat × Nat) :=
  (x, now) :: l.filter fun e => e.1 ≠ x && e.2 + 1000000 ≥ now

/-- A sector was found uncorrectable: counted with its row (R660), and the row fails (R167). -/
def Mach.sectorBad (m : Mach) (pa : Nat) : Mach :=
  let p := Place.ofPa pa
  let m := m.bump (key (0x3410 + p.stack) 5)
  let c := paChan pa
  let m := m.setStk { m.stk with ueRows := sput m.stk.ueRows c (noteRecent (sgetD [] m.stk.ueRows c) (rowKey pa) m.clk.us) }
  m.rowFails pa 0x01

/-- The copy of a channel or slice has ended: its move awaits the flip (Table 19.9 step 3). -/
def Mach.copyDone (m : Mach) (u : UnitRef) : Mach :=
  m.setCad { m.cad with moves := m.cad.moves.map fun x =>
    if x.unit = u && x.stage = 1 then { x with stage := 2 } else x }

/-! Refresh. -/

/-- The multiplier of R174 for a stack at its zone level: the largest of the three, limited, then doubled at a step. -/
def Mach.refreshWanted (m : Mach) (x : Stack) : Nat :=
  let base := min (max (max (m.cfg kStackRefreshMin) (if x.hot then 2 else 1)) x.weak) (m.cfg kStackRefreshMax)
  if x.level ≥ 2 || x.missStep then 2 * base else base

/-- Corrections of a stack's patrol in the last 24 h (R644). -/
def Mach.patrolFixes (m : Mach) (s : Nat) : List Nat := (nth [] m.age.ceDay s).filter fun t => t + dayUs > m.clk.us

/-- Patrol has corrected a sector of a stack (R644). -/
def Mach.patrolFixed (m : Mach) (s : Nat) : Mach :=
  m.setAge { m.age with ceDay := setAt m.age.ceDay s (m.clk.us :: m.patrolFixes s) }

/-- STACK_REFRESH_NOW follows R174, with its event. -/
def Mach.setRefresh (m : Mach) (s : Nat) : Mach :=
  let x := m.stackAt s
  let r := m.refreshWanted x
  if r = x.refresh then m
  else (m.setStack s { x with refresh := r }).event evThermal 0x06 0 (stackRef s) 0 (x.refresh * 2 ^ 48 + r * 2 ^ 40)

/-- The stacks of a floor named leave self-refresh, unless they are shut: refresh resumes at R174's multiplier first (R194). -/
def Mach.leaveRefresh (m : Mach) (p : Nat → Bool) : Mach :=
  ((List.range 6).filter fun s => p (s / 3) && !(m.stackAt s).shut).foldl
    (fun m s => (m.setStack s { m.stackAt s with selfRefresh := false }).setRefresh s) m

/-- The stack cap that a floor's own step imposes, in per cent (Table 18.4). -/
def Mach.floorCap (m : Mach) (f : Nat) : Nat :=
  match (nth {} m.pwr.heat f).level with
  | 2 => m.cfg kStackThrottleCap
  | 3 => m.cfg kStackThrottleCap2
  | 4 => 0
  | _ => 100

/-- The cap that a stack's own step imposes (R178, R179, R604). -/
def Mach.ownCap (m : Mach) (s : Nat) : Nat :=
  let x := m.stackAt s
  if x.shut then 0
  else if x.level = 3 || x.missStep then m.cfg kStackThrottleCap2
  else if x.level = 2 then m.cfg kStackThrottleCap else 100

/-- The cap in force on a stack in per cent: the lower of its own and its floor's (STACK_CAP_NOW, R179, R603). -/
def Mach.stackCap (m : Mach) (s : Nat) : Nat := min (m.ownCap s) (m.floorCap (s / 3))

/-- Bytes a channel may move in a window of 1 µs at 128 GB/s. -/
def Mach.windowCap (m : Mach) (s : Nat) : Nat := 128000 * m.stackCap s / 100

/-- A channel issues no further data command in this window (R179). -/
def Mach.atCap (m : Mach) (c : Nat) : Bool :=
  shas m.stk.capped c || (m.stackCap (c / 32) < 100 && sgetD 0 m.stk.window c ≥ m.windowCap (c / 32))

/-- The weights of a stack's grid side and stack path in the present window (R157, R206, R211): equal shares where none are set. -/
def Mach.pathWeights (m : Mach) (s : Nat) : Nat × Nat :=
  let w := nth (0, 0) m.reg.weights s
  if w = (0, 0) then (1, 1) else w

/-- Bytes of a channel's window that are the grid side's while the stack path has work too (R157). -/
def Mach.gridShare (m : Mach) (c : Nat) : Nat :=
  let w := m.pathWeights (c / 32)
  m.windowCap (c / 32) * w.1 / (w.1 + w.2)

/-- The grid side of a channel waits: at the cap, behind bytes that it has still to move, or at its share while the stack path has
work (R157, R179). -/
def Mach.gridHeld (m : Mach) (c : Nat) : Bool :=
  m.atCap c || sgetD 0 m.stk.debt c > 0 || (sgetD 0 m.stk.path c > 0 && sgetD 0 m.stk.gridWin c ≥ m.gridShare c)

/-- The grid side of a channel has work: transactions or writes that wait, or bytes of items put off (R157). -/
def Mach.gridWork (m : Mach) (c : Nat) : Bool :=
  !(sgetD [] m.grid.wait (128 + c)).isEmpty || !(sgetD [] m.stk.writeQ c).isEmpty || sgetD 0 m.stk.debt c > 0

/-- Bytes that one side of a channel may still move in this window: its share while the other side has work too, the whole room
otherwise (R157, R179). -/
def Mach.windowRoom (m : Mach) (c : Nat) (by_ : Mover) : Nat :=
  let cap := m.windowCap (c / 32)
  let used := sgetD 0 m.stk.window c
  let mine := sgetD 0 m.stk.gridWin c
  if m.atCap c then 0
  else match by_ with
    | .path => if m.gridWork c then min (cap - used) (cap - m.gridShare c - (used - mine)) else cap - used
    | _ => if sgetD 0 m.stk.path c > 0 then min (cap - used) (m.gridShare c - mine) else cap - used

/-- `n` bytes that an item or engine moves on a channel, those for which this window has no room in later windows (R157, R179); the
item's own accesses are not held up by it (log 8). -/
def Mach.movedLater (m : Mach) (c n : Nat) (by_ : Mover) : Mach :=
  let room := m.windowRoom c by_
  let m := m.moved c (min n room) by_
  let rest := n - min n room
  if rest = 0 then m
  else match by_ with
    | .grid => m.setStk { m.stk with debt := smod 0 m.stk.debt c (· + rest) }
    | _ => m.setStk { m.stk with path := smod 0 m.stk.path c (· + rest) }

/-- A new window of a channel begins (R157, R179): what its grid side and its stack path have still to move goes by their shares. -/
def Mach.chanWindow (m : Mach) (c : Nat) (gridWork : Bool) : Mach :=
  let d := sgetD 0 m.stk.debt c
  let p := sgetD 0 m.stk.path c
  if d = 0 && p = 0 then m
  else
    let cap := m.windowCap (c / 32)
    let own := if d > 0 || gridWork then cap - m.gridShare c else cap
    let np := min p (max own (if gridWork then 0 else cap - d))
    let ng := min d (cap - np)
    let m := m.setStk { m.stk with
      debt := if d = ng then sdel m.stk.debt c else sput m.stk.debt c (d - ng)
      path := if p = np then sdel m.stk.path c else sput m.stk.path c (p - np) }
    (m.moved c ng .grid).moved c np .path

/-! Keys. -/

/-- A context's keys changed. -/
def Mach.setKeys (m : Mach) (c : Nat) (k : StkKeys) : Mach :=
  m.setStk { m.stk with keys := sput m.stk.keys c k }

/-- A key in a slot. -/
def StkKeys.put (k : StkKeys) (g : Nat) (x : Option Nat) : StkKeys :=
  if g = 0 then { k with slot0 := x } else { k with slot1 := x }

/-- The pages of a channel that a stack segment's footprint holds: the first, and how many (Table 4.6, R186). -/
def SegEnt.footPages (e : SegEnt) : Nat × Nat :=
  (e.unitOff / 16, (e.unitOff + e.foot - 1) / 16 + 1 - e.unitOff / 16)

/-- The runs of pages that a context's sweep visits in channel `c` of the module: first and count (R186). -/
def Mach.chanRuns (m : Mach) (ctx c : Nat) : List (Nat × Nat) :=
  ((m.keysOf ctx).segs.filter fun e => e.uses (c / 96) (c / 32 % 3) (c % 32)).map SegEnt.footPages

/-- The address of a page of a channel. -/
def pageAddr (c page : Nat) : Nat := Place.pa ⟨c / 96, 1, c / 32, c % 32, 16 * page⟩ 0

/-- Page `i` of a list of runs. -/
def runPage : List (Nat × Nat) → Nat → Option Nat
  | [], _ => none
  | r :: rs, i => if i < r.2 then some (r.1 + i) else runPage rs (i - r.2)

/-- Pages in the runs of a channel. -/
def runLength (l : List (Nat × Nat)) : Nat := (l.map (·.2)).foldl (· + ·) 0

/-- The stack segments of a context. -/
def Mach.stackSegs (m : Mach) (ctx : Nat) : List SegEnt := ((m.segsOf ctx).map (·.2)).filter fun e => e.medium = 1

/-- Pages the sweep must visit, in all channels (R186). -/
def Mach.pagesToSweep (m : Mach) (ctx : Nat) : Nat :=
  ((List.range 192).map fun c => runLength (m.chanRuns ctx c)).foldl (· + ·) 0

/-- Both slots of a context erased in every stack, and its sweep stopped (R188). -/
def Mach.dropKeys (m : Mach) (c : Nat) : Mach := m.setStk { m.stk with keys := sdel m.stk.keys c }

/-- The SECURITY event of a key installed (Table 9.15). -/
def Mach.keyEvent (m : Mach) (code c key slot lease : Nat) : Mach :=
  m.event evSecurity code 1 ⟨0x0B, c⟩ c (key * 2 ^ 56 + slot * 2 ^ 48 + lease * 2 ^ 40)

/-- An open key-release request ends with a status (0 on expiry), counted where it ended without DONE (R526). -/
def Mach.endReq (m : Mach) (r : KeyReq) (st : Status) (fails : Bool) : Mach :=
  let m := m.setSec { m.sec with reqs := m.sec.reqs.filter (· ≠ r) }
  let m := m.event evSecurity 0x05 1 ⟨0x0B, r.ctx⟩ r.ctx (r.id * 2 ^ 32 + r.kind * 2 ^ 24 + st.code)
  if fails then m.bump kKeyReleaseFails else m

/-- The SECURITY event of a lease record (Table 9.15): 1 sealed, 2 not stored, 3 unsealed, 4 erased. -/
def Mach.leaseEvent (m : Mach) (what ctx kind id : Nat) : Mach :=
  m.event evSecurity 0x0B 1 ⟨0x0B, ctx⟩ ctx (what * 2 ^ 56 + kind * 2 ^ 48 + id)

/-- Lease records are erased (R547). -/
def Mach.eraseLeases (m : Mach) (p : Lease → Bool) : Mach :=
  let gone := m.sec.leases.filter p
  let m := m.setSec { m.sec with leases := m.sec.leases.filter fun l => !p l }
  gone.foldl (fun m l => m.leaseEvent 4 l.ctx l.kind l.id) m

/-- A rotation's step (R187): 1 to 3, or 4 for erasure. -/
def Mach.rotEvent (m : Mach) (c step : Nat) : Mach := m.event evSecurity 0x03 0 ⟨0x0B, c⟩ c (step * 2 ^ 56)

/-- A rotation starts with a new key (R185): installed in the free slot, made the write slot, the sweep begun. -/
def Mach.rotate (m : Mach) (c new : Nat) : Mach :=
  let k := m.keysOf c
  let g := 1 - k.write
  let m := (m.setKeys c { k.put g (some new) with segs := m.stackSegs c }).rotEvent c 1
  let m := (m.setKeys c { m.keysOf c with write := g, rot := .sweeping, swept := [], credit := [], toSweep := m.pagesToSweep c }).rotEvent c 2
  m.rotEvent c 3

/-- The sweep visits a page (R186): one that is lost, or whose segment has gone since, is skipped; one whose GEN names the old slot is
promoted, its errors treated as a copy treats them, at 8,192 bytes moved. -/
def Mach.sweepPage (m : Mach) (ctx c page : Nat) : Mach :=
  let pa := pageAddr c page
  let k := m.keysOf ctx
  let gone : Bool := match m.segAt pa with | some e => !(e.ctx = ctx && k.segs.contains e) | none => true
  if gone || m.pageLost pa || sgetD 0 m.stk.gen (paPage pa) = k.write then m
  else (((m.openPage pa).cleanErrs fun a => a / 4096 = pa / 4096).promote ctx (paPage pa)).moved c 8192 .back

/-- Pages swept so far in all channels. -/
def StkKeys.sweptAll (k : StkKeys) : Nat := (svals k.swept).foldl (· + ·) 0

/-- The sweep visits up to `n` more pages of a channel. -/
def Mach.sweepChan : Nat → Mach → Nat → Nat → Mach
  | 0, m, _, _ => m
  | n + 1, m, ctx, c =>
    let i := sgetD 0 (m.keysOf ctx).swept c
    match runPage (m.chanRuns ctx c) i with
    | none => m
    | some page =>
      let m := m.sweepPage ctx c page
      let k := m.keysOf ctx
      Mach.sweepChan n (m.setKeys ctx { k with swept := sput k.swept c (i + 1) }) ctx c

/-- As `sweepChan`, the module first. -/
def Mach.sweepPages (m : Mach) (ctx c n : Nat) : Mach := Mach.sweepChan n m ctx c

/-- A window's share of a sweep (R186): each channel moves STACK_REKEY_SHARE of the bytes its stack may move, 8,192 a page; not while
its stack refreshes itself or is shut. -/
def Mach.sweepWindow (m : Mach) (ctx : Nat) : Mach :=
  if (m.keysOf ctx).rot ≠ .sweeping then m
  else (List.range 192).foldl (fun m c =>
    let x := m.stackAt (c / 32)
    if x.selfRefresh || x.shut || (m.chanRuns ctx c).isEmpty then m
    else
      let k := m.keysOf ctx
      let n := sgetD 0 k.credit c + m.windowCap (c / 32) * m.cfg kStackRekeyShare / 100
      (m.setKeys ctx { k with credit := sput k.credit c (n % 8192) }).sweepPages ctx c (n / 8192)) m

/-- The re-key sweep has finished in every channel (R186, R187): the pages it had still to visit are visited, and the context enters
ERASING with the items accepted so far. -/
def Mach.sweepDone (m : Mach) (c : Nat) : Mach :=
  if (m.keysOf c).rot ≠ .sweeping || m.stk.dev.any Stack.shut then m
  else
    let m := (List.range 192).foldl (fun m ch => m.sweepPages c ch (runLength (m.chanRuns c ch))) m
    let k := m.keysOf c
    m.setKeys c { k with rot := .erasing, segs := [], credit := [], older := (m.rng.items.filter fun i => i.ctx = c).map Item.key }

/-- The old key is erased once every older item has its record (R187); the context is STEADY. -/
def Mach.eraseOld (m : Mach) (c : Nat) : Mach :=
  let k := m.keysOf c
  if k.rot ≠ .erasing || m.rng.items.any (fun i => k.older.contains i.key) then m
  else
    (m.setKeys c { k.put (1 - k.write) none with rot := .steady, swept := [], toSweep := 0, older := [] }).rotEvent c 4

/-- REKEY_QUERY's answer (0x3450.01): state, write slot, pages swept and to sweep. -/
def Mach.rekeyQuery (m : Mach) (c : Nat) : CmdRes :=
  if c > 4095 then m.refuse .rejectRange
  else
    let k := m.keysOf c
    { m, val := leB 1 (match k.rot with | .steady => 0 | .sweeping => 1 | .erasing => 2) ++ leB 1 k.write ++ leB 8 k.sweptAll ++
        leB 8 k.toSweep }

/-- STACK_RETIRE_LIST's answer (0x3430.01). Its state codes, 1 retired and 2 lost, are those of the PAGE_RETIRED event, and a lost
page's record names reserve page 0, for Table 5.9 gives neither (DESIGN CHOICE, log 74). -/
def Mach.retireList (m : Mach) (s : Nat) : CmdRes :=
  if s > 5 then m.refuse .fbValue
  else { m, val := (m.stackAt s).retired.flatMap fun r => leB 1 r.chan ++ leB 1 r.state ++ leB 2 r.reserve ++ leB 4 r.page }

end Sys2Proof.Machine
end

