-- ==== Sys2Proof/Machine/Grid.lean ====
section
/-! DEFINITION. Grid transactions (R120 to R135, R145 to R148, R153 to R157), the remote line caches and directories (R91 to R96),
the regulators' counts (R196 to R204), and the accesses of items and engines. -/
namespace Sys2Proof.Machine

/-! Regulated masters and classes. -/

/-- The regulated master of a port (Table 6.1); none for the bridge ingress and for the surveyor and security controller
(R198, R199). -/
def Origin.master (o : Origin) : Option Nat :=
  match o with
  | .port _ 47 _ => none
  | _ =>
    let p := o.gport
    if p < 16 then some 0 else if p < 32 then some 1 else if p < 36 then some (p - 30) else if p < 42 then some 6
    else if p < 45 then some 7 else if p < 47 then none else some 8

/-- Requester class of RLC_ALLOC_CLASSES (Table 3.7). -/
def Origin.cls (o : Origin) : Nat :=
  let p := o.gport
  if p < 32 then 0 else if p < 36 then 1 else if p < 42 then 2 else if p < 45 then 4 else 3

/-! Counts. -/

/-- Bytes of a medium are counted at a master's regulator (R201). -/
def Mach.regCount (m : Mach) (o : Origin) (medium n : Nat) : Mach :=
  match o.master with
  | none => m
  | some j =>
    let k := 9 * (2 * o.floor + medium) + j
    (m.setReg { m.reg with masters := smod {} m.reg.masters k fun x => { x with bytes := x.bytes + n } }).bump
      (key (0x9300 + k) 1) n

/-- The master is lowered for a medium (R204, R205). -/
def Mach.lowered (m : Mach) (o : Origin) (medium : Nat) : Bool :=
  match o.master with
  | none => false
  | some j => m.reg.enable && (sgetD {} m.reg.masters (9 * (2 * o.floor + medium) + j)).lowered

/-- Bytes delivered to a reader, at its port and its regulator (R201, Table 2.16). -/
def Mach.readCount (m : Mach) (o : Origin) (medium n : Nat) : Mach :=
  ((m.regCount o medium n).bump (key (0x9100 + o.g) 1) n).bump (key (0x9100 + o.g) 6)

/-- Bytes written, at the port and its regulator. -/
def Mach.writeCount (m : Mach) (o : Origin) (medium n : Nat) : Mach :=
  (m.regCount o medium n).bump (key (0x9100 + o.g) 2) n

/-! Errors found in the arrays (R133, R134, R160 to R164). -/

/-- A correctable granule: counted, a sector written back at once, a word of the buffer where `back` says so (R136, R137, R162, R180). -/
def Mach.eccFixed (m : Mach) (a : Nat) (back : Bool) (by_ : Mover) : Mach :=
  if paMedium a = 0 then
    let p := Place.ofPa a
    let slice := p.floor * 64 + p.unit
    let h := m.clk.us / hourUs
    let x := sgetD (h, 0) m.grid.ceHour slice
    let m := if back then m.setErrs a 0 else m
    (m.setGrid { m.grid with ceHour := sput m.grid.ceHour slice (h, if x.1 = h then x.2 + 1 else 1) }).bump kBufCeCount
  else ((m.setErrs a 0).movedAt a 64 by_).sectorCorrected a

/-- An uncorrectable line of the buffer or sector of a stack (R134, R164): rewritten from the other floor's MIRROR copy, or poisoned;
`st` is the status of an item that fails with it, 0 where none does. -/
def Mach.eccLost (m : Mach) (epoch st a : Nat) : Mach :=
  let buf : Bool := paMedium a = 0
  let p := Place.ofPa a
  let n := if buf then 256 else 64
  let start := a / n * n
  let seg := m.segAt start
  let ctx := match seg with | some g => g.ctx | none => 0
  let slice := p.floor * 64 + p.unit
  let m := if buf then
      (m.setGrid { m.grid with
        ueSecond := sput m.grid.ueSecond slice (noteRecent (sgetD [] m.grid.ueSecond slice) (a / 256) m.clk.us) }).bump kBufUeCount
    else m
  let mirror := match seg with | some g => g.mirror && m.mirrorGood epoch ctx start n | none => false
  let m := if mirror then (m.copyBytes ctx (mirrorPa start) start n).ledger 0x02 0x01 0x01 p.ref 0 0 ctx
    else ((m.setErrs a 0).addPoison start).ledger 0x03 0x01 0x05 p.ref st 0 ctx 1
  if buf then m else m.sectorBad start

/-- The granules `l` are read from the array: every error of them has its effect; `by_` moves what is written back. -/
def Mach.eccMeet (m : Mach) (epoch st : Nat) (back : Bool) (l : List Nat) (by_ : Mover := .repair) : Mach :=
  if m.mem.errs.isEmpty && m.stk.errs.isEmpty then m
  else l.foldl (fun m a =>
    if m.errsAt a = 0 || m.poisoned a 8 then m
    else if m.errsAt a ≤ eccLimit (paMedium a) then m.eccFixed a back by_
    else m.eccLost epoch st a) m

/-! Accesses to the arrays. -/

/-- Bytes of the sectors that bytes `[pa, pa + n)` lie in. -/
def sectorBytes (pa n : Nat) : Nat := 64 * ((pa + n - 1) / 64 + 1 - pa / 64)

/-- Who moves an access's bytes: a transaction within its window, or an item whose bytes may go later (log 8). -/
def Mach.movedBy (m : Mach) (item : Bool) (c n : Nat) (by_ : Mover) : Mach :=
  if item then m.movedLater c n by_ else m.moved c n by_

/-- The bytes `[pa, pa + n)` of one line all wait in their channel's write queue, which serves a read of them (R155). -/
def Mach.queuedWrite (m : Mach) (pa n : Nat) : Bool :=
  paMedium pa = 1 && (match sget m.stk.writeQ (paChan pa) with
    | some q => (List.range n).all fun i => q.any fun w => w.1 ≤ pa + i && pa + i < w.1 + w.2
    | none => false)

/-- Bytes `[pa, pa + n)` of one line are read from their array, as errors go too, or from its write queue (R133, R154, R155, R162, R180,
Table 2.16). -/
def Mach.arrayRead (m : Mach) (epoch pa n : Nat) (by_ : Mover := .grid) (item : Bool := false) : Mach :=
  if m.queuedWrite pa n then m
  else
  let m := if paMedium pa = 0 then m
    else
      let c := paChan pa
      ((m.openRowOf pa true).movedBy item c (sectorBytes pa n) by_).bump
        (key (0x9200 + c) (match by_ with | .path => 7 | _ => 1)) n
  m.eccMeet epoch Status.failMemLost.code false (readGrains pa n)

/-- A write of a context to a page promotes it first (R184). -/
def Mach.promotes (m : Mach) (ctx pa : Nat) : Bool :=
  paMedium pa = 1 && ((m.keysOf ctx).slot (m.keysOf ctx).write).isSome && sgetD 0 m.stk.gen (paPage pa) ≠ (m.keysOf ctx).write

/-- What an array reads before it is written with bytes `[pa, pa + n)`: granules covered in part (R133, R163), and a page that is
promoted, whose errors go as a copy's do (R184, R186). -/
def Mach.writeReads (m : Mach) (epoch ctx pa n : Nat) : Mach :=
  let m := m.eccMeet epoch Status.failMemLost.code true (partGrains pa n)
  if m.promotes ctx pa then (m.cleanErrs fun a => a / 4096 = pa / 4096).openPage pa |>.moved (paChan pa) 8192 .repair else m

/-- Bytes that a write of `[pa, pa + n)` moves on its channel: its sectors, and those read before (R163, R180). -/
def writeMoves (pa n : Nat) : Nat := sectorBytes pa n + 64 * (partGrains pa n).length

/-! The remote line cache. -/

/-- The ways in which a context's partition may allocate: the partitions' ways follow one another (DESIGN CHOICE, log 9). -/
def Mach.rlcWays (m : Mach) (epoch ctx : Nat) : List Nat :=
  match m.ctx? ctx with
  | none => []
  | some c =>
    let w (i : Nat) := m.cfgE epoch (kRlcWaysP0 + i)
    let base := ((List.range c.part).map w).foldl (· + ·) 0
    (List.range 16).filter fun i => base ≤ i && i < base + w c.part

/-- The lines whose pending fill takes no new line. -/
def Mach.wayFree (m : Mach) (fl pa w : Nat) : Bool :=
  match sget m.die.rlc (rlcKey fl pa w) with
  | some (.fill _ _) => false
  | _ => true

/-- The way in which a miss of a requester allocates (R92, Table 3.7): a free one, else the pick `way`; none where the segment, the
requester's class or the partition does not allocate, as the requester's epoch has them (R61). -/
def Mach.rlcWay (m : Mach) (epoch : Nat) (o : Origin) (ctx : Nat) (noAlloc : Bool) (pa way : Nat) : Option Nat :=
  let fl := o.floor
  let ws := m.rlcWays epoch ctx
  let w := match ws.find? fun w => (sget m.die.rlc (rlcKey fl pa w)).isNone with
    | some w => w
    | none => nth 0 ws (way % max 1 ws.length)
  if noAlloc || ws.isEmpty || !bitOf (m.cfgE epoch kRlcAllocClasses) o.cls || !m.wayFree fl pa w then none else some w

/-- A requester's read of a line homed on the other floor stops at its own floor's remote line cache (R91): a hit, a pending fill to
wait for, or a fill to send. -/
def Mach.rlcStops (m : Mach) (epoch : Nat) (o : Origin) (ctx : Nat) (e : SegEnt) (pa way : Nat) : Bool :=
  !e.mirror && paFloor pa ≠ o.floor && bitOf (m.cfgE epoch kRlcEnable) o.floor &&
    ((m.rlcFind o.floor pa).isSome || (m.rlcWay epoch o ctx e.noAlloc pa way).isSome)

/-! Answers. -/

/-- A site's response leaves while its site and module take one: those of a fenced or failed module are discarded (R418,
R664). -/
def Mach.siteRsp (m : Mach) (t b op tag : Nat) (st : Status) (data : Bytes) : Mach :=
  let x := m.siteAt t
  if x.stale.contains (b * 65536 + tag) then m.setSiteAt t { x with stale := x.stale.erase (b * 65536 + tag) }
  else if bitOf x.up b && x.state = 5 && x.fencing.isNone then m.sendFlit t b op [tag, st.code, 0, 0, if op = 0x21 then data.length else 0] data
  else m

/-- A read's answer reaches its requester. -/
def Mach.replyRead (m : Mach) (o : Origin) (st : Status) (data : Bytes) : Mach :=
  match o with
  | .site t b tag => m.siteRsp t b 0x21 tag st data
  | _ => m.emit (.readData o st data)

/-- A read ends with its bytes, counted as delivered, or with the cause it has none. -/
def Mach.readEnds (m : Mach) (o : Origin) (medium : Nat) (r : Except Fail Bytes) : Mach :=
  match r with
  | .ok d => (m.readCount o medium d.length).replyRead o .done d
  | .error f => m.replyRead o f.st []

/-- A write's answer reaches its requester. -/
def Mach.replyWrite (m : Mach) (o : Origin) (st : Status) : Mach :=
  match o with
  | .site t b tag => m.siteRsp t b 0x22 tag st []
  | _ => m.emit (.writeAck o st)

/-- The party that issues a requester's atomic operations (R283). -/
def Origin.party : Origin → Party
  | .port _ _ _ => {}
  | .site t _ _ => ⟨1, t⟩
  | .core c _ => ⟨2, c⟩
  | .bar2 n _ => ⟨5, n⟩
  | .agent p _ _ _ => p

/-- An atomic's answer reaches its requester: ATOMIC_RSP, or the registers of the core or host port unless it is being
fenced (R420, R458, R480, Table 13.6). -/
def Mach.replyAtomic (m : Mach) (o : Origin) (st : Status) (data : Bytes) : Mach :=
  match o with
  | .site t b tag => m.siteRsp t b 0x23 tag st data
  | .core c _ =>
    let x := m.coreAt c
    if x.fencing.isSome || x.state = 3 then m
    else (m.setCoreAt c { x with atomGo := st.code, atomRes := padTo 256 data }).emit (.atomicRsp o.party st data)
  | .bar2 n _ =>
    let x := nth {} m.hp.dev n
    if x.stopped then m
    else
      (m.setHp { m.hp with dev := setAt m.hp.dev n { x with atomGo := st.code, atomRes := padTo 256 data } }).emit
        (.atomicRsp o.party st data)
  | _ => m.emit (.atomicRsp o.party st data)

/-- A held completion is released: its answer leaves (R94). -/
def Mach.heldDone (m : Mach) (line : Nat) (h : HeldRsp) (lost : Option Status := none) : Mach :=
  let m := m.setGrid { m.grid with openWr := m.grid.openWr.erase (h.org, h.ctx, line) }
  match h.rsp, lost with
  | none, none => m.replyWrite h.org .done
  | none, some st => m.replyWrite h.org st
  | some r, none => m.replyAtomic h.org r.1 r.2
  | some _, some st => m.replyAtomic h.org st []

/-- The port becomes the most recently served of a target (R124). -/
def Mach.served (m : Mach) (target g : Nat) : Mach :=
  m.setGrid { m.grid with served := smod [] m.grid.served target fun l => l.filter (· ≠ g) ++ [g] }

/-! Directory messages. -/

/-- A line as its home floor reads it for a FILL: its 256 bytes, or the status that names why not. -/
def Mach.lineFor (m : Mach) (epoch ctx pa : Nat) : Except Fail Bytes :=
  let p := Place.ofPa pa
  match worstFail (m.placeFails epoch ctx p ++ (if m.poisoned pa 256 then [⟨.failMemLost, p.ref⟩] else [])) with
  | some f => .error f
  | none => .ok ((List.range 256).map fun i => m.rdByte ctx (pa + i))

/-- A FILL is processed from state N: the line is read, DATA is sent and the tag recorded (Table 3.2). -/
def Mach.answerFill (m : Mach) (epoch ctx pa way : Nat) (item : Bool := false) : Mach :=
  let line := pa / 256 * 256
  let m := m.arrayRead epoch line 256 .grid item
  match m.lineFor epoch ctx line with
  | .ok d => (m.setDie { m.die with dir := sput m.die.dir line (.held way) }).putBridge (paFloor pa) bData (pa / 256) 0 d
  | .error f => m.putBridge (paFloor pa) bData (pa / 256) f.st.code []

/-- The way a FILL names is gone from the home's directory (R92). -/
def Mach.dropVictim (m : Mach) (pa way : Nat) : Mach :=
  m.setDie { m.die with dir := m.die.dir.filter fun e =>
    match e.2 with
    | .held w => !(w = way && rlcSet e.1 = rlcSet pa && paFloor e.1 = paFloor pa)
    | .inval _ _ => true }

/-- A FILL reaches the home (R92, Table 3.2); `ecc` is what the array has come to hold. -/
def Mach.fillAt (m : Mach) (ctx epoch pa way : Nat) (ecc : Ecc) : Mach :=
  let line := pa / 256 * 256
  let m := (m.plant line ecc).dropVictim pa way
  match sget m.die.dir line with
  | some (.inval h fs) => m.setDie { m.die with dir := sput m.die.dir line (.inval h (fs ++ [(ctx, epoch, way)])) }
  | _ => m.answerFill epoch ctx pa way

/-- Table 3.1's DATA in state F: the line is installed while the home's directory shows it or an INV follows, and every queued
requester is answered; once the home has dropped it, the requesters alone are (DEDUCED, log 72). -/
def Mach.dataAt (m : Mach) (fl pa : Nat) (st : Status) (data : Bytes) : Mach :=
  match m.rlcFind fl pa with
  | some (w, .fill a q) =>
    let keep : Bool := st.isDone && shas m.die.dir a
    let r := if keep then sput m.die.rlc (rlcKey fl pa w) (.shared a data) else sdel m.die.rlc (rlcKey fl pa w)
    let m := m.setDie { m.die with rlc := r }
    q.foldl (fun m x => m.readEnds x.1 (paMedium a)
      (if st.isDone then .ok ((data.drop x.2.1).take x.2.2) else .error ⟨st, {}⟩)) m
  | _ => m

/-- DATA that is under way reaches the floor that asked before anything else is done with its line (log 8). -/
def Mach.landData (m : Mach) (epoch ctx pa : Nat) : Mach :=
  let line := pa / 256 * 256
  let other := 1 - paFloor pa
  match sget m.die.dir line with
  | some (.held _) =>
    match m.rlcFind other pa with
    | some (_, .fill _ _) =>
      match m.lineFor epoch ctx line with
      | .ok d => m.dataAt other pa .done d
      | .error f => m.dataAt other pa f.st []
    | _ => m
  | _ => m

/-- INV reaches the remote floor: its copy goes, a pending fill stays, and INV_ACK is sent (Table 3.1). -/
def Mach.invAt (m : Mach) (fl pa : Nat) : Mach := (m.rlcInvalidate fl pa).putBridge fl bInvAck (pa / 256) 0 []

/-- A write or atomic operation that has been performed at its home meets the directory (Table 3.2): its completion is held, and INV
sent, or it is complete. `d` is the line's state before it. -/
def Mach.dirWrite (m : Mach) (d : Option DirLine) (fl pa : Nat) (h : HeldRsp) : Mach :=
  let line := pa / 256 * 256
  let wait (l : DirLine) : Mach :=
    (m.setDie { m.die with dir := sput m.die.dir line l }).setGrid { m.grid with openWr := m.grid.openWr ++ [(h.org, h.ctx, line)] }
  match d with
  | none => m.heldDone line h
  | some (.held _) =>
    if paFloor pa ≠ fl then (m.setDie { m.die with dir := sdel m.die.dir line }).heldDone line h
    else (wait (.inval [h] [])).putBridge (paFloor pa) bInv (pa / 256) 0 []
  | some (.inval held fills) => wait (.inval (held ++ [h]) fills)

/-- A write or atomic operation that was not performed leaves no tag for the copy that its own floor dropped (Table 3.1). -/
def Mach.dirFailed (m : Mach) (fl pa : Nat) : Mach :=
  match sget m.die.dir (pa / 256 * 256) with
  | some (.held _) => if paFloor pa ≠ fl then m.setDie { m.die with dir := sdel m.die.dir (pa / 256 * 256) } else m
  | _ => m

/-! Where a transaction goes. -/

/-- The requests of a transaction by kind. -/
def TxnKind.isWrite : TxnKind → Bool | .read _ => false | .write _ _ => true | .atomic _ _ _ => false
def TxnKind.isAtomic : TxnKind → Bool | .read _ => false | .write _ _ => false | .atomic _ _ _ => true
def TxnKind.release : TxnKind → Bool | .read _ => false | .write _ r => r | .atomic _ _ r => r

/-- The places that a transaction of an entry goes to, its target first (R140): a MIRROR read the copy it is served from, a MIRROR
write both, home first. -/
def Mach.txnPlaces (m : Mach) (o : Origin) (k : TxnKind) (slot : Nat) (e : SegEnt) (va : Nat) : List Place :=
  if !e.mirror then [e.place (va - e.va) o.floor]
  else match k with
    | .read _ => [e.place (va - e.va) (m.mirrorFloor o.floor slot)]
    | .write _ _ => m.writeCopies ⟨slot, e, e.place (va - e.va) e.home, 0, va, 0⟩
    | .atomic _ _ _ => [e.place (va - e.va) e.home]

/-- A target that can take no access to a line now: its row or page is being copied, its stack is in self-refresh or re-locks (R169,
R194, R565). -/
def Mach.accessWaits (m : Mach) (p : Place) (pa : Nat) : Bool :=
  p.medium = 1 && (m.isCopying pa || m.clk.relock.contains p.stack || (m.stackAt p.stack).selfRefresh)

/-- The contents of a unit are being moved (R288, Table 19.9 step 2). -/
def Mach.isMoving (m : Mach) (u : UnitRef) : Bool := m.cad.moves.any fun x => x.unit = u && x.stage = 1

/-- A transaction of kind `k` cannot be served at a place now: a channel takes writes while its queue of 64 has room, and moves no
data for others while its grid side waits (R153, R157, R179); an atomic operation waits for a move of its unit (R288). -/
def Mach.blocked (m : Mach) (k : TxnKind) (p : Place) (pa : Nat) : Bool :=
  m.accessWaits p pa || (k.isAtomic && m.isMoving p.ref) ||
    (p.medium = 1 && (if k.isWrite then (sgetD [] m.stk.writeQ (p.stack * 32 + p.unit)).length ≥ 64
      else m.gridHeld (p.stack * 32 + p.unit)))

/-- A read of the same port to the line waits for its fill (R128). -/
def Mach.fillHeld (m : Mach) (o : Origin) (pa : Nat) : Bool :=
  match m.rlcFind o.floor pa with
  | some (_, .fill _ q) => q.any fun x => x.1.g = o.g
  | _ => false

/-- Two transactions to one line. -/
def Txn.sameLine (a b : Txn) : Bool := a.ctx = b.ctx && a.va / 256 = b.va / 256

/-- `b` comes after the earlier `a`: of one port to one line (R128), a read or an atomic operation that arrives after a write or an
atomic one, or a write after an atomic one (R126, R131, R286). -/
def Txn.before (a b : Txn) : Bool :=
  a.sameLine b && (a.org.g = b.org.g || (!a.kind.isRead && !b.kind.isWrite) || (a.kind.isAtomic && b.kind.isWrite))

/-- A transaction cannot be served now: its place takes none, the bridge it crosses retrains (R99), its line's fill is pending, or one
that comes before it waits at the line's other copy (R128). -/
def Mach.txnBlocked (m : Mach) (t : Txn) : Bool :=
  match m.findSeg t.ctx t.va with
  | none => false
  | some (slot, e) =>
    let ps := m.txnPlaces t.org t.kind slot e t.va
    let pa := (e.place (t.va - e.va) t.org.floor).pa (t.va % 256)
    if t.kind.isRead && m.rlcStops m.fb.epoch t.org t.ctx e pa t.way then false
    else (ps.any fun p => m.blocked t.kind p (p.pa (t.va % 256)) || (m.die.retraining && p.floor ≠ t.org.floor)) ||
      (!t.kind.isRead && m.fillHeld t.org pa) ||
      (e.mirror && m.grid.wait.any fun q => q.2.any fun a => a.seq < t.seq && a.before t)

/-- The target of a transaction: a slice or channel. -/
def Mach.txnTarget (m : Mach) (t : Txn) : Option Nat :=
  match m.findSeg t.ctx t.va with
  | none => none
  | some (slot, e) => ((m.txnPlaces t.org t.kind slot e t.va).head?).map Place.target

/-- A transaction is lowered at its target now (R199, R204): not at the other floor's, where it comes from the bridge ingress. -/
def Mach.txnLowered (m : Mach) (target : Nat) (t : Txn) : Bool :=
  let floor := if target < 128 then target / 64 else (target - 128) / 96
  floor = t.org.floor && m.lowered t.org (if target < 128 then 0 else 1)

/-! Reads. -/

/-- A read joins the merge window of a line that is open for its context, or opens one (R125): the window's number, and whether it
joined. `since` counts GCLK cycles from the opening of the line's window. -/
def Mach.joinWindow (m : Mach) (ctx line since : Nat) : Mach × Nat × Bool :=
  let open_ := match sget m.grid.merge line with
    | some w => if m.cfg kGridMergeEnable = 1 && since ≤ m.cfg kGridMergeWindow && w.1 = ctx then some w.2 else none
    | none => none
  match open_ with
  | some n => (m, n, true)
  | none =>
    (m.setGrid { m.grid with merge := sput m.grid.merge line (ctx, m.grid.mergeSeq), mergeSeq := m.grid.mergeSeq + 1 },
      m.grid.mergeSeq, false)

/-- A read is served at its target, by another read's access where it attached to that one (R125); the errors of the bytes it asks for
are met all the same (R134). -/
def Mach.readTarget (m : Mach) (t : Txn) (epoch len slot : Nat) (e : SegEnt) (p : Place) : Mach :=
  let pa := p.pa (t.va % 256)
  let m := m.served p.target t.org.g
  let m := if t.merged then (m.bump (key (0x9100 + t.org.g) 4)).eccMeet epoch Status.failMemLost.code false (readGrains pa len)
    else m.arrayRead epoch pa len
  m.readEnds t.org e.medium (m.readPiece epoch t.ctx t.org.floor ⟨slot, e, p, pa, t.va, len⟩)

/-- A read of one line is performed (R88, R91). -/
def Mach.performRead (m : Mach) (t : Txn) (len : Nat) : Mach :=
  let epoch := m.fb.epoch
  match m.xlate t.org t.ctx t.va with
  | (m, none) => (m.bump kGridXlateFaults).replyRead t.org .failAborted []
  | (m, some (slot, e)) =>
    if !e.rd then (m.bump kGridXlateFaults).replyRead t.org .failAborted []
    else
      let fl := t.org.floor
      let p := (m.txnPlaces t.org t.kind slot e t.va).headD (e.place (t.va - e.va) fl)
      let pa := p.pa (t.va % 256)
      if !m.rlcStops epoch t.org t.ctx e pa t.way then
        (if p.floor = fl || e.mirror then m else m.putBridge fl bRead (pa / 256) t.ctx []).readTarget t epoch len slot e p
      else match m.rlcFind fl pa with
        | some (_, .shared _ d) => m.readEnds t.org e.medium (.ok ((d.drop (pa % 256)).take len))
        | some (w, .fill a q) =>
          m.setDie { m.die with rlc := sput m.die.rlc (rlcKey fl pa w) (.fill a (q ++ [(t.org, pa % 256, len)])) }
        | none =>
          match worstFail (m.placeFails epoch t.ctx p) with
          | some f => m.replyRead t.org f.st []
          | none =>
            let w := (m.rlcWay epoch t.org t.ctx e.noAlloc pa t.way).getD 0
            (m.setDie { m.die with
              rlc := sput m.die.rlc (rlcKey fl pa w) (.fill (pa / 256 * 256) [(t.org, pa % 256, len)]) }).putBridge
              fl bFill (pa / 256) w []

/-! Writes. -/

/-- A write that has been performed enters the write queues of the channels it lies on (R153, R156). -/
def Mach.queueWrite (m : Mach) (ps : List Place) (b n : Nat) : Mach :=
  ps.foldl (fun m p =>
    if p.medium = 0 then m
    else m.setStk { m.stk with writeQ := smod [] m.stk.writeQ (p.stack * 32 + p.unit) (· ++ [(p.pa b, n)]) }) m

/-- A write of one line is performed at its home, both copies of a MIRROR line in order (R88, R93, R94, R126, Table 3.2). -/
def Mach.performWrite (m : Mach) (t : Txn) (data : Bytes) : Mach :=
  let epoch := m.fb.epoch
  match m.xlate t.org t.ctx t.va with
  | (m, none) => (m.bump kGridXlateFaults).replyWrite t.org .failAborted
  | (m, some (slot, e)) =>
    if !e.wr then (m.bump kGridXlateFaults).replyWrite t.org .failAborted
    else
      let fl := t.org.floor
      let n := data.length
      let b := t.va % 256
      let ps := m.txnPlaces t.org t.kind slot e t.va
      let p := ps.headD (e.place (t.va - e.va) fl)
      let m := m.served p.target t.org.g
      let m := if e.mirror then m else m.crossWrite fl (p.pa b) t.ctx data
      let m := ps.foldl (fun m p => m.writeReads epoch t.ctx (p.pa b) n) m
      let d := sget m.die.dir (p.pa b / 256 * 256)
      let w := m.putPiece epoch t.ctx ⟨slot, e, p, p.pa b, t.va, n⟩ data
      match w.2 with
      | some f => (if e.mirror then w.1 else w.1.dirFailed fl (p.pa b)).replyWrite t.org f.st
      | none =>
        let m := (w.1.writeCount t.org e.medium n).queueWrite ps b n
        if e.mirror then m.replyWrite t.org .done else m.dirWrite d fl (p.pa b) { org := t.org, ctx := t.ctx }

/-! Atomic operations. -/

/-- An atomic operation reaches its unit: the errors of the bytes it reads, the operation, and the bytes it moves (R127, R131, R163,
R281). -/
def Mach.atomicAt (m : Mach) (epoch : Nat) (p : Party) (floor ctx va word : Nat) (operand : Bytes) (item : Bool := false) : AtomRes :=
  let w := AtomWord.ofNat word
  match m.atomPiece floor ctx va w with
  | none => m.atomic epoch p floor ctx va w operand
  | some q =>
    if (m.atomRefused epoch ctx va w operand q).isSome then m.atomic epoch p floor ctx va w operand
    else
      let m := (m.crossWrite floor q.pa ctx operand).eccMeet epoch Status.failMemLost.code true
        (readGrains q.pa w.bytes ++ partGrains q.pa w.bytes)
      let m := m.writeReads epoch ctx q.pa w.bytes
      let r := m.atomic epoch p floor ctx va w operand
      if r.pa.isNone then { r with m := r.m.dirFailed floor q.pa }
      else if q.place.medium = 0 then r
      else { r with m := (r.m.openRowOf q.pa false).movedBy item (paChan q.pa) (writeMoves q.pa w.bytes) .grid }

/-- An atomic operation that its entry allows counts as 32 bytes at its regulator, performed or not (R201). -/
def Mach.atomicBytes (m : Mach) (o : Origin) (ctx va word : Nat) : Mach :=
  match m.atomPiece o.floor ctx va (AtomWord.ofNat word) with
  | some q => m.regCount o q.place.medium 32
  | none => m

/-- A requester's atomic operation is performed at its home and counted; its response waits where the other floor holds the line
(R94, R127, R131, R201, Table 3.2). -/
def Mach.performAtomic (m : Mach) (t : Txn) (word : Nat) (operand : Bytes) : Mach :=
  let epoch := m.fb.epoch
  let o := t.org
  let x := m.xlate o t.ctx t.va
  let m : Mach := match x.2 with
    | none => x.1
    | some (_, e) => x.1.served (e.place (t.va - e.va) (if e.mirror then e.home else o.floor)).target o.g
  let m := (m.bump (key (0x9100 + o.g) 3)).atomicBytes o t.ctx t.va word
  let d := match m.findSeg t.ctx t.va with
    | some (_, e) => sget m.die.dir ((e.place (t.va - e.va) o.floor).pa (t.va % 256) / 256 * 256)
    | none => none
  let r := m.atomicAt epoch o.party o.floor t.ctx t.va word operand
  match r.pa with
  | none => r.m.replyAtomic o r.st r.data
  | some pa => r.m.dirWrite d o.floor pa { org := o, ctx := t.ctx, rsp := some (r.st, r.data) }

/-- A transaction is performed, an itemless one under the epoch that is current then (R148, R271). -/
def Mach.perform (m : Mach) (t : Txn) : Mach :=
  match t.kind with
  | .read n => m.performRead t n
  | .write d _ => m.performWrite t d
  | .atomic w b _ => m.performAtomic t w b

/-! Waiting transactions (R124, R128, R129, R131, R153, R154, R286). -/

/-- A transaction joins its target's queue. -/
def Mach.enqueue (m : Mach) (target : Nat) (t : Txn) : Mach :=
  m.setGrid { m.grid with wait := smod [] m.grid.wait target (· ++ [t]) }

/-- The oldest write of a channel's write queue goes to its array (R156, Table 2.16). -/
def Mach.issueWrite (m : Mach) (c : Nat) (w : Nat × Nat) : Mach :=
  let rest := (sgetD [] m.stk.writeQ c).drop 1
  let aged := sgetD 0 m.stk.agedW c
  let m := m.setStk { m.stk with
    writeQ := if rest.isEmpty then sdel m.stk.writeQ c else sput m.stk.writeQ c rest
    agedW := if aged ≤ 1 then sdel m.stk.agedW c else sput m.stk.agedW c (aged - 1) }
  ((m.openRowOf w.1 false).moved c (writeMoves w.1 w.2) .grid).bump (key (0x9200 + c) 2) w.2

/-- Those of a queue, in order of arrival, that come after no other of it. -/
def firstOnes : List Txn → List Txn → List Txn
  | _, [] => []
  | pre, t :: r => (if pre.any fun a => a.before t then [] else [t]) ++ firstOnes (pre ++ [t]) r

/-- The one of the least recently served port; of one port, the oldest. -/
def Mach.pickLrs (m : Mach) (target : Nat) (c : List Txn) : Option Txn :=
  let order := sgetD [] m.grid.served target
  match c.find? fun t => !order.contains t.org.g with
  | some t => some t
  | none => match order.find? fun g => c.any fun t => t.org.g = g with
    | some g => c.find? fun t => t.org.g = g
    | none => none

/-- The order of R124: those that have waited GRID_AGE_PROMOTE first, normal before lowered, the least recently served port first. -/
def Mach.pickGrid (m : Mach) (target : Nat) (c : List Txn) : Option Txn :=
  let low := m.txnLowered target
  [fun t : Txn => t.aged && !low t, fun t => t.aged && low t, fun t => !t.aged && !low t, fun t => !t.aged && low t].findSome?
    fun p => m.pickLrs target (c.filter p)

/-- A read that hits an open row. -/
def Mach.rowHit (m : Mach) (t : Txn) : Bool :=
  t.kind.isRead && (match m.findSeg t.ctx t.va with
    | some (slot, e) => (m.txnPlaces t.org t.kind slot e t.va).any fun p => m.rowOpen (p.pa (t.va % 256))
    | none => false)

/-- A read of a queue is attached to another of it that goes to the array for both (R125). -/
def attached (q : List Txn) (t : Txn) : Bool := t.merged && q.any fun l => !l.merged && l.win = t.win

/-- Those of a target's queue that nothing of it comes before, and that go by themselves. -/
def Mach.front (m : Mach) (target : Nat) : List Txn :=
  let q := sgetD [] m.grid.wait target
  (firstOnes [] q).filter fun t => !attached q t

/-- A channel controller takes waiting reads and atomic operations into its queue while it has room (R153). -/
def Mach.takeIn : Nat → Mach → Nat → Mach
  | 0, m, _ => m
  | fuel + 1, m, target =>
    let q := sgetD [] m.grid.wait target
    if target < 128 || q.countP (·.queued) ≥ 64 then m
    else match m.pickGrid target ((m.front target).filter fun t => !t.queued && !t.kind.isWrite) with
      | none => m
      | some t => Mach.takeIn fuel (m.setGrid { m.grid with
          wait := sput m.grid.wait target (q.map fun x => if x = t then { t with queued := true } else x) }) target

/-- The transaction a target serves next: a slice by R124; at a channel those that have aged go first, by R124, then it takes writes
into its write queue by R124, and issues row hits and the oldest of its read queue (R154). -/
def Mach.nextTxn (m : Mach) (target : Nat) : Option Txn :=
  let c := (m.front target).filter fun t => !m.txnBlocked t
  if target < 128 then m.pickGrid target c
  else
    let r := c.filter fun t => t.queued
    match m.pickGrid target (c.filter fun t => t.aged && (t.queued || t.kind.isWrite)), m.pickGrid target (c.filter fun t => t.kind.isWrite) with
    | some t, _ => some t
    | none, some t => some t
    | none, none => [fun t : Txn => m.rowHit t, fun _ => true].findSome? fun p => r.find? p

/-- One waiting transaction of a target is served, and with a read those attached to it (R125). -/
def Mach.serveTxn (m : Mach) (target : Nat) (t : Txn) : Mach :=
  let q := sgetD [] m.grid.wait target
  let tail := if t.merged || t.win.isNone then [] else q.filter fun x => x.merged && x.win = t.win
  let m := m.setGrid { m.grid with wait := sput m.grid.wait target ((q.erase t).filter fun x => !tail.contains x) }
  (tail.foldl (fun m x => m.perform x) (m.perform t)).takeIn 64 target

/-- The writes at the front of a channel's write queue that have aged go to the array first of all, while its grid side may move data
(R154). -/
def Mach.issueAged : Nat → Mach → Nat → Mach
  | 0, m, _ => m
  | fuel + 1, m, c =>
    match sgetD 0 m.stk.agedW c, sgetD [] m.stk.writeQ c with
    | _ + 1, w :: _ => if m.gridHeld c then m else Mach.issueAged fuel (m.issueWrite c w) c
    | _, _ => m

/-- The waiting transactions of a target are served in order until none can be. -/
def Mach.serveNext : Nat → Mach → Nat → Mach
  | 0, m, _ => m
  | fuel + 1, m, target =>
    match m.nextTxn target with
    | none => m
    | some t => Mach.serveNext fuel (m.serveTxn target t) target

/-- As `serveNext`, a channel's aged writes first (R154). -/
def Mach.serveTarget (fuel : Nat) (m : Mach) (target : Nat) : Mach :=
  Mach.serveNext fuel (if target < 128 then m else m.issueAged 64 (target - 128)) target

/-- A read that its own floor's remote line cache serves, or fills for: it goes to no target (R91). -/
def Mach.staysHome (m : Mach) (t : Txn) : Bool :=
  t.kind.isRead && (match m.findSeg t.ctx t.va with
    | some (_, e) => m.rlcStops m.fb.epoch t.org t.ctx e ((e.place (t.va - e.va) t.org.floor).pa (t.va % 256)) t.way
    | none => false)

/-- A transaction stands before its target: it is served now with what waits there before it, or waits. -/
def Mach.enter (m : Mach) (t : Txn) (wait : Bool) : Mach :=
  match m.txnTarget t with
  | none => m.perform t
  | some k =>
    let q := sgetD [] m.grid.wait k
    if (q.isEmpty && !wait && !m.txnBlocked t) || (m.staysHome t && !q.any fun a => a.sameLine t && a.org.g = t.org.g) ||
        (t.merged && !attached q t) then m.perform t
    else
      let m := (m.enqueue k t).takeIn 64 k
      if wait then m else Mach.serveTarget (q.length + 1) m k

/-- A held transaction may go: a RELEASE write once earlier writes of its port and context are complete, another once nothing held
comes before it (R128, R129). -/
def Mach.relReady (m : Mach) : List Txn → List Txn → Option Txn
  | _, [] => none
  | pre, t :: r =>
    if !(pre.any fun a => a.before t) &&
        (!t.kind.release || (!m.writesOpen t.org t.ctx && !pre.any fun a => a.org.g = t.org.g && a.ctx = t.ctx)) then some t
    else Mach.relReady m (pre ++ [t]) r

/-- Held transactions go, in order, as they may. -/
def Mach.releaseReady : Nat → Mach → Mach
  | 0, m => m
  | fuel + 1, m =>
    match m.relReady [] m.grid.relWait with
    | none => m
    | some t => Mach.releaseReady fuel ((m.setGrid { m.grid with relWait := m.grid.relWait.erase t }).enter t false)

/-- As `releaseReady`, for all that is held now; completion records go with them. -/
def Mach.relSettle (m : Mach) : Mach := (Mach.releaseReady m.grid.relWait.length m).recordsGo

/-- A port takes no transaction (R121): that of a fenced party, of a site that serves no transactions, of a module of it that is
down, or of a floor that is lost or withdrawn. -/
def Mach.portClosed (m : Mach) (o : Origin) : Bool :=
  let site (t b : Nat) : Bool := !bitOf (m.siteAt t).up b || (m.siteAt t).state ≠ 5 || (m.siteAt t).fencing.isSome
  shas m.grid.closed o.g || m.floorLost o.floor || m.floorGone o.floor || (match o with
    | .site t b _ => site t b
    | .port f p _ => p < 32 && site (2 * f + p / 16) (p % 16)
    | .core c _ => (m.coreAt c).fencing.isSome || (m.coreAt c).state = 3
    | .bar2 n _ => (nth {} m.hp.dev n).stopped
    | .agent _ _ _ _ => false)

/-- A transaction arrives at a grid port with what its line's array has come to hold; one that is no read closes the line's merge window
(R126). It is performed, or waits at its target, behind an earlier one to its line (R126, R128, R131, R286), or as a RELEASE write
(R129). -/
def Mach.arrive (m : Mach) (o : Origin) (ctx va : Nat) (k : TxnKind) (ecc : Ecc) (since way : Nat) (wait : Bool) : Mach :=
  if m.portClosed o then m
  else
    let t : Txn := { org := o, ctx, va, kind := k, way, seq := m.grid.txnSeq }
    let m := m.setGrid { m.grid with txnSeq := m.grid.txnSeq + 1 }
    let r : Mach × Txn := match m.findSeg ctx va with
      | none => (m, t)
      | some (slot, e) =>
        let ps := m.txnPlaces o k slot e va
        let pa := (ps.headD (e.place (va - e.va) o.floor)).pa (va % 256)
        let m := m.plant (pa / 256 * 256) ecc
        if !k.isRead then (ps.foldl (fun m p => m.closeMerge (p.pa (va % 256))) m, t)
        else if m.rlcStops m.fb.epoch o ctx e pa way then (m, t)
        else
          let j := m.joinWindow ctx (pa / 256 * 256) since
          (j.1, { t with win := some j.2.1, merged := j.2.2 })
    let m := r.1
    let t := r.2
    if (k.release && m.writesOpen o ctx) ||
        (m.grid.relWait.any fun x => x.before t || (k.release && x.org.g = o.g && x.ctx = ctx)) then
      m.setGrid { m.grid with relWait := m.grid.relWait ++ [t] }
    else (m.enter t wait).relSettle

/-- Every target's waiting transactions are served (time passes). -/
def Mach.serveAll (m : Mach) : Mach :=
  ((skeys m.grid.wait).foldl (fun m k => Mach.serveTarget (sgetD [] m.grid.wait k).length m k) m).relSettle

/-- The transactions that wait for a line of a target are served. -/
def Mach.serveLine (m : Mach) (pa : Nat) : Mach :=
  let k := (Place.ofPa pa).target
  (Mach.serveTarget (sgetD [] m.grid.wait k).length m k).relSettle

/-- A line's outstanding invalidation ends: held completions are released and queued fills processed (R94, Table 3.2). -/
def Mach.ackLine (m : Mach) (pa : Nat) : Mach :=
  let line := pa / 256 * 256
  match sget m.die.dir line with
  | some (.inval held fills) =>
    let m := m.setDie { m.die with dir := sdel m.die.dir line }
    let m := held.foldl (fun m h => m.heldDone line h) m
    fills.foldl (fun m f => m.answerFill f.2.1 f.1 pa f.2.2) m
  | _ => m

/-- An item's access, or a fence, takes the INV_ACK that a line awaits; the command that brings it then finds nothing (log 8). -/
def Mach.ackNow (m : Mach) (pa : Nat) : Mach :=
  let line := pa / 256 * 256
  match sget m.die.dir line with
  | some (.inval _ _) =>
    ((m.rlcInvalidate (1 - paFloor pa) pa).setDie { (m.rlcInvalidate (1 - paFloor pa) pa).die with
      ackEarly := smod 0 m.die.ackEarly line (· + 1) }).ackLine pa
  | _ => m

/-- INV_ACK at the home (R94, Table 3.2). -/
def Mach.invAckAt (m : Mach) (pa : Nat) : Mach :=
  let line := pa / 256 * 256
  match sgetD 0 m.die.ackEarly line with
  | n + 1 => m.setDie { m.die with ackEarly := if n = 0 then sdel m.die.ackEarly line else sput m.die.ackEarly line n }
  | 0 => (m.ackLine pa).relSettle

/-- Those of a queue that meet `p`, with all that come before one of them, in order of arrival. -/
def aheadOf (p : Txn → Bool) : List Txn → List Txn
  | [] => []
  | t :: r =>
    let l := aheadOf p r
    if p t || l.any fun b => t.before b then t :: l else l

/-- The waiting transactions that meet `p` are served, each target's in order of arrival, those that come before one of them with it
(R128, R131, R286). -/
def Mach.serveThose (m : Mach) (p : Txn → Bool) : Mach :=
  m.grid.wait.foldl (fun m q => (aheadOf p q.2).foldl (fun m t => m.serveTxn q.1 t) m) m

/-- Lines for which a completion is held of a requester that meets `p`. -/
def Mach.heldLines (m : Mach) (p : Origin → Bool) : List Nat :=
  (m.die.dir.filter fun x => match x.2 with | .inval hs _ => hs.any fun h => p h.org | .held _ => false).map (·.1)

/-- Every transaction of a requester that meets `p` completes at its target, its answer discarded (R664 step 2): those that wait, those
held for INV_ACK, then RELEASE writes as they may (R129), and reads that wait for a fill. -/
def Mach.drain (m : Mach) (p : Origin → Bool) : Mach :=
  let out := m.out
  let acks (m : Mach) : Mach := (m.heldLines p).foldl (fun m a => m.ackNow a) m
  let m := acks (m.serveThose fun t => p t.org)
  let m := (m.grid.relWait.filter fun t => p t.org).foldl (fun m t =>
    acks ((m.setGrid { m.grid with relWait := m.grid.relWait.erase t }).perform t)) m
  let m := m.setDie { m.die with rlc := smap (fun l => match l with
    | .fill a q => .fill a (q.filter fun x => !p x.1)
    | .shared a d => .shared a d) m.die.rlc }
  let fresh := (m.out.take (m.out.length - out.length)).filter fun e =>
    match e with
    | .readData o _ _ => !p o
    | .writeAck o _ => !p o
    | _ => true
  m.setOut (fresh ++ out)

/-- A transaction that a fence waits for cannot complete now: an atomic operation on a unit or row that is being moved (R288), or an
access to a line that its target holds up. -/
def Mach.fenceHeld (m : Mach) (p : Origin → Bool) : Bool :=
  m.grid.wait.any fun q => (aheadOf (fun t => p t.org) q.2).any fun t => t.kind.isAtomic && m.txnBlocked t

/-- DATA reaches the floor that asked, and what waited behind its readers goes (R91, R128). -/
def Mach.dataIn (m : Mach) (fl pa : Nat) (st : Status) (data : Bytes) : Mach := (m.dataAt fl pa st data).serveLine pa

/-- Both remote line caches are emptied, with the tags that mirror them (R119, RLC_FLUSH). A pending fill stays for its readers, and
installs nothing once its tag is gone. -/
def Mach.rlcFlush (m : Mach) : Mach :=
  m.setDie { m.die with
    rlc := m.die.rlc.filter fun e => match e.2 with | .fill _ _ => true | .shared _ _ => false
    dir := m.die.dir.filter fun e => match e.2 with | .held _ => false | .inval _ _ => true }

/-! Accesses of items and engines, their exchanges ended within the step (log 8). -/

/-- A row or page whose copy an item's access would wait for (R169). -/
def Mach.itemRow (m : Mach) (pa : Nat) : Mach := if paMedium pa = 1 then m.endCopy pa else m

/-- What waits at the targets and comes before an access of an item goes before it (R128, R131, R286). -/
def Mach.behind (m : Mach) (t : Txn) : Mach := if m.grid.wait.isEmpty then m else m.serveThose fun a => a.before t

/-- An item's read that misses its floor's remote line cache fills it where it may allocate, and crosses the bridge otherwise (R91,
R92); one of a line whose fill is pending waits for it, and a line in W for its INV_ACK (Tables 3.1, 3.2). Which way it takes where
none is free is a free value. -/
def Mach.itemFill (m : Mach) (o : Origin) (epoch ctx : Nat) (noAlloc : Bool) (pa : Nat) : Mach :=
  let fl := o.floor
  let line := pa / 256 * 256
  match m.rlcFind fl pa with
  | some (_, .shared _ _) => m
  | some (_, .fill _ _) =>
    let x := (m.ackNow pa).landData epoch ctx pa
    if (x.rlcHit epoch fl pa 1).isSome then x else x.putBridge fl bRead (pa / 256) ctx []
  | none =>
    let m := m.ackNow pa
    let cross : Mach := m.putBridge fl bRead (pa / 256) ctx []
    if !bitOf (m.cfgE epoch kRlcEnable) fl then cross
    else match m.rlcWay epoch o ctx noAlloc pa (Config.unstated 92 [line]), sget m.die.dir line with
    | some w, none =>
      let m := ((m.putBridge fl bFill (pa / 256) w []).dropVictim pa w).answerFill epoch ctx pa w true
      match m.lineFor epoch ctx line with
      | .ok d => m.setDie { m.die with rlc := sput m.die.rlc (rlcKey fl pa w) (.shared line d) }
      | .error _ => m
    | _, _ => cross

/-- One piece of a run that an item reads at a port, or an engine on its stack path: translation, by one cache for both (R216), remote
line cache, array and regulator. -/
def Mach.itemReadOne (m : Mach) (o : Origin) (by_ : Mover) (epoch ctx va n : Nat) : Mach × Except Fail Bytes :=
  let aborted : Except Fail Bytes := .error ⟨.failAborted, ⟨0x0B, ctx⟩⟩
  let port : Bool := match by_ with | .path => false | _ => true
  let x := m.xlate o ctx va
  let m := x.1
  match x.2 with
  | none => (m.bump kGridXlateFaults, aborted)
  | some (slot, e) =>
    if !e.rd then (m.bump kGridXlateFaults, aborted)
    else
      let fl := o.floor
      let p := (m.txnPlaces o (.read n) slot e va).headD (e.place (va - e.va) fl)
      let pa := p.pa (va % 256)
      let q : Piece := ⟨slot, e, p, pa, va, n⟩
      let m := m.behind { org := o, ctx, va, kind := .read n }
      match worstFail (if !e.mirror && (m.rlcHit epoch fl pa n).isSome then [] else m.placeFails epoch ctx p ++
          (if m.poisoned pa n && !(m.placeFails epoch ctx p).isEmpty then [⟨.failMemLost, p.ref⟩] else [])) with
      | some f => (m, .error f)
      | none =>
        let m := (m.itemRow pa).joinWindow ctx (pa / 256 * 256) 33 |>.1
        let far : Bool := !e.mirror && p.floor ≠ fl
        let m := if far then m.itemFill o epoch ctx e.noAlloc pa else m
        let m := if (m.rlcHit epoch fl pa n).isSome && far then m else m.arrayRead epoch pa n by_ true
        match m.readPiece epoch ctx fl q with
        | .ok d => (if port then m.readCount o e.medium n else m, .ok d)
        | .error f => (m, .error f)

/-- A run of bytes read: its bytes, or the broadest of the causes that its lines meet (R11). `by_` gives who moves a line of entry and
place. -/
def Mach.itemReadBy (m : Mach) (o : Origin) (by_ : SegEnt → Place → Mover) (epoch ctx va n : Nat) : Mach × Except Fail Bytes :=
  (pieces va n).foldl (fun acc p =>
    let who := match m.findSeg ctx p.1 with | some (_, e) => by_ e (e.place (p.1 - e.va) o.floor) | none => .grid
    let r := acc.1.itemReadOne o who epoch ctx p.1 p.2
    (r.1, match acc.2, r.2 with
      | .ok a, .ok b => .ok (a ++ b)
      | .ok _, .error e => .error e
      | .error e, .ok _ => .error e
      | .error e, .error f => .error (e.worse f))) (m, .ok [])

/-- As `itemReadBy`, through the port alone. -/
def Mach.itemRead (m : Mach) (o : Origin) (epoch ctx va n : Nat) : Mach × Except Fail Bytes :=
  m.itemReadBy o (fun _ _ => .grid) epoch ctx va n

/-- One piece of a run that an item writes at a port. -/
def Mach.itemWriteOne (m : Mach) (o : Origin) (epoch ctx va : Nat) (data : Bytes) : Mach × Option Fail :=
  let aborted : Option Fail := some ⟨.failAborted, ⟨0x0B, ctx⟩⟩
  let x := m.xlate o ctx va
  let m := x.1
  match x.2 with
  | none => (m.bump kGridXlateFaults, aborted)
  | some (slot, e) =>
    if !e.wr then (m.bump kGridXlateFaults, aborted)
    else
      let n := data.length
      let b := va % 256
      let ps := m.txnPlaces o (.write data false) slot e va
      let p := ps.headD (e.place (va - e.va) o.floor)
      let m := m.behind { org := o, ctx, va, kind := .write data false }
      let m := if e.mirror then m else m.landData epoch ctx (p.pa b)
      let m := ps.foldl (fun m p => (m.itemRow (p.pa b)).writeReads epoch ctx (p.pa b) n) m
      let w := m.writePiece epoch ctx o.floor ⟨slot, e, p, p.pa b, va, n⟩ data
      match w.2 with
      | some f => (w.1, some f)
      | none =>
        let w1 := if e.mirror then w.1 else w.1.ackNow (p.pa b)
        (ps.foldl (fun m p => if p.medium = 0 then m
          else ((m.openRowOf (p.pa b) false).movedLater (p.stack * 32 + p.unit) (writeMoves (p.pa b) n) .grid).bump
            (key (0x9200 + (p.stack * 32 + p.unit)) 2) n) (w1.writeCount o e.medium n), none)

/-- The pieces of a run written in order; those that can be are, and the broadest cause of the others is kept (R11). -/
def Mach.itemWriteAll (m : Mach) (o : Origin) (epoch ctx : Nat) : List (Nat × Nat) → Bytes → Option Fail → Mach × Option Fail
  | [], _, f => (m, f)
  | p :: ps, data, f =>
    let r := m.itemWriteOne o epoch ctx p.1 (data.take p.2)
    Mach.itemWriteAll r.1 o epoch ctx ps (data.drop p.2)
      (match f, r.2 with
        | none, x => x
        | some a, none => some a
        | some a, some b => some (a.worse b))

/-- A run of bytes written. -/
def Mach.itemWrite (m : Mach) (o : Origin) (epoch ctx va : Nat) (data : Bytes) : Mach × Option Fail :=
  m.itemWriteAll o epoch ctx (pieces va data.length) data none

/-- An atomic operation that an engine performs for a party at a port (R127, R131, R201): as a requester's, its exchange with the
other floor ended within the step. -/
def Mach.itemAtomic (m : Mach) (o : Origin) (epoch : Nat) (p : Party) (ctx va word : Nat) (operand : Bytes) : AtomRes :=
  let x := m.xlate o ctx va
  let w := AtomWord.ofNat word
  let m : Mach := match x.1.atomPiece o.floor ctx va w with
    | none => x.1
    | some q => ((x.1.behind { org := o, ctx, va, kind := .atomic word operand false }).landData epoch ctx q.pa).itemRow q.pa
  let m := (m.bump (key (0x9100 + o.g) 3)).atomicBytes o ctx va word
  let r := m.atomicAt epoch p o.floor ctx va word operand true
  match r.pa with
  | none => r
  | some pa => { r with m := (r.m.dropRemote o.floor pa).ackNow pa }

end Sys2Proof.Machine
end

