-- ==== Sys2Proof/Machine/Traverse.lean ====
section
/-! DEFINITION. Traverses: legs and their validation (Tables 11.1 to 11.5), claims, the progress of each leg frame by frame
(R383 to R392, R706), and notices (R384, R393 to R399). -/
namespace Sys2Proof.Machine

/-- Fields of a leg: lowest bit and width, the most significant first. -/
def legFields : List (Nat × Nat) :=
  [(232, 5), (227, 5), (226, 1), (225, 1), (210, 15), (195, 15), (191, 4), (189, 2), (187, 2), (186, 1), (185, 1),
   (181, 4), (165, 16), (131, 34), (97, 34), (65, 32), (0, 65)]

/-- The leg receives, and sends, a stream (R377). -/
def Leg.receives (l : Leg) : Bool := [2, 3, 4, 6, 10].contains l.op
def Leg.sends (l : Leg) : Bool :=
  [1, 3, 5, 9].contains l.op || (l.op = 4 && l.mode = 0) || (l.op = 6 && l.mode ≠ 1) || (l.op = 10 && l.mode = 2)

/-- The leg names a receiving port, and a sending port. -/
def Leg.namesPort (l : Leg) : Bool := l.uses.contains 232
def Leg.namesOut (l : Leg) : Bool := l.uses.contains 227

/-- The claims of leg `i`. -/
def Leg.claims (l : Leg) (i : Nat) : List Claim :=
  (if l.receives then [⟨l.port, false, l.stream, i⟩] else []) ++
  (if l.sends then [⟨l.outPort, true, l.streamOut, i⟩] else [])

/-- Malformed fields of leg `i` whose bits are `v`, by lowest bit, most significant first (Table 11.5, R373). -/
def legFormat (i v : Nat) : List Nat :=
  let l := Leg.ofNat v
  (if l.op = 0 || l.op > 10 then [248] else []) ++
  (if l.wait > i then [237] else []) ++
  (if l.op = 0 || l.op > 10 then [] else
    (legFields.filter fun f =>
      (!l.uses.contains f.1 && fld v f.1 f.2 ≠ 0) ||
      (f.1 = 191 && l.uses.contains 191 &&
        (7 ≤ l.fmt && l.fmt ≤ 14 || (l.fmt = 15 && (l.op = 5 || l.op = 1 || l.op = 6)))) ||
      (f.1 = 189 && l.uses.contains 189 && l.ofmt = 3) ||
      (f.1 = 187 && l.uses.contains 187 && l.mode = 3) ||
      (f.1 = 181 && l.uses.contains 181 && l.ancSrc > 8) ||
      (f.1 = 165 && l.uses.contains 165 && l.ancSrc = 0 && (signed 16 l.anchor < -512 || signed 16 l.anchor > 511)) ||
      (f.1 = 65 && l.uses.contains 65 &&
        (l.count = 0 || ((l.op = 1 && !l.convert || l.op = 2 || l.op = 3) && l.count > 2 ^ 30) ||
          ((l.op = 9 || l.op = 10) && l.count > 2 ^ 20)))).map (·.1))

/-- The plat entry `sub` of a partition (Table 15.8) as a number. -/
def Mach.plat (m : Mach) (part sub : Nat) : Nat := m.cfg (key (0x7010 + part) sub)

/-- A TRAVERSE body (Table 11.1). -/
def travAddr (desc : Nat) : Nat := fld desc 478 34 * 64
def travCount (desc : Nat) : Nat := fld desc 467 11

/-- The legs of a program as the floor reads them (R371), none for one it cannot read. -/
def Mach.readLegs (m : Mach) (fl ctx desc : Nat) : List (Option Nat) :=
  (List.range (travCount desc)).map fun i =>
    match m.readMem m.fb.epoch fl ctx (travAddr desc + 32 * i) 32 with
    | .ok b => some (leN b)
    | .error _ => none

/-- A fault of a traverse program: status, DETAIL and RESULT. -/
structure TravFault where
  st : Status
  unit : UnitRef
  result : Nat
  deriving DecidableEq, Repr

/-- Two legs before or at `i` use one tag on one port in one direction. -/
def clash (legs : List (Option Nat)) (i : Nat) (c : Claim) : Bool :=
  legs.zipIdx.any fun x => x.2 < i && match x.1 with
    | none => false
    | some v => (Leg.ofNat v).claims x.2 |>.any fun d => d.port = c.port && d.send = c.send && d.tag = c.tag

/-- The fault that a refusal names among several of one status, the first of the list in DETAIL, with RESULT the first faulty leg plus 1
among them, 0 for the body alone (R324, R375, R381). -/
def worstLeg (st : Status) (l : List (Option (UnitRef × Nat))) : Option TravFault :=
  let fs := l.filterMap id
  let first := (fs.map (·.2)).foldl (fun a b => if a = 0 then b else if b = 0 then a else min a b) 0
  fs.head?.map fun f => ⟨st, f.1, first⟩

/-- Table 11.5 for a TRAVERSE descriptor of a context on floor `fl`: the first status in the order of R12, at the first
faulty leg (R375, R381, R555). A port at fault is what DETAIL names; else the most significant field at fault (R324). -/
def Mach.travCheck (m : Mach) (fl ctx desc : Nat) : Option TravFault :=
  let part := match m.ctx? ctx with | some c => c.part | none => 0
  if travCount desc = 0 || travCount desc > 1024 then some ⟨.rejectFormat, descBit 467, 0⟩
  else
    let legs := m.readLegs fl ctx desc
    let at' (f : Nat → Leg → Nat → Option UnitRef) : Option (UnitRef × Nat) :=
      legs.zipIdx.findSome? fun x => match x.1 with
        | none => none
        | some v => (f v (Leg.ofNat v) x.2).map fun u => (u, x.2 + 1)
    let form := at' fun v l i =>
      match legFormat i v with
      | b :: _ => some (descBit b)
      | [] => ((l.claims i).find? fun c => clash legs i c).map fun c => descBit (if c.send then 195 else 210)
    let ports (l : Leg) : List Nat := (if l.namesPort then [l.port] else []) ++ (if l.namesOut then [l.outPort] else [])
    let shut := at' fun _ l _ =>
      ((ports l).find? fun p => !bitOf (m.plat part 5) p ||
        (m.confCtx ctx && m.cfg (key 0x5002 (p + 1)) = 0 && !bitOf (m.cfg kConfTrustedPorts) p)).map fun p => ⟨0x08, p⟩
    let tags := at' fun _ l _ =>
      if l.namesPort && l.stream / 8192 ≠ part then some (descBit 210)
      else if l.namesOut && l.streamOut / 8192 ≠ part then some (descBit 195) else none
    let range := at' fun _ l _ =>
      ((ports l).find? fun p => p > 23 || portFloor p ≠ fl || !(m.portAt p).usable).map fun p => ⟨0x08, p⟩
    let unread := (indexOf? Option.isNone legs).map fun i => (descBit 478, i + 1)
    let station : Option (UnitRef × Nat) :=
      if fld desc 451 16 ≠ m.cfg kStationAddr || m.cfg kStationAddr = 0xFFFF then some (descBit 451, 0) else none
    let busy := at' fun _ l i =>
      ((l.claims i).find? fun c => m.trv.live.any fun t => itemFloor t.1 = fl && t.2.claims.any fun d =>
        d.port = c.port && d.send = c.send && d.tag = c.tag).map fun c => ⟨0x08, c.port⟩
    let body : Option (UnitRef × Nat) := if fld desc 128 323 ≠ 0 then some (descBit 128, 0) else none
    ((worstLeg .rejectFormat [body, form]).orElse fun _ => (worstLeg .rejectAccess [shut, tags]).orElse fun _ =>
      (worstLeg .rejectRange [range, unread, station]).orElse fun _ => worstLeg .rejectBusy [busy])
where
  /-- The floor of an item by its key. -/
  itemFloor (k : Nat) : Nat := ringFloor (k / 2 ^ 48)

/-- The floor of an item by its key. -/
def keyFloor (k : Nat) : Nat := ringFloor (k / 2 ^ 48)

/-- Live traverse items of a floor. -/
def Mach.travOn (m : Mach) (fl : Nat) : SMap Trav := m.trv.live.filter fun t => keyFloor t.1 = fl

/-- A further traverse item with these claims would pass the limits of R382. -/
def Mach.travFull (m : Mach) (fl ctx desc : Nat) : Bool :=
  let l := m.travOn fl
  let more := (m.readLegs fl ctx desc).zipIdx.foldl (fun n x =>
    match x.1 with | none => n | some v => n + ((Leg.ofNat v).claims x.2).length) 0
  l.length ≥ 16 || (l.map fun t => t.2.claims.length).foldl (· + ·) 0 + more > 2048

/-! Progress. -/

/-- A live traverse item changed. -/
def Mach.setTravItem (m : Mach) (k : Nat) (t : Trav) : Mach := m.setTrv { m.trv with live := sput m.trv.live k t }

/-- Leg `i` of a traverse item. -/
def Trav.leg (t : Trav) (i : Nat) : Leg := Leg.ofNat (nth 0 t.legs i)

/-- A leg's run changed. -/
def Mach.setRun (m : Mach) (k i : Nat) (r : LegRun) : Mach :=
  match sget m.trv.live k with
  | none => m
  | some t => m.setTravItem k { t with runs := sput t.runs i r }

/-- FLAGS gathered by an item (R375): bit 5 is 0. -/
def Mach.travFlag (m : Mach) (k f : Nat) : Mach :=
  match sget m.trv.live k with
  | none => m
  | some t => m.setTravItem k { t with flags := Nat.lor t.flags (Nat.land f 0xDF) }

/-- Frames of the leg's sent stream that still wait for a credit. -/
def Mach.waiting (m : Mach) (l : Leg) : Bool :=
  l.sends && (m.portAt l.outPort).waitOut.any fun w => w.1 = l.outVc && w.2.1 = l.streamOut

/-- A leg whose progress is complete finishes once its frames have left; the item completes with its last leg (R375). -/
def Mach.settle (m : Mach) (k i : Nat) : Mach :=
  match sget m.trv.live k with
  | none => m
  | some t =>
    match sget t.runs i with
    | none => m
    | some r =>
      if !r.full || r.done || m.waiting (t.leg i) then m
      else
        let runs := sput t.runs i { r with done := true, buf := [], rsp := [] }
        let n := (svals runs).countP (·.done)
        if n = t.legs.length then m.finish k .done {} t.flags n
        else m.setTravItem k { t with runs }

/-- Every leg of every live item looked at again, after credits came or a port resumed. -/
def Mach.settleAll (m : Mach) : Mach :=
  m.trv.live.foldl (fun m t => (skeys t.2.runs).foldl (fun m i => m.settle t.1 i) m) m

/-- A leg has advanced: its wait starts again (R393). -/
def LegRun.advanced (r : LegRun) (now : Nat) : LegRun := { r with since := now, waited := r.waited + (now - r.since) }

/-- The anchor a leg takes when it starts (R388). -/
def Trav.anchorOf (t : Trav) (l : Leg) : Nat := if l.ancSrc = 0 then l.anchor else nth 0x8000 t.slots (l.ancSrc - 1)

/-- The header of a packed anchored vector (R273). -/
def packedHeader (anchor flags count e : Nat) : Bytes := leB 2 anchor ++ leB 2 flags ++ leB 4 count ++ leB 4 e ++ leB 4 0

/-- Elements of a format as addends. -/
def elements (fmt n : Nat) (data : Bytes) : List Addend :=
  (List.range n).map fun i => addendOf fmt (num data (fmtBytes fmt * i) (fmtBytes fmt))

/-- Contributions of `n` elements under an anchor, and the OR of their flags (R260, R262). -/
def convertAll (a : Int) (xs : List Addend) : List (BitVec 192) × Nat :=
  let cs := xs.map (convert a)
  (cs.map (·.1), cs.foldl (fun f c => Nat.lor f c.2.toNat) 0)

/-- The grid port of the link engine behind a link port (Table 4.1). -/
def linkOrg (p : Nat) : Origin := .port (portFloor p) (36 + p % 12 / 2) 0

/-- An item's link engine reads, and writes, at its grid port. -/
def Mach.legRead (m : Mach) (i : Item) (p va n : Nat) : Mach × Except Fail Bytes := m.itemRead (linkOrg p) i.epoch i.ctx va n
def Mach.legWrite (m : Mach) (i : Item) (p va : Nat) (data : Bytes) : Mach × Option Fail :=
  m.itemWrite (linkOrg p) i.epoch i.ctx va data

/-- The local addends of an anchored leg: values, flags and count (R385), or why there are none (R386). -/
def Mach.localSum (m : Mach) (i : Item) (l : Leg) (a : Nat) : Mach × Except Fail (List (BitVec 192) × Nat × Nat) :=
  if !l.convert then (m, .ok (List.replicate l.count 0, 0, 0))
  else if l.fmt = 15 then
    match m.legRead i l.port l.addr (16 + 24 * l.count) with
    | (m, .error e) => (m, .error e)
    | (m, .ok b) =>
      (m, if num b 0 2 ≠ a || num b 8 4 ≠ l.count then .error ⟨.failAborted, descBit 131⟩
        else .ok ((List.range l.count).map fun j => BitVec.ofNat 192 (num b (16 + 24 * j) 24), num b 2 2 % 128, num b 4 4))
  else
    match m.legRead i l.port l.addr (l.count * fmtBytes l.fmt) with
    | (m, .error e) => (m, .error e)
    | (m, .ok b) =>
      let c := convertAll (signed 16 a) (elements l.fmt l.count b)
      (m, .ok (c.1, c.2, 1))

/-- The values of a packed vector as bytes. -/
def packedValues (vs : List (BitVec 192)) : Bytes := vs.flatMap fun v => leB 24 v.toNat

/-- The exponent of a run of elements (R266, R389): the largest, or 0x8000. -/
def maxExp (xs : List Addend) : Nat :=
  match (xs.filterMap expOf).foldl (fun b e => match b with | none => some e | some x => some (max x e)) none with
  | none => 0x8000
  | some e => unsigned 16 e

/-- The larger of two exponents, 0x8000 below every one (R389). -/
def expMax (a b : Nat) : Nat := if a = 0x8000 then b else if b = 0x8000 then a else if signed 16 a ≥ signed 16 b then a else b

/-- What an exponent stores in a slot (R389). -/
def expSlot (e : Nat) : Nat := if e = 0x8000 then 0 else if signed 16 e > 511 then 511 else e

/-- The bytes that a sending leg's stream holds under the leg's anchor (R385, R389, R392), with the flags it raises. -/
def Mach.sendStream (m : Mach) (i : Item) (l : Leg) (a : Nat) : Mach × Except Fail (Bytes × Nat) :=
  let r := m.legRead i l.outPort l.addr
    (match l.op with
     | 1 => if l.convert then l.count * fmtBytes l.fmt else l.count
     | 5 => l.count * fmtBytes l.fmt
     | _ => 272 * l.count)
  (r.1, match r.2 with
    | .error e => .error e
    | .ok b =>
      if l.op = 1 && l.convert then
        let c := convertAll (signed 16 a) (elements l.fmt l.count b)
        .ok (packedHeader a c.2 1 l.count ++ packedValues c.1, c.2)
      else if l.op = 5 then .ok (leB 2 (maxExp (elements l.fmt l.count b)), 0)
      else .ok (b, 0))

/-- The leg's run, when the item is live, the leg started and unfinished, and its OP is `op`. -/
def Mach.legAt (m : Mach) (k i op : Nat) : Option (Item × Trav × Leg × LegRun) :=
  match m.item? k, sget m.trv.live k with
  | some it, some t =>
    match sget t.runs i with
    | some r => if (t.leg i).op = op && !r.done && !r.full then some (it, t, t.leg i, r) else none
    | none => none
  | _, _ => none

/-- A frame may leave at once on the port and VC a leg sends on: it is UP, with a link credit and room to replay (R383). -/
def Mach.maySend (m : Mach) (l : Leg) : Bool :=
  let x := m.portAt l.outPort
  x.state = 5 && x.room && nth 0 x.credit l.outVc > 0 && x.waitOut.all fun w => w.1 ≠ l.outVc

/-- A leg takes a frame it receives only when the frames it makes of it may leave (R383): a FORWARD, REDUCE_RECV or EMAX_RECV that sends
makes one of each, an ATOMIC_RECV's responses leave as they may before it takes more. -/
def Mach.mayTake (m : Mach) (l : Leg) (r : LegRun) : Bool :=
  match l.op with
  | 3 => m.maySend l
  | 4 => l.mode ≠ 0 || m.maySend l
  | 6 => l.mode = 1 || m.maySend l
  | 10 => l.mode ≠ 2 || r.rsp.length < 256
  | _ => true

/-- Leg `i` of a live item has started and takes a frame now. -/
def Mach.legTakes (m : Mach) (k i : Nat) : Bool :=
  match sget m.trv.live k with
  | none => false
  | some t => match sget t.runs i with | some r => m.mayTake (t.leg i) r | none => false

/-- A sending leg (SEND, EMAX_SEND, ATOMIC_SEND) sends its next frame, when a link credit for it is there (R383). -/
def Mach.advanceSend (m : Mach) (k i op : Nat) : Mach :=
  match m.legAt k i op with
  | none => m
  | some (it, _, l, r) =>
    if !m.maySend l then m
    else match if r.frames = 0 then m.sendStream it l r.anchor else (m, .ok (r.buf, 0)) with
    | (m, .error e) => m.finish k e.st e.unit
    | (m, .ok (b, fl)) =>
      let m := m.travFlag k fl
      let f := (b.drop r.put).take 256
      let r := ({ r with buf := b, put := r.put + f.length, frames := r.frames + 1 }).advanced m.clk.us
      let r := { r with full := r.put ≥ b.length }
      (((m.sendFrame l.outPort l.outVc l.streamOut f).setRun k i r)).settle k i

/-- A receive buffer is freed and its credit returns to the sender (R383, R341). -/
def Mach.freeBuffer (m : Mach) (p vc : Nat) : Mach :=
  let x := m.portAt p
  (m.setPort p { x with used := setAt x.used vc (nth 0 x.used vc - 1) }).returnLink p vc 1

/-- Bytes a receiving leg's stream holds in all (R706). -/
def Leg.total (l : Leg) : Nat :=
  match l.op with
  | 2 | 3 => l.count
  | 4 => 16 + 24 * l.count
  | 6 => 2
  | _ => 272 * l.count

/-- Two packed anchored vectors of `n` elements under one anchor, added (R273, R385): flags by OR, counts and values by sum. A prefix of
each gives the prefix of the sum: bytes of a value carry upwards only. -/
def addPacked (n : Nat) (b c : Bytes) : Bytes :=
  packedHeader (num c 0 2) (Nat.lor (num b 2 2 % 128) (num c 2 2)) (addCount (num b 4 4) (num c 4 4)) n ++
  packedValues ((List.range n).map fun j => BitVec.ofNat 192 (num b (16 + 24 * j) 24) + BitVec.ofNat 192 (num c (16 + 24 * j) 24))

/-- The local vector that a REDUCE_RECV adds to its stream. -/
def Mach.localStream (m : Mach) (i : Item) (l : Leg) (a : Nat) : Mach × Except Fail Bytes :=
  match m.localSum i l a with
  | (m, .error e) => (m, .error e)
  | (m, .ok s) => (m, .ok (packedHeader a s.2.1 s.2.2 l.count ++ packedValues s.1))

/-- The whole sum `out` of a REDUCE_RECV is there: it is rounded or written (R385 to R387). -/
def Mach.reduceDone (m : Mach) (k i : Nat) (it : Item) (l : Leg) (r : LegRun) (out : Bytes) : Mach :=
  let flags := num out 2 2
  let m := m.setRun k i { r with full := true, put := out.length }
  if l.mode = 1 then
    let rs := (List.range l.count).map fun j => anchRound (outFmt l.ofmt) (m.cfgE it.epoch kAnchorOverflow = 1)
      (m.cfgE it.epoch kAnchorSubnormals = 1) (BitVec.ofNat 192 (num out (16 + 24 * j) 24)) (signed 16 r.anchor) (BitVec.ofNat 7 flags)
    let m := m.travFlag k (rs.foldl (fun f x => Nat.lor f x.2) 0)
    let w := m.legWrite it l.port l.dst (rs.flatMap fun x => leB ((outFmt l.ofmt).width / 8) x.1)
    match w.2 with
    | some e => w.1.finish k e.st e.unit
    | none => w.1.settle k i
  else
    let w := m.legWrite it l.port l.dst out
    match w.2 with
    | some e => w.1.finish k e.st e.unit
    | none => w.1.settle k i

/-- A REDUCE_RECV has taken a frame; `r` holds all that it received and its local vector. MODE 0 sends what the frame makes of the sum,
the others end with the last frame (R385 to R387). -/
def Mach.reduceGo (m : Mach) (k i : Nat) (it : Item) (l : Leg) (r : LegRun) : Mach :=
  let out := addPacked l.count r.buf r.rsp
  let last := r.got = l.total
  let m := m.travFlag k (num out 2 2)
  if l.mode = 0 then
    (m.sendFrame l.outPort l.outVc l.streamOut ((out.take r.got).drop r.put)).setRun k i { r with put := r.got, full := last } |>.settle k i
  else if last then m.reduceDone k i it l r out
  else m.setRun k i r

/-- The exponent arrives: it is sent on, stored, or both (R389). -/
def Mach.emaxDone (m : Mach) (k i : Nat) (it : Item) (t : Trav) (l : Leg) (r : LegRun) (f : Bytes) : Mach :=
  let loc : Mach × Except Fail Nat :=
    if !l.convert then (m, .ok 0x8000)
    else match m.legRead it l.port l.addr (l.count * fmtBytes l.fmt) with
      | (m, .error e) => (m, .error e)
      | (m, .ok b) => (m, .ok (maxExp (elements l.fmt l.count b)))
  match loc with
  | (m, .error e) => m.finish k e.st e.unit
  | (m, .ok x) =>
    let e := expMax (num f 0 2) x
    let t := if l.mode ≠ 0 && l.ancSrc ≠ 0 then { t with slots := setAt t.slots (l.ancSrc - 1) (expSlot e) } else t
    let m := (m.setTravItem k t).setRun k i { r with full := true }
    (if l.mode = 1 then m else m.sendFrame l.outPort l.outVc l.streamOut (leB 2 e)).settle k i

/-- One atomic record is performed and its response formed (R391, R392). -/
def Mach.atomicRecord (m : Mach) (k : Nat) (it : Item) (l : Leg) (b : Bytes) : Mach × Bytes × Option Fail :=
  let party := match (m.portAt l.port).partner with | some x => stationParty x.station | none => ⟨4, 0⟩
  let rsp (st : Status) (d : Bytes) : Bytes := leB 1 st.code ++ leB 15 0 ++ padTo 256 d
  if num b 5 3 ≠ 0 || num b 12 4 ≠ 0 then (m, rsp .rejectFormat [], none)
  else
    let r := m.itemAtomic (linkOrg l.port) it.epoch party it.ctx (num b 0 5) (num b 8 4) (b.drop 16)
    ((r.m.travFlag k r.flags), rsp r.st r.data, if r.st.isFail then some ⟨r.st, r.unit⟩ else none)

/-- The target of an atomic record is being moved, or its row or page copied: the record waits (R169, R288). -/
def Mach.recordWaits (m : Mach) (it : Item) (l : Leg) (b : Bytes) : Bool :=
  match m.atomPiece (portFloor l.port) it.ctx (num b 0 5) (AtomWord.ofNat (num b 8 4)) with
  | some q => m.isMoving q.place.ref || m.accessWaits q.place (q.place.pa (q.va % 256))
  | none => false

/-- Atomic records as they become whole, and what becomes of their responses (R391). -/
def Mach.atomicRecords : Nat → Mach → Nat → Nat → Item → Leg → LegRun → Mach × LegRun
  | 0, m, _, _, _, _, r => (m, r)
  | fuel + 1, m, k, i, it, l, r =>
    if r.buf.length < 272 || m.recordWaits it l (r.buf.take 272) then (m, r)
    else
      let x := m.atomicRecord k it l (r.buf.take 272)
      let r := { r with buf := r.buf.drop 272, rsp := r.rsp ++ x.2.1, recs := r.recs + 1
                        bad := worstFail (r.bad.toList ++ x.2.2.toList) }
      Mach.atomicRecords fuel x.1 k i it l r

/-- The responses of an ATOMIC_RECV with MODE 2 leave frame by frame, as link credits and room to replay are there (R383, R391); the last
frame, with the remainder, once every record is answered. -/
def Mach.sendRsps : Nat → Mach → Leg → LegRun → Mach × LegRun
  | 0, m, _, r => (m, r)
  | fuel + 1, m, l, r =>
    if !m.maySend l || r.rsp.isEmpty || (r.rsp.length < 256 && r.recs < l.count) then (m, r)
    else Mach.sendRsps fuel (m.sendFrame l.outPort l.outVc l.streamOut (r.rsp.take 256)) l { r with rsp := r.rsp.drop 256 }

/-- All records of an ATOMIC_RECV are answered: MODE 1 writes the responses, and a fail-class one ends the item with the cause that R11
selects (R391). -/
def Mach.atomicsDone (m : Mach) (k i : Nat) (it : Item) (l : Leg) (r : LegRun) : Mach :=
  let m := m.setRun k i { r with full := true }
  let w := if l.mode = 1 then m.legWrite it l.port l.dst r.rsp else (m, none)
  match worstFail (r.bad.toList ++ w.2.toList) with
  | some f => w.1.finish k f.st f.unit
  | none => w.1.settle k i

/-- The records that an ATOMIC_RECV leg holds are performed and answered as they may be, and its end follows the last. -/
def Mach.atomicsGo (m : Mach) (k i : Nat) (it : Item) (l : Leg) (r : LegRun) : Mach :=
  let x := Mach.atomicRecords (r.buf.length / 272) m k i it l r
  let x := if l.mode = 2 then Mach.sendRsps (x.2.rsp.length / 256 + 1) x.1 l x.2 else x
  if x.2.recs = l.count && (l.mode ≠ 2 || x.2.rsp.isEmpty) then x.1.atomicsDone k i it l x.2 else x.1.setRun k i x.2

/-- The ATOMIC_RECV legs of live items go on, where what held their records or responses is gone (R169, R288, R383). -/
def Mach.resumeAtomics (m : Mach) : Mach :=
  m.trv.live.foldl (fun m t => (skeys t.2.runs).foldl (fun m i =>
    match m.legAt t.1 i 10 with
    | some (it, _, l, r) => if r.buf.length ≥ 272 || !r.rsp.isEmpty then m.atomicsGo t.1 i it l r else m
    | none => m) m) m

/-- The copy of a moved unit ends, and the atomic operations that waited for it are performed (R288, Table 19.9 step 2). -/
def Mach.moveDone (m : Mach) (u : UnitRef) : Mach := ((m.copyDone u).serveAll).resumeAtomics

/-- One received frame reaches a started leg (R383, R706): short and excess streams end the item with FAIL_ABORTED. -/
def Mach.legFrame (m : Mach) (k i : Nat) (f : Bytes) : Mach :=
  match m.item? k, sget m.trv.live k with
  | some it, some t =>
    match sget t.runs i with
    | none => m
    | some r =>
      let l := t.leg i
      let m := m.freeBuffer l.port l.vc
      let got := r.got + f.length
      if r.full || r.done || got > l.total || (f.length < 256 && got < l.total) then
        m.finish k .failAborted ⟨0x08, l.port⟩
      else
        let r := ({ r with got, frames := r.frames + 1 }).advanced m.clk.us
        let last := got = l.total
        match l.op with
        | 2 | 3 =>
          let m := if l.op = 3 then m.sendFrame l.outPort l.outVc l.streamOut f else m
          let m := m.setRun k i { r with full := last, put := got }
          if l.op = 2 || l.copy then
            let w := m.legWrite it l.port (l.dst + got - f.length) f
            match w.2 with
            | some e => w.1.finish k e.st e.unit
            | none => w.1.settle k i
          else m.settle k i
        | 4 =>
          let r := { r with buf := r.buf ++ f }
          if r.frames = 1 && (num f 0 2 ≠ r.anchor || num f 8 4 ≠ l.count) then
            m.finish k .failAborted ⟨0x08, l.port⟩
          else
            match if r.frames = 1 then m.localStream it l r.anchor else (m, .ok r.rsp) with
            | (m, .error e) => m.finish k e.st e.unit
            | (m, .ok c) => m.reduceGo k i it l { r with rsp := c }
        | 6 => m.emaxDone k i it t l r f
        | _ =>
          Mach.atomicsGo m k i it l { r with buf := r.buf ++ f }
  | _, _ => m

/-- The live item and leg that claim a stream in one direction (R377). -/
def Mach.claimOf (m : Mach) (p : Nat) (send : Bool) (tag : Nat) : Option (Nat × Nat) :=
  m.trv.live.findSome? fun t =>
    (t.2.claims.find? fun c => c.port = p && c.send = send && c.tag = tag).map fun c => (t.1, c.leg)

/-- A frame joins those held for its stream (R378). -/
def Mach.keepFrame (m : Mach) (p vc tag : Nat) (f : Bytes) : Mach :=
  if m.trv.held.any fun h => h.port = p && h.tag = tag then
    m.setTrv { m.trv with held := m.trv.held.map fun h =>
      if h.port = p && h.tag = tag then { h with frames := h.frames ++ [f] } else h }
  else m.setTrv { m.trv with held := m.trv.held ++ [⟨p, vc, tag, [f], m.clk.us⟩] }

/-- A frame of a stream arrives (R378, R383): to its leg when the leg has started and takes it, else held in the port's buffers. -/
def Mach.streamFrame (m : Mach) (p vc tag : Nat) (f : Bytes) : Mach :=
  let m := m.countStream p 0 tag f.length
  let held := m.trv.held.any fun h => h.port = p && h.tag = tag
  match m.claimOf p false tag with
  | some (k, i) => if m.legTakes k i && !held then m.legFrame k i f else m.keepFrame p vc tag f
  | none => m.keepFrame p vc tag f

/-- The frames held for a stream reach the leg that claims it, in order, while it takes them (R378, R379, R383); those that arrive
after the item has ended are unclaimed, and held (R706). -/
def Mach.giveHeld (m : Mach) (k i : Nat) (l : Leg) : Mach :=
  let mine (h : HeldStream) : Bool := h.port = l.port && h.tag = l.stream
  if !l.receives || !m.trv.held.any mine then m
  else
    let fs := (m.trv.held.filter mine).flatMap (·.frames)
    let m := m.setTrv { m.trv with held := m.trv.held.filter fun h => !mine h }
    fs.foldl (fun m f =>
      if m.trv.held.any mine || !m.legTakes k i || m.claimOf l.port false l.stream ≠ some (k, i) then m.keepFrame l.port l.vc l.stream f
      else m.legFrame k i f) m

/-- Credits came or a port resumed: started legs send the responses that wait, take the frames held for them, and those whose frames
have all left finish. -/
def Mach.legsGo (m : Mach) : Mach :=
  let m := m.resumeAtomics
  (m.trv.live.foldl (fun m t => (skeys t.2.runs).foldl (fun m i => m.giveHeld t.1 i (t.2.leg i)) m) m).settleAll

/-- A GRANT sends its CREDIT notice and finishes (R384). -/
def Mach.grant (m : Mach) (k i : Nat) : Mach :=
  match m.legAt k i 7 with
  | none => m
  | some (_, _, l, r) =>
    ((m.sendMsg l.port msgTraverse [1, l.stream, l.count, 0, 0, 0]).setRun k i
      ({ r with full := true }.advanced m.clk.us)).settle k i

/-- A WAIT_CREDIT finishes once enough credits have arrived for its stream since the item claimed it (R384). -/
def Mach.waitCredit (m : Mach) (k i : Nat) : Mach :=
  match m.legAt k i 8 with
  | none => m
  | some (_, t, l, r) =>
    if sgetD 0 t.credits (l.outPort * 32768 + l.streamOut) ≥ l.count then
      (m.setRun k i ({ r with full := true }.advanced m.clk.us)).settle k i
    else m

/-- The next leg starts when its predecessor has started, the leg named by its WAITFOR has finished and fewer than 64 run
(R374); a slot that holds no anchor ends the item (R388). -/
def Mach.startLeg (m : Mach) (k : Nat) : Mach :=
  match sget m.trv.live k with
  | none => m
  | some t =>
    let i := t.started
    let l := t.leg i
    let ready := l.wait = 0 || (match sget t.runs (l.wait - 1) with | some r => r.done | none => false)
    if i ≥ t.legs.length || !ready || (svals t.runs).countP (fun r => !r.done) ≥ 64 then m
    else if (l.op = 4 || (l.op = 1 && l.convert)) && t.anchorOf l = 0x8000 then m.finish k .failAborted descBit0
    else
      let r : LegRun := { since := m.clk.us, anchor := t.anchorOf l }
      let m := m.setTravItem k { t with started := i + 1, runs := sput t.runs i r }
      m.giveHeld k i l
where
  /-- ANCHOR_SRC of a leg as DETAIL names it. -/
  descBit0 : UnitRef := ⟨0x80, 181⟩

/-- A traverse item that a remembered FAIL notice meets, and its effect: the item ends (R398). -/
def Mach.endByNotice (m : Mach) (k p origin cause hops : Nat) : Mach :=
  match m.item? k, sget m.trv.live k with
  | some i, some t =>
    let m := m.event evLink 0x07 2 ⟨0x08, p⟩ i.ctx (origin * 2 ^ 48 + cause * 2 ^ 40 + hops * 2 ^ 32)
    (m.setTravItem k { t with failFrom := some (origin, cause, hops) }).finish k .failPatience ⟨0x0D, origin⟩
  | _, _ => m

/-- A port's CREDIT and FAIL notices that wait for a claim are one holding of its neighbour, from the first that arrives until none is
left (Table 21.3 kind 7). -/
def Mach.heldNotices (m : Mach) (p : Nat) : Mach :=
  let any := (m.trv.heldCredits.any fun h => h.1 = p) || m.trv.fails.any fun f => f.port = p
  if any = m.flt.holdings.any fun h => h.kind = 7 && h.object = p then m
  else if !any then m.unhold fun h => h.kind = 7 && h.object = p
  else match (m.portAt p).partner with
  | some y => m.hold (portFloor p) 7 (stationParty y.station) 0 p
  | none => m

/-- An accepted TRAVERSE item keeps its legs and claims its streams (R371, R377); CREDIT notices held for them count (R384). -/
def Mach.travClaims (m : Mach) (k ctx desc : Nat) : Mach :=
  let legs := (m.readLegs (keyFloor k) ctx desc).filterMap id
  let claims := legs.zipIdx.flatMap fun x => (Leg.ofNat x.1).claims x.2
  let m := claims.foldl (fun m c =>
    let n := streamKey c.port (if c.send then 1 else 0) c.tag
    let x := sgetD [0, 0, 0] m.trv.counters n
    let x := [nth 0 x 0, nth 0 x 1, nth 0 x 2 + 1]
    (m.setTrv { m.trv with counters := sput m.trv.counters n x }).hold (portFloor c.port) 2 ⟨3, ctx⟩ ctx c.object) m
  let m := m.setTravItem k { legs, claims }
  claims.foldl (fun m c =>
    if !c.send then m
    else
      let n := ((m.trv.heldCredits.filter fun h => h.1 = c.port && h.2.1 = c.tag).map fun h => h.2.2.1).foldl (· + ·) 0
      let m := m.setTrv { m.trv with heldCredits := m.trv.heldCredits.filter fun h => !(h.1 = c.port && h.2.1 = c.tag) }
      let m := m.heldNotices c.port
      match sget m.trv.live k with
      | none => m
      | some t => m.setTravItem k { t with credits := smod 0 t.credits (c.port * 32768 + c.tag) (· + n) }) m

/-- Leg 0 of an item with its claims starts where `go`, that is, where R313 does not hold it (R374); a FAIL notice remembered for one of
its tags ends it at once, and is remembered still (R399). -/
def Mach.travBegin (m : Mach) (k : Nat) (go : Bool) : Mach :=
  let claims := match sget m.trv.live k with | some t => t.claims | none => []
  match m.trv.fails.find? fun f => claims.any fun c => c.port = f.port && c.tag = f.tag with
  | some f => m.endByNotice k f.port f.origin f.cause f.hops
  | none => if go then (m.startItem k).startLeg k else m

/-! Notices. -/

/-- A CREDIT notice: to the item that sends the stream, else held (R384). -/
def Mach.creditNotice (m : Mach) (p tag n : Nat) : Mach :=
  match m.claimOf p true tag with
  | some (k, _) =>
    match sget m.trv.live k with
    | none => m
    | some t => m.setTravItem k { t with credits := smod 0 t.credits (p * 32768 + tag) (· + n) }
  | none => (m.setTrv { m.trv with heldCredits := m.trv.heldCredits ++ [(p, tag, n, m.clk.us)] }).heldNotices p

/-- A HOLD notice is noted with its time (R393). -/
def Mach.holdNotice (m : Mach) (p tag : Nat) : Mach :=
  m.setTrv { m.trv with holds := sput m.trv.holds (p * 32768 + tag) m.clk.us }

/-- A FAIL notice ends each item that claims its tag, in either direction, or is remembered (R398, R399). -/
def Mach.failNotice (m : Mach) (p tag origin cause hops : Nat) : Mach :=
  let ks := (m.trv.live.filter fun t => t.2.claims.any fun c => c.port = p && c.tag = tag).map (·.1)
  if ks.isEmpty then (m.setTrv { m.trv with fails := m.trv.fails ++ [⟨p, tag, origin, cause, hops, m.clk.us⟩] }).heldNotices p
  else ks.foldl (fun m k => m.endByNotice k p origin cause hops) m

/-- Frames held for a stream that no item claims are discarded and a FAIL notice is sent (R378); CREDIT notices held for one that none
claims to send go without one (R384). -/
def Mach.dropHeld (m : Mach) (p tag : Nat) : Mach :=
  let m := if (m.claimOf p true tag).isSome then m
    else (m.setTrv { m.trv with heldCredits := m.trv.heldCredits.filter fun h => !(h.1 = p && h.2.1 = tag) }).heldNotices p
  if (m.claimOf p false tag).isSome then m
  else
    let hs := m.trv.held.filter fun h => h.port = p && h.tag = tag
    let n := (hs.map fun h => h.frames.length).foldl (· + ·) 0
    let m := m.setTrv { m.trv with held := m.trv.held.filter fun h => !(h.port = p && h.tag = tag) }
    if hs.isEmpty then m
    else
      let m := hs.foldl (fun m h => h.frames.foldl (fun m _ => m.freeBuffer p h.vc) m) m
      ((m.bump kTravHeldDiscards n).sendMsg p msgTraverse
        [3, tag, 0, m.cfg kStationAddr, Status.failPatience.code, 0]).bump kTravFailNotices

/-! Patience. -/

/-- Some zone of the module is at a throttle step (R178, R393, R607). -/
def Mach.throttled (m : Mach) : Bool :=
  m.pwr.heat.any (·.level ≥ 2) || m.site.dev.any (·.level ≥ 2) || m.stk.dev.any fun x => x.level ≥ 2 || x.missStep

/-- LINK_NEIGHBOUR_THROTTLE (R359). -/
def Port.nbrStep (x : Port) : Nat := x.zones.foldl (fun s z => max s z.step) 0

/-- A leg waits on the port it sends on: it receives nothing, or has a frame that waits there for a credit (R383). -/
def Mach.waitsOut (m : Mach) (l : Leg) (r : LegRun) : Bool :=
  !(l.receives || l.op = 7) || m.waiting l || (!m.mayTake l r && m.trv.held.any fun h => h.port = l.port && h.tag = l.stream) ||
  (l.op = 10 && l.mode = 2 && r.recs = l.count)

/-- The port and tag a leg waits on. -/
def Mach.waitPort (m : Mach) (l : Leg) (r : LegRun) : Nat := if m.waitsOut l r then l.outPort else l.port
def Mach.waitTag (m : Mach) (l : Leg) (r : LegRun) : Nat := if m.waitsOut l r then l.streamOut else l.stream

/-- A leg's limit is the extended one (R393); `holdAge` is the time since the last HOLD notice for its tag, if any. -/
def Mach.extended (m : Mach) (l : Leg) (r : LegRun) (holdAge : Option Nat) : Bool :=
  m.throttled || (m.portAt (m.waitPort l r)).nbrStep ≠ 0 || (match holdAge with | some a => a ≤ 30000 | none => false)

/-- A leg has waited `us` without advancing: it ends its item with FAIL_PATIENCE at its limit, in AOCLK µs (R393, R394). -/
def Mach.patience (m : Mach) (k i us : Nat) (holdAge : Option Nat) : Mach :=
  match sget m.trv.live k with
  | none => m
  | some t =>
    match sget t.runs i with
    | none => m
    | some r =>
      let l := t.leg i
      let held := if shas m.trv.holds (m.waitPort l r * 32768 + m.waitTag l r) then holdAge else none
      let ext := m.extended l r held
      let set (e : Nat) : Nat := match m.item? k with | some it => m.cfgItem it e | none => m.cfg e
      let lim := 1000 * (if ext then set kTravPatienceMax else set kTravPatience)
      if r.done || us < lim then m
      else (if ext then m.bump kTravExtended else m).finish k .failPatience ⟨0x08, m.waitPort l r⟩

/-- HOLD is sent for each tag a live item claims, on its port, while a leg of it waits under the extended limit (R395). -/
def Mach.sendHolds (m : Mach) (k : Nat) (holdAge : Option Nat) : Mach :=
  match sget m.trv.live k with
  | none => m
  | some t =>
    let waits := t.runs.any fun r => !r.2.done && (let l := t.leg r.1
      m.extended l r.2 (if shas m.trv.holds (m.waitPort l r.2 * 32768 + m.waitTag l r.2) then holdAge else none))
    if waits then t.claims.foldl (fun m c => m.sendMsg c.port msgTraverse [2, c.tag, 0, 0, 0, 0]) m else m

end Sys2Proof.Machine
end

