-- ==== Sys2Proof/Machine/Fence.lean ====
section
/-! DEFINITION. Fences (R663 to R668, Tables 12.7, 21.5, R466, R498), ring closure by cause (Table 9.11), the end of a draft,
and a link port that goes down (R365, R366). -/
namespace Sys2Proof.Machine

/-! Drafts. -/

/-- A draft is discarded (R50, R54): code 1 owner, 2 session or mailbox closed, 3 idle, 4 die lost (Table 9.15). One held by a
commit stays until the commit ends (R698). -/
def Mach.discardDraft (m : Mach) (code : Nat) : Mach :=
  match m.fb.draft with
  | none => m
  | some d =>
    if d.held then m.setFb { m.fb with draft := some { d with orphan := true } }
    else ((m.setFb { m.fb with draft := none }).unhold fun h => h.kind = 9).event evEpoch 0x04 1 {} 0 code

/-- The draft of a requester whose session or mailbox closes. -/
def Mach.draftOf (m : Mach) (rq : Rq) (code : Nat) : Mach :=
  match m.fb.draft with
  | some d => if d.owner = rq then m.discardDraft code else m
  | none => m

/-- The request of a mailbox that closes is answered no more. -/
def Mach.dropChan (m : Mach) (rq : Rq) : Mach := m.setFb { m.fb with chans := sdel m.fb.chans (rqCode rq) }

/-! Ring closure. -/

/-- The SITE or CORE rings that target a unit (Table 9.11). -/
def Mach.ringsTo (m : Mach) (ty : Nat) (hit : Nat → Ring → Bool) : List Nat :=
  (m.rng.rings.filter fun r => r.2.ty = ty && hit r.1 r.2).map (·.1)

/-- Rings closed with a status, and the number of items that ended. -/
def Mach.closeRings (m : Mach) (rs : List Nat) (st : Status) (unit : UnitRef) : Mach × Nat :=
  (rs.foldl (fun m r => m.closeRing r st unit) m, (rs.map fun r => (m.itemsOf r).length).foldl (· + ·) 0)

/-- The target site of a SITE ring and the target core of a CORE ring. -/
def siteRing (t : Nat) (_ : Nat) (x : Ring) : Bool := x.target = t
def coreRing (c : Nat) (r : Nat) (x : Ring) : Bool := ringFloor r * 16 + x.target = c

/-! Fences. -/

/-- A fence's event record without a history record: LEDGER with no LSEQ, for a second cause (R666) and for the fence of a party other
than a site in a closure (R665; DESIGN CHOICE, log 80). -/
def Mach.fenceEvent (m : Mach) (unit : UnitRef) : Mach := m.event evLedger 0x06 3 unit 0 (0x09 * 2 ^ 16 + 0x06 * 2 ^ 8)

/-- A fence's report (Table 21.5 step 5): its count, and its ledger record unless it is part of a closure (R665). -/
def Mach.reportFence (m : Mach) (p : Party) (unit : UnitRef) (cause items : Nat) (quiet : Bool) : Mach :=
  let m := m.setFlt { m.flt with
    fences := setAt m.flt.fences (p.kind - 1) ((nth 0 m.flt.fences (p.kind - 1) + 1) % 2 ^ 32)
    fencing := m.flt.fencing.filter fun f => f.party ≠ p }
  if quiet then (if p.kind = 1 then m else m.fenceEvent unit)
  else m.ledger 0x06 0x09 0x06 unit (if items = 0 then 0 else Status.failFenced.code) items (if p.kind = 3 then p.num else 0) cause

/-- Every holding of a party that is no lock word is removed (Table 21.5 step 3). -/
def Mach.reclaim (m : Mach) (p : Party) : Mach :=
  (m.fenceLocks p fun _ => true).unhold fun h => h.party = p

/-- The rails of a site go down (R435, R445). -/
def Site.powerDown (x : Site) : Site :=
  { x with railsOn := false, sclk := false, srstReleased := false, vcore := 0, vset := none, up := 0, rate := 0
           trained := 0, repair := [] }

/-- SCLK of every site whose rails are up runs but where its floor's CLOCK_LOSS is raised (R436). -/
def Mach.clockSites (m : Mach) : Mach :=
  m.setSite { m.site with dev := m.site.dev.zipIdx.map fun x => { x.1 with sclk := x.1.railsOn && !nth false m.clk.loss (x.2 / 2) } }

/-- A fence of a site begins (Table 12.7 step 1); a second cause is only an event (R666). A site that is empty or fenced
already has nothing to fence. -/
def Mach.startSiteFence (m : Mach) (t cause : Nat) (quiet : Bool) : Mach :=
  let x := m.siteAt t
  match x.fencing with
  | some _ => m.event evTile 0x05 0 ⟨0x06, t⟩ 0 (cause * 2 ^ 56)
  | none =>
    if x.state = 0 || x.state = 6 || x.state = 7 then m
    else
      let m := m.setSiteAt t { x with fencing := some cause, vset := none }
      (m.setFlt { m.flt with fencing := m.flt.fencing ++ [⟨⟨1, t⟩, cause, quiet⟩] }).sbSend t 8 (leB 1 cause)

/-- A requester at one of the 16 grid ports of site `t` (Table 4.1, R121). -/
def siteOrigin (t : Nat) : Origin → Bool
  | .site u _ _ => u = t
  | .port f p _ => p < 32 && 2 * f + p / 16 = t
  | _ => false

/-- A fence of a site completes (Table 12.7 steps 2 to 4). -/
def Mach.finishSiteFence (m : Mach) (t cause : Nat) (quiet : Bool) : Mach :=
  let m := m.drain (siteOrigin t)
  let m := m.reclaim ⟨1, t⟩
  let c := m.closeRings (m.ringsTo 1 (siteRing t)) .failFenced ⟨0x06, t⟩
  let x := c.1.siteAt t
  let x := { x with
    bonds := smap (fun b => { b with rsp := 0, work := 0, req := 0, wrq := 0, waitOut := [], waitIn := [] }) x.bonds
    fencing := none, cause, state := if cause = 7 then 7 else 6, srstReleased := false, hello := false, challenge := none
    sbOut := none, sbWait := [], stale := [], readmitting := false }
  let x := if [7, 8, 10, 11, 12].contains cause then x.powerDown else x
  let m := ((c.1.setSiteAt t x).emit (.pin 1 t false)).event evTile 0x04 2 ⟨0x06, t⟩ 0 (cause * 2 ^ 56)
  m.reportFence ⟨1, t⟩ ⟨0x06, t⟩ cause c.2 quiet

/-- A site fenced whole, where the rule that asks for it leaves nothing between its steps. -/
def Mach.fenceSite (m : Mach) (t cause : Nat) (quiet : Bool) : Mach :=
  match (m.siteAt t).fencing with
  | some c => (m.startSiteFence t cause quiet).finishSiteFence t c quiet
  | none =>
    let y := m.startSiteFence t cause quiet
    if (y.siteAt t).fencing.isSome then y.finishSiteFence t cause quiet else y

/-- A core's lines leave its floor's caches without being written back, and its stalled read of ENTROPY ends. -/
def Mach.dropLines (m : Mach) (c : Nat) : Mach :=
  m.setCore { m.core with cache := m.core.cache.filter fun l => l.2.core ≠ c, stalled := m.core.stalled.filter (· ≠ c) }

/-- A fence of a core begins: it halts and its cache lines are discarded (R466). -/
def Mach.startCoreFence (m : Mach) (c cause : Nat) (quiet : Bool) : Mach :=
  let x := m.coreAt c
  if x.fencing.isSome then m.fenceEvent ⟨0x09, c⟩
  else if x.state = 3 || x.state = 4 then m
  else
    let m := (m.setCoreAt c { x with fencing := some cause, state := 2 }).dropLines c
    m.setFlt { m.flt with fencing := m.flt.fencing ++ [⟨⟨2, c⟩, cause, quiet⟩] }

/-- A fence of a core completes (R466). -/
def Mach.finishCoreFence (m : Mach) (c cause : Nat) (quiet : Bool) : Mach :=
  let m := m.drain fun o => match o with | .core d _ => d = c | _ => false
  let m := ((m.reclaim ⟨2, c⟩).draftOf (.core c) 2).dropChan (.core c)
  let r := m.closeRings (m.ringsTo 2 (coreRing c)) .failFenced ⟨0x09, c⟩
  let x := r.1.coreAt c
  let m := r.1.setCoreAt c { x with
    fencing := none, state := if shas r.1.cad.cur.gone (UnitRef.code ⟨0x09, c⟩) then 4 else 3, cause, work := [], mbxGo := 0, heldBells := []
    cacheOp := none, cacheWait := [], ctx := if cause = 5 then 0 else x.ctx }
  m.reportFence ⟨2, c⟩ ⟨0x09, c⟩ cause r.2 quiet

/-- A core fenced whole. -/
def Mach.fenceCore (m : Mach) (c cause : Nat) (quiet : Bool) : Mach :=
  match (m.coreAt c).fencing with
  | some k => (m.fenceEvent ⟨0x09, c⟩).finishCoreFence c k quiet
  | none =>
    let y := m.startCoreFence c cause quiet
    if (y.coreAt c).fencing.isSome then y.finishCoreFence c cause quiet else y

def Mach.hpAt (m : Mach) (n : Nat) : HostPort := nth {} m.hp.dev n
def Mach.setHpAt (m : Mach) (n : Nat) (x : HostPort) : Mach := m.setHp { m.hp with dev := setAt m.hp.dev n x }

/-- Transfer channel `k` ends with a status; its MSI-X vector is raised (R481). -/
def Mach.endXfer (m : Mach) (n k : Nat) (st : Status) : Mach :=
  let x := m.hpAt n
  let y := nth {} x.xfer k
  (m.setHpAt n { x with xfer := setAt x.xfer k { y with busy := false, status := st.code, fail := none } }).emit
    (.msix n (2032 + k))

/-- The binding of a channel ends, and its holding with it (R485). -/
def Mach.unbind (m : Mach) (n k : Nat) : Mach :=
  let x := m.hpAt n
  let y := nth {} x.xfer k
  (m.setHpAt n { x with xfer := setAt x.xfer k { y with bound := none, seqIn := 0, seqOut := 0 } }).unhold
    fun h => h.kind = 8 && h.object = n * 256 + k

/-- A fence of a host port begins: its register window and BAR2 stop (R498). -/
def Mach.startHpFence (m : Mach) (n cause : Nat) (quiet : Bool) : Mach :=
  let x := m.hpAt n
  if x.fencing.isSome then m.fenceEvent ⟨0x0A, n⟩
  else if x.stopped then m
  else
    let m := m.setHpAt n { x with fencing := some cause, stopped := true }
    m.setFlt { m.flt with fencing := m.flt.fencing ++ [⟨⟨5, n⟩, cause, quiet⟩] }

/-- Replies that other members still owe to what meets `p` find nothing when they come (R499). -/
def Mach.disown (m : Mach) (p : GroupWait → Bool) : Mach :=
  m.setTrv { m.trv with waits := m.trv.waits.map fun w => if p w then { w with chan := 32 } else w }

/-- A fence of a host port completes (R498): transfers end, sessions and bindings too, holdings are reclaimed. -/
def Mach.finishHpFence (m : Mach) (n cause : Nat) (quiet : Bool) : Mach :=
  let m := m.drain fun o => match o with | .bar2 k _ => k = n | _ => false
  let run := (List.range 16).filter fun k => (nth {} (m.hpAt n).xfer k).busy
  let m := run.foldl (fun m k => m.endXfer n k .failFenced) m
  let m := (List.range 16).foldl (fun m k => m.unbind n k) m
  let m := (((m.reclaim ⟨5, n⟩).draftOf (.hostPort n) 2).dropChan (.hostPort n)).disown fun w =>
    (if w.what = 0 then w.chan else w.chan / 16) = n
  let x := m.hpAt n
  let m := m.setHpAt n { x with fencing := none, cause, sessions := [], mbxGo := 0, heldBells := [], atomWait := [] }
  m.reportFence ⟨5, n⟩ ⟨0x0A, n⟩ cause run.length quiet

/-- A host port fenced whole. -/
def Mach.fenceHp (m : Mach) (n cause : Nat) (quiet : Bool) : Mach :=
  match (m.hpAt n).fencing with
  | some k => (m.fenceEvent ⟨0x0A, n⟩).finishHpFence n k quiet
  | none =>
    let y := m.startHpFence n cause quiet
    if (y.hpAt n).fencing.isSome then y.finishHpFence n cause quiet else y

/-- A neighbour station whose ports are all DOWN or OFF is fenced, without steps 1 and 2 (R667). -/
def Mach.fenceStation (m : Mach) (st : Nat) (quiet : Bool) : Mach :=
  let ps := portList.filter fun p => match (m.portAt p).partner with | some x => x.station = st | none => false
  if ps.isEmpty || ps.any fun p => (m.portAt p).state > 1 then m
  else
    let p := stationParty st
    let m := m.reclaim p
    let m := ps.foldl (fun m p => m.setPort p { m.portAt p with partner := none }) m
    m.reportFence p ⟨0x0D, st⟩ 0 0 quiet

/-! A port down. -/

/-- CAUSE of Table 21.7 for a LINK_DOWN_CAUSE. -/
def downFault (cause : Nat) : Nat := match cause with | 5 => 0x04 | 8 => 0x0A | _ => 0x02

/-- Causes that are faults of the port itself, and enter the ledger when it was in service (R658). -/
def downIsFault (cause : Nat) : Bool := [2, 3, 4, 5, 6, 7, 8, 10].contains cause

/-- The change of a neighbour's zone (R359). -/
def Mach.zoneEvent (m : Mach) (p kind zone step cap st : Nat) : Mach :=
  m.event evLink 0x05 0 ⟨0x08, p⟩ 0 (kind * 2 ^ 56 + zone * 2 ^ 48 + step * 2 ^ 40 + cap * 2 ^ 32 + st * 2 ^ 16)

/-- Items that use a port: those with a leg that names it (R366). -/
def Mach.itemsOnPort (m : Mach) (p : Nat) : List Nat :=
  (m.trv.live.filter fun t => t.2.legs.any fun v =>
    let l := Leg.ofNat v
    (l.namesPort && l.port = p) || (l.namesOut && l.outPort = p)).map (·.1)

/-- A port goes DOWN with a cause (R355, R359, R365): its buffers, keys, credits, neighbour's zones and held streams go. -/
def Mach.portStops (m : Mach) (p cause : Nat) : Mach :=
  let x := m.portAt p
  if x.state = 0 then m
  else
    let say := x.usable || cause ≠ x.cause
    let from_ := match x.partner with | some y => y.station | none => 0xFFFF
    let y : Port := { recWidth := x.recWidth, state := 1, cause, partner := x.partner, skipped := x.skipped }
    let m := m.setPort p y
    let m := x.zones.foldl (fun m z => m.zoneEvent p z.kind z.zone 0 z.cap from_) m
    let m := m.setTrv { m.trv with
      held := m.trv.held.filter fun h => h.port ≠ p
      heldCredits := m.trv.heldCredits.filter fun h => h.1 ≠ p
      fails := m.trv.fails.filter fun f => f.port ≠ p
      holds := m.trv.holds.filter fun h => h.1 / 32768 ≠ p }
    let m := m.unhold fun h => (h.kind = 6 || h.kind = 7) && h.object = p
    if say then m.event evLink 0x02 2 ⟨0x08, p⟩ 0 (cause * 2 ^ 56) else m

/-- A port goes DOWN with a cause: items that use it end with `st` (R366), and a neighbour left without a port is fenced (R667). -/
def Mach.portDown (m : Mach) (p cause : Nat) (st : Status) (quiet : Bool := false) : Mach :=
  let x := m.portAt p
  if x.state = 0 then m
  else
    let items := m.itemsOnPort p
    let m := (m.portStops p cause).finishAll items st ⟨0x08, p⟩
    let m := if x.usable && downIsFault cause && !quiet then
        m.ledger 0x07 (downFault cause) 0 ⟨0x08, p⟩ (if items.isEmpty then 0 else st.code) items.length 0 cause
      else m
    match x.partner with
    | some y => m.fenceStation y.station quiet
    | none => m

end Sys2Proof.Machine
end

