-- ==== Sys2Proof/Machine/Wake.lean ====
section
/-! DEFINITION. Lost buffer contents (R577, R701), the wake to ACTIVE (R577 to R581, Table 17.7), doorbells (R303 to R305,
R333) and measurements (R509, Table 15.3). -/
namespace Sys2Proof.Machine

/-! Lost contents. -/

/-- One buffer line loses its contents: poisoned, with bytes of no stated value (free values, log 10). -/
def Mach.loseLine (m : Mach) (pa : Nat) : Mach :=
  (m.setMem { m.mem with
    cells := Memory.putRun m.mem.cells pa ((List.range 256).map fun i => Config.lostByte (m.fb.evseq * 2 ^ 47 + pa + i)) }).addPoison pa

/-- The placements of line `i` of a segment on both floors it may lie on. -/
def SegEnt.places (e : SegEnt) (i : Nat) : List Place :=
  if e.mirror then [e.place (256 * i) 0, e.place (256 * i) 1] else [e.place (256 * i) 0]

/-- Every line in a valid buffer footprint whose slice meets `gone` loses its contents; lines of MIRROR segments too unless
`keepMirror` (R577, R701). -/
def Mach.loseSlices (m : Mach) (gone : Nat → Nat → Bool) (keepMirror : Bool) : Mach :=
  m.grid.seg.foldl (fun m s =>
    if s.2.medium = 1 || (keepMirror && s.2.mirror) then m
    else (List.range (s.2.bytes / 256)).foldl (fun m i =>
      (s.2.places i).foldl (fun m p => if gone p.floor p.unit then m.loseLine (p.pa 0) else m) m) m) m

/-! Waking. -/

/-- Slices that DORMANT does not retain (R577). -/
def Mach.notRetained (m : Mach) (f b : Nat) : Bool := !bitOf (m.cfg (kPwrRetainF0 + f)) b

/-- The module wakes to ACTIVE on a source of Table 17.7 (R578): stacks leave self-refresh, slices that were not retained are
poisoned, cores that DORMANT retained are restored, ports that it stopped retrain (R577, R580, R581). -/
def Mach.wake (m : Mach) (code : Nat) : Mach :=
  if m.clk.pwr = 0 || m.pwr.off then m
  else
    let old := m.clk.pwr
    let m := if old = 3 then m.loseSlices m.notRetained false else m
    let m := m.leaveRefresh fun _ => true
    let m := m.clk.retained.foldl (fun m c => m.setCoreAt c.1 { m.coreAt c.1 with state := c.2 }) m
    let m := m.clk.portsStopped.foldl (fun m p => m.startTraining p) m
    let m := m.setClk { m.clk with pwr := 0, wake := code, retained := [], portsStopped := [] }
    m.event evPower 0x05 0 {} 0 (old * 2 ^ 56 + code * 2 ^ 40)

/-! Doorbells. -/

/-- A doorbell word (Table 9.3) from a party of kind `kind` (R304, R305, R333): it acts only from the ring's submitter on an
ACTIVE ring; a closed ring, or one of a context that ends, ignores it; any other is dropped and counted. -/
def Mach.doorbell (m : Mach) (kind num word : Nat) : Mach :=
  let r := fld word 48 15
  let seq := fld word 0 48
  match m.ring? r with
  | none => m.bump kRingDoorbellDrops
  | some x =>
    let ends := match m.ctx? x.ctx with | some c => c.st = .destroying | none => true
    if x.closed || ends then m
    else if x.subKind ≠ kind || x.submitter ≠ num then
      let m := m.bump kRingDoorbellDrops
      if x.dropSeen then m
      else
        (m.setRing r { x with dropSeen := true }).event evSecurity 0x07 2 ⟨0x0C, r⟩ x.ctx (kind * 2 ^ 60 + num * 2 ^ 32)
    else if bitOf word 63 then
      let v := min seq x.taken
      if v > x.consumed then m.setRing r { x with consumed := v } else m
    else if seq > x.produce then m.setRing r { x with produce := seq }
    else m

/-- A doorbell that enters on floor `fl`, forwarded over the bridge for a ring of the other floor (R426). -/
def Mach.doorbellFrom (m : Mach) (fl kind num word : Nat) : Mach :=
  let m := if ringFloor (fld word 48 15) = fl then m else m.putBridge fl bBell word 0 []
  m.doorbell kind num word

/-! Measurements. -/

/-- Measurement `i` is taken (R509). -/
def Mach.measure (m : Mach) (i : Nat) (d : Bytes) : Mach :=
  let g := (m.sec.measGen + 1) % 2 ^ 32
  (m.setSec { m.sec with meas := sput m.sec.meas i d, measGen := g }).event evSecurity 0x01 0 {} 0 (i * 2 ^ 56 + g)

/-- Measurement `i`, or zeros before it is taken. -/
def Mach.measAt (m : Mach) (i : Nat) : Bytes := padTo 48 (sgetD [] m.sec.meas i)

/-- A fresh draw of the DRBG: its number, and the machine after it (R293, R440). -/
def Mach.draw (m : Mach) : Nat × Mach := (m.sec.draws, m.setSec { m.sec with draws := m.sec.draws + 1 })

/-- The `n` bytes, at most 64, that two draws from number `d` on give. -/
def drawn (d n : Nat) : Bytes := (leB 32 (Config.drbg d).toNat ++ leB 32 (Config.drbg (d + 1)).toNat).take n

/-- Two fresh draws of the DRBG. -/
def Mach.draw2 (m : Mach) : Nat × Mach := (m.sec.draws, m.setSec { m.sec with draws := m.sec.draws + 2 })

/-- A fresh stack key of a context (R293, R536, R540): drawn, or derived from its root where it is confidential. -/
def Mach.stackKey (m : Mach) (c : Nat) : Nat × Mach :=
  let d := m.draw2
  let root := match (sgetD {} m.sec.keys c).root with | some r => r | none => 0
  (if m.confCtx c then
      beN (hkdfExpand (hkdfExtract (drawn d.1 48) (beB 32 root)) (label "STL2 stack" ++ beB 2 c) 64)
    else beN (drawn d.1 64), d.2)

/-! The plat, as in force (R513 to R518). -/

/-- Bytes of a plat entry: before survey step 20 the security store's, else every resource to partition 0 (R515, R518). -/
def Mach.platBytes (m : Mach) (k : Nat) : Bytes :=
  if m.fb.epoch = 0 then
    match m.sec.store with
    | some st => if m.sec.storeGood then sgetD (dfltVal k) st k else dfltVal k
    | none => dfltVal k
  else m.runVal k

/-- The partition whose plat entry `sub` holds bit `b` (R513), 0xFF for none. -/
def Mach.partOf (m : Mach) (sub b : Nat) : Nat :=
  match (List.range 4).find? fun p => bitOf (leN (m.platBytes (key (0x7010 + p) sub))) b with
  | some p => p
  | none => if m.fb.epoch = 0 then 0 else 0xFF

/-- The admission policy of a site's partition (R511), 0xFF for none. -/
def Mach.tilePolicy (m : Mach) (t : Nat) : Nat :=
  let p := m.partOf 1 t
  if p = 0xFF then 0xFF else leN (m.platBytes (kPlatTilePolicy + 256 * p))

/-- The measurement list of evidence: entry `i`'s index and digest. -/
def listIndex (l : Bytes) (i : Nat) : Nat := num l (52 * i) 1
def listDigest (l : Bytes) (i : Nat) : Bytes := (l.drop (52 * i + 4)).take 48

/-- The digest a list gives for an index. -/
def listFind (l : Bytes) (idx : Nat) : Option Bytes :=
  ((List.range (l.length / 52)).find? fun i => listIndex l i = idx).map fun i => listDigest l i

/-- The tile block of a site in a report (Table 15.5), 112 bytes. -/
def Mach.tileBlock (m : Mach) (t : Nat) : Bytes :=
  let x := m.siteAt t
  if x.state = 0 || x.admissions = 0 then leB 1 x.state ++ List.replicate 111 0
  else
    let e : Evid := match x.evidence with | some e => e | none => ⟨false, 0, []⟩
    leB 1 x.state ++ leB 1 (num x.tileId 2 1) ++ leB 1 (m.tilePolicy t) ++ leB 1 e.verified.toNat ++
      leB 4 (num x.tileId 4 4) ++ digest (leB 97 e.leaf) ++
      padTo 48 (match listFind e.list 1 with | some d => d | none => []) ++ leB 4 x.admissions ++ leB 4 0

/-- The tile block of a site is measured (Table 15.3, indexes 11 to 14). -/
def Mach.measureTile (m : Mach) (t : Nat) : Mach := m.measure (11 + t) (digest (m.tileBlock t))

end Sys2Proof.Machine
end

