-- ==== Sys2Proof/Machine/Sites.lean ====
section
/-! DEFINITION. Tile sites: flits and credits (R419 to R432), the sideband (R433, R434), power-up, training, admission and
re-admission (R435 to R446), evidence (R510 to R512), VCORE and LN_N (R437, R438, R590). -/
namespace Sys2Proof.Machine

/-! Flits that arrive. -/

/-- The flit of a command whose OP is `op`, or of the reserved OP that it gives instead (R424). -/
def flitOwn (f : Flit) (op : Nat) : Flit := if f.op ≤ 7 then { f with op } else f

/-- A flit or message dropped by a site is counted (R424, R434). -/
def Mach.protoErr (m : Mach) (t : Nat) : Mach := m.bump (kSiteProtoErrs + 256 * t)

/-- The flit's message uses a REQ credit (0) or a WRQ credit (1); others use none (Table 12.3). -/
def reqClass (op : Nat) : Option Nat :=
  match op with | 1 | 3 => some 0 | 2 | 4 | 5 | 6 | 7 => some 1 | _ => none

/-- A flit that R424 drops for its form: a reserved OP or class, a non-zero unused field, a LEN that crosses a line or is
none, an ATOMIC word that fails R278. -/
def flitBad (f : Flit) : Bool :=
  f.rsvd ≠ 0 || f.crClass > 3 ||
  (match f.op with
   | 0 => f.release || f.ctx ≠ 0 || f.tag ≠ 0 || f.addr ≠ 0 || f.len ≠ 0 || f.operand ≠ 0
   | 1 => f.release || f.operand ≠ 0 || f.len = 0 || f.addr % 256 + f.len > 256
   | 2 => f.operand ≠ 0 || f.len = 0 || f.addr % 256 + f.len > 256
   | 3 => f.len ≠ 0 || (AtomWord.ofNat f.operand).malformed f.addr f.data
   | 4 | 7 => f.release || f.ctx ≠ 0 || f.tag ≠ 0 || f.addr ≠ 0 || f.len ≠ 0 || f.operand ≠ 0
   | 5 => f.release || f.ctx ≠ 0 || f.tag ≠ 0 || f.addr ≠ 0 || f.len ≠ 0 || f.operand ≠ 0 || num f.data 11 1 ≠ 0
   | 6 => f.release || f.ctx ≠ 0 || f.addr ≠ 0 || f.len ≠ 0 || f.operand / 65536 ≠ 0
   | _ => true)

/-- A context a tile may name at a site (R421). -/
def Mach.siteCtx (m : Mach) (t c : Nat) : Bool :=
  match m.ctx? c with
  | some x => c ≠ 0 && x.st = .live && bitOf (m.plat x.part 1) t
  | none => false

/-- The status with which a READ, WRITE or ATOMIC of a context is answered without being performed: the context is none the site may
name (R421), or a confidential one without its CONTEXT_ROOT key (R534). -/
def Mach.siteRefused (m : Mach) (t c : Nat) : Option Status :=
  if !m.siteCtx t c then some .rejectAccess
  else if m.confCtx c && (sgetD {} m.sec.keys c).root.isNone then some .failKey
  else none

/-- Status a target returned, as its record carries it (R318). -/
def returnedStatus (code : Nat) : Status :=
  match Status.ofCode code with
  | some s => if s.isDone || s.isFail then s else .failAborted
  | none => .failAborted

/-- A WORK_DONE answers an item outstanding at the site, or is dropped and counted (R424, R426, R447). -/
def Mach.siteWorkDone (m : Mach) (t : Nat) (d : Bytes) : Mach :=
  let r := num d 0 2
  let k := itemKey r (num d 2 8)
  match m.item? k, m.ring? r with
  | some i, some x =>
    if i.kind = 0x40 && i.started && x.ty = 1 && x.target = t then
      m.finish k (returnedStatus (num d 10 1)) ⟨0x06, t⟩ (num d 12 2) (num d 14 4)
    else m.protoErr t
  | _, _ => m.protoErr t

/-- VSET_ACK leaves on the lowest module up (R424, R437). -/
def Mach.vsetAck (m : Mach) (t tag : Nat) (st : Status) : Mach :=
  match (m.siteAt t).lowestUp with
  | some b => m.siteRsp t b 0x27 tag st []
  | none => m

/-- VSET (R437): out of range or of the 5 mV steps, under a cap that holds the rail, while another is open; else the rail moves. -/
def Mach.vset (m : Mach) (t tag mv : Nat) : Mach :=
  let x := m.siteAt t
  if mv < m.cfg (kSiteVcoreMin + 256 * t) || mv > m.cfg (kSiteVcoreMax + 256 * t) || mv % 5 ≠ 0 then m.vsetAck t tag .rejectRange
  else if x.vset.isSome || mv > x.ceiling then m.vsetAck t tag .rejectBusy
  else m.setSiteAt t { x with vset := some (mv, 0, tag) }

/-- The rail has settled and VSET_ACK is sent (R437). -/
def Mach.vsetSettled (m : Mach) (t : Nat) : Mach :=
  let x := m.siteAt t
  match x.vset with
  | none => m
  | some (mv, _, tag) => (m.setSiteAt t { x with vset := none, vcore := mv }).vsetAck t tag .done

/-! The sideband. -/

/-- A CHALLENGE of a phase with a fresh nonce (R440, R441). -/
def Mach.sbChallenge (m : Mach) (t phase : Nat) : Mach :=
  let d := m.draw
  let x := d.2.siteAt t
  (d.2.setSiteAt t { x with challenge := some (phase, d.1) }).sbSend t 4 (leB 1 phase ++ leB 32 (Config.drbg d.1).toNat)

/-- A site fenced by a rule that leaves nothing in flight, with its cause (R444). -/
def Mach.siteFails (m : Mach) (t cause : Nat) : Mach := (m.fenceSite t cause false).measureTile t

/-- A tile is refused: REFUSE, the TILE event, and a fence with cause 7 (R440). -/
def Mach.siteRefuse (m : Mach) (t : Nat) : Mach :=
  ((m.sbSend t 7 (leB 1 7)).event evTile 0x03 2 ⟨0x06, t⟩ 0 (7 * 2 ^ 56)).siteFails t 7

/-- Power-up of a site, to the release of its reset (Table 12.6). -/
def Mach.sitePowerUp (m : Mach) (t : Nat) : Mach :=
  let x := m.siteAt t
  let x := { x with state := 2, railsOn := true, sclk := !nth false m.clk.loss (t / 2), vcore := 750, srstReleased := true
                    hello := false, vset := none, challenge := none, sbOut := none, sbWait := [], fwLoad := none, fwOk := false
                    fwSent := [], up := 0, rate := 0, trained := 0, repair := [], lnLow := false, lnIgnored := false, bonds := [] }
  (m.setSiteAt t x).emit (.pin 1 t true)

/-- Re-admission of a fenced site begins (R446): power-up where it was down, else a reset. -/
def Mach.siteReadmit (m : Mach) (t : Nat) : Mach :=
  let m := m.sitePowerUp t
  let f := t / 2
  let shut := (List.range 16).foldl (fun c b => sput c (48 * f + t % 2 * 16 + b) ()) m.grid.closed
  let m := m.setGrid { m.grid with closed := shut }
  m.setSiteAt t { m.siteAt t with readmitting := true }

/-- A direction trains: its failing signals are no more than its repair signals replace, one DQ in each group of 64 and two of HQ and
LQ (R414). -/
def dirRepairs (d : BondDir) : Bool :=
  !d.strobe && d.ctl ≤ 2 && (List.range 16).all fun g => (d.dq.eraseDups.filter fun q => q / 64 = g).length ≤ 1

/-- A bond module trains (R414). -/
def bondTestOk (x : BondTest) : Bool := dirRepairs x.tx && dirRepairs x.rx

/-- The physical modules of a site that train, bit n module n, M16 bit 16. -/
def trainedOf (l : List BondTest) : Nat := (List.range 17).foldl (fun v i => if bondTestOk (nth {} l i) then v + 2 ^ i else v) 0

/-- The physical module behind a logical one: the spare where its move awaits the surveyor's commit (Table 19.9). -/
def Mach.bondPhys (m : Mach) (t b : Nat) : Nat :=
  let u : UnitRef := ⟨0x07, t * 16 + b⟩
  match m.cad.moves.find? fun x => x.unit = u && x.stage = 2 with
  | some x => x.spare
  | none => m.cad.cur.physOf u

/-- Logical modules of a site that are up when physical modules `phys` train (R415): the lowest failing one takes M16 while
that is free. Answers the mask, the module that takes the spare, and the modules withdrawn. -/
def Mach.trainMask (m : Mach) (t phys : Nat) : Nat × Option Nat × List Nat :=
  let here := (List.range 16).filter fun b => m.bondPhys t b ≠ 0xFF
  let bad := here.filter fun b => !bitOf phys (m.bondPhys t b)
  let spare := bitOf phys 16 && m.physState 0x07 t 16 = 1
  let taken := if spare then bad.head? else none
  let gone := if spare then bad.drop 1 else bad
  let up := here.filter fun b => !gone.contains b
  (up.foldl (fun v b => v + 2 ^ b) 0, taken, gone)

/-- The place of a rate's training results among a HELLO's. -/
def rateAt (r : Nat) : Nat := match r with | 4 => 0 | 2 => 1 | _ => 2

/-- The first rate of a list at which enough modules train. -/
def Mach.pickRate (m : Mach) (t : Nat) : List (Nat × Nat) → Option (Nat × Nat)
  | [] => none
  | (r, phys) :: l =>
    if popcount 16 (m.trainMask t phys).1 ≥ m.cfg kSiteMinModules then some (r, phys) else m.pickRate t l

/-- Bond modules after training: credits granted in full (R429, Table 12.4), each a holding of the site. -/
def Mach.bondsUp (m : Mach) (t mask : Nat) (rsp work : List Nat) : Mach :=
  (bitList 16 mask).foldl (fun m b =>
    let x := m.siteAt t
    (m.setSiteAt t (x.setBond b { rsp := nth 64 rsp b, work := nth 0 work b, req := 768, wrq := 128 })).hold (t / 2) 5
      ⟨1, t⟩ 0 (t * 16 + b)) m

/-- M16 fails training: it is no spare any more (R414, R632). -/
def Mach.spareUntrained (m : Mach) (t phys : Nat) : Mach :=
  let st := m.physState 0x07 t 16
  if bitOf phys 16 || !(st = 1 || st = 4) then m else m.endPhys ⟨0x07, t * 16⟩ 16 2

/-- A logical module that fails training gets M16 (R415): in a survey at once, as a spare in advance; in a re-admission the placement
awaits the surveyor's commit that ends it (R28, R446, Table 19.9). -/
def Mach.bondSpare (m : Mach) (t b : Nat) : Mach :=
  let u : UnitRef := ⟨0x07, t * 16 + b⟩
  let old := m.cad.cur.physOf u
  let m := m.spareRuns 0x07 t 16
  if (m.siteAt t).readmitting then
    let m := m.setPhys 0x07 t 16 4
    m.setCad { m.cad with moves := m.cad.moves ++ [{ unit := u, from_ := old, spare := 16, stage := 2, final := 2 }] }
  else (m.endPhys u old 2).placeUnit u

/-- A logical module that fails training and has no spare is withdrawn (R415). -/
def Mach.bondGone (m : Mach) (t b : Nat) : Mach :=
  let u : UnitRef := ⟨0x07, t * 16 + b⟩
  let i := m.cad.cur.physOf u
  let m := m.setCad { m.cad with moves := m.cad.moves.filter fun x => x.unit ≠ u }
  if (m.siteAt t).readmitting then m.withdraw u 2 else (m.endPhys u i 2).placeUnit u

/-- HELLO: bond modules train at the highest rate that serves, and OFFER is sent (R414, R415, R439). `tests` gives what training finds of
the physical modules at 4, 2 and 1 GT/s; `rsp` and `work` the tile's grants by logical module. -/
def Mach.siteHello (m : Mach) (t : Nat) (payload : Bytes) (tests : List (List BondTest)) (rsp work : List Nat) : Mach :=
  let x := m.siteAt t
  let m := m.setSiteAt t { x with hello := true, tileId := padTo 30 payload }
  if x.state ≠ 2 then m
  else
    let top := min (m.cfg kSiteRateMax) (num payload 1 1)
    let rates := ([4, 2, 1].map fun r => (r, trainedOf (nth [] tests (rateAt r)))).filter fun r => r.1 ≤ top
    match m.pickRate t rates with
    | none => m.siteFails t 8
    | some (rate, ph) =>
      let tr := m.trainMask t ph
      let m := m.spareUntrained t ph
      let m := match tr.2.1 with | none => m | some b => m.bondSpare t b
      let m := tr.2.2.foldl (fun m b => m.bondGone t b) m
      let m := m.setSiteAt t { m.siteAt t with up := tr.1, rate, trained := ph, repair := nth [] tests (rateAt rate) }
      let m := (m.bondsUp t tr.1 rsp work).event evTile 0x01 0 ⟨0x06, t⟩ 0
        (num payload 2 1 * 2 ^ 56 + rate * 2 ^ 48 + tr.1 * 2 ^ 32)
      m.sbSend t 2 (leB 1 rate ++ leB 2 tr.1 ++ leB 2 (m.siteAt t).vcore ++ leB 2 (m.cfg (kSiteVcoreMin + 256 * t)) ++
        leB 2 (m.cfg (kSiteVcoreMax + 256 * t)))

/-- ACCEPT: the same rate and mask, or a fence with cause 4; then the CHALLENGE of step 15 (R439, R440). -/
def Mach.siteAccept (m : Mach) (t : Nat) (payload : Bytes) : Mach :=
  let x := m.siteAt t
  if x.state ≠ 2 || x.rate = 0 then m
  else if num payload 0 1 = x.rate && num payload 1 2 = x.up then
    (m.setSiteAt t { x with state := 3 }).sbChallenge t 0
  else m.siteFails t 4

/-- The pending tile firmware is sent as FW_DATA, line n on the n-th module up (R441). -/
def Mach.sendFirmware (m : Mach) (t : Nat) : Mach :=
  let x := m.siteAt t
  let up := bitList 16 x.up
  let img := m.trv.pendTile
  let first := leB 4 img.length ++ leB 4 m.trv.pendId ++ digest img
  let m := m.setSiteAt t { x with fwLoad := some m.trv.pendId, fwSent := digest img }
  let m := match up.head? with | some b => m.sendFlit t b 0x26 [] first | none => m
  (chunks 256 (img.length / 256 + 1) img).zipIdx.foldl (fun m l =>
    m.sendFlit t (nth 0 up (l.2 % max 1 up.length)) 0x26 [] (padTo 256 l.1)) m

/-- The floor's answer about its firmware load (R441): the CHALLENGE of PHASE 1, or refusal. -/
def Mach.siteFwStatus (m : Mach) (t : Nat) (d : Bytes) : Mach :=
  let x := m.siteAt t
  let st := num d 4 1
  let m := m.event evTile 0x06 0 ⟨0x06, t⟩ 0 (num d 0 4 * 2 ^ 32 + st)
  if x.state ≠ 4 || x.fwLoad ≠ some (num d 0 4) then m
  else if st = 0 then (m.setSiteAt t { m.siteAt t with fwLoad := none, fwOk := true }).sbChallenge t 1
  else m.siteRefuse t

/-! Evidence. -/

/-- Where the parts of an EVIDENCE payload lie (Table 15.4). -/
def evList (p : Bytes) : Bytes := (p.drop (8 + num p 2 2)).take (52 * num p 4 1)

/-- Every index of a list is named once and none is reserved; reserved bytes are 0. -/
def listGood (l : Bytes) (n : Nat) : Bool :=
  (List.range n).all fun i => listIndex l i < 16 && num l (52 * i + 1) 3 = 0 &&
    (List.range i).all fun j => listIndex l j ≠ listIndex l i

/-- Evidence verifies (R510); the certificate and signature checks are the findings of `v` (log 7). -/
def evidenceGood (p : Bytes) (v : Verif) (phase : Nat) : Bool :=
  let n := num p 4 1
  p.length ≤ 8192 && p.length = 8 + num p 2 2 + 52 * n + 96 && num p 1 1 = 0 && num p 5 3 = 0 && 1 ≤ n && n ≤ 16 &&
  v.chain && v.sig && listGood (evList p) n && (listFind (evList p) phase).isSome

/-- The evidence a payload records. -/
def evidenceOf (p : Bytes) (v : Verif) (good : Bool) : Evid := ⟨good, nth 0 v.meas 0, evList p⟩

/-- The code a partner ordering code implies (R440): nn of Pnn, 0 for K4 and K2. The last part of the code follows its last
hyphen. -/
def orderPartner (order : Bytes) : Nat :=
  match (order.reverse.takeWhile (· ≠ 45)).reverse with
  | [80, a, b] => (a.toNat - 48) * 10 + (b.toNat - 48)
  | _ => 0

/-- TILE_ALLOW holds a digest (R511). -/
def Mach.tileAllowed (m : Mach) (d : Bytes) : Bool := (chunks 48 16 (m.platBytes kTileAllow)).contains d

/-- Admission to the module after step 15 (R440): ADMIT and the firmware load. -/
def Mach.siteAdmit (m : Mach) (t : Nat) (e : Evid) : Mach :=
  let x := m.siteAt t
  let m := m.setSiteAt t { x with state := 4, evidence := some e, challenge := none }
  ((m.sbSend t 6 (leB 1 t ++ leB 1 (m.partOf 1 t))).measureTile t).sendFirmware t

/-- Admission for work after step 16 (R441, R442): on re-admission the surveyor's commit opens the ports. -/
def Mach.siteAdmitWork (m : Mach) (t : Nat) (e : Evid) : Mach :=
  let x := m.siteAt t
  let m := m.setSiteAt t { x with state := 5, evidence := some e, challenge := none
                                  admissions := (x.admissions + 1) % 2 ^ 32 }
  let m := (m.measureTile t).event evTile 0x02 1 ⟨0x06, t⟩ 0
    (m.partOf 1 t * 2 ^ 56 + m.tilePolicy t * 2 ^ 48 + e.verified.toNat * 2 ^ 40 + x.readmitting.toNat * 2 ^ 32)
  if x.readmitting then m.surveyorCommit 0 else m

/-- EVIDENCE arrives (R440, R441, R510 to R512). `order` is the fused ordering code. -/
def Mach.siteEvidence (m : Mach) (order : Bytes) (t : Nat) (p : Bytes) (v : Verif) : Mach :=
  let x := m.siteAt t
  match x.challenge with
  | none => m
  | some (phase, _) =>
    if num p 0 1 ≠ phase then m
    else
      let good := evidenceGood p v phase
      let e := evidenceOf p v good
      let partner := num x.tileId 2 1
      let policy := m.tilePolicy t
      let strict := policy = 1 || policy = 2
      let m := if good then m else m.event evSecurity 0x08 3 ⟨0x06, t⟩ 0 (5 * 2 ^ 56)
      if x.state = 3 && phase = 0 then
        if (partner ≠ 0 && !m.hasLicence licPartner) || partner ≠ orderPartner order || (strict && !good) then
          (m.setSiteAt t { m.siteAt t with evidence := some e }).siteRefuse t
        else m.siteAdmit t e
      else if x.state = 4 && phase = 1 then
        let fw := listFind e.list 1
        if fw ≠ some x.fwSent || (strict && !good) ||
            (policy = 2 && !(match fw with | some d => m.tileAllowed d | none => false)) then
          (m.setSiteAt t { m.siteAt t with evidence := some e }).siteRefuse t
        else m.siteAdmitWork t e
      else if x.state = 5 && phase = 1 then
        let same := match x.evidence with | some o => o.leaf = e.leaf && o.list = e.list | none => false
        let m := m.setSiteAt t { m.siteAt t with challenge := none }
        if same then m else m.startSiteFence t 13 false
      else m

/-- No EVIDENCE within 1 s of a CHALLENGE: refusal, or a fence with cause 13 in service (R440, R512). -/
def Mach.evidenceLate (m : Mach) (t us : Nat) : Mach :=
  let x := m.siteAt t
  if x.challenge.isNone || us < 1000000 then m
  else if x.state = 5 then (m.setSiteAt t { x with challenge := none }).startSiteFence t 13 false
  else m.siteRefuse t

/-- The CRC-32C of a sideband message of a TYPE: over its header and payload (R433). -/
def sbCrc (ty : Nat) (x : SbMsg) : Nat := crc32c (sbCovered ty x.version x.payload.length x.seq x.rsvd x.payload)

/-- The sideband message is one that R434 discards: a reserved TYPE, another VERSION, a failed CRC or a reserved field. -/
def sbBad (ty : Nat) (x : SbMsg) : Bool := ty = 0 || ty > 10 || x.version ≠ 1 || x.crc ≠ sbCrc ty x || x.rsvd ≠ 0

/-- A sideband message of a tile wakes the module from DORMANT alone (source 2 of Table 17.7). -/
def Mach.wakeSb (m : Mach) : Mach := if m.clk.pwr = 3 then m.wake 2 else m

/-- A sideband message from a tile, of the command's TYPE `own` or of the one it gives: discarded and counted, or acknowledged and acted
on (R433, R434, source 2 of Table 17.7); `bad` is a further non-zero reserved field of its payload. An ACK is not acknowledged; a
TYPE that only the floor sends has no effect (log 86). -/
def Mach.sbTake (m : Mach) (t own : Nat) (x : SbMsg) (bad : Bool) (f : Mach → Mach) : Mach :=
  let ty := x.ty.getD own
  if !(m.siteAt t).srstReleased then m
  else if sbBad ty x || (ty = own && bad) then m.protoErr t
  else
    let m := m.wakeSb.sbAcked t x.seq
    let m := if ty = 0x0A then m else m.emit (.sideband t (sbBytes 0x0A x.seq []))
    if ty = own then f m else m

/-- An ACK: it acknowledges the outstanding message it names (R433). -/
def Mach.sbAck (m : Mach) (t : Nat) (x : SbMsg) : Mach := m.sbTake t 0x0A x (!x.payload.isEmpty) id

/-! Limits and the load notice. -/

/-- The site's errors rose by `rise` within 1 ms (R425). -/
def Mach.protoLimit (m : Mach) (t rise : Nat) : Mach :=
  if rise ≥ m.cfg kSiteProtoErrLimit && m.count (kSiteProtoErrs + 256 * t) ≥ rise then m.startSiteFence t 4 false else m

/-- The sideband has been silent for `us` µs (R434). -/
def Mach.sbLost (m : Mach) (t us : Nat) : Mach :=
  let x := m.siteAt t
  if x.hello && x.srstReleased && x.sbOut.isNone && us ≥ 10000 then m.startSiteFence t 6 false else m

/-- No HELLO `us` µs after the release of reset (R435). -/
def Mach.helloLate (m : Mach) (t us : Nat) : Mach :=
  let x := m.siteAt t
  if x.srstReleased && !x.hello && x.state = 2 && us ≥ 1000 * m.cfg kSiteHelloTimeout then m.siteFails t 6 else m

/-- LN_N falls or rises at a site whose rails are up (R438, R590). -/
def Mach.lnFall (m : Mach) (t : Nat) : Mach :=
  let x := m.siteAt t
  if !x.railsOn || x.lnLow then m
  else (m.setSiteAt t { x with lnLow := true, lnIgnored := false }).bump (kSiteLnCount + 256 * t)
def Mach.lnRise (m : Mach) (t : Nat) : Mach := m.setSiteAt t { m.siteAt t with lnLow := false, lnIgnored := false }

/-- LN_N has been low for `ns` ns (R438). -/
def Mach.lnLong (m : Mach) (t ns : Nat) : Mach :=
  let x := m.siteAt t
  if x.lnLow && !x.lnIgnored && ns > 2000 then
    (m.setSiteAt t { x with lnIgnored := true }).bump (kSiteLnOverlong + 256 * t)
  else m

/-- An admitted site is challenged again, `us` µs after the last time (R512). -/
def Mach.tileRecheck (m : Mach) (t us : Nat) : Mach :=
  let x := m.siteAt t
  let p := m.cfg kTileRecheckPeriod
  if x.state = 5 && x.fencing.isNone && p ≠ 0 && us ≥ 1000000 * p then m.sbChallenge t 1 else m

/-- The cause of a site's fence has ended (R446; log 14). -/
def Mach.siteCauseEnded (m : Mach) (t : Nat) : Bool :=
  let x := m.siteAt t
  !m.floorLost (t / 2) && !nth false m.clk.loss (t / 2) && m.pwr.closure.isNone &&
  ([3, 4, 5, 6, 9, 11, 13].contains x.cause || (x.cause = 12 && x.level < 3))

/-- A fenced site whose cause has ended is re-admitted by itself (R446). -/
def Mach.siteAuto (m : Mach) (t : Nat) : Mach :=
  if (m.siteAt t).state = 6 && (m.siteAt t).fencing.isNone && m.cfg kSiteReadmit = 1 && m.siteCauseEnded t then m.siteReadmit t
  else m

/-! Bond modules. -/

/-- Messages that wait for credits and may go, in order; the first of each class decides (R429). -/
def Mach.drainBond : Nat → Mach → Nat → Nat → Mach
  | 0, m, _, _ => m
  | fuel + 1, m, t, b =>
    let x := m.siteAt t
    let y := x.bond b
    if y.retraining || y.replay.length ≥ 64 then m
    else match y.waitOut.find? fun w =>
        (opClass w.1 = 2 && y.rsp > 0) || (opClass w.1 = 3 && y.work > 0) || opClass w.1 = 4 with
      | none => m
      | some w =>
        let c := opClass w.1
        let y := { y with waitOut := y.waitOut.erase w, rsp := if c = 2 then y.rsp - 1 else y.rsp
                          work := if c = 3 then y.work - 1 else y.work }
        Mach.drainBond fuel ((m.setSiteAt t (x.setBond b y)).putFlit t b w.1 w.2.1 w.2.2) t b

/-- A credit the floor returns for a message it has taken, in a NULL flit (R429). -/
def Mach.returnCredit (m : Mach) (t b cls : Nat) : Mach :=
  let x := m.siteAt t
  let y := x.bond b
  (m.setSiteAt t (x.setBond b (if cls = 0 then { y with req := y.req + 1 } else { y with wrq := y.wrq + 1 }))).sendFlit t b 0x00
    [0, 0, cls, 1] []

/-- The module's link retrains within 20 µs while its traffic waits (R432). -/
def Mach.bondRetrains (m : Mach) (t b : Nat) : Mach :=
  let x := m.siteAt t
  m.setSiteAt t (x.setBond b { x.bond b with retraining := true })

/-- A corrupt flit: it and every later one are discarded, and NAK is sent with the last good sequence, for each corrupt one (R432), in
a NULL flit outside the replay buffer (log 82); after 8 in a row for one flit the module retrains. -/
def Mach.flitCorrupt (m : Mach) (t b : Nat) : Mach :=
  let x := m.siteAt t
  let y := x.bond b
  if !bitOf x.up b || y.retraining then m
  else
    let m := (m.setSiteAt t (x.setBond b { y with discard := true, nakSent := y.nakSent + 1 })).showFlit t b
      ⟨(y.txSeq + 127) % 128, 0, [], []⟩ true
    if y.nakSent + 1 ≥ 8 then m.bondRetrains t b else m

/-- Flits leave again, in order (R432); a replay counts each. -/
def Mach.replayFlits (m : Mach) (t b : Nat) (fs : List Sent) : Mach :=
  fs.foldl (fun m s => ((m.showFlit t b s).bump (kSiteReplays + 256 * t)).bump (key (0x9780 + 16 * t + b) 4)) m

/-- A NAK acknowledges the flits up to the last good one, and those after it are replayed; after 8 in a row for one flit the module
retrains (R432). -/
def Mach.bondNak (m : Mach) (t b seq : Nat) : Mach :=
  let x := m.siteAt t
  let y := x.bond b
  if !bitOf x.up b || y.retraining then m
  else
    let n := if y.nakSeq = seq && y.naks > 0 then y.naks + 1 else 1
    let left := acked y.replay seq
    let m := m.setSiteAt t (x.setBond b { y with naks := n, nakSeq := seq, replay := left })
    if n ≥ 8 then m.bondRetrains t b else m.replayFlits t b left

/-! The messages of flits. -/

/-- A message of a tile is performed (R420 to R426). `ecc`, `since` and `way` are what a READ or WRITE meets. -/
def Mach.siteMsg (m : Mach) (t b : Nat) (f : Flit) (ecc : Ecc) (since way : Nat) (wait : Bool) : Mach :=
  let bad := flitBad f
  let m := if bad then m.protoErr t else m
  let m := match reqClass f.op with | some c => m.returnCredit t b c | none => m
  let o : Origin := .site t b f.tag
  if bad then (if f.op = 3 then m.siteRsp t b 0x23 f.tag .rejectFormat [] else m)
  else match f.op with
  | 1 =>
    match m.siteRefused t f.ctx with
    | some st => m.siteRsp t b 0x21 f.tag st []
    | none => m.arrive o f.ctx f.addr (.read f.len) ecc since way wait
  | 2 =>
    match m.siteRefused t f.ctx with
    | some st => m.siteRsp t b 0x22 f.tag st []
    | none => m.arrive o f.ctx f.addr (.write ((f.data.drop (f.addr % 256)).take f.len) f.release) ecc since way wait
  | 3 =>
    match m.siteRefused t f.ctx with
    | some st => m.siteRsp t b 0x23 f.tag st []
    | none => m.arrive o f.ctx f.addr (.atomic f.operand f.data f.release) ecc since way wait
  | 4 => m.doorbellFrom (t / 2) 1 t (num f.data 0 8)
  | 5 => m.siteWorkDone t f.data
  | 6 => m.vset t f.tag f.operand
  | 7 => m.siteFwStatus t f.data
  | _ => m

/-- TAGs of a bond module's requests that are not yet performed or whose completions are held. -/
def Mach.tagsOpen (m : Mach) (t b : Nat) : List Nat :=
  let tag (o : Origin) : List Nat := match o with
    | .site u c g => if u = t && c = b then [b * 65536 + g] else []
    | _ => []
  (m.grid.wait.flatMap fun q => q.2.flatMap fun x => tag x.org) ++ (m.grid.relWait.flatMap fun x => tag x.org) ++
  (m.die.dir.flatMap fun l => match l.2 with | .inval hs _ => hs.flatMap fun h => tag h.org | .held _ => []) ++
  (m.die.rlc.flatMap fun l => match l.2 with | .fill _ q => q.flatMap fun r => tag r.1 | .shared _ _ => [])

/-- The responses to a failed module's requests still open will be discarded when they come (R418). -/
def Mach.strandTags (m : Mach) (t b : Nat) : Mach :=
  m.setSiteAt t { m.siteAt t with stale := (m.siteAt t).stale ++ m.tagsOpen t b }

/-- A bond module fails in service (R417, R418): its logical number moves to the spare, in every live bank at once (R636) and by a
surveyor's commit (R28), or is withdrawn, and the site is fenced below its least number of modules. Its requests are performed and
their responses discarded; WORK-class messages it had not sent go by the spare, whose grants are `rsp` and `work`, or by the lowest
module up. -/
def Mach.bondFails (m : Mach) (t b rsp work : Nat) : Mach :=
  let y := (m.siteAt t).bond b
  let u : UnitRef := ⟨0x07, t * 16 + b⟩
  let spare := (m.spareFor u).isSome
  let left := y.waitOut.filter fun w => opClass w.1 = 3
  let m := ((y.waitIn.foldl (fun m w => m.siteMsg t b w.1 w.2.1 w.2.2.1 w.2.2.2 false) m).strandTags t b).unitFails u 0x02 false 0 0
  let x := m.siteAt t
  if spare then
    let m := m.setSiteAt t (x.setBond b { rsp, work, req := 768, wrq := 128 })
    (left.foldl (fun m w => m.sendFlit t b w.1 w.2.1 w.2.2) m).surveyorCommit 1
  else
    let up := putBit x.up b false
    let m := (m.setSiteAt t { x.setBond b {} with up }).unhold fun h => h.kind = 5 && h.object = t * 16 + b
    if popcount 16 up < m.cfg kSiteMinModules then m.startSiteFence t 8 false
    else match (m.siteAt t).lowestUp with
      | none => m
      | some c => left.foldl (fun m w => m.sendFlit t c w.1 w.2.1 w.2.2) m

/-- A bond module's retraining ends (R414, R432): what the tile has not acknowledged goes again and its traffic resumes, or it fails. -/
def Mach.bondRetrained (m : Mach) (t b : Nat) (test : BondTest) (rsp work : Nat) : Mach :=
  let x := m.siteAt t
  let y := x.bond b
  if !y.retraining then m
  else if bondTestOk test then
    let m := m.setSiteAt t { x.setBond b { y with retraining := false, discard := false, naks := 0, nakSent := 0 } with
      repair := setAt x.repair (m.bondPhys t b) test }
    Mach.drainBond (y.waitOut.length + 1) (m.replayFlits t b y.replay) t b
  else m.bondFails t b rsp work

/-- Messages that waited for an RSP credit are taken while one is held (R430). -/
def Mach.takeWaiting : Nat → Mach → Nat → Nat → Mach
  | 0, m, _, _ => m
  | fuel + 1, m, t, b =>
    let x := m.siteAt t
    let y := x.bond b
    match y.waitIn with
    | [] => m
    | f :: r =>
      if y.rsp = 0 then m
      else Mach.takeWaiting fuel ((m.setSiteAt t (x.setBond b { y with waitIn := r })).siteMsg t b f.1 f.2.1 f.2.2.1 f.2.2.2 false) t b

/-- Credits of the tile's grants that a flit returns (R429). -/
def Bond.credited (y : Bond) (f : Flit) : Bond :=
  match f.crClass with
  | 2 => { y with rsp := y.rsp + f.crCount }
  | 3 => { y with work := y.work + f.crCount }
  | _ => y

/-- A message of a class uses one of the credits that the floor granted (R429). -/
def Bond.spend (y : Bond) (op : Nat) : Bond :=
  match reqClass op with
  | some 0 => { y with req := y.req - 1 }
  | some _ => { y with wrq := y.wrq - 1 }
  | none => y

/-- A good flit arrives in sequence (R424, R429 to R432): its ACK and credits first, then a NAK it carries, then its message. -/
def Mach.flitTake (m : Mach) (t b : Nat) (f : Flit) (ecc : Ecc) (since way : Nat) (wait : Bool) : Mach :=
  let m := m.wake 2
  let x := m.siteAt t
  let y := x.bond b
  let y := { y with replay := acked y.replay f.ack, rxSeq := f.seq, discard := false, nakSent := 0
                    naks := if f.ack = y.nakSeq then y.naks else 0 }
  let y := if flitBad f then y else y.credited f
  let m := (m.setSiteAt t (x.setBond b y)).bump (key (0x9780 + 16 * t + b) 2)
  let m := if f.nak then m.bondNak t b f.ack else m
  let x := m.siteAt t
  if x.fencing.isSome || !(x.state = 5 || (x.state = 4 && (f.op = 0 || f.op = 7))) then m
  else
    let m := m.setSiteAt t (x.setBond b ((x.bond b).spend f.op))
    let m := Mach.takeWaiting (y.waitIn.length + 1) (Mach.drainBond (y.waitOut.length + 1) m t b) t b
    let z := (m.siteAt t).bond b
    if (reqClass f.op).isSome && (z.rsp = 0 || !z.waitIn.isEmpty) then
      m.setSiteAt t ((m.siteAt t).setBond b { z with waitIn := z.waitIn ++ [(f, ecc, since, way)] })
    else m.siteMsg t b f ecc since way wait

/-- A flit arrives on a bond module (R431, R432): corrupt where its CRC fails or bit 0 of its link word is set; else taken where it is
the next in sequence, and discarded where it is not. -/
def Mach.flitIn (m : Mach) (t b : Nat) (f : Flit) (ecc : Ecc := .clean) (since : Nat := 33) (way : Nat := 0)
    (wait : Bool := false) : Mach :=
  let x := m.siteAt t
  let y := x.bond b
  if !bitOf x.up b || y.retraining || !x.srstReleased || m.clk.pwr = 3 then m
  else if f.low || f.crc ≠ flitCheck f then m.flitCorrupt t b
  else if f.seq ≠ (y.rxSeq + 1) % 128 then m
  else m.flitTake t b f ecc since way wait

/-! Work. -/

/-- The lowest module up can take a WORK message now (R311, R424, R430). -/
def Mach.siteTakes (m : Mach) (t : Nat) : Bool :=
  let x := m.siteAt t
  x.state = 5 && x.fencing.isNone && m.die.lost ≠ some (t / 2) &&
  match x.lowestUp with
  | some b => (x.bond b).work > 0 && !(x.bond b).retraining && (x.bond b).replay.length < 64
  | none => false

/-- A SITE_WORK item is handed over as one WORK message, and has started (R318, R426, R704). -/
def Mach.siteBegin (m : Mach) (k : Nat) : Mach :=
  match m.item? k with
  | none => m
  | some i =>
    match m.ring? i.ring with
    | none => m
    | some x =>
      match (m.siteAt x.target).lowestUp with
      | none => m
      | some b =>
        (m.startItem k).sendFlit x.target b 0x24 []
          (leB 48 (i.desc / 2 ^ 128) ++ leB 8 i.seq ++ leB 2 i.ring ++ leB 4 i.epoch ++ leB 1 i.kind ++ leB 1 0)

/-- A site rule's limit in µs has passed for a SITE_WORK item (R427). -/
def Mach.siteWorkLate (m : Mach) (k us : Nat) : Mach :=
  match m.item? k with
  | none => m
  | some i =>
    match m.ring? i.ring with
    | none => m
    | some x =>
      if i.kind = 0x40 && i.started && us ≥ 1000 * m.cfgItem i kSiteWorkTimeout then m.startSiteFence x.target 3 false else m

end Sys2Proof.Machine
end

