-- ==== Sys2Proof/Machine/Cores.lean ====
section
/-! DEFINITION. Host cores: binding, start and stop (R454, R469), the local page (R455 to R465), the floor's core caches (R451,
R457), work entries (R460, R461), faults (R466, R467). -/
namespace Sys2Proof.Machine

/-! What a core sees. -/

/-- A load of local-page offset `off` answers `v`. -/
def Mach.coreValue (m : Mach) (c off v : Nat) : Mach := m.emit (.coreSignal c off v)

/-- Signals to a core beside the answers of loads: an access-fault exception, its release at an address, its halt. -/
def sigFault : Nat := 0x10000
def sigStart : Nat := 0x10001
def sigHalt : Nat := 0x10002

/-- An access of a core raises an access-fault exception (R452, R453, R455). -/
def Mach.coreFault (m : Mach) (c addr : Nat) : Mach := m.emit (.coreSignal c sigFault addr)

/-- A core is running. -/
def Mach.coreRuns (m : Mach) (c : Nat) : Bool := (m.coreAt c).state = 1 && (m.coreAt c).fencing.isNone &&
  !m.clk.haltedClk.contains c

/-! The caches of a floor. -/

/-- The number of a cached line: floor, context and segment address (R451). -/
def cacheKey (f ctx va : Nat) : Nat := f * 2 ^ 60 + ctx * 2 ^ 44 + va / 256 * 256

/-- A line of a floor's core caches. -/
def Mach.cached (m : Mach) (f ctx va : Nat) : Option CacheLine := sget m.core.cache (cacheKey f ctx va)

/-- A cached line put, or dropped. -/
def Mach.setCached (m : Mach) (f ctx va : Nat) (x : Option CacheLine) : Mach :=
  m.setCore { m.core with cache := match x with
    | some l => sput m.core.cache (cacheKey f ctx va) l
    | none => sdel m.core.cache (cacheKey f ctx va) }

/-- A dirty line is written to memory by its cluster's port. -/
def Mach.cleanLine (m : Mach) (f ctx va : Nat) : Mach :=
  match m.cached f ctx va with
  | none => m
  | some l =>
    if !l.dirty then m
    else
      (m.itemWrite (.core l.core 0) m.fb.epoch ctx l.va l.data).1.setCached f ctx va (some { l with dirty := false })

/-- One line cleaned (1), invalidated (2), or both (3), where the floor's caches hold it (R457). -/
def Mach.cacheLineOp (m : Mach) (code f ctx va : Nat) : Mach :=
  let m := if code = 2 then m else m.cleanLine f ctx va
  if code = 1 then m else m.setCached f ctx va none

/-- A CACHE_OP acts on its lines (R457). -/
def Mach.cacheRun (m : Mach) (c code addr lines : Nat) : Mach :=
  let ctx := (m.coreAt c).ctx
  let m := (List.range lines).foldl (fun m i => m.cacheLineOp code (c / 16) ctx (addr / 256 * 256 + 256 * i)) m
  m.setCoreAt c { m.coreAt c with cacheOp := some (code, lines) }

/-- A write of CACHE_OP: it acts, or waits for the core's current one (R457). -/
def Mach.cacheOp (m : Mach) (c code lines : Nat) : Mach :=
  let x := m.coreAt c
  if !m.coreRuns c || lines = 0 || lines > 65536 then m
  else match x.cacheOp with
  | some _ => m.setCoreAt c { x with cacheWait := x.cacheWait ++ [(code, x.cacheAddr, lines)] }
  | none => m.cacheRun c code x.cacheAddr lines

/-- A core's cache operation ends; the next one that waits begins (R457). -/
def Mach.cacheDone (m : Mach) (c : Nat) : Mach :=
  let x := m.coreAt c
  let m := m.setCoreAt c { x with cacheOp := none }
  match x.cacheWait with
  | [] => m
  | w :: r => (m.setCoreAt c { m.coreAt c with cacheWait := r }).cacheRun c w.1 w.2.1 w.2.2

/-- Every line of a floor's core caches is cleaned and dropped (R576). -/
def Mach.cleanAll (m : Mach) (f : Nat) : Mach :=
  let ls := m.core.cache.filter fun l => l.1 / 2 ^ 60 = f
  ls.foldl (fun m l => m.cacheLineOp 3 f l.2.ctx l.2.va) m

/-- The line of a core's floor that holds an address, filled where the caches hold none (R451). -/
def Mach.cacheFill (m : Mach) (c va : Nat) : Mach × Option CacheLine :=
  let ctx := (m.coreAt c).ctx
  let line := va / 256 * 256
  match m.cached (c / 16) ctx line with
  | some l => (m, some l)
  | none =>
    let r := m.itemRead (.core c 0) m.fb.epoch ctx line 256
    (r.1, match r.2 with | .ok d => some { ctx, va := line, data := d, core := c } | .error _ => none)

/-- A cached access to part of one line: the bytes it held there before; a store changes them. None where the line cannot be
filled. -/
def Mach.cachedPart (m : Mach) (c va len : Nat) (store : Option Bytes) : Mach × Option Bytes :=
  let ctx := (m.coreAt c).ctx
  let got := m.cacheFill c va
  match got.2 with
  | none => (got.1, none)
  | some l =>
    let y : CacheLine := match store with
      | none => { l with core := c }
      | some b => { l with data := l.data.take (va % 256) ++ b ++ l.data.drop (va % 256 + b.length), dirty := true, core := c }
    (got.1.setCached (c / 16) ctx (va / 256 * 256) (some y), some ((l.data.drop (va % 256)).take len))

/-- Cached accesses to the lines of a run, in order, to the first that fails. -/
def Mach.cachedParts (m : Mach) (c : Nat) (store : Option Bytes) : List (Nat × Nat) → Mach × Option Bytes
  | [] => (m, some [])
  | p :: l =>
    let r := m.cachedPart c p.1 p.2 (store.map fun b => b.take p.2)
    match r.2 with
    | none => (r.1, none)
    | some d =>
      let q := r.1.cachedParts c (store.map fun b => b.drop p.2) l
      (q.1, q.2.map fun e => d ++ e)

/-- A cached access of a core: a load answers its bytes, a store changes them (R451, R453). -/
def Mach.cachedAccess (m : Mach) (c va len : Nat) (store : Option Bytes) : Mach :=
  match m.resolve (c / 16) (m.coreAt c).ctx va len (if store.isSome then .wr else .rd) with
  | .error _ => (m.bump kGridXlateFaults).coreFault c va
  | .ok _ =>
    let r := m.cachedParts c store (pieces va len)
    match r.2 with
    | none => r.1.coreFault c va
    | some d => if store.isSome then r.1 else r.1.emit (.readData (.core c 0) .done d)

/-- A load or store of a core to a segment window (R452, R453). `evict` are lines its caches give up first. -/
def Mach.coreAccess (m : Mach) (c va len : Nat) (cachedWin : Bool) (store : Option Bytes) (evict : List Nat) (ecc : Ecc)
    (wait : Bool) : Mach :=
  if !m.coreRuns c then m
  else
    let m := m.wake 3
    let ctx := (m.coreAt c).ctx
    let m := evict.foldl (fun m a => m.cacheLineOp 3 (c / 16) ctx a) m
    if ctx = 0 then (m.bump kGridXlateFaults).coreFault c va
    else if cachedWin then m.cachedAccess c va len store
    else match m.resolve (c / 16) ctx va len (if store.isSome then .wr else .rd) with
    | .error _ => (m.bump kGridXlateFaults).coreFault c va
    | .ok _ => (pieces va len).foldl (fun m p =>
        let k : TxnKind := match store with | none => .read p.2 | some b => .write ((b.drop (p.1 - va)).take p.2) false
        m.arrive (.core c 0) ctx p.1 k ecc 33 0 wait) m

/-! Doorbells. -/

/-- A requester that meets `p` has stores that are not complete (R129, R456, R477). -/
def Mach.storesOpen (m : Mach) (p : Origin → Bool) : Bool :=
  let w (t : Txn) : Bool := p t.org && (match t.kind with | .read _ => false | .write _ _ => true | .atomic _ _ _ => true)
  m.grid.openWr.any (fun x => p x.1) || m.grid.relWait.any w || m.grid.wait.any fun q => q.2.any w

/-- The requester is core `c`. -/
def isCore (c : Nat) : Origin → Bool
  | .core d _ => d = c
  | _ => false

/-- A core's DOORBELL: at once, or once its earlier uncached stores are complete (R456, sources 1 and 3 of Table 17.7). -/
def Mach.coreBell (m : Mach) (c word : Nat) : Mach :=
  let x := m.coreAt c
  if m.storesOpen (isCore c) || !x.heldBells.isEmpty then m.setCoreAt c { x with heldBells := x.heldBells ++ [word] }
  else (m.wake 1).doorbellFrom (c / 16) 2 c word

/-- Doorbells whose cores have no open store any more are performed, in order (R456). -/
def Mach.coreBells (m : Mach) : Mach :=
  (List.range 32).foldl (fun m c =>
    let x := m.coreAt c
    if x.heldBells.isEmpty || m.storesOpen (isCore c) then m
    else x.heldBells.foldl (fun m w => (m.wake 1).doorbellFrom (c / 16) 2 c w) (m.setCoreAt c { x with heldBells := [] })) m

/-! Work entries. -/

/-- The lowest free slot of a core. -/
def Core.freeSlot (x : Core) : Option Nat := (List.range 16).find? fun s => x.work.all fun w => w.slot ≠ s

/-- The core of a CORE ring, as floor × 16 + core. -/
def ringCore (r : Nat) (x : Ring) : Nat := ringFloor r * 16 + x.target

/-- A core can take a work entry (R460). -/
def Mach.coreTakes (m : Mach) (c : Nat) : Bool :=
  (m.coreAt c).work.length < 16 && (m.coreAt c).fencing.isNone && (m.coreAt c).state ≠ 3 && (m.coreAt c).state ≠ 4

/-- A CORE_WORK item is written as a work entry, has started, and is a holding of its core (R460, R704, Table 21.3). -/
def Mach.coreBegin (m : Mach) (k : Nat) : Mach :=
  match m.item? k with
  | none => m
  | some i =>
    match m.ring? i.ring with
    | none => m
    | some r =>
      let m := m.wake 3
      let c := ringCore i.ring r
      let x := m.coreAt c
      match x.freeSlot with
      | none => m
      | some s =>
        let b := leB 48 (i.desc / 2 ^ 128) ++ leB 8 i.seq ++ leB 2 i.ring ++ leB 4 i.epoch ++ leB 1 i.kind ++ leB 1 1
        let y := { x with work := x.work ++ [(⟨s, k, b, false⟩ : WorkEnt)] }
        ((m.setCoreAt c (y.interrupt 0)).hold (c / 16) 10 ⟨2, c⟩ i.ctx 0).startItem k

/-- WORK_POP: the oldest waiting entry is taken; the load answers its slot with bit 63, or 0 (Table 13.3). -/
def Mach.workPop (m : Mach) (c : Nat) : Mach :=
  let x := m.coreAt c
  match x.work.find? fun w => !w.popped with
  | none => m.coreValue c 0x010 0
  | some w =>
    (m.setCoreAt c { x with work := x.work.map fun y => if y = w then { y with popped := true } else y }).coreValue c 0x010
      (2 ^ 63 + w.slot)

/-- The WORK_DONE registers act (R318, R460, Table 13.6): the item outstanding at the core is answered, else the write is
dropped and counted; bytes 18 to 23 and the reserved byte must be 0. -/
def Mach.coreWorkDone (m : Mach) (c : Nat) (d : Bytes) : Mach :=
  let x := m.coreAt c
  let k := itemKey (num d 0 2) (num d 2 8)
  let m := m.setCoreAt c { x with workDone := padTo 24 d }
  if x.fencing.isSome then m
  else if x.work.any (fun w => w.item = k) && num d 11 1 = 0 && num d 18 6 = 0 then
    m.finish k (returnedStatus (num d 10 1)) ⟨0x09, c⟩ (num d 12 2) (num d 14 4)
  else m.bump (kHostWorkDrops + 256 * c)

/-- NOTICE_POP: the oldest vector, LOST where a notice was dropped before, VALID (R462, Table 13.3). -/
def Mach.noticePop (m : Mach) (c : Nat) : Mach :=
  let x := m.coreAt c
  match x.notices with
  | [] => m.coreValue c 0x040 0
  | n :: r =>
    (m.setCoreAt c { x with notices := r, noticeLost := false }).coreValue c 0x040
      (2 ^ 63 + (if x.noticeLost then 2 ^ 62 else 0) + n.1)

/-- A CORE_WORK item without its WORK_DONE for HOST_WORK_TIMEOUT: its core is fenced with cause 3 (R461). -/
def Mach.coreWorkLate (m : Mach) (k us : Nat) : Mach :=
  match indexOf? (fun (x : Core) => x.work.any fun w => w.item = k) m.core.dev, m.item? k with
  | some c, some i => if us ≥ 1000 * m.cfgItem i kHostWorkTimeout then m.startCoreFence c 3 false else m
  | _, _ => m

/-! The draw unit. -/

/-- split of R464. -/
def drawSplit (seed index : Nat) : Nat :=
  let w (z : Nat) : Nat := z % 2 ^ 64
  let z := w (seed + (index + 1) * 0x9E3779B97F4A7C15)
  let z := w (Nat.xor z (z / 2 ^ 30) * 0xBF58476D1CE4E5B9)
  let z := w (Nat.xor z (z / 2 ^ 27) * 0x94D049BB133111EB)
  Nat.xor z (z / 2 ^ 31)

/-- A read of DRAW (R464). -/
def Mach.drawRead (m : Mach) (c : Nat) : Mach :=
  let x := m.coreAt c
  (m.setCoreAt c { x with drawIndex := (x.drawIndex + 1) % 2 ^ 64 }).coreValue c 0x098 (drawSplit x.drawSeed x.drawIndex)

/-- The ENTROPY reads a floor has served in the present second. -/
def Mach.entropyUsed (m : Mach) (f : Nat) : Nat :=
  let x := nth (0, 0) m.core.entropy f
  if x.1 = m.clk.us / 1000000 then x.2 else 0

/-- A read of ENTROPY is served: 64 bits of a fresh draw (R465). -/
def Mach.entropyServe (m : Mach) (c : Nat) : Mach :=
  let f := c / 16
  let n := m.entropyUsed f
  let d := m.draw
  (d.2.setCore { d.2.core with entropy := setAt d.2.core.entropy f (m.clk.us / 1000000, n + 1) }).coreValue c 0x0A0
    ((Config.drbg d.1).toNat % 2 ^ 64)

/-- A read of ENTROPY: beyond 1,000,000 in a second the core stalls (R465). -/
def Mach.entropyRead (m : Mach) (c : Nat) : Mach :=
  if m.entropyUsed (c / 16) < 1000000 then m.entropyServe c
  else m.setCore { m.core with stalled := m.core.stalled ++ [c] }

/-- Stalled ENTROPY reads are served while the second allows (R465). -/
def Mach.entropyStalled (m : Mach) : Mach :=
  m.core.stalled.foldl (fun m c =>
    if m.entropyUsed (c / 16) < 1000000 then (m.setCore { m.core with stalled := m.core.stalled.erase c }).entropyServe c
    else m) m

/-! Registers. -/

/-- Bytes of a register block with `n` bytes at `i` replaced. -/
def blockPut (b : Bytes) (i n v : Nat) : Bytes := (padTo 256 b).take i ++ leB n v ++ (padTo 256 b).drop (i + n)

/-- Bytes with `n` of them at `i` replaced, lengthened with zeros as far as that needs. -/
def bytesPut (b : Bytes) (i n v : Nat) : Bytes :=
  let b := padTo (max b.length (i + n)) b
  b.take i ++ leB n v ++ b.drop (i + n)

/-- Bytes of a core's mailbox at an offset: the request frame's from 0, the reply frame's from 0x1_0000 (Table 13.2). -/
def Core.mbxGet (x : Core) (off n : Nat) : Bytes :=
  (List.range n).map fun i => if off + i < 0x10000 then nth 0 x.mbxReq (off + i) else nth 0 x.mbxReply (off + i - 0x10000)

/-- Bytes stored to a core's mailbox, in either frame (Table 13.2; log 87). -/
def Core.mbxPut (x : Core) (off : Nat) (b : Bytes) : Core :=
  let lo := b.take (0x10000 - off)
  let hi := b.drop (0x10000 - off)
  { x with mbxReq := if lo.isEmpty then x.mbxReq else bytesPut x.mbxReq off lo.length (leN lo)
           mbxReply := if hi.isEmpty then x.mbxReply else bytesPut x.mbxReply (max off 0x10000 - 0x10000) hi.length (leN hi) }

/-- A load or store in a core's mailbox, of any length (Table 13.2). -/
def Mach.mbxAccess (m : Mach) (c off len : Nat) (store : Option Bytes) : Mach :=
  match store with
  | none => m.emit (.readData (.core c 0) .done ((m.coreAt c).mbxGet off len))
  | some b => m.setCoreAt c ((m.coreAt c).mbxPut off b)

/-- A 64-bit store to a local-page register or the mailbox without a behaviour of its own (R455); anything else raises an access fault. -/
def Mach.corePut (m : Mach) (c off v : Nat) : Mach :=
  let x := m.coreAt c
  let v := v % 2 ^ 64
  if off % 8 ≠ 0 then m.coreFault c off
  else if off = 0x050 then m.setCoreAt c { x with cacheAddr := v }
  else if off = 0x060 then m.setCoreAt c { x with atomAddr := v }
  else if off = 0x068 then m.setCoreAt c { x with atomWord := v }
  else if off = 0x088 then m.setCoreAt c { x with drawSeed := v }
  else if off = 0x090 then m.setCoreAt c { x with drawIndex := v }
  else if off = 0x0B8 then m.setCoreAt c (wakeOn { x with intEnable := v })
  else if off = 0x020 || off = 0x028 then
    m.setCoreAt c { x with workDone := (blockPut x.workDone (off - 0x020) 8 v).take 24 }
  else if 0x200 ≤ off && off < 0x300 then m.setCoreAt c { x with atomOps := blockPut x.atomOps (off - 0x200) 8 v }
  else if 0x20000 ≤ off && off < 0x40000 then m.setCoreAt c (x.mbxPut (off - 0x20000) (leB 8 v))
  else m.coreFault c off
where
  /-- A halted core wakes on a pending source that becomes enabled (R463). -/
  wakeOn (x : Core) : Core :=
    if x.state = 2 && Nat.land x.intPending x.intEnable ≠ 0 then { x with state := 1 } else x

/-- An aligned 64-bit load of a local-page register without an effect of its own (Table 13.3): offsets
count from 0x8000_0000_0000. Others raise an access fault. -/
def Mach.coreLoad (m : Mach) (c off : Nat) : Mach :=
  let x := m.coreAt c
  if off % 8 ≠ 0 then m.coreFault c off
  else if off = 0x008 then m.coreValue c off (x.work.countP fun w => !w.popped)
  else if off = 0x048 then m.coreValue c off (match x.cacheOp with | some o => o.2 * 2 ^ 32 + o.1 | none => 0)
  else if off = 0x050 then m.coreValue c off x.cacheAddr
  else if off = 0x060 then m.coreValue c off x.atomAddr
  else if off = 0x068 then m.coreValue c off x.atomWord
  else if off = 0x088 then m.coreValue c off x.drawSeed
  else if off = 0x090 then m.coreValue c off x.drawIndex
  else if off = 0x0A8 then m.coreValue c off m.clk.us
  else if off = 0x0B0 then m.coreValue c off x.intPending
  else if off = 0x0B8 then m.coreValue c off x.intEnable
  else if off = 0x0C0 then m.coreValue c off x.mbxGo
  else if 0x200 ≤ off && off < 0x300 then m.coreValue c off (num x.atomOps (off - 0x200) 8)
  else if 0x300 ≤ off && off < 0x400 then m.coreValue c off (num x.atomRes (off - 0x300) 8)
  else if 0x400 ≤ off && off < 0x800 then
    match x.work.find? fun w => w.slot = (off - 0x400) / 64 with
    | some w => m.coreValue c off (num w.bytes (off % 64) 8)
    | none => m.coreValue c off 0
  else m.coreFault c off

/-- A read of ATOM_GO performs the operation that the core's registers hold, on its cluster's port (R458). -/
def Mach.coreAtomic (m : Mach) (c : Nat) (wait : Bool) : Mach :=
  if !m.coreRuns c then m
  else
    let m := m.wake 3
    let x := m.coreAt c
    m.arrive (.core c 0) x.ctx x.atomAddr (.atomic x.atomWord x.atomOps false) .clean 33 0 wait

/-- INT_PENDING written: the named sources are cleared (R463). -/
def Mach.intClear (m : Mach) (c mask : Nat) : Mach :=
  let x := m.coreAt c
  m.setCoreAt c { x with intPending := (bitList 64 mask).foldl (fun v b => putBit v b false) x.intPending }

/-- A load of any local-page register (Table 13.3): those with an effect act as the commands of their own do. -/
def Mach.coreLoads (m : Mach) (c off : Nat) (wait : Bool) : Mach :=
  if off = 0x010 then m.workPop c
  else if off = 0x040 then m.noticePop c
  else if off = 0x080 then m.coreAtomic c wait
  else if off = 0x098 then m.drawRead c
  else if off = 0x0A0 then m.entropyRead c
  else m.coreLoad c off

/-- A store to any local-page register (Table 13.3): those with an effect act as the commands of their own do, but for MBX_GO, whose
command CORE_MBX_GO carries what the request frame's certificates verify to. -/
def Mach.coreStores (m : Mach) (c off v : Nat) : Mach :=
  if off = 0x000 then m.coreBell c v
  else if off = 0x030 then m.coreWorkDone c ((padTo 16 (m.coreAt c).workDone).take 16 ++ leB 8 v)
  else if off = 0x048 then (if 1 ≤ v % 4 then m.cacheOp c (v % 4) (v / 2 ^ 32) else m)
  else if off = 0x0B0 then m.intClear c v
  else if off = 0x0C0 then m
  else m.corePut c off v

/-- A load or store of a core at a physical address (Table 13.2, R452, R453). -/
def Mach.coreAt? (m : Mach) (c addr len : Nat) (store : Option Bytes) (evict : List Nat) (ecc : Ecc) (wait : Bool) : Mach :=
  if addr + len ≤ 2 ^ 40 then m.coreAccess c addr len true store evict ecc wait
  else if 2 ^ 40 ≤ addr && addr + len ≤ 2 ^ 41 then m.coreAccess c (addr - 2 ^ 40) len false store evict ecc wait
  else if !m.coreRuns c then m
  else if 2 ^ 47 + 0x20000 ≤ addr && addr + len ≤ 2 ^ 47 + 0x40000 then m.mbxAccess c (addr - 2 ^ 47 - 0x20000) len store
  else if addr < 2 ^ 47 || len ≠ 8 then m.coreFault c addr
  else match store with
  | none => m.coreLoads c (addr - 2 ^ 47) wait
  | some b => m.coreStores c (addr - 2 ^ 47) (leN b)

/-! Start and stop. -/

/-- CORE rings of a core have items without records (Table 13.6). -/
def Mach.coreBusy (m : Mach) (c : Nat) : Bool :=
  (m.ringsTo 2 (coreRing c)).any fun r => !(m.itemsOf r).isEmpty

/-- The cause a fenced core was fenced for still holds (R467): its replacement, its floor's loss, a closure. -/
def Mach.coreCauseHolds (m : Mach) (c : Nat) : Bool :=
  let x := m.coreAt c
  x.fencing.isSome || (x.state = 3 &&
    ((x.cause = 4 && m.cad.moves.any fun v => v.unit = ⟨0x09, c⟩) || (x.cause = 6 && m.die.lost = some (c / 16)) ||
      (x.cause = 7 && m.pwr.closure.isSome)))

/-- HOST_CORE_START (R454, R467, R469, R651). -/
def Mach.coreStart (m : Mach) (c ctx rsvd entry : Nat) : Status × Mach :=
  let x := m.coreAt c
  let bad : Bool := match m.ctx? ctx with
    | some y => ctx = 0 || y.st ≠ .live || !bitOf (m.plat y.part 6) c
    | none => true
  if rsvd ≠ 0 then (.rejectFormat, m)
  else if bad then (.rejectAccess, m)
  else if x.state = 4 then (.rejectRange, m)
  else if m.coreBusy c || m.coreCauseHolds c then (.rejectBusy, m)
  else
    let m := (((m.draftOf (.core c) 2).dropChan (.core c)).dropLines c).coreRetires c
    (.done, (m.setCoreAt c { state := 1, ctx, entry, pc := entry, cause := x.cause }).emit (.coreSignal c sigStart entry))

/-- HOST_CORE_STOP (R470, R651): reset, bound to no context. -/
def Mach.coreStop (m : Mach) (c : Nat) : Status × Mach :=
  let x := m.coreAt c
  if x.state = 4 then (.rejectRange, m)
  else if m.coreBusy c || m.coreCauseHolds c then (.rejectBusy, m)
  else
    let m := (((m.draftOf (.core c) 2).dropChan (.core c)).dropLines c).coreRetires c
    (.done, (m.setCoreAt c { state := 0, cause := x.cause }).emit (.coreSignal c sigHalt 0))

/-- An uncorrectable error in a dirty cache line: a fence with cause 4, and a spare behind the logical core at an epoch
boundary, or its withdrawal (R466, R467, R660). -/
def Mach.coreCacheUe (m : Mach) (c : Nat) : Mach :=
  let u : UnitRef := ⟨0x09, c⟩
  let x := m.coreAt c
  if x.state = 4 then m
  else
    let spare := (m.spareFor u).isSome
    let m := (m.unitFails u 0x01 true 0 0).startCoreFence c 4 false
    if spare then m.surveyorCommit 0 else m

end Sys2Proof.Machine
end

