-- ==== Sys2Proof/Machine/Sweep.lean ====
section
/-! DEFINITION. Sweep items on the machine: descriptors and their checks (R218 to R222, R239, R240, R248, R249), dispatch,
sessions, reading, combination and engine faults (R225 to R229, R236, R237, R244 to R257). -/
namespace Sys2Proof.Machine

/-! Descriptors (Tables 7.3 and 7.7, R248). -/

/-- Lowest engine of a sweep item's set, and its size. -/
def swpFirst (kind desc : Nat) : Nat :=
  if kind = kindSweep then fld desc 175 4 else if kind = kindMerge then fld desc 437 4 else fld desc 505 4
def swpCount (kind desc : Nat) : Nat :=
  if kind = kindSweep then fld desc 170 5 else if kind = kindMerge then 1 else fld desc 500 5

/-- An FP32 code that is positive, normal and finite. -/
def scaleGood (c : Nat) : Bool := !fp32.neg c && 2 ^ 23 ≤ fp32.mag c && fp32.mag c < fp32.inf

/-- A faulty field: its lowest bit where `bad`. -/
def badField (bad : Bool) (bit : Nat) : List Nat := if bad then [bit] else []

/-- Malformed fields of a sweep item's body, by lowest bit (R221, R240, R248). -/
def swpFormat (kind desc : Nat) : List Nat :=
  if kind = kindSweep then
    badField (!scaleGood (fld desc 480 32)) 480 ++ badField (fld desc 258 22 > fld desc 236 22) 258 ++
    badField (bitOf desc 147 && fld desc 198 16 = 0) 198 ++ badField (bitOf desc 150 && fld desc 182 16 = 0) 182 ++
    badField (fld desc 179 3 > 5) 179 ++ badField (fld desc 175 4 + fld desc 170 5 > 16) 175 ++
    badField (fld desc 170 5 = 0) 170 ++
    badField (fld desc 165 5 = 0 || fld desc 165 5 > 16 || fld desc 165 5 * (fld desc 163 2 + 1) > 16) 165 ++
    badField (fld desc 161 2 = 3) 161 ++ badField (fld desc 155 3 > 4) 155 ++ badField (fld desc 128 19 ≠ 0) 128
  else if kind = kindMerge then
    badField (fld desc 441 3 > 5) 441 ++ badField (fld desc 432 5 = 0 || fld desc 432 5 > 16) 432 ++
    badField (fld desc 427 5 = 0 || fld desc 427 5 > 16 || fld desc 427 5 * (fld desc 425 2 + 1) > 16) 427 ++
    badField (fld desc 423 2 = 3) 423 ++ badField (fld desc 128 293 ≠ 0) 128
  else
    badField (fld desc 509 3 > 5) 509 ++ badField (fld desc 505 4 + fld desc 500 5 > 16) 505 ++
    badField (fld desc 500 5 = 0) 500 ++ badField (fld desc 128 371 ≠ 0) 128

/-- Bytes of the bias tables of a SWEEP item (R222). -/
def biasBytes (desc : Nat) : Nat :=
  fld desc 182 16 * (if bitOf desc 148 then fld desc 165 5 else 1) * (if bitOf desc 149 then 2 else 4)

/-- The lowest bit of the STACK field. -/
def swpStackBit (kind : Nat) : Nat := if kind = kindSweep then 179 else if kind = kindMerge then 441 else 509

/-! Sessions. -/

/-- The session that an engine is in. -/
def Mach.sessAt (m : Mach) (stack e : Nat) : Option SwpSess := m.swp.sess.find? fun x => x.holds stack e

/-- Reject-class faults of a sweep item of a context on a ring's floor beyond its format (R218, R219, R222, R249). -/
def Mach.swpReject (m : Mach) (fl ctx kind desc : Nat) : List (Bool × Fail) :=
  let s := swpStack kind desc
  let part := match m.ctx? ctx with | some c => c.part | none => 0
  let taken := (engines (swpFirst kind desc) (swpCount kind desc)).find? fun e => (m.sessAt s e).isSome
  [chk (!bitOf (m.plat part 2) s) .rejectAccess (descBit (swpStackBit kind)),
   chk (kind = kindSession && bitOf desc 499 && !bitOf (m.cfg kSweepSessionParts) part) .rejectAccess (descBit 499),
   chk (kind = kindSweep && bitOf desc 150 && biasBytes desc > 32768) .rejectRange (descBit 182),
   chk (s / 3 ≠ fl) .rejectRange (descBit (swpStackBit kind)),
   chk (kind = kindSession && bitOf desc 499 && taken.isSome) .rejectBusy ⟨0x05, s * 16 + taken.getD 0⟩]

/-- Items that run and whose engines meet a set. -/
def Mach.runsOn (m : Mach) (stack first count : Nat) : List Nat :=
  (m.swp.runs.filter fun r => r.2.stack = stack && r.2.first < first + count && first < r.2.first + r.2.count).map (·.1)

/-- An item is not held by R313. -/
def Mach.itemFree (m : Mach) (i : Item) : Bool := !(i.order || i.skip) || m.orderReady i

/-- An open that waits for no earlier item completes with DONE, and its session is a holding (R249, R252); one that R313 holds has not
started. An engine of the set that is withdrawn does not fail it (DESIGN CHOICE, log 92). -/
def Mach.sessionOpened (m : Mach) (k : Nat) : Mach :=
  match m.swp.sess.find? fun x => x.opening = some k, m.item? k with
  | some x, some i =>
    if !m.itemFree i then m
    else if i.skip && m.predecessorFailed i then m.finish k .failAborted
    else
      let m := m.startItem k
      if x.waitFor.any (fun r => shas m.swp.runs r) then m
      else
        let m := m.setSwp { m.swp with sess := m.swp.sess.map fun y => if y.opening = some k then { y with opening := none } else y }
        (m.hold (x.stack / 3) 3 ⟨3, x.ctx⟩ x.ctx x.object).finish k .done
  | _, _ => m

/-- A close releases the engines it names that its context's sessions hold, and completes with DONE (R251). -/
def Mach.sessionClose (m : Mach) (k ctx desc : Nat) : Mach :=
  let s := swpStack kindSession desc
  let es := engines (swpFirst kindSession desc) (swpCount kindSession desc)
  (m.setSessions (m.swp.sess.map fun x =>
    if x.ctx = ctx && x.opening.isNone then es.foldl (fun x e => if x.holds s e then x.free e else x) x else x)).finish k .done

/-- A session item that nothing holds begins (R704): an open whose engines are in its session, or a close, which does no work where its
predecessor failed (R314). -/
def Mach.sessionStart (m : Mach) (i : Item) : Mach :=
  if bitOf i.desc 499 then m.sessionOpened i.key
  else if !m.itemFree i then m
  else if i.skip && m.predecessorFailed i then m.finish i.key .failAborted
  else (m.startItem i.key).sessionClose i.key i.ctx i.desc

/-- An accepted session item: an open's engines are in its session at once (R249), and the item begins unless R313 holds it. It fails
where its stack is shut down (R604). -/
def Mach.sessionBegin (m : Mach) (i : Item) : Mach :=
  let s := swpStack kindSession i.desc
  let f := swpFirst kindSession i.desc
  let c := swpCount kindSession i.desc
  if (m.stackAt s).shut then m.finish i.key .failThermal ⟨0x02, s⟩
  else
  let m := if bitOf i.desc 499 then
      m.setSwp { m.swp with sess := m.swp.sess ++ [⟨s, f, c, i.ctx, some i.key, m.runsOn s f c, false, []⟩] }
    else m
  m.sessionStart i

/-- The sessions of a context end (R251, R252). -/
def Mach.endSessions (m : Mach) (ctx : Nat) : Mach :=
  m.setSessions (m.swp.sess.map fun x => if x.ctx = ctx then (engines x.first x.count).foldl SwpSess.free x else x)

/-- A session open for its limit expires: idle engines are released now, busy ones at their item boundary (R251). -/
def Mach.sessionExpire (m : Mach) (i us : Nat) : Mach :=
  match m.swp.sess[i]? with
  | none => m
  | some x =>
    if x.expiring || x.opening.isSome || us < 1000 * m.cfg kSweepSessionLimit then m
    else
      let idle := (engines x.first x.count).filter fun e => (m.runsOn x.stack e 1).isEmpty
      let y := idle.foldl SwpSess.free { x with expiring := true }
      (m.bump (kSweepSessionsExpired + 256 * x.stack)).setSessions (setAt m.swp.sess i y)

/-! Running. -/

/-- Limits of row `t` of a SWEEP item (R225). -/
def rowLast (desc t : Nat) : Int :=
  (fld desc 236 22 : Int) - (if bitOf desc 151 then ((swpT kindSweep desc : Int) - 1 - t) else 0)
def rowFirst (desc t : Nat) : Int :=
  if fld desc 214 22 = 0 then (fld desc 258 22 : Int) else max (fld desc 258 22 : Int) (rowLast desc t - fld desc 214 22 + 1)

/-- A position is unmasked by R225 for some row. -/
def posSeen (desc p : Nat) : Bool :=
  (List.range (swpT kindSweep desc)).any fun t => rowFirst desc t ≤ p && (p : Int) ≤ rowLast desc t

/-- Block size in positions. -/
def blockSize (desc : Nat) : Nat := 16 * 2 ^ fld desc 155 3

/-- The positions of block `j` that the item reads (R227 to R229). -/
def blockPos (desc j : Nat) : List Nat := ((List.range (blockSize desc)).map (blockSize desc * j + ·)).filter (posSeen desc)

/-- The blocks that engine `i` of `n` visits, from the block list where SPARSE_EN is set (R227, R228, R236). -/
def shareBlocks (desc : Nat) (list : List Nat) (i n : Nat) : List (List Nat) :=
  if bitOf desc 147 then
    let lo := i * list.length / n
    let hi := (i + 1) * list.length / n
    (((list.drop lo).take (hi - lo)).filter (· ≠ 0xFFFFFFFF)).map (blockPos desc)
  else
    let j0 := fld desc 258 22 / blockSize desc
    let N := fld desc 236 22 / blockSize desc - j0 + 1
    let lo := i * N / n
    let hi := (i + 1) * N / n
    ((List.range (hi - lo)).map fun j => blockPos desc (j0 + lo + j)).filter fun b => !b.isEmpty

/-- A number's worth of elements of `w` bytes. -/
def codesOf (w n : Nat) (b : Bytes) : List Nat := (List.range n).map fun i => num b (w * i) w

/-- FP32 codes of elements in BF16 (`bf`) or FP32. -/
def toFp32 (bf : Bool) (n : Nat) (b : Bytes) : List Nat :=
  if bf then (codesOf 2 n b).map (· * 65536) else codesOf 4 n b

/-- The values of a vector, none where it holds a NaN or an infinity. -/
def finite (cs : List Nat) : Option (List Dy) :=
  cs.foldr (fun c acc => match fp32.val? c, acc with | some v, some l => some (v :: l) | _, _ => none) (some [])

/-- The sweep port of a stack (Table 4.1). -/
def swpPort (stack : Nat) : Origin := .port (stack / 3) (42 + stack % 3) 0

/-- K and V lines in a stack's own channels come by the stack path, all others by the sweep port (R215). -/
def swpMover (stack : Nat) (_ : SegEnt) (p : Place) : Mover := if p.medium = 1 && p.stack = stack then .path else .grid

/-- What a sweep read, and the broadest cause of a read it could not make. -/
structure SwpData where
  q : List (Option (List Dy)) := []
  bias : List (List Nat) := []
  list : List Nat := []
  fail : Option Fail := none

/-- One further cause. -/
def worseOf (a : Option Fail) (f : Fail) : Option Fail := some (match a with | none => f | some g => g.worse f)

/-- The first-phase reads of a SWEEP item: queries, bias tables, block list (R223, R255). -/
def Mach.swpInputs (m : Mach) (i : Item) : Mach × SwpData :=
  let d := headDim (swpD kindSweep i.desc)
  let n := swpT kindSweep i.desc * swpG kindSweep i.desc
  let bf := !bitOf i.desc 154
  let read (m : Mach) (va n : Nat) := m.itemRead (swpPort (swpStack kindSweep i.desc)) i.epoch i.ctx va n
  let q := read m (fld i.desc 446 34 * 64) (n * d * (if bf then 2 else 4))
  let x : SwpData := match q.2 with
    | .error e => { fail := some e }
    | .ok b => { q := (List.range n).map fun j => finite (((toFp32 bf (n * d) b).drop (d * j)).take d) }
  let r : Mach × SwpData :=
    if !bitOf i.desc 150 then (q.1, x)
    else
      let r := read q.1 (fld i.desc 378 34 * 64) (biasBytes i.desc)
      (r.1, match r.2 with
        | .error e => { x with fail := worseOf x.fail e }
        | .ok b =>
          let span := fld i.desc 182 16
          let tabs := if bitOf i.desc 148 then swpG kindSweep i.desc else 1
          let cs := toFp32 (bitOf i.desc 149) (span * tabs) b
          { x with bias := (List.range tabs).map fun h => (cs.drop (span * h)).take span })
  if !bitOf i.desc 147 then r
  else
    let l := read r.1 (fld i.desc 344 34 * 64) (4 * fld i.desc 198 16)
    (l.1, match l.2 with
      | .error e => { r.2 with fail := worseOf r.2.fail e }
      | .ok b => { r.2 with list := codesOf 4 (fld i.desc 198 16) b })

/-- One position's K and V rows read (R224, R229), or the cause one of them could not be. -/
def Mach.readPos (m : Mach) (i : Item) (p : Nat) : Mach × Except Fail PosData :=
  let d := headDim (swpD kindSweep i.desc)
  let f := fld i.desc 158 3
  let rb := rowBytes f d
  let s := swpStack kindSweep i.desc
  let k := m.itemReadBy (swpPort s) (swpMover s) i.epoch i.ctx (fld i.desc 312 32 * 256 + p * rb) rb
  let v := k.1.itemReadBy (swpPort s) (swpMover s) i.epoch i.ctx (fld i.desc 280 32 * 256 + p * rb) rb
  (v.1, match k.2, v.2 with
    | .ok k, .ok v => .ok ⟨p, decodeRow f d k, decodeRow f d v⟩
    | .error e, .ok _ => .error e
    | .ok _, .error e => .error e
    | .error e, .error g => .error (e.worse g))

/-- The positions of a block as read, with the broadest cause so far. -/
def Mach.readBlock (m : Mach) (i : Item) (b : List Nat) (f : Option Fail) : Mach × List PosData × Option Fail :=
  b.foldl (fun a p =>
    let r := a.1.readPos i p
    (r.1, match r.2 with
      | .ok x => (a.2.1 ++ [x], a.2.2)
      | .error e => (a.2.1, worseOf a.2.2 e))) (m, [], f)

/-- The blocks of a share as read, with the broadest cause. -/
def Mach.readShare (m : Mach) (i : Item) (bs : List (List Nat)) : Mach × List (List PosData) × Option Fail :=
  bs.foldl (fun a b =>
    let r := a.1.readBlock i b a.2.2
    (r.1, a.2.1 ++ [r.2.1], r.2.2)) (m, [], none)

/-- The running values of one share for every (row, head) pair, in row then head order (R230). -/
def shareOf (i : Item) (x : SwpData) (flush : Bool) (bs : List (List PosData)) : List Att :=
  (List.range (swpT kindSweep i.desc)).flatMap fun t =>
    (List.range (swpG kindSweep i.desc)).map fun h =>
      let y : PairIn :=
        { q := nth none x.q (t * swpG kindSweep i.desc + h), first := rowFirst i.desc t, last := rowLast i.desc t
          scale := fld i.desc 480 32
          bias := if bitOf i.desc 150 then some (nth [] x.bias (if bitOf i.desc 148 then h else 0)) else none
          flush }
      y.share bs

/-- Cycles of an engine for one block (R242): a fraction of the read term is rounded up (DESIGN CHOICE, log 90). -/
def blockCycles (desc : Nat) : Nat :=
  let d := headDim (swpD kindSweep desc)
  let gt := swpG kindSweep desc * swpT kindSweep desc
  let B := blockSize desc
  4 + max ((2 * B * rowBytes (fld desc 158 3) d + 127) / 128) (max (2 * B * gt * d / 1024) (B * gt / 16))

/-- The counts of one engine for an item (Table 2.16): its cycles, blocks and bytes. -/
def Mach.countEngine (m : Mach) (i : Item) (stack e : Nat) (bs : List (List Nat)) : Mach :=
  let rb := rowBytes (fld i.desc 158 3) (headDim (swpD kindSweep i.desc))
  let u := 0x9400 + 16 * stack + e
  (((m.bump (key u 1) (bs.length * blockCycles i.desc)).bump (key u 2) bs.length).bump (key u 3)
    (2 * rb * (bs.flatMap id).length)).bump (key u 4)

/-- An engine reads and computes its share: the broadest cause so far, and the shares so far. -/
def Mach.runShare (m : Mach) (i : Item) (x : SwpData) (flush : Bool) (stack e : Nat) (bs : List (List Nat)) :
    Mach × List Att × Option Fail :=
  let r := m.readShare i bs
  (r.1.countEngine i stack e bs, shareOf i x flush r.2.1, r.2.2)

/-- A SWEEP item's engines read and compute their shares (R228, R230, R236, R256), of what memory holds at its dispatch (DESIGN CHOICE,
log 93). -/
def Mach.runSweep (m : Mach) (k : Nat) (i : Item) : Mach :=
  let stack := swpStack kindSweep i.desc
  let first := swpFirst kindSweep i.desc
  let n := swpCount kindSweep i.desc
  let x := m.swpInputs i
  let flush := m.cfgE i.epoch kSweepSubnormals = 1
  let r : Mach × List (List Att) × Option Fail :=
    if x.2.fail.isSome then (x.1, [], x.2.fail)
    else (List.range n).foldl (fun a e =>
      let s := a.1.runShare i x.2 flush stack (first + e) (shareBlocks i.desc x.2.list e n)
      (s.1, a.2.1 ++ [s.2.1], match s.2.2 with | none => a.2.2 | some f => worseOf a.2.2 f)) (x.1, [], none)
  r.1.setSwp { r.1.swp with
    runs := sput r.1.swp.runs k { stack, first, count := n, parts := if r.2.2.isSome then [] else r.2.1, fail := r.2.2 } }

/-- A SWEEP_MERGE item reads its partials at the sweep port: outputs and log-sum-exp of every pair (R215, R239, R247). -/
def Mach.runMerge (m : Mach) (k : Nat) (i : Item) : Mach :=
  let stack := swpStack kindMerge i.desc
  let d := headDim (swpD kindMerge i.desc)
  let n := swpG kindMerge i.desc * swpT kindMerge i.desc
  let r : Mach × List (List Att) × Option Fail := (List.range (fld i.desc 432 5)).foldl (fun a j =>
    let r := a.1.itemRead (swpPort stack) i.epoch i.ctx (fld i.desc 478 34 * 64 + j * partialBytes i.desc) (4 * n * (d + 1))
    (r.1, match r.2 with
      | .error e => (a.2.1, worseOf a.2.2 e)
      | .ok b =>
        let cs := codesOf 4 (n * (d + 1)) b
        (a.2.1 ++ [(List.range n).map fun j => ({ m := nth 0 cs (n * d + j), o := (cs.drop (d * j)).take d } : Att)], a.2.2)))
    (m, [], none)
  let m := r.1.bump (key (0x9400 + 16 * stack + swpFirst kindMerge i.desc) 4)
  m.setSwp { m.swp with
    runs := sput m.swp.runs k
      { stack, first := swpFirst kindMerge i.desc, count := 1, parts := if r.2.2.isSome then [] else r.2.1, fail := r.2.2 } }

/-- A queued item may start (R244, R250, R313): its engines idle, its sessions right, no earlier queued item needing one. -/
def Mach.swpReady (m : Mach) (stack : Nat) (earlier : List Nat) (k : Nat) : Bool :=
  match m.item? k with
  | none => false
  | some i =>
    let f := swpFirst i.kind i.desc
    let c := swpCount i.kind i.desc
    (m.runsOn stack f c).isEmpty && m.itemFree i &&
    (engines f c).all (fun e => match m.sessAt stack e with | none => true | some x => x.ctx = i.ctx) &&
    earlier.all fun j => match m.item? j with
      | none => true
      | some x => swpFirst x.kind x.desc + swpCount x.kind x.desc ≤ f || f + c ≤ swpFirst x.kind x.desc

/-- The first queued item of a stack that may start; `seen` are the items before it. -/
def Mach.swpNext (m : Mach) (stack : Nat) : List Nat → List Nat → Option Nat
  | _, [] => none
  | seen, k :: ks => if m.swpReady stack seen k then some k else m.swpNext stack (seen ++ [k]) ks

/-- An engine of the set is withdrawn, under the item's epoch (R254). -/
def Mach.engineGone (m : Mach) (epoch stack first count : Nat) : Option Nat :=
  (engines first count).find? fun e => shas (m.cadOf epoch).gone (UnitRef.code ⟨0x05, stack * 16 + e⟩)

/-- Ranges of addresses that a leg reads or writes. -/
def Leg.spans (l : Leg) : List (Nat × Nat) :=
  let src := match l.op with
    | 1 => if l.convert then l.count * fmtBytes l.fmt else l.count
    | 4 => if l.fmt = 15 then 16 + 24 * l.count else l.count * fmtBytes l.fmt
    | 9 => 272 * l.count
    | _ => l.count * fmtBytes l.fmt
  (if l.uses.contains 131 then [(l.addr, src)] else []) ++ l.dests

/-- Ranges of addresses that an item reads or writes. -/
def Mach.itemSpans (m : Mach) (i : Item) : List (Nat × Nat) :=
  let d := i.desc
  if i.kind = kindSweep then
    let dim := headDim (swpD kindSweep d)
    let n := swpT kindSweep d * swpG kindSweep d
    let rb := rowBytes (fld d 158 3) dim
    let rows := (shareBlocks d (m.swpInputs i).2.list 0 1).flatten.map fun p => p * rb
    [(fld d 446 34 * 64, n * dim * (if bitOf d 154 then 4 else 2)), (fld d 412 34 * 64, n * dim * (if bitOf d 153 then 2 else 4))] ++
      (if bitOf d 150 then [(fld d 378 34 * 64, biasBytes d)] else []) ++
      (if bitOf d 147 then [(fld d 344 34 * 64, 4 * fld d 198 16)] else []) ++
      (rows.map fun o => (fld d 312 32 * 256 + o, rb)) ++ (rows.map fun o => (fld d 280 32 * 256 + o, rb))
  else if i.kind = kindMerge then
    [(fld d 478 34 * 64, fld d 432 5 * partialBytes d), (fld d 444 34 * 64, partialBytes d)]
  else if i.kind = kindTraverse then
    match sget m.trv.live i.key with
    | some t => (t.legs.flatMap fun v => (Leg.ofNat v).spans)
    | none => []
  else if i.kind = kindSave || i.kind = kindLoad then [(ckptVa d, 256 * ckptLines d)]
  else if i.kind = kindFb then [(fbAddr d, fbLen d), (fbReply d, fbMax d)]
  else []

/-- An item needs a stack: its engines, or a line it reads or writes, lie there. -/
def Mach.needsStack (m : Mach) (i : Item) (s : Nat) : Bool :=
  ((i.kind = kindSweep || i.kind = kindMerge || i.kind = kindSession) && swpStack i.kind i.desc = s) ||
  (m.itemSpans i).any fun x => (pieces x.1 x.2).any fun p =>
    match m.findSeg i.ctx p.1 with
    | some (_, e) => let pl := e.place (p.1 - e.va) (ringFloor i.ring)
                     pl.medium = 1 && pl.stack = s
    | none => false

/-- The causes that end a sweep item before it reads memory: a withdrawn engine of its set, and every stack it needs that is shut down
(R254, R604, Table 7.12). -/
def Mach.swpStops (m : Mach) (i : Item) (stack : Nat) : Option Fail :=
  worstFail ((match m.engineGone i.epoch stack (swpFirst i.kind i.desc) (swpCount i.kind i.desc) with
    | some e => [⟨.failUnit, ⟨0x05, stack * 16 + e⟩⟩]
    | none => []) ++ ((List.range 6).filter fun s => (m.stackAt s).shut && m.needsStack i s).map fun s => ⟨.failThermal, ⟨0x02, s⟩⟩)

/-- A stack's next sweep item leaves its queue and starts (R244, R704); it waits while its stack sleeps, unless shut down
(Table 7.12). -/
def Mach.swpDispatch (m : Mach) (stack : Nat) : Mach :=
  if (m.stackAt stack).selfRefresh && !(m.stackAt stack).shut then m
  else match m.swpNext stack [] (sgetD [] m.swp.queue stack) with
  | none => m
  | some k =>
    match m.item? k with
    | none => m
    | some i =>
      let m := m.setSwp { m.swp with queue := smod [] m.swp.queue stack (·.filter (· ≠ k)) }
      if i.skip && m.predecessorFailed i then m.finish k .failAborted
      else
        let m := m.startItem k
        match m.swpStops i stack with
        | some f => m.finish k f.st f.unit
        | none => if i.kind = kindSweep then m.runSweep k i else m.runMerge k i

/-- Outputs and log-sum-exp values as bytes, and the flags of an item (R223, R235). -/
def outBytes (bf lse : Bool) (ps : List PairOut) : Bytes × Nat :=
  ((ps.flatMap fun p => p.o.flatMap fun c => leB (if bf then 2 else 4) c) ++
    (if lse then ps.flatMap fun p => leB 4 p.lse else []),
   ps.foldl (fun f p => Nat.lor f p.flags) 0)

/-- The results of a finished run, and their bytes' address. -/
def Mach.swpResult (m : Mach) (i : Item) (r : SwpRun) : Nat × Bytes × Nat :=
  let flush := m.cfgE i.epoch kSweepSubnormals = 1
  let empty := m.cfgE i.epoch kSweepEmptyOutput = 1
  let d := headDim (swpD i.kind i.desc)
  let n := swpG i.kind i.desc * swpT i.kind i.desc
  if i.kind = kindSweep then
    let bf := bitOf i.desc 153
    let f := if bf then bf16 else fp32
    let ps := (List.range n).map fun j => (combineAll flush d (r.parts.map fun p => nth {} p j)).out f d flush empty
    let b := outBytes bf (bitOf i.desc 152) ps
    (fld i.desc 412 34 * 64, b.1, b.2)
  else
    let bf := bitOf i.desc 422
    let f := if bf then bf16 else fp32
    let ps := (List.range n).map fun j => mergePair f d flush empty (r.parts.map fun p => ((nth {} p j).o, (nth {} p j).m))
    let b := outBytes bf (bitOf i.desc 421) ps
    (fld i.desc 444 34 * 64, b.1, b.2)

/-- The opens that wait for items complete, where those have ended (R249). -/
def Mach.opensGo (m : Mach) : Mach := (m.swp.sess.filterMap (·.opening)).foldl (fun m k => m.sessionOpened k) m

/-- A run ends: outputs are written, then the record; a read or write that failed ends the item (R237, R255, R257). -/
def Mach.swpCombine (m : Mach) (k : Nat) : Mach :=
  match sget m.swp.runs k, m.item? k with
  | some r, some i =>
    let m : Mach :=
      match r.fail with
      | some f => m.finish k f.st f.unit
      | none =>
        let o := m.swpResult i r
        let w := m.itemWrite (swpPort r.stack) i.epoch i.ctx o.1 o.2.1
        match w.2 with
        | some f => w.1.finish k f.st f.unit
        | none => w.1.finish k .done {} o.2.2
    m.opensGo
  | _, _ => m

/-- A logical engine faults (R253). -/
def Mach.engineFault (m : Mach) (stack e : Nat) : Mach :=
  let u : UnitRef := ⟨0x05, stack * 16 + e⟩
  let i := m.cad.cur.physOf u
  let run := (m.swp.runs.find? fun r => r.2.stack = stack && r.2.first ≤ e && e < r.2.first + r.2.count)
  let endRun (m : Mach) (r : Nat × SwpRun) : Mach := (m.finish r.1 .failUnit u).opensGo
  if i = 0xFF then m
  else match run with
  | none => (m.moveUnit u 2 false).ledger (if (m.spareFor u).isSome then 0x02 else 0x04) 0x03 (m.moveOutcome u) u 0 0 0 0 i
  | some r =>
    let ctx := match m.item? r.1 with | some it => it.ctx | none => 0
    let epoch := match m.item? r.1 with | some it => it.epoch | none => m.fb.epoch
    if r.2.retried.contains e then
      endRun ((m.withdraw u 2).ledger 0x04 0x03 0x04 u Status.failUnit.code 1 ctx 0 i) r
    else if (m.spareFor u).isSome && m.cfgE epoch kSweepSpareRetry = 1 then
      let m := (m.moveUnit u 2 false).ledger 0x02 0x03 0x02 u 0 0 ctx 0 i
      (m.setSwp { m.swp with runs := sput m.swp.runs r.1 { r.2 with retried := e :: r.2.retried } }).bump
        (kSweepRetries + 256 * stack)
    else endRun ((m.moveUnit u 2 false).ledger 0x04 0x03 (m.moveOutcome u) u Status.failUnit.code 1 ctx 0 i) r

end Sys2Proof.Machine
end

