-- ==== Sys2Proof/Machine/Hosts.lean ====
section
/-! DEFINITION. Host and far-tier ports (R471 to R500, R695): the register window, BAR2, transfers and sealed records, SPDM
sessions and bindings, far devices and checkpoint items. -/
namespace Sys2Proof.Machine

/-- A host port as a unit. -/
def hpRef (n : Nat) : UnitRef := ⟨0x0A, n⟩

/-- A context lies in the partition that holds host port `n`, and is LIVE (R476). -/
def Mach.hpCtx (m : Mach) (n c : Nat) : Bool :=
  match m.ctx? c with
  | some x => c ≠ 0 && x.st = .live && bitOf (m.plat x.part 8) n
  | none => false

/-- The register window and BAR2 of a port take transactions: endpoint role, link UP, not fenced (R474, R498). -/
def Mach.hpServes (m : Mach) (n : Nat) : Bool :=
  let x := m.hpAt n
  x.role = 1 && x.link = 2 && !x.stopped && x.fencing.isNone

/-- The own member as GROUP_TARGET and MEMBER name it: 0 when the module takes no part in a group (Table 14.2). -/
def Mach.ownMember (m : Mach) : Nat := if m.member = 0xFF then 0 else m.member

/-- The member in GROUP_TARGET. -/
def Mach.hpTarget (m : Mach) (n : Nat) : Nat := match (m.hpAt n).target with | some t => t | none => m.ownMember

/-- The requester is host port `n`. -/
def isHp (n : Nat) : Origin → Bool
  | .bar2 k _ => k = n
  | _ => false

/-! The register window. -/

/-- A store of `v` to a register without a behaviour of its own (Tables 14.2, 14.3); reserved offsets drop it. GO has its own
commands. -/
def Mach.hpPut (m : Mach) (n off v : Nat) : Mach :=
  let x := m.hpAt n
  let v := v % 2 ^ 64
  if !m.hpServes n then m
  else if off = 0x18 then (if v % 256 < 128 then m.setHpAt n { x with target := some (v % 256) } else m)
  else if off = 0x20 then m.setHpAt n { x with apCtx := v % 4096 }
  else if off = 0x28 then m.setHpAt n { x with apBase := fld v 32 8 * 2 ^ 32 }
  else if off = 0x100 then m.setHpAt n { x with atomAddr := v }
  else if off = 0x108 then m.setHpAt n { x with atomWord := v % 2 ^ 32 }
  else if 0x200 ≤ off && off < 0x300 && off % 8 = 0 then m.setHpAt n { x with atomOps := blockPut x.atomOps (off - 0x200) 8 v }
  else if 0x10000 ≤ off && off < 0x20000 then m.setHpAt n { x with mbxReq := bytesPut x.mbxReq (off - 0x10000) 8 v }
  else if 0x1000 ≤ off && off < 0x1200 then
    let k := (off - 0x1000) / 32
    let y := nth {} x.xfer k
    let set (y : Xfer) : Mach := m.setHpAt n { x with xfer := setAt x.xfer k y }
    match off % 32 with
    | 0x00 => set { y with hostAddr := v }
    | 0x08 => set { y with segAddr := v }
    | 0x10 => set { y with length := v % 2 ^ 32 }
    | 0x14 => set { y with ctl := v % 2 ^ 31 }
    | _ => m
  else m

/-- A doorbell word reaches its member: this module, or another over VC 2 channel 1 (R477, R488, Table 14.6). -/
def Mach.hpRing (m : Mach) (n member word : Nat) : Mach :=
  if member = m.ownMember then m.doorbellFrom n 5 n word
  else m.sendVc2 member 1 m.trv.reqId 0 (leB 8 0 ++ leB 8 word)

/-- A write of DOORBELL: at once, or once the port's earlier BAR2 writes are complete (R477). -/
def Mach.hpBell (m : Mach) (n word : Nat) : Mach :=
  if !m.hpServes n then m
  else
    let m := m.wake 4
    let x := m.hpAt n
    let t := m.hpTarget n
    if m.storesOpen (isHp n) || !x.heldBells.isEmpty then
      m.setHpAt n { x with heldBells := x.heldBells ++ [word + t * 2 ^ 64] }
    else m.hpRing n t word

/-- Doorbells whose port has no open BAR2 write any more are performed, in order (R477). -/
def Mach.hpBells (m : Mach) : Mach :=
  (List.range 2).foldl (fun m n =>
    let x := m.hpAt n
    if x.heldBells.isEmpty || m.storesOpen (isHp n) then m
    else x.heldBells.foldl (fun m w => m.hpRing n (w / 2 ^ 64) (w % 2 ^ 64)) (m.setHpAt n { x with heldBells := [] })) m

/-! BAR2. -/

/-- BAR2 refuses an access of `len` bytes at segment address `va` (R479). -/
def Mach.bar2Refused (m : Mach) (n va len : Nat) (k : Access) : Bool :=
  let c := (m.hpAt n).apCtx
  !m.hpCtx n c || m.confCtx c ||
  (match m.resolve n c va len k with | .ok _ => false | .error _ => true)

/-- A BAR2 read: a grid read of APERTURE_CTX, or Unsupported Request (R479). -/
def Mach.bar2Read (m : Mach) (n tag off len : Nat) (ecc : Ecc) (since way : Nat) (wait : Bool) : Mach :=
  if !m.hpServes n then m
  else
    let m := m.wake 4
    let x := m.hpAt n
    let va := x.apBase + off
    if m.bar2Refused n va len .rd then (m.bump kGridXlateFaults).emit (.readData (.bar2 n tag) .rejectAccess [])
    else (pieces va len).foldl (fun m p => m.arrive (.bar2 n tag) x.apCtx p.1 (.read p.2) ecc since way wait) m

/-- A BAR2 write: a grid write of APERTURE_CTX, or dropped (R479). -/
def Mach.bar2Write (m : Mach) (n tag off : Nat) (data : Bytes) (ecc : Ecc) (wait : Bool) : Mach :=
  if !m.hpServes n then m
  else
    let m := m.wake 4
    let x := m.hpAt n
    let va := x.apBase + off
    if m.bar2Refused n va data.length .wr then m.bump kGridXlateFaults
    else (pieces va data.length).foldl (fun m p =>
        m.arrive (.bar2 n tag) x.apCtx p.1 (.write ((data.drop (p.1 - va)).take p.2) false) ecc 33 0 wait) m

/-- An atomic operation of a host port has not returned. -/
def Mach.hpAtomOpen (m : Mach) (n : Nat) : Bool :=
  let w (t : Txn) : Bool := isHp n t.org && (match t.kind with | .atomic _ _ _ => true | _ => false)
  m.grid.relWait.any w || (m.grid.wait.any fun q => q.2.any w) ||
  m.die.dir.any fun l => match l.2 with | .inval hs _ => hs.any fun h => isHp n h.org && h.rsp.isSome | .held _ => false

/-- The atomic operation of an ATOM_GO read is performed, or refused where BAR2 would refuse the access (R480): `a` holds ATOM_ADDR,
ATOM_WORD and ATOM_OPERANDS. -/
def Mach.hpAtomicDo (m : Mach) (n : Nat) (a : Nat × Nat × Bytes) (wait : Bool) : Mach :=
  let x := m.hpAt n
  if m.bar2Refused n a.1 (max 1 (AtomWord.ofNat a.2.1).bytes) .atomic then
    (m.bump kGridXlateFaults).setHpAt n { x with atomGo := Status.rejectAccess.code }
  else m.arrive (.bar2 n 0) x.apCtx a.1 (.atomic a.2.1 a.2.2 false) .clean 33 0 wait

/-- A read of ATOM_GO: performed, or waiting until an earlier one has returned (R480). -/
def Mach.hpAtomic (m : Mach) (n : Nat) (wait : Bool) : Mach :=
  if !m.hpServes n then m
  else
    let m := m.wake 4
    let x := m.hpAt n
    let a := (x.atomAddr, x.atomWord, x.atomOps)
    if m.hpAtomOpen n || !x.atomWait.isEmpty then m.setHpAt n { x with atomWait := x.atomWait ++ [a] }
    else m.hpAtomicDo n a wait

/-- A waiting read of ATOM_GO whose port has none open any more is performed (R480). -/
def Mach.hpAtoms (m : Mach) : Mach :=
  (List.range 2).foldl (fun m n =>
    let x := m.hpAt n
    match x.atomWait with
    | [] => m
    | a :: r => if m.hpAtomOpen n then m else (m.setHpAt n { x with atomWait := r }).hpAtomicDo n a false) m

/-! Transfers. -/

/-- The control word's fields (Table 14.3). -/
def ctlDir (c : Nat) : Nat := fld c 30 1
def ctlSealed (c : Nat) : Bool := bitOf c 29
def ctlCtx (c : Nat) : Nat := fld c 16 12
def ctlMember (c : Nat) : Nat := fld c 8 8

/-- A transfer channel, and one changed. -/
def Mach.xferAt (m : Mach) (n k : Nat) : Xfer := nth {} (m.hpAt n).xfer k
def Mach.setXfer (m : Mach) (n k : Nat) (y : Xfer) : Mach :=
  m.setHpAt n { m.hpAt n with xfer := setAt (m.hpAt n).xfer k y }

/-- A member is reachable: GROUP_FWD names a port for it (R405, R481). -/
def Mach.reachable (m : Mach) (t : Nat) : Bool := m.member ≠ 0xFF && t < 128 && num (m.runVal kGroupFwd) t 1 < 24

/-- The reject-class causes of a transfer (R481). -/
def Mach.xferRejects (m : Mach) (n : Nat) (y : Xfer) : List (Bool × Fail) :=
  let c := ctlCtx y.ctl
  let own := ctlMember y.ctl = m.ownMember
  [chk (fld y.ctl 28 1 ≠ 0 || fld y.ctl 0 8 ≠ 0 || y.hostAddr % 64 ≠ 0 || y.segAddr % 256 ≠ 0 || y.segAddr ≥ 2 ^ 40 ||
      y.length % 256 ≠ 0 || y.length < 256 || y.length > 2 ^ 30) .rejectFormat,
   chk (own && (!m.hpCtx n c || (m.confCtx c && (!ctlSealed y.ctl || (match y.bound with | some b => b.1 ≠ c | none => true)))))
      .rejectAccess,
   chk ((!own && !m.reachable (ctlMember y.ctl)) || (ctlSealed y.ctl && !own)) .rejectRange]

/-- The key of one direction of a binding, and the nonce of a record under it (R486). -/
def bindKey (n k dir ctx sess binds : Nat) : Nat :=
  beN (hkdfExpand (beB 48 (Config.exportSecret n sess).toNat)
    (label "STL2 xfer" ++ beB 1 n ++ beB 1 k ++ beB 2 ctx ++ beB 1 dir ++ beB 4 binds) 32)
def bindNonce (n k dir sess binds seq : Nat) : Nat :=
  beN (hkdfExpand (beB 48 (Config.exportSecret n sess).toNat) (label "STL2 xsalt" ++ beB 1 n ++ beB 1 k ++ beB 1 dir ++ beB 4 binds) 4 ++
    beB 8 seq)

/-- A sealed record that fails R487: FAIL_KEY, counted, and a SECURITY event. -/
def Mach.recordFails (m : Mach) (n k : Nat) : Mach :=
  (m.bump (kHpXferAuthFails + 256 * n)).event evSecurity 0x08 3 (hpRef n) 0 (3 * 2 ^ 56 + k)

/-- The header of a sealed record (Table 14.5) as a number. -/
def recordHeader (dir k ctx seq len : Nat) : Nat :=
  0x53543152 * 2 ^ 224 + 2 ^ 216 + dir * 2 ^ 208 + k * 2 ^ 200 + ctx * 2 ^ 176 + seq * 2 ^ 96 + len * 2 ^ 64

/-- Sealed records of host memory moved into the module (R481, R487): `left` payload bytes remain. -/
def Mach.sealedIn : Nat → Mach → Nat → Nat → Nat → Bytes → Nat → Mach
  | 0, m, _, _, _, _, _ => m
  | fuel + 1, m, n, k, va, b, left =>
    let y := m.xferAt n k
    if left = 0 then m
    else match y.bound with
    | none => (m.setXfer n k { y with fail := some .failKey }).recordFails n k
    | some (ctx, sess, binds) =>
      let len := min left 4096
      if y.seqIn ≥ 2 ^ 32 then m.setXfer n k { y with fail := some .failKey }
      else
        let kn := bindKey n k 0 ctx sess binds
        let nonce := bindNonce n k 0 sess binds y.seqIn
        let c := (b.drop 32).take len
        if num b 0 32 ≠ recordHeader 0 k ctx y.seqIn len || ctx ≠ ctlCtx y.ctl ||
            (b.drop (32 + len)).take 16 ≠ gcmTag kn nonce (b.take 32) c then
          (m.setXfer n k { y with fail := some .failKey }).recordFails n k
        else
          let w := m.itemWrite (.bar2 n 0) m.fb.epoch ctx va (sealBytes kn nonce c)
          match w.2 with
          | some e => w.1.setXfer n k { y with fail := some e.st }
          | none =>
            Mach.sealedIn fuel (w.1.setXfer n k { y with seqIn := y.seqIn + 1, lines := y.lines + len / 256 }) n k (va + len)
              (b.drop 4160) (left - len)

/-- Sealed records written to host memory (R487). -/
def Mach.sealedOut : Nat → Mach → Nat → Nat → Nat → Nat → Nat → Mach
  | 0, m, _, _, _, _, _ => m
  | fuel + 1, m, n, k, va, addr, left =>
    let y := m.xferAt n k
    if left = 0 then m
    else match y.bound with
    | none => m.setXfer n k { y with fail := some .failKey }
    | some (ctx, sess, binds) =>
      let len := min left 4096
      if y.seqOut ≥ 2 ^ 32 || ctx ≠ ctlCtx y.ctl then m.setXfer n k { y with fail := some .failKey }
      else
      let g := m.itemRead (.bar2 n 0) m.fb.epoch ctx va len
      match g.2 with
      | .error e => g.1.setXfer n k { y with fail := some e.st }
      | .ok d =>
        let key := bindKey n k 1 ctx sess binds
        let nonce := bindNonce n k 1 sess binds y.seqOut
        let h := leB 32 (recordHeader 1 k ctx y.seqOut len)
        let c := sealBytes key nonce d
        let r := padTo 4160 (h ++ c ++ gcmTag key nonce h c)
        let m := (g.1.setXfer n k { y with seqOut := y.seqOut + 1, lines := y.lines + len / 256 }).emit (.hostMem n k addr r)
        Mach.sealedOut fuel m n k (va + len) (addr + 4160) (left - len)

/-- The cause a transfer ends with when a further one applies, in the order of R11. -/
def Xfer.failBy (y : Xfer) (e : Fail) : Xfer :=
  { y with fail := some (match y.fail with | none => e.st | some st => ((⟨st, {}⟩ : Fail).worse e).st) }

/-- Clear lines moved into the module, in order; a line that cannot be written is not, and gives its cause. -/
def Mach.linesIn : Nat → Mach → Nat → Nat → Nat → Bytes → Mach
  | 0, m, _, _, _, _ => m
  | fuel + 1, m, n, k, va, b =>
    let y := m.xferAt n k
    if b.isEmpty then m
    else
      let w := m.itemWrite (.bar2 n 0) m.fb.epoch (ctlCtx y.ctl) va (b.take 256)
      let z := match w.2 with | some e => y.failBy e | none => { y with lines := y.lines + 1 }
      Mach.linesIn fuel (w.1.setXfer n k z) n k (va + 256) (b.drop 256)

/-- Clear lines written to host memory, in order; a line that cannot be read is not written, and gives its cause. -/
def Mach.linesOut : Nat → Mach → Nat → Nat → Nat → Nat → Mach
  | 0, m, _, _, _, _ => m
  | fuel + 1, m, n, k, va, addr =>
    let y := m.xferAt n k
    let g := m.itemRead (.bar2 n 0) m.fb.epoch (ctlCtx y.ctl) va 256
    let m := match g.2 with
      | .error e => g.1.setXfer n k (y.failBy e)
      | .ok d => (g.1.setXfer n k { y with lines := y.lines + 1 }).emit (.hostMem n k addr d)
    Mach.linesOut fuel m n k (va + 256) (addr + 256)

/-- The head of a host-data message to another member (Table 14.6, channels 2 and 3). -/
def hostDataHead (ctx va : Nat) : Bytes := leB 2 ctx ++ leB 6 0 ++ leB 8 va

/-- The number of a transfer channel among those that wait for replies of other members. -/
def waitChan (n k : Nat) : Nat := n * 16 + k

/-- A transfer for another member is sent as one message on channel 2 or 3, and waits for its reply (R489). -/
def Mach.xferToMember (m : Mach) (n k : Nat) (y : Xfer) (data : Bytes) : Mach :=
  let t := ctlMember y.ctl
  let req := (m.trv.reqId + 1) % 65536
  let dir := ctlDir y.ctl
  let m := m.setTrv { m.trv with
    reqId := req
    waits := m.trv.waits ++ [⟨req, t, dir + 1, waitChan n k, y.length⟩] }
  let head := hostDataHead (ctlCtx y.ctl) y.segAddr
  m.sendVc2 t (2 + dir) req 0 (if dir = 0 then head ++ data else head ++ leB 4 y.length)

/-- GO = 1 on a channel that is not BUSY (R481, R483): checked, and its data moved. `data` is what host memory holds for a
host-to-module transfer. -/
def Mach.xferStart (m : Mach) (n k ctl : Nat) (data : Bytes) : Mach :=
  if !m.hpServes n || (m.xferAt n k).busy then m
  else
    let m := m.wake 4
    let y := { m.xferAt n k with ctl := ctl % 2 ^ 31, lines := 0, busy := true, status := 0, fail := none }
    match firstReject (m.xferRejects n y) with
    | some f => m.setXfer n k { y with fail := some f.st }
    | none =>
      let m := m.setXfer n k y
      let lines := y.length / 256
      if ctlMember y.ctl ≠ m.ownMember then m.xferToMember n k y (padTo y.length data)
      else if ctlDir y.ctl = 0 then
        (if ctlSealed y.ctl then m.sealedIn (lines + 1) n k y.segAddr data y.length
         else m.linesIn (lines + 1) n k y.segAddr (padTo y.length data))
      else if ctlSealed y.ctl then m.sealedOut (lines + 1) n k y.segAddr y.hostAddr y.length
      else m.linesOut lines n k y.segAddr y.hostAddr

/-- A running transfer ends once no member's reply is owed to it: its first cause, or DONE (R481, R482, R489). -/
def Mach.xferEnd (m : Mach) (n k : Nat) : Mach :=
  let y := m.xferAt n k
  if !y.busy || m.trv.waits.any (fun w => (w.what = 1 || w.what = 2) && w.chan = waitChan n k) then m
  else m.endXfer n k (match y.fail with | some f => f | none => .done)

/-- Transfers of a context end FAIL_ABORTED and its bindings end (R485, Table 14.9). -/
def Mach.dropXfers (m : Mach) (c : Nat) : Mach :=
  (List.range 32).foldl (fun m i =>
    let n := i / 16
    let k := i % 16
    let y := m.xferAt n k
    let m := if y.busy && ctlCtx y.ctl = c && ctlMember y.ctl = m.ownMember then m.endXfer n k .failAborted else m
    match (m.xferAt n k).bound with
    | some b => if b.1 = c then m.unbind n k else m
    | none => m) m

/-! SPDM. -/

/-- The port answers SPDM with ERROR Busy: it is HP1 and F0 is lost (R484, R522). -/
def Mach.spdmBusy (m : Mach) : Bool := m.floorLost 0

/-- An SPDM session ends, with its bindings (R485). -/
def Mach.spdmEnd (m : Mach) (n id : Nat) : Mach :=
  let x := m.hpAt n
  let m := m.setHpAt n { x with sessions := x.sessions.filter fun s => s.id ≠ id }
  (List.range 16).foldl (fun m k => match (m.xferAt n k).bound with
    | some b => if b.2.1 = id then m.unbind n k else m
    | none => m) m

/-- SPDM response codes, and error codes of DSP0274 (PRESUMED, log 12). -/
def spdmError : Nat := 0x7F
def spdmErrBusy : Nat := 3
def spdmErrUnsupported : Nat := 7
def spdmErrSessions : Nat := 0x0A
def spdmErrSession : Nat := 2

/-- Requests that the capabilities of Table 14.4 answer, by SPDM request code. -/
def spdmKnown : List Nat := [0x81, 0x82, 0x83, 0x84, 0xE0, 0xE1, 0xE3, 0xE4, 0xE5, 0xE8, 0xE9, 0xEC]

/-- An SPDM request through DOE (R484): KEY_EXCHANGE opens a session while fewer than 4 are open, END_SESSION ends one; FINISH,
HEARTBEAT and KEY_UPDATE need one. -/
def Mach.spdmRequest (m : Mach) (n code sess : Nat) : Mach :=
  if !m.hpServes n then m
  else
    let m := m.wake 4
    let x := m.hpAt n
    if m.spdmBusy then m.emit (.spdm n spdmError [3])
    else if !spdmKnown.contains code then m.emit (.spdm n spdmError [7])
    else if [0xE5, 0xE8, 0xE9].contains code && !(x.sessions.any fun s => s.id = sess) then m.emit (.spdm n spdmError [2])
    else if code = 0xE4 then
      if x.sessions.length ≥ 4 then m.emit (.spdm n spdmError [10])
      else
        (m.setHpAt n { x with sessions := x.sessions ++ [{ id := x.nextSession }], nextSession := x.nextSession + 1 }).emit
          (.spdm n 0x64 (leB 4 x.nextSession))
    else if code = 0xEC then
      (if x.sessions.any (fun s => s.id = sess) then (m.spdmEnd n sess).emit (.spdm n 0x6C []) else m.emit (.spdm n spdmError [2]))
    else m.emit (.spdm n (code % 128) [])

/-- The authorisation value that a context's bind key gives (R537). -/
def bindAuth (z : Fuses) (root n k ctx sess binds : Nat) : Bytes :=
  hmac (hkdfExpand (hkdfExtract (label "STL2 root" ++ beB 8 z.serial) (beB 32 root)) (label "STL2 bind") 48)
    (label "STL2 bind" ++ beB 1 n ++ beB 1 k ++ beB 2 ctx ++ beB 4 sess ++ beB 4 binds)

/-- XFER_BIND in a session (R485, R537): `auth` is its authorisation value for the session's next bind count; a context without
CONTEXT_ROOT has no bind key. -/
def Mach.xferBind (m : Mach) (z : Fuses) (n sess k ctx : Nat) (auth : Bytes) : Mach :=
  if !m.hpServes n then m
  else
    let m := m.wake 4
    let x := m.hpAt n
    if m.spdmBusy then m.emit (.spdm n spdmError [3])
    else match x.sessions.find? fun s => s.id = sess with
    | none => m.emit (.spdm n spdmError [2])
    | some s =>
      let ok : Bool := match (sgetD {} m.sec.keys ctx).root with
        | some root => auth = bindAuth z root n k ctx sess (s.binds + 1)
        | none => false
      if k > 15 || !ok || !m.hpCtx n ctx then m.emit (.spdm n 0x7E (leB 1 Status.rejectAccess.code))
      else if (m.xferAt n k).busy then m.emit (.spdm n 0x7E (leB 1 Status.rejectBusy.code))
      else
        let b := s.binds + 1
        let m := m.unbind n k
        let x := m.hpAt n
        let m := m.setHpAt n { x with sessions := x.sessions.map fun t => if t.id = sess then { t with binds := b } else t }
        let m := m.setXfer n k { m.xferAt n k with bound := some (ctx, sess, b), seqIn := 0, seqOut := 0 }
        (m.hold n 8 ⟨5, n⟩ ctx (n * 256 + k)).emit (.spdm n 0x7E (leB 1 Status.done.code))

/-- XFER_UNBIND in the session that bound the channel (R485). -/
def Mach.xferUnbind (m : Mach) (n sess k : Nat) : Mach :=
  if !m.hpServes n then m
  else
    let m := m.wake 4
    if m.spdmBusy then m.emit (.spdm n spdmError [3])
    else if !((m.hpAt n).sessions.any fun s => s.id = sess) then m.emit (.spdm n spdmError [2])
    else match (m.xferAt n k).bound with
    | some b =>
      if b.2.1 = sess then (m.unbind n k).emit (.spdm n 0x7E (leB 1 Status.done.code))
      else m.emit (.spdm n 0x7E (leB 1 Status.rejectAccess.code))
    | none => m.emit (.spdm n 0x7E (leB 1 Status.rejectAccess.code))

/-! Links and far devices. -/

/-- The link of a port goes down. -/
def Mach.hpDown (m : Mach) (n : Nat) : Mach :=
  m.setHpAt n { m.hpAt n with link := 0, width := 0, rate := 0, flit := false }

/-- An endpoint port's link is lost: the port is fenced with cause 4 (R498). -/
def Mach.hpLinkLost (m : Mach) (n : Nat) : Mach :=
  let x := m.hpAt n
  if x.role ≠ 1 || x.link = 0 then m else (m.hpDown n).startHpFence n 4 false

/-- An endpoint port's link becomes UP (R474); its register window and BAR2 serve again (log 13). -/
def Mach.hpLinkUp (m : Mach) (n width rate : Nat) (flit : Bool) : Mach :=
  let x := m.hpAt n
  if x.role ≠ 1 || x.fencing.isSome || m.floorLost n || m.floorGone n || m.pwr.closure.isSome || nth false m.clk.loss n then m
  else m.setHpAt n { x with link := 2, width, rate, flit, stopped := false }

/-- A root port's device is enumerated (R490): `kind` 0 a directly attached single logical device of Type 3, else one that the
port does not support. The port of a lost or withdrawn floor enumerates none (R104, R106). -/
def Mach.farAttach (m : Mach) (n kind cap : Nat) (device : Bytes) : Mach :=
  let x := m.hpAt n
  if x.role ≠ 2 || m.floorLost n || m.floorGone n then m
  else if kind ≠ 0 then m.setHpAt n { x with far := 4, device := padTo 16 device }
  else m.setHpAt n { x with far := 2, link := 2, capacity := min cap (2 ^ 41), device := padTo 16 device }

/-- A far device's link goes down: its checkpoint items fail (Table 14.9). -/
def Mach.farDown (m : Mach) (n : Nat) : Mach :=
  let x := m.hpAt n
  if x.role ≠ 2 then m
  else
    let items := skeys x.moves
    let m := m.setHpAt n { x with far := 3, link := 0 }
    m.finishAll items .failUnit (hpRef n)

/-! Checkpoint items. -/

/-- The far range of a partition on a port: base and exclusive limit (R492). -/
def Mach.farRange (m : Mach) (n p : Nat) : Nat × Nat :=
  let v := m.runVal (kFarRangeP0 + 256 * n + p)
  (num v 0 8, num v 8 8)

/-- The reject-class causes of a checkpoint descriptor (R494), of one status the most significant field first (R324). -/
def Mach.ckptRejects (m : Mach) (fl ctx d : Nat) : List (Bool × Fail) :=
  let n := ckptPort d
  let p := match m.ctx? ctx with | some x => x.part | none => 0
  let r := m.farRange n p
  let x := m.hpAt n
  [chk (ckptLines d > 4194304) .rejectFormat (descBit 428),
   chk (fld d 128 266 ≠ 0) .rejectFormat (descBit 128),
   chk (!bitOf (m.plat p 8) n) .rejectAccess (descBit 395),
   chk (m.confCtx ctx && !ckptSeal d) .rejectAccess (descBit 394),
   chk (ckptFar d < r.1 || ckptFar d + 4096 + ckptLines d * 256 > r.2) .rejectRange (descBit 451),
   chk (n ≠ fl || x.role ≠ 2 || x.far ≠ 2) .rejectRange (descBit 395)]

/-- An accepted checkpoint item starts while fewer than 4 move on its port (R495, R497, R541): it takes the checkpoint key in
force, and a SAVE draws its nonce; a SEAL 1 item of a context without the key ends with FAIL_KEY. -/
def Mach.ckptBegin (m : Mach) (k : Nat) : Mach :=
  match m.item? k with
  | none => m
  | some i =>
    let n := ckptPort i.desc
    let x := m.hpAt n
    if i.started || x.moves.length ≥ 4 then m
    else
      let key := if ckptSeal i.desc then (sgetD {} m.sec.keys i.ctx).ckpt else none
      match worstFail ((if ckptSeal i.desc && key.isNone then [⟨.failKey, ⟨0x0B, i.ctx⟩⟩] else []) ++
          (if x.far ≠ 2 then [⟨.failUnit, hpRef n⟩] else [])) with
      | some f => m.finish k f.st f.unit
      | none =>
        let d := m.draw
        let m := d.2.setHpAt n { x with moves := sput x.moves k (d.1, key) }
        m.startItem k

/-- The oldest checkpoint item that waits for a port, and that R313 does not hold, starts (R497); one whose predecessor failed does no
work (R314). `fuel` bounds those. -/
def Mach.ckptFrom : Nat → Mach → Nat → Mach
  | 0, m, _ => m
  | fuel + 1, m, n =>
    match m.rng.items.find? fun i =>
      (i.kind = kindSave || i.kind = kindLoad) && !i.started && ckptPort i.desc = n && m.itemFree i with
    | none => m
    | some i => if i.skip && m.predecessorFailed i then Mach.ckptFrom fuel (m.finish i.key .failAborted) n else m.ckptBegin i.key

/-- A port that has ended a move takes its next checkpoint item. -/
def Mach.ckptNext (m : Mach) (n : Nat) : Mach := Mach.ckptFrom (m.rng.items.length + 1) m n

/-- Header bits [511:384] of an extent (Table 14.8), as the item names them. -/
def extentHead (ctx d : Nat) : Nat :=
  0x53544B31 * 2 ^ 96 + 2 ^ 88 + (if ckptSeal d then 2 ^ 87 else 0) + ctx * 2 ^ 64 + ckptId d * 2 ^ 32 + fld d 428 23

/-- A SAVE's lines are written to its extent (R495): the data under the checkpoint key `key` for SEAL 1. -/
def Mach.ckptSave (m : Mach) (n k : Nat) (i : Item) (draw key : Nat) : Mach :=
  let d := i.desc
  let g := m.itemRead (.bar2 n 0) i.epoch i.ctx (ckptVa d) (256 * ckptLines d)
  match g.2 with
  | .error e => g.1.finish k e.st e.unit
  | .ok b =>
    let head := extentHead i.ctx d
    let nonce := (Config.drbg draw).toNat % 2 ^ 96
    let c := if ckptSeal d then sealBytes key nonce b else b
    let h := if ckptSeal d then
        head * 2 ^ 384 + leN (gcmTag key nonce (leB 16 head) c) * 2 ^ 256 + nonce * 2 ^ 96
      else head * 2 ^ 384 + crc64 b * 2 ^ 192
    ((g.1.emit (.far n (ckptFar d) (leB 64 h))).emit (.far n (ckptFar d + 4096) c)).finish k .done

/-- Header bits [511:384] without their reserved bits [470:460]. -/
def extentNames (v : Nat) : Nat := v - fld v 76 11 * 2 ^ 76

/-- The causes for which a LOAD's extent does not verify (R496): `h` its 64-byte header, `b` its data, `hPoison` and `bPoison` whether
the device's read of each was poisoned. A header that was not read says nothing more. -/
def ckptCauses (n : Nat) (i : Item) (key : Nat) (h b : Bytes) (hPoison bPoison : Bool) : List Fail :=
  let d := i.desc
  if hPoison then [⟨.failMemLost, hpRef n⟩] else
  (if extentNames (num h 48 16) ≠ extentHead i.ctx d then [⟨.failAborted, descBit 396⟩] else []) ++
  (if bPoison || (!ckptSeal d && num h 24 8 ≠ crc64 b) then [⟨.failMemLost, hpRef n⟩] else []) ++
  (if ckptSeal d && (h.drop 32).take 16 ≠ gcmTag key (num h 12 12) ((h.drop 48).take 16) b then [⟨.failKey, hpRef n⟩] else [])

/-- A LOAD's extent as read, verified and then written to its destination (R11, R496); a tag that fails is a SECURITY event. -/
def Mach.ckptLoad (m : Mach) (n k : Nat) (i : Item) (key : Nat) (h b : Bytes) (hPoison bPoison : Bool) : Mach :=
  let d := i.desc
  let b := padTo (256 * ckptLines d) b
  let m := m.bump (kFarPoisonReads + 256 * n) (hPoison.toNat + bPoison.toNat)
  let cs := ckptCauses n i key h b hPoison bPoison
  let m := if cs.any fun f => f.st = .failKey then m.event evSecurity 0x08 3 (hpRef n) i.ctx (4 * 2 ^ 56) else m
  match worstFail cs with
  | some f => m.finish k f.st f.unit
  | none =>
    let w := m.itemWrite (.bar2 n 0) i.epoch i.ctx (ckptVa d) (if ckptSeal d then sealBytes key (num h 12 12) b else b)
    match w.2 with
    | some e => w.1.finish k e.st e.unit
    | none => w.1.finish k .done

/-- A checkpoint item's data movement ends (R495, R496), and the next one on its port starts (R497). -/
def Mach.ckptMoved (m : Mach) (k : Nat) (h b : Bytes) (hPoison bPoison : Bool) : Mach :=
  match m.item? k with
  | none => m
  | some i =>
    let n := ckptPort i.desc
    match sget (m.hpAt n).moves k with
    | none => m
    | some (draw, key) =>
      (if i.kind = kindSave then m.ckptSave n k i draw (key.getD 0) else m.ckptLoad n k i (key.getD 0) h b hPoison bPoison).ckptNext n

end Sys2Proof.Machine
end

