-- ==== Sys2Proof/Machine/AtomRows.lean ====
section
/-! DEFINITION. The atomic operations (08_anchored.md, Table 8.5), as each party issues them. -/
namespace Sys2Proof.Machine

/-- The operation word of an operation code and its fields (Table 8.4). -/
def AtomArgs.word (a : AtomArgs) (atop : Nat) : Nat :=
  atop * 2 ^ 24 + a.fmt % 16 * 2 ^ 20 + a.ofmt % 4 * 2 ^ 18 + a.cnt % 8 * 2 ^ 15 + a.size.toNat * 2 ^ 14 + a.fetch.toNat * 2 ^ 13 +
  a.rsvd % 8192

/-- The issuing party exists (Table 8.8). -/
def AtomArgs.ok (a : AtomArgs) : Bool :=
  a.floor < 2 && a.va < 2 ^ 40 && a.ctx < 4096 &&
  (match a.party.kind with
   | 1 => a.party.num < 4 && a.bond < 16 | 2 => a.party.num < 32 | 3 => a.party.num < 4096 | 4 => a.party.num < 2 ^ 24
   | 5 => a.party.num < 2 | _ => false)

/-- The ATOMIC flit by which a tile issues an operation (Table 12.2). -/
def AtomArgs.siteFlit (a : AtomArgs) (atop : Nat) : Flit :=
  { flitOwn a.flit 3 with ctx := a.ctx, tag := a.tag, addr := a.va, operand := AtomArgs.word a atop, data := a.operand }

/-- A party issues an operation: a tile by an ATOMIC flit (R420, R421, R423); a core or a host port by reading
ATOM_GO with ATOM_ADDR, ATOM_WORD and ATOM_OPERANDS holding it (R458, R480); a context or a neighbour station through a link
engine, with the response shown (R283, R391). -/
def Mach.issueAtomic (m : Mach) (atop : Nat) (a : AtomArgs) (wait : Bool) : Mach :=
  let n := a.party.num
  let w := AtomArgs.word a atop
  match a.party.kind with
  | 1 => m.flitIn n a.bond (AtomArgs.siteFlit a atop) {} 33 0 wait
  | 2 =>
    if !m.coreRuns n then m
    else (m.setCoreAt n { m.coreAt n with atomAddr := a.va, atomWord := w, atomOps := padTo 256 a.operand }).coreAtomic n wait
  | 5 =>
    if !m.hpServes n then m
    else (m.setHpAt n { m.hpAt n with atomAddr := a.va, atomWord := w, atomOps := padTo 256 a.operand }).hpAtomic n wait
  | _ => m.arrive (.agent a.party a.floor (36 + a.bond % 6) a.tag) a.ctx a.va (.atomic w a.operand false) {} 33 0 wait

/-- ANCH_INIT_FIXED (R274). -/
def execAnchInitFixed (a : AtomArgs) (wait : Bool) (s : State) : Result :=
  runIf (AtomArgs.ok a) s fun m => m.issueAtomic 0x10 a wait

/-- ANCH_INIT_AUTO (R274). -/
def execAnchInitAuto (a : AtomArgs) (wait : Bool) (s : State) : Result :=
  runIf (AtomArgs.ok a) s fun m => m.issueAtomic 0x11 a wait

/-- ANCH_EMAX (R277). -/
def execAnchEmax (a : AtomArgs) (wait : Bool) (s : State) : Result :=
  runIf (AtomArgs.ok a) s fun m => m.issueAtomic 0x12 a wait

/-- ANCH_ADD (R275). -/
def execAnchAdd (a : AtomArgs) (wait : Bool) (s : State) : Result :=
  runIf (AtomArgs.ok a) s fun m => m.issueAtomic 0x13 a wait

/-- ANCH_ADD_RAW (R276). -/
def execAnchAddRaw (a : AtomArgs) (wait : Bool) (s : State) : Result :=
  runIf (AtomArgs.ok a) s fun m => m.issueAtomic 0x14 a wait

/-- ANCH_READ (R268). -/
def execAnchRead (a : AtomArgs) (wait : Bool) (s : State) : Result :=
  runIf (AtomArgs.ok a) s fun m => m.issueAtomic 0x15 a wait

/-- ANCH_READ_RAW (R274). -/
def execAnchReadRaw (a : AtomArgs) (wait : Bool) (s : State) : Result :=
  runIf (AtomArgs.ok a) s fun m => m.issueAtomic 0x16 a wait

/-- ANCH_FETCH_CLEAR (R287). -/
def execAnchFetchClear (a : AtomArgs) (wait : Bool) (s : State) : Result :=
  runIf (AtomArgs.ok a) s fun m => m.issueAtomic 0x17 a wait

/-- FADD_FP32 (R702). -/
def execFaddFp32 (a : AtomArgs) (wait : Bool) (s : State) : Result :=
  runIf (AtomArgs.ok a) s fun m => m.issueAtomic 0x20 a wait

/-- FADD_BF16 (R702). -/
def execFaddBf16 (a : AtomArgs) (wait : Bool) (s : State) : Result :=
  runIf (AtomArgs.ok a) s fun m => m.issueAtomic 0x21 a wait

/-- FADD_FP16 (R702). -/
def execFaddFp16 (a : AtomArgs) (wait : Bool) (s : State) : Result :=
  runIf (AtomArgs.ok a) s fun m => m.issueAtomic 0x22 a wait

/-- IADD (R287). -/
def execIadd (a : AtomArgs) (wait : Bool) (s : State) : Result :=
  runIf (AtomArgs.ok a) s fun m => m.issueAtomic 0x30 a wait

/-- IAND (R287). -/
def execIand (a : AtomArgs) (wait : Bool) (s : State) : Result :=
  runIf (AtomArgs.ok a) s fun m => m.issueAtomic 0x31 a wait

/-- IOR (R287). -/
def execIor (a : AtomArgs) (wait : Bool) (s : State) : Result :=
  runIf (AtomArgs.ok a) s fun m => m.issueAtomic 0x32 a wait

/-- IXOR (R287). -/
def execIxor (a : AtomArgs) (wait : Bool) (s : State) : Result :=
  runIf (AtomArgs.ok a) s fun m => m.issueAtomic 0x33 a wait

/-- SMIN (R287). -/
def execSmin (a : AtomArgs) (wait : Bool) (s : State) : Result :=
  runIf (AtomArgs.ok a) s fun m => m.issueAtomic 0x34 a wait

/-- SMAX (R287). -/
def execSmax (a : AtomArgs) (wait : Bool) (s : State) : Result :=
  runIf (AtomArgs.ok a) s fun m => m.issueAtomic 0x35 a wait

/-- UMIN (R287). -/
def execUmin (a : AtomArgs) (wait : Bool) (s : State) : Result :=
  runIf (AtomArgs.ok a) s fun m => m.issueAtomic 0x36 a wait

/-- UMAX (R287). -/
def execUmax (a : AtomArgs) (wait : Bool) (s : State) : Result :=
  runIf (AtomArgs.ok a) s fun m => m.issueAtomic 0x37 a wait

/-- SWAP (R287). -/
def execSwap (a : AtomArgs) (wait : Bool) (s : State) : Result :=
  runIf (AtomArgs.ok a) s fun m => m.issueAtomic 0x38 a wait

/-- CAS (R287). -/
def execCas (a : AtomArgs) (wait : Bool) (s : State) : Result :=
  runIf (AtomArgs.ok a) s fun m => m.issueAtomic 0x39 a wait

/-- LOCK (R283). -/
def execLock (a : AtomArgs) (wait : Bool) (s : State) : Result :=
  runIf (AtomArgs.ok a) s fun m => m.issueAtomic 0x3A a wait

/-- UNLOCK (R284). -/
def execUnlock (a : AtomArgs) (wait : Bool) (s : State) : Result :=
  runIf (AtomArgs.ok a) s fun m => m.issueAtomic 0x3B a wait

end Sys2Proof.Machine
end

