-- ==== Sys2Proof/Machine/Links.lean ====
section
/-! DEFINITION. Link ports: frames and messages as they arrive, replay, training, the BER gate, discovery and the notices of
zones and power states (R336 to R368, R607, R705). -/
namespace Sys2Proof.Machine

/-- A link port as a unit. -/
def portRef (p : Nat) : UnitRef := ⟨0x08, p⟩

/-! Stations and directions (R362, R363, Table 10.7). -/

/-- The torus direction of a port, 0 X+ to 5 Z−, 0xFF none; `scale` tells whether the module holds the SCALE licence. -/
def portDir (scale : Bool) (p : Nat) : Nat :=
  let q := p % 12
  if scale then q / 2
  else if q < 4 then q / 2
  else if q = 4 || q = 5 then (if p < 12 then 2 else 3) else 0xFF

/-- The direction of a port of this module. -/
def Mach.dirOf (m : Mach) (p : Nat) : Nat := portDir (m.hasLicence licScale) p

/-- Torus sizes X, Y, Z (R362). -/
def Mach.dims (m : Mach) : List Nat := [m.cfg kTorusX, m.cfg kTorusY, if m.hasLicence licScale then m.cfg kTorusZ else 1]

/-- A station number's coordinates (Table 10.5). -/
def stationAt (v : Nat) : List Nat := [fld v 9 5, fld v 4 5, fld v 0 4]

/-- The station one step from `v` in direction `d`, modulo the sizes (R363). -/
def neighbourOf (dims : List Nat) (v d : Nat) : Nat :=
  let c := stationAt v
  let a := d / 2
  let n := max 1 (nth 1 dims a)
  let c := setAt c a (if d % 2 = 0 then (nth 0 c a + 1) % n else (nth 0 c a + n - 1) % n)
  nth 0 c 0 * 512 + nth 0 c 1 * 16 + nth 0 c 2

/-- The direction opposite to `d`. -/
def opposite (d : Nat) : Nat := if d % 2 = 0 then d + 1 else d - 1

/-- PORTS_ENABLED, the licence and the torus leave the port OFF, with the cause (R362). -/
def Mach.portOff (m : Mach) (p : Nat) : Option Nat :=
  let d := m.dirOf p
  if d = 0xFF || !bitOf (m.cfg kPortsEnabled) p then some 1
  else if nth 1 m.dims (d / 2) = 1 then some 13 else none

/-! Replay (R338 to R340). -/

/-- Frames of a replay buffer after a sequence number. -/
def framesAfter (r : List Sent) (seq : Nat) : List Sent := r.dropWhile fun s => s.seq ≠ (seq + 1) % 4096

/-- Frames leave again, in order, as they were but for what their headers tell now, under new chainages when the port is SEALED (R339,
R353); a replay is counted. -/
def Mach.replayPort (m : Mach) (p : Nat) (fs : List Sent) : Mach :=
  fs.foldl (fun m s => m.showFrame p s) (m.bump (kLinkReplays + 256 * p))

/-- The port retrains at its width, and traffic waits (R340). -/
def Mach.retrain (m : Mach) (p : Nat) : Mach :=
  let x := m.portAt p
  m.setPort p { x with state := 6, disc := x.state = 4 }

/-- What waited while the port retrained goes, first the frames that the partner has not acknowledged (R340, Table 10.8). -/
def Mach.portResumes (m : Mach) (p : Nat) : Mach :=
  let x := m.portAt p
  let m := m.replayPort p x.replay
  let x := m.portAt p
  ((m.setPort p { x with state := if x.disc then 4 else 5, disc := false, discard := false, naks := 0, nakSent := 0 }).drainAll p).legsGo

/-- A NAK acknowledges the frames up to the last good one, and those after it are replayed; after 8 in a row for one frame the port
retrains (R339, R340). -/
def Mach.linkNak (m : Mach) (p ack : Nat) : Mach :=
  let x := m.portAt p
  if !(x.state = 4 || x.state = 5) then m
  else
    let n := if x.nakSeq = ack && x.naks > 0 then x.naks + 1 else 1
    let m := m.setPort p { x with naks := n, nakSeq := ack, replay := acked x.replay ack }
    if n ≥ 8 then m.retrain p else m.replayPort p (framesAfter x.replay ack)

/-- A corrupt frame: it and every later one are discarded, and NAK is sent with the last good sequence, for each corrupt one (R338), in
an idle frame outside the replay buffer (log 82); after 8 in a row for one frame the port retrains (R340). -/
def Mach.linkCorrupt (m : Mach) (p : Nat) : Mach :=
  let x := m.portAt p
  let m := (m.setPort p { x with discard := true, nakSent := x.nakSent + 1 }).showFrame p ⟨(x.txSeq + 4095) % 4096, 32, [], []⟩ true
  if x.nakSent + 1 ≥ 8 then m.retrain p else m

/-! Widths (R342 to R346). -/

/-- The largest of 8, 4, 2 and 1 no greater than `n`, 0 for none. -/
def widthOf (n : Nat) : Nat := if n ≥ 8 then 8 else if n ≥ 4 then 4 else if n ≥ 2 then 2 else min n 1

/-- The physical lane of each logical lane: the i-th good one (R342). -/
def laneMap (width good : Nat) : List Nat := (bitList 9 good).take width

/-- A width and its lane maps come into force, and are recorded (R344). -/
def Mach.setWidth (m : Mach) (p w txGood rxGood : Nat) : Mach :=
  m.setPort p { m.portAt p with
    width := w, recWidth := w, txGood, rxGood, txMap := laneMap w txGood, rxMap := laneMap w rxGood }

/-- LINK_MIN_WIDTH of a port. -/
def Mach.minWidth (m : Mach) (p : Nat) : Nat := m.cfg (kLinkMinWidthL00 + p)

/-- The cause a port shows when it goes down through a failed retraining (R705). -/
def Port.endCause (x : Port) : Nat :=
  if x.down.isSome || (match x.sleep with | some s => s.1 = 3 | none => false) then 9 else 10

/-- The survey log's record of a port's width and lanes (Table 19.7). -/
def Mach.logWidth (m : Mach) (p st : Nat) : Mach :=
  let x := m.portAt p
  let lanes := (List.range 8).foldl (fun v i => v + nth 0x7F x.txMap i * 2 ^ (7 * i)) 0
  m.surveyLog 0x06 (portRef p) (x.width * 2 ^ 56 + lanes) st (attempt := m.nextAttempt 0x06 (portRef p))

/-- A port retrains at a narrower width while traffic is held (R340, R345), or goes DOWN below its least width (R343); the survey log
records its width (R344). -/
def Mach.narrow (m : Mach) (p w txGood rxGood : Nat) : Mach :=
  let x := m.portAt p
  if w < m.minWidth p || w = 0 then m.portDown p 4 .failLink
  else ((m.setWidth p w txGood rxGood).event evLink 0x03 2 (portRef p) 0 (x.width * 2 ^ 56 + w * 2 ^ 48)).logWidth p 0

/-- The two ends of a SEALED port exchange their next chainage in training frames (R355): the port's own leaves, and the partner's sets
what is accepted next. -/
def Mach.chainExchange (m : Mach) (p chain : Nat) : Mach :=
  let x := m.portAt p
  if x.sealKey.isNone then m
  else
    let last := if chain = 0 then x.chainRx else some (max (chain - 1) (x.chainRx.getD 0))
    (m.setPort p { x with chainRx := last }).showFrame p ⟨0, 48, [0, 8], leB 8 (x.chainTx + 1)⟩

/-- The retraining of R340 ends. -/
def Mach.nakRetrain (m : Mach) (p : Nat) (g : LinkRetrain) : Mach :=
  let x := m.portAt p
  if x.state ≠ 6 then m
  else
    let ws := ([x.width, x.width / 2, x.width / 4, x.width / 8].zip g.oks).filter fun w => w.1 ≥ 1
    match ws.find? (·.2) with
    | none => m.portDown p x.endCause .failLink
    | some w =>
      let m := m.chainExchange p g.chain
      if w.1 = x.width then m.portResumes p
      else
        let m := m.narrow p w.1 x.txGood x.rxGood
        if (m.portAt p).state = 6 then m.portResumes p else m

/-- Logical lane `i` of a direction (0 transmit, 1 receive) moves from physical `lane` to lane 8 (R345); the level run of an unused lane 8
is the receiver's (R349). -/
def Mach.toLane8 (m : Mach) (p dir i lane : Nat) : Mach :=
  let x := m.portAt p
  let y := if dir = 0 then { x with txMap := setAt x.txMap i 8, txGood := putBit x.txGood lane false }
    else { x with rxMap := setAt x.rxMap i 8, rxGood := putBit x.rxGood lane false }
  let m := m.setPort p y
  let m := if dir = 1 then m.abandonRuns (· = runKey (portRef p) 8) else m
  (m.event evRemap 0x05 1 (portRef p) 0 (i * 2 ^ 56 + lane * 2 ^ 48 + 8 * 2 ^ 40 + dir * 2 ^ 32)).logWidth p 0

/-- A lane's error ratio over 10 ms, `errs` in `bits`, for physical lane `lane` of direction 0 transmit or 1 receive (R345), in service
or while the gate runs, which then starts again (Table 10.8); an unused lane 8 has its ratio kept (R349). -/
def Mach.berWindow (m : Mach) (p dir lane errs bits : Nat) : Mach :=
  let x := m.portAt p
  let map := if dir = 0 then x.txMap else x.rxMap
  let good := if dir = 0 then x.txGood else x.rxGood
  match indexOf? (· = lane) map with
  | none => if lane = 8 && x.state ≥ 3 then m.setPort p { x with spareBer := setAt x.spareBer dir (errs, bits) } else m
  | some i =>
    if !(x.state = 5 || (x.state = 3 && !x.gated)) || errs * 10 ^ m.cfg kLinkLaneBerLimit ≤ bits then m
    else if bitOf good 8 && !map.contains 8 then m.toLane8 p dir i lane
    else
      let good := putBit good lane false
      m.narrow p (x.width / 2) (if dir = 0 then good else x.txGood) (if dir = 1 then good else x.rxGood)

/-! Training, gate and discovery. -/

/-- A failed training, gate or discovery: DOWN with its cause (R365). -/
def Mach.trainFails (m : Mach) (p cause : Nat) : Mach := m.portDown p cause .failLink

/-- DISCOVER leaves the port (R363, Table 10.6). -/
def Mach.sendDiscover (m : Mach) (serial p : Nat) : Mach :=
  m.sendMsg p msgDiscover ([serial] ++ m.dims.map (· - 1) ++ [0, m.fb.licences, (m.portAt p).protect, m.sec.fwVersion])

/-- The port enters DISCOVERY. -/
def Mach.startDiscovery (m : Mach) (serial p : Nat) : Mach :=
  (m.setPort p { m.portAt p with state := 4, gated := false }).sendDiscover serial p

/-- Step 19 begins: each port that has trained and passed its gate sends DISCOVER (R363). -/
def Mach.discoverAll (m : Mach) (serial : Nat) : Mach :=
  (portList.filter fun p => (m.portAt p).state = 3).foldl (fun m p => m.startDiscovery serial p) m

/-- LINK_PROTECT of a port as it trains: SEALED only under LINKSEC (R44, R350). -/
def Mach.protectOf (m : Mach) (p : Nat) : Nat := if m.hasLicence licLinksec then m.cfg (kLinkProtectL00 + p) else 0

/-- The identity and key exchange that a SEALED port sends in training frames (R351): the ephemeral public key of draw `d`, the alias
key's signature of it, and the certificate chain (log 83). -/
def Mach.sendExchange (m : Mach) (p : Nat) (b : Bytes) : Mach :=
  (chunks 256 (b.length / 256 + 1) b).foldl (fun m c => m.showFrame p ⟨0, 48, [0, c.length], c⟩) m

/-- Training ends (Table 10.4, R342 to R344, R350 to R353): `tx` and `rx` are the good-lane masks, `protect` the partner's
setting, `q` what it shows, `own` the exchange of this module for a draw. No good lane at all is a failed training, cause 3 (DESIGN
CHOICE, log 84). -/
def Mach.linkTrain (m : Mach) (serial p tx rx protect : Nat) (q : LinkPeer) (exch : Nat → Bytes) : Mach :=
  let x := m.portAt p
  let own := m.protectOf p
  let top := if x.recWidth = 0 then 8 else x.recWidth
  let w := widthOf (min top (min (popcount 9 tx) (popcount 9 rx)))
  if x.state ≠ 2 then m
  else if w = 0 then m.trainFails p 3
  else if w < m.minWidth p then m.trainFails p 4
  else if protect ≠ own then m.trainFails p 7
  else
    let d := if own = 1 then m.draw else (0, m)
    let d := if own = 1 then (d.1, d.2.sendExchange p (exch d.1)) else d
    if own = 1 && !q.auth then (d.2.event evSecurity 0x08 3 (portRef p) 0 (1 * 2 ^ 56)).trainFails p 8
    else
    let y : Port := { state := 3, cause := x.cause, recWidth := x.recWidth, credit := [640, 640, 256], protect := own
                      sealKey := if own = 1 then some (beN (linkPrk serial q.serial (beB 48 (Config.ecdh d.1 q.pub).toNat)), linkDir serial q.serial)
                                 else none
                      skipped := x.skipped }
    let m := ((d.2.setPort p y).setWidth p w tx rx).logWidth p 0
    if m.cad.warm && m.cad.step < 21 then m.setPort p { m.portAt p with gated := true } else m

/-- No partner within LINK_TRAIN_TIMEOUT, `ms` ms after the port began (Table 10.4 step 1). -/
def Mach.partnerLate (m : Mach) (p ms : Nat) : Mach :=
  if (m.portAt p).state = 2 && ms ≥ m.cfg kLinkTrainTimeout then m.trainFails p 2 else m

/-- The BER gate ends (R347, R348): `errs` are the errors of physical lanes 0 to 8 transmit, then receive, in `bits` each, and
`lost` the codewords that were uncorrectable. Of lanes equally bad the first is the worst, transmit lanes before receive lanes (DESIGN
CHOICE, log 84). A port that passes in the survey waits for step 19. -/
def Mach.berGate (m : Mach) (serial p : Nat) (errs : List Nat) (bits lost : Nat) : Mach :=
  let x := m.portAt p
  let used := x.txMap ++ x.rxMap.map (· + 9)
  let worst := used.foldl (fun b l => if nth 0 errs l > nth 0 errs b then l else b) (nth 0 used 0)
  if x.state ≠ 3 || x.gated then m
  else if lost = 0 && nth 0 errs worst * 1000000 ≤ bits then
    let m := m.logWidth p 0
    if m.cad.step < 19 then m.setPort p { m.portAt p with gated := true } else m.startDiscovery serial p
  else
    let m := m.logWidth p Status.failLink.code
    let w := x.width / 2
    if w < m.minWidth p || w = 0 then m.trainFails p 5
    else
      m.setWidth p w (if worst < 9 then putBit x.txGood worst false else x.txGood)
        (if worst < 9 then x.rxGood else putBit x.rxGood (worst - 9) false)

/-- The check of R363 that a partner's DISCOVER fails, 1 to 4. -/
def Mach.miswired (m : Mach) (serial p : Nat) (y : Partner) : Option Nat :=
  let d := m.dirOf p
  let theirs := portDir (bitOf y.licences licScale) y.port
  if y.dims ≠ m.dims then some 1
  else if y.station ≠ neighbourOf m.dims (m.cfg kStationAddr) d then some 2
  else if theirs ≠ opposite d then some 3
  else if y.serial = serial then some 4 else none

/-- A DISCOVER arrives (R363, R364). -/
def Mach.discover (m : Mach) (serial p : Nat) (g : LinkMsg) : Mach :=
  let x := m.portAt p
  let b := g.body
  if x.state ≠ 4 then m
  else
    let y : Partner := { station := g.sender, port := g.senderPort, serial := fld b 128 64
                         dims := [fld b 123 5 + 1, fld b 118 5 + 1, fld b 114 4 + 1], licences := fld b 104 8, protect := fld b 96 8 }
    let m := m.setPort p { x with partner := some y }
    if m.cfg kStationAddr = 0xFFFF then m
    else match m.miswired serial p y with
    | some c =>
      (m.event evLink 0x06 2 (portRef p) 0 (y.station * 2 ^ 48 + y.port * 2 ^ 40 + c * 2 ^ 32)).trainFails p 6
    | none =>
      let m := m.setPort p { m.portAt p with state := 5 }
      let m := m.hold (portFloor p) 6 (stationParty y.station) 0 p
      m.event evLink 0x01 0 (portRef p) 0 (x.width * 2 ^ 56 + x.protect * 2 ^ 48 + y.station * 2 ^ 32 + y.port * 2 ^ 24)

/-! Messages (R357 to R361). -/

/-- A message that R357 or R396 discards. -/
def LinkMsg.bad (g : LinkMsg) : Bool :=
  g.version ≠ 1 || g.rsvd ≠ 0 ||
  (match g.ty with
   | 1 => fld g.body 0 64 ≠ 0 || fld g.body 112 2 ≠ 0
   | 2 => fld g.body 0 128 ≠ 0
   | 3 => fld g.body 0 152 ≠ 0
   | 4 => fld g.body 0 160 ≠ 0
   | 5 => fld g.body 0 104 ≠ 0 || bitOf g.body 183 || fld g.body 184 8 = 0 || fld g.body 184 8 > 3
   | _ => true)

/-- A zone of a neighbour is counted as throttled, or no longer (R359). -/
def Mach.throttleIn (m : Mach) (p : Nat) (g : LinkMsg) : Mach :=
  let x := m.portAt p
  let z : NbrZone := ⟨fld g.body 184 8, fld g.body 176 8, fld g.body 168 8, fld g.body 160 8, m.clk.us⟩
  let same (w : NbrZone) : Bool := w.kind = z.kind && w.zone = z.zone
  let old := x.zones.find? same
  let rest := x.zones.filter fun w => !same w
  let changed : Bool := match old with | some w => w.step ≠ z.step || w.cap ≠ z.cap | none => z.step ≠ 0
  let m := m.setPort p { x with zones := if z.step = 0 then rest else rest ++ [z] }
  if changed then m.zoneEvent p z.kind z.zone z.step z.cap g.sender else m

/-- A neighbour's zone has not been repeated for `us` µs (R359). -/
def Mach.throttleGone (m : Mach) (p kind zone us : Nat) : Mach :=
  let x := m.portAt p
  match x.zones.find? fun w => w.kind = kind && w.zone = zone with
  | none => m
  | some z =>
    if us < 30000 then m
    else (m.setPort p { x with zones := x.zones.erase z }).zoneEvent p kind zone 0 z.cap
      (match x.partner with | some y => y.station | none => 0xFFFF)

/-- A DOWN_NOTICE names ports of the sender that will stop: this module's ports that face them note it (R360, R705). -/
def Mach.downIn (m : Mach) (g : LinkMsg) : Mach :=
  m.setLnk { m.lnk with dev := m.lnk.dev.map fun x =>
    match x.partner with
    | some y => if x.state ≠ 1 && y.station = g.sender && bitOf (fld g.body 160 24) y.port then
        { x with down := some (fld g.body 184 8) } else x
    | none => x }

/-- A message is received on a port whose frame layer runs: discarded and counted, or acted on. -/
def Mach.msgIn (m : Mach) (serial p : Nat) (g : LinkMsg) : Mach :=
  let x := m.portAt p
  if !(x.state = 4 || x.state = 5) then m
  else if LinkMsg.bad g then m.bump (kLinkSbDiscards + 256 * p)
  else match g.ty with
  | 1 => m.discover serial p g
  | 2 => m.throttleIn p g
  | 3 => m.setPort p { x with sleep := some (fld g.body 184 8, fld g.body 152 32) }
  | 4 => m.downIn g
  | _ =>
    let tag := fld g.body 168 15
    match fld g.body 184 8 with
    | 1 => (m.creditNotice p tag (fld g.body 136 32)).legsGo
    | 2 => m.holdNotice p tag
    | _ => m.failNotice p tag (fld g.body 120 16) (fld g.body 112 8) (fld g.body 104 8)

/-- The message that 32 bytes of a control frame spell (Table 10.5). -/
def msgOf (b : Bytes) : LinkMsg :=
  let v := leN (padTo 32 b)
  { version := fld v 0 8, ty := fld v 8 8, rsvd := fld v 16 24, sender := fld v 48 16, senderPort := fld v 40 8, body := v / 2 ^ 64 }

/-! Frames (R337 to R341, R353, R354). -/

/-- The full chainage of a received frame: the smallest value above the last accepted one with those low bits (R354). -/
def chainOf (last : Option Nat) (lo : Nat) : Nat :=
  let base := match last with | some c => c + 1 | none => 0
  base + (lo + 65536 - base % 65536) % 65536

/-- The credits granted at training, by VC (R341). -/
def vcGrant (vc : Nat) : Nat := nth 0 [640, 640, 256] vc

/-- A frame in order is delivered: its ACK, NAK and credits first, then data by its VC, or its messages. `vc2` is what a VC 2
frame does. -/
def Mach.deliver (m : Mach) (serial p : Nat) (f : LinkFrame) (vc2 : Mach → Mach) : Mach :=
  let x := m.portAt p
  let c := if f.creditVc < 3 then setAt x.credit f.creditVc (min (vcGrant f.creditVc) (nth 0 x.credit f.creditVc + f.credit)) else x.credit
  let r := acked x.replay f.ack
  let m := m.setPort p { x with credit := c, replay := r, naks := if r.length < x.replay.length then 0 else x.naks }
  let m := if f.nak then m.linkNak p f.ack else m
  let m := if f.credit = 0 && x.waitOut.isEmpty && x.waitMsg.isEmpty && x.owed = [0, 0, 0] then m else (m.drainAll p).legsGo
  match f.kind with
  | 0 =>
    if x.state ≠ 5 then m
    else
      let y := m.portAt p
      let m := m.setPort p { y with used := setAt y.used f.vc (nth 0 y.used f.vc + 1) }
      if f.vc = 2 then (vc2 m).freeBuffer p 2 else m.streamFrame p f.vc f.stream (padTo f.bytes f.payload)
  | 1 => (chunks 32 8 (padTo f.bytes f.payload)).foldl (fun m b => m.msgIn serial p (msgOf b)) m
  | _ => m

/-- A received frame in clear, with its full chainage; none where it is SEALED and its tag fails (R353, R354). -/
def Port.opened (x : Port) (f : LinkFrame) : Option (LinkFrame × Option Nat) :=
  match x.sealKey with
  | none => some (f, x.chainRx)
  | some k =>
    let chain := chainOf x.chainRx f.chainLo
    let k := (k.1, 1 - k.2)
    if beB 16 f.tag = frameTag f k chain then some ({ f with payload := linkSeal k chain (padTo 256 f.payload) }, some chain) else none

/-- A link frame is received (R338, R354). -/
def Mach.linkIn (m : Mach) (serial p : Nat) (f : LinkFrame) (vc2 : LinkFrame → Mach → Mach) : Mach :=
  let x := m.portAt p
  if !(x.state = 4 || x.state = 5) then m
  else
    let m := (m.bump (kLinkPrefecErrs + 256 * p) f.fixed).bump (kLinkPostfecErrs + 256 * p) f.lost
    if f.crc ≠ frameCrc f x.sealKey.isSome || f.lost ≠ 0 || f.kind > 3 || f.vc > 2 || f.bytes > 256 then m.linkCorrupt p
    else match x.opened f with
    | none => (m.event evSecurity 0x08 3 (portRef p) 0 (2 * 2 ^ 56)).portDown p 8 .failLink
    | some (f, chain) =>
      let m := m.setPort p { x with chainRx := chain }
      if f.seq ≠ (x.rxSeq + 1) % 4096 then m
      else
        let m := m.setPort p { m.portAt p with rxSeq := f.seq, discard := false, nakSent := 0 }
        (m.bump (key (0x9700 + p) 2)).deliver serial p f (vc2 f)

/-! Throttle messages (R358, R607). -/

/-- The step of a zone as THROTTLE reports it, with the cap and the time its step began: kind 1 a stack, 2 a floor. -/
def Mach.zoneStep (m : Mach) (kind zone : Nat) : Nat × Nat × Nat :=
  let step (l : Nat) : Nat := if l ≥ 3 then 2 else l - 1
  if kind = 1 then
    let x := m.stackAt zone
    let l := if x.missStep then max 3 x.level else x.level
    (step (if x.silent then 4 else l), m.ownCap zone, nth 0 m.pwr.stackStep zone)
  else
    let h := nth {} m.pwr.heat zone
    let l := max h.level (max (m.siteAt (2 * zone)).level (m.siteAt (2 * zone + 1)).level)
    (step l, if l = 4 then 0 else m.floorCap zone, h.stepAt)

/-- THROTTLE for a zone on every UP port, and after its retraining on one that retrains (Table 10.8); an event each for the first time a
step is told (R358). -/
def Mach.sendThrottle (m : Mach) (kind zone : Nat) (tell : Bool) : Mach :=
  let z := m.zoneStep kind zone
  let held := if z.1 = 0 then 0 else (m.clk.us - z.2.2) / 1000 % 2 ^ 32
  (portList.filter fun p => (m.portAt p).usable).foldl (fun m p =>
    let m := m.sendMsg p msgThrottle [kind, zone, z.1, z.2.1, held]
    if tell then m.event evLink 0x04 0 (portRef p) 0 (kind * 2 ^ 56 + zone * 2 ^ 48 + z.1 * 2 ^ 40 + z.2.1 * 2 ^ 32) else m) m

/-- The repeat of a step in force, `us` µs after the last message (R358). -/
def Mach.repeatThrottle (m : Mach) (kind zone us : Nat) : Mach :=
  if us ≥ 10000 && (m.zoneStep kind zone).1 ≠ 0 then m.sendThrottle kind zone false else m

/-! Retries. -/

/-- A port may train: its floor runs with clocks, and no closure or stop holds it. -/
def Mach.portMayTrain (m : Mach) (p : Nat) : Bool :=
  let f := portFloor p
  !m.floorLost f && !m.floorGone f && !nth false m.clk.loss f && m.pwr.closure.isNone && !m.pwr.off &&
  m.clk.pwr ≠ 3 && !(nth {} m.pwr.heat f).stopped

/-- A DOWN port in service tries again, `ms` ms after it last did (R365). -/
def Mach.linkRetry (m : Mach) (p ms : Nat) : Mach :=
  if (m.portAt p).state = 1 && m.cad.step = 21 && m.portMayTrain p && ms ≥ m.cfg kLinkRetryPeriod then m.startTraining p else m

/-- LINK_RETRAIN (R346, R360, Table 10.10): DOWN_NOTICE, DOWN with cause 14, then training from eight lanes. -/
def Mach.linkRetrain (m : Mach) (p : Nat) : CmdRes :=
  if p > 23 || (m.portAt p).state = 0 then m.refuse .rejectRange
  else
    let m := (m.sendAll msgDown [4, 2 ^ p]).portDown p 14 .failLink
    let m := m.setPort p { m.portAt p with recWidth := 0 }
    if m.portMayTrain p then { m := m.startTraining p, wait := some (.linkRetrain p) } else { m }

/-- A LINK_RETRAIN's port has left training: UP, DOWN, or in DISCOVERY with no station set (R364). -/
def Mach.retrainDone (m : Mach) (p : Nat) : Bool :=
  let x := m.portAt p
  x.state = 5 || x.state ≤ 1 || (x.state = 4 && m.cfg kStationAddr = 0xFFFF)

end Sys2Proof.Machine
end

