-- ==== Sys2Proof/Machine/Segmap.lean ====
section
/-! DEFINITION. Writing the segment map (R96, R138, R139, R142 to R144, R301) and ring areas (R90, R299). -/
namespace Sys2Proof.Machine

/-! Footprints (Table 4.6). -/

/-- Two footprints share a line. -/
def SegEnt.meets (e g : SegEnt) : Bool :=
  e.medium = g.medium && e.unitOff < g.unitOff + g.foot && g.unitOff < e.unitOff + e.foot &&
  (List.range 2).any fun f => (List.range (if e.medium = 0 then 1 else 3)).any fun s =>
    (List.range (if e.medium = 0 then 64 else 32)).any fun u => e.uses f s u && g.uses f s u

/-- Two segments of one context share an address. -/
def SegEnt.overlaps (e g : SegEnt) : Bool := e.ctx = g.ctx && e.va < g.va + g.bytes && g.va < e.va + e.bytes

/-- Every unit of the footprint belongs to a partition of the plat (R142, R514). -/
def Mach.footInPlat (m : Mach) (e : SegEnt) (p : Nat) : Bool :=
  (List.range 2).all fun f =>
    if e.medium = 0 then (List.range 64).all fun u => !e.uses f 0 u || bitOf (m.plat p (3 + f)) u
    else (List.range 3).all fun s => !((List.range 32).any fun u => e.uses f s u) || bitOf (m.plat p 2) (3 * f + s)

/-- Two entries place their segments alike; a change of VA_BASE alone is no change of placement (DESIGN CHOICE, log 77). -/
def SegEnt.samePlace (e g : SegEnt) : Bool :=
  e.size = g.size && e.policy = g.policy && e.medium = g.medium && e.home = g.home && e.stack = g.stack && e.unit = g.unit &&
  e.unitOff = g.unitOff

/-! Ring areas. -/

/-- Bytes of a ring's two areas: first address and length. -/
def Ring.areas (x : Ring) : List (Nat × Nat) :=
  [(x.descAddr, 64 * 2 ^ x.depthLog2), (x.cplAddr, 32 * 2 ^ x.depthLog2)]

/-- The entry holds part of an area of a ring that exists (R301). -/
def Mach.holdsRing (m : Mach) (e : SegEnt) : Bool :=
  m.rng.rings.any fun r => r.2.ctx = e.ctx && r.2.areas.any fun a => a.1 < e.va + e.bytes && e.va < a.1 + a.2

/-- Lines of an area of `n` bytes from `va`, as a ring of floor `f` sees them: all mapped, readable and writable, and none
in breach of R90. -/
def Mach.areaGood (m : Mach) (f ctx va n : Nat) : Bool :=
  match m.resolve f ctx va n .rd, m.resolve f ctx va n .wr with
  | .ok ps, .ok _ => ps.all fun p => p.seg.mirror || p.place.floor = f
  | _, _ => false

/-! Applying a record. -/

/-- The buffer lines of a footprint read zeros, whole lines written (R144). -/
def Mach.zeroFoot (m : Mach) (e : SegEnt) : Mach :=
  if e.medium = 1 then m
  else m.setMem { m.mem with
    cells := m.mem.cells.filter fun c => !e.inFoot c.1
    errs := m.mem.errs.filter fun c => !e.inFoot c.1
    poison := m.mem.poison.filter fun c => !e.inFoot c.1 }

/-- The fills of a footprint that are pending end before its placement changes: their readers have the line as the old placement
holds it (R96, log 8). -/
def Mach.landFills (m : Mach) (e : SegEnt) : Mach :=
  m.die.rlc.foldl (fun m x =>
    match x.2 with
    | .shared _ _ => m
    | .fill a _ =>
      if !e.inFoot a then m
      else match m.lineFor m.fb.epoch e.ctx a with
        | .ok d => m.dataAt (1 - paFloor a) a .done d
        | .error f => m.dataAt (1 - paFloor a) a f.st []) m

/-- Both floors' remote copies of a footprint go, pending fills ended (R96); a line that awaits INV_ACK keeps its held answers. -/
def Mach.dropFoot (m : Mach) (e : SegEnt) : Mach :=
  let m := m.landFills e
  m.setDie { m.die with
    rlc := m.die.rlc.filter fun x => match x.2 with | .shared a _ => !e.inFoot a | .fill _ _ => true
    dir := (m.die.dir.filter fun x => match x.2 with | .held _ => !e.inFoot x.1 | .inval _ _ => true).map fun x =>
      match x.2 with | .inval h _ => if e.inFoot x.1 then (x.1, .inval h []) else x | .held _ => x }

/-- A slot leaves all translation caches (R144). -/
def Mach.dropCached (m : Mach) (slot : Nat) : Mach :=
  m.setGrid { m.grid with tcache := smap (fun l => l.filter (· ≠ slot)) m.grid.tcache }

/-- A slot takes an entry, or becomes empty (R144). -/
def Mach.putSlot (m : Mach) (slot : Nat) (ent : Option SegEnt) : Mach :=
  let old := sget m.grid.seg slot
  let moved := match old, ent with
    | some o, some e => !(o.samePlace e) || o.ctx ≠ e.ctx
    | some _, none => true
    | none, _ => false
  let m := match old with | some o => if moved then m.dropFoot o else m | none => m
  let m := match ent with | some e => if moved || old.isNone then m.zeroFoot e else m | none => m
  let m := m.dropCached slot
  m.setGrid { m.grid with seg := match ent with | some e => sput m.grid.seg slot e | none => sdel m.grid.seg slot }

/-- A context's slots become empty, its buffer footprints zeroed (Table 9.1 step 6). -/
def Mach.clearSlots (m : Mach) (ctx : Nat) : Mach :=
  (m.segsOf ctx).foldl (fun m s => (m.putSlot s.1 none).zeroFoot s.2) m

/-! Records. -/

/-- The status that refuses a record which makes or keeps slot `slot` valid (R142). -/
def Mach.segRefused (m : Mach) (slot v : Nat) : Option Status :=
  let e := SegEnt.ofBits v
  let others := m.grid.seg.filter fun s => s.1 ≠ slot
  if segMalformed v then some .rejectFormat
  else if e.ctx = 0 then some .rejectAccess
  else match m.ctx? e.ctx with
  | none => some .rejectRange
  | some c =>
    if c.st ≠ .live then some .rejectRange
    else if !m.footInPlat e c.part then some .rejectAccess
    else if e.unitOff + e.foot > unitLines e.medium || others.any (fun s => e.overlaps s.2 || e.meets s.2) then
      some .rejectRange
    else none

/-- The items accepted before a write was received that have no record yet (R143). -/
def Mach.itemsLeft (m : Mach) (ctx : Nat) (items : List Nat) : Bool :=
  m.rng.items.any fun i => i.ctx = ctx && items.contains i.key

/-- What becomes of one record: its status at once, or the entry it must wait to apply. -/
def Mach.segJudge (m : Mach) (slot v : Nat) : Sum Status (Option SegEnt) :=
  let old := sget m.grid.seg slot
  if !bitOf v 127 then
    match old with
    | none => .inl .done
    | some o => if m.holdsRing o then .inl .rejectBusy else .inr none
  else match m.segRefused slot v with
  | some st => .inl st
  | none =>
    let e := SegEnt.ofBits v
    match old with
    | some o => if o = e then .inl .done else if m.holdsRing o then .inl .rejectBusy else .inr (some e)
    | none => .inr (some e)

/-- The records of one write, in order (R142, R143): the statuses, latest first, or none where a record waits. -/
def Mach.segRun (m : Mach) (rq : Rq) (items : List Nat) (answered : List Status) : List (Nat × Nat) → Mach × Option (List Status)
  | [] => (m, some answered)
  | r :: rest =>
    match m.segJudge r.1 r.2 with
    | .inl st => Mach.segRun m rq items (st :: answered) rest
    | .inr ent =>
      match sget m.grid.seg r.1 with
      | some o =>
        if m.itemsLeft o.ctx items then
          (m.setGrid { m.grid with segWait := m.grid.segWait ++
            [{ rq, slot := r.1, ent, ctx := o.ctx, items, answered, rest, clearAll := false }] }, none)
        else Mach.segRun (m.putSlot r.1 ent) rq items (.done :: answered) rest
      | none => Mach.segRun (m.putSlot r.1 ent) rq items (.done :: answered) rest

/-- Statuses, latest first, as the reply carries them: one byte a record. -/
def statusBytes (l : List Status) : Bytes := l.reverse.map fun s => BitVec.ofNat 8 s.code

/-- SEGMAP_WRITE (0x3100.01): records of a U16 slot and a 16-byte entry. -/
def Mach.segWrite (m : Mach) (rq : Rq) (v : Bytes) : CmdRes :=
  let recs := (chunks 18 256 v).map fun b => (num b 0 2, num b 2 16)
  match m.segRun rq (m.rng.items.map Item.key) [] recs with
  | (m, some l) => { m, val := statusBytes l }
  | (m, none) => { m, wait := some .segmap }

/-- SEGMAP_CLEAR_CONTEXT (0x3100.06): every slot of the context is emptied, at once or after R143's wait; a segment with part
of a ring's area refuses it (R301). -/
def Mach.segClear (m : Mach) (rq : Rq) (ctx : Nat) : CmdRes :=
  let items := m.rng.items.map Item.key
  let segs := m.segsOf ctx
  if segs.any fun s => m.holdsRing s.2 then m.refuse .rejectBusy
  else if m.itemsLeft ctx items && !segs.isEmpty then
    { m := m.setGrid { m.grid with segWait := m.grid.segWait ++
        [{ rq, slot := 0, ent := none, ctx, items, answered := [], rest := [], clearAll := true }] }
      wait := some .segmap }
  else { m := segs.foldl (fun m s => m.putSlot s.1 none) m }

/-- SEGMAP_READ (0x3100.02): the entries of the named slots, empty ones as zeros. -/
def Mach.segRead (m : Mach) (v : Bytes) : CmdRes :=
  let first := num v 0 2
  let n := num v 2 2
  if n = 0 || n > 256 || first + n > 65536 then m.refuse .fbValue
  else { m, val := (List.range n).flatMap fun i =>
    match sget m.grid.seg (first + i) with | some e => leB 16 e.bits | none => List.replicate 16 0 }

/-- The write of a requester that waits under R143. -/
def Mach.segWaiting (m : Mach) (rq : Rq) : Option SegWait := m.grid.segWait.find? fun w => w.rq = rq && !w.finished

/-- A waiting write without its entry among those that wait. -/
def Mach.segTake (m : Mach) (w : SegWait) : Mach := m.setGrid { m.grid with segWait := m.grid.segWait.erase w }

/-- A write that waited goes on with its records `recs`, after the statuses `done`. -/
def Mach.segGo (m : Mach) (w : SegWait) (done : List Status) (recs : List (Nat × Nat)) : Mach :=
  match m.segRun w.rq w.items done recs with
  | (m, none) => m
  | (m, some l) => m.setGrid { m.grid with segWait := m.grid.segWait ++ [{ w with answered := l, finished := true }] }

/-- The rest of a write whose waiting record is answered. -/
def Mach.segOn (m : Mach) (w : SegWait) (st : Status) : Mach := m.segGo w (st :: w.answered) w.rest

/-- The items that a waiting record waits for have their records: it is checked again and applied, or waits for the context that holds
its slot now (R143, R144). -/
def Mach.segDrained (m : Mach) (rq : Rq) : Mach :=
  match m.segWaiting rq with
  | none => m
  | some w =>
    if m.itemsLeft w.ctx w.items then m
    else
      let m := m.segTake w
      if w.clearAll then
        let segs := m.segsOf w.ctx
        if segs.any fun s => m.holdsRing s.2 then m.segOn w .rejectBusy
        else (segs.foldl (fun m s => m.putSlot s.1 none) m).segOn w .done
      else m.segGo w w.answered ((w.slot, match w.ent with | some e => e.bits | none => 0) :: w.rest)

/-- A wait over SEGMAP_DRAIN_TIMEOUT, `us` so far: the record is refused with REJECT_BUSY (R143). -/
def Mach.segLate (m : Mach) (rq : Rq) (us : Nat) : Mach :=
  match m.segWaiting rq with
  | none => m
  | some w => if us > 1000 * m.cfg kSegmapDrainTimeout then (m.segTake w).segOn w .rejectBusy else m

/-- The reply due to a requester's segment-map write, once every record is answered. -/
def Mach.segReply (m : Mach) (rq : Rq) : Option CmdRes :=
  match m.grid.segWait.find? fun w => w.rq = rq && w.finished with
  | none => none
  | some w =>
    let m := m.segTake w
    some (if w.clearAll then { m, st := w.answered.headD .done } else { m, val := statusBytes w.answered })

end Sys2Proof.Machine
end

