-- ==== Sys2Proof/Machine/Rings.lean ====
section
/-! DEFINITION. Rings and contexts: taking and acceptance (R307 to R318, R703, R704), ring commands (R298 to R302, R329 to
R332), and the life of a context (R290 to R297, Table 9.1). -/
namespace Sys2Proof.Machine

/-! Checking a descriptor. -/

/-- Header fields of a descriptor (Table 9.4). -/
def descKind (d : Nat) : Nat := fld d 120 8
def descNotify (d : Nat) : Bool := bitOf d 114
def descSkip (d : Nat) : Bool := bitOf d 113
def descOrder (d : Nat) : Bool := bitOf d 112
def descUser (d : Nat) : Nat := fld d 0 64

/-- Kinds that a ring type admits (Table 9.5). -/
def kindsOf (ty : Nat) : List Nat :=
  match ty with
  | 0 => [kindNop, kindFb, kindSweep, kindMerge, kindSession, kindTraverse, kindSave, kindLoad]
  | 1 => [kindNop, kindSite]
  | _ => [kindNop, kindCore]

/-- Malformed fields of a descriptor by lowest bit (R315, R316, R317, R320, R221, R240, R248). -/
def descFormat (ty d : Nat) : List Nat :=
  let k := descKind d
  let body : List Nat :=
    if !(kindsOf ty).contains k then [120]
    else if k = kindNop then badField (fld d 128 384 ≠ 0) 128
    else if k = kindFb then
      badField (fbLen d < 16 || fbLen d > 65536) 427 ++ badField (fbMax d < 16 || fbMax d > 65536) 410 ++
      badField (fld d 128 282 ≠ 0) 128
    else if k = kindSweep || k = kindMerge || k = kindSession then swpFormat k d
    else []
  body ++ badField (fld d 115 5 ≠ 0) 115 ++ badField (fld d 64 48 ≠ 0) 64

/-- The first failing check of a descriptor of a ring's type and context, in the order of R12 (R309, R324). -/
def Mach.descCheck (m : Mach) (fl ctx ty d : Nat) : Option TravFault :=
  let k := descKind d
  let fmt := descFormat ty d
  let trav := if k = kindTraverse && ty = 0 then m.travCheck fl ctx d else none
  let head : Option TravFault := if fmt.isEmpty then none else some ⟨.rejectFormat, descBit (fmt.foldl max 0), 0⟩
  let other : Option TravFault :=
    if ty ≠ 0 then none
    else
      (firstReject (if k = kindSweep || k = kindMerge || k = kindSession then m.swpReject fl ctx k d
        else if k = kindSave || k = kindLoad then m.ckptRejects fl ctx d else [])).map fun f => ⟨f.st, f.unit, 0⟩
  let isFormat (t : Option TravFault) : Bool := match t with | some f => f.st = .rejectFormat | none => false
  if isFormat trav then trav
  else if isFormat other then other
  else match head with
  | some h => some h
  | none => match trav with | some t => some t | none => other

/-! Who may take (R307, R308, R311). -/

/-- A floor takes descriptors: it runs in service, its clocks and power are there, and no closure, loss or halt of acceptance
holds it (R60, R104, R108, R111, R571, R584, R605, R610). -/
def Mach.floorTakes (m : Mach) (fl : Nat) : Bool :=
  m.cad.step = 21 && !m.cad.halted && !m.floorLost fl && !m.floorGone fl && !(fl = 1 && m.die.f1Stopped) &&
  !nth false m.clk.loss fl && m.clk.pwr = 0 && m.pwr.closure.isNone && !m.pwr.off && !(nth {} m.pwr.heat fl).stopped

/-- The surveyor's port of a floor, which reads and writes for the machinery of rings (log 78). -/
def ringPort (fl : Nat) : Origin := .port fl 47 0

/-- The next descriptor of a ring as its floor reads it. -/
def Mach.fetchDesc (m : Mach) (r : Nat) (x : Ring) : Mach × Except Fail Nat :=
  let g := m.itemRead (ringPort (ringFloor r)) m.fb.epoch x.ctx (x.descAddr + 64 * (x.taken % x.depth)) 64
  (g.1, match g.2 with | .ok b => .ok (leN b) | .error f => .error f)

/-- The legs of a TRAVERSE descriptor are read as it is checked (R375), by the same port. -/
def Mach.touchLegs (m : Mach) (r ctx d : Nat) : Mach :=
  if descKind d = kindTraverse && travCount d ≤ 1024 then
    (m.itemRead (ringPort (ringFloor r)) m.fb.epoch ctx (travAddr d) (32 * travCount d)).1
  else m

/-- The next descriptor of a ring as it lies in memory. -/
def Mach.readDesc (m : Mach) (r : Nat) (x : Ring) : Except Fail Nat :=
  match m.readMem m.fb.epoch (ringFloor r) x.ctx (x.descAddr + 64 * (x.taken % x.depth)) 64 with
  | .ok b => .ok (leN b)
  | .error f => .error f

/-- The block that a descriptor's kind names can take it (R245, R311, R382, R426, R460). A SWEEP_SESSION uses no place of its stack's
dispatch queue, since it starts at acceptance (R704): a full queue does not hold it (DESIGN CHOICE, log 91). -/
def Mach.blockTakes (m : Mach) (fl r : Nat) (x : Ring) (d : Nat) : Bool :=
  let k := descKind d
  if k = kindSweep || k = kindMerge then (sgetD [] m.swp.queue (swpStack k d)).length < 256
  else if k = kindTraverse then !m.travFull fl x.ctx d
  else if k = kindSite then m.siteTakes x.target
  else if k = kindCore then m.coreTakes (ringCore r x)
  else true

/-- A ring's next descriptor may be taken now (R307, R311). -/
def Mach.ringReady (m : Mach) (r : Nat) (x : Ring) : Bool :=
  let fl := ringFloor r
  let live := match m.ctx? x.ctx with | some c => c.st = .live | none => false
  m.floorTakes fl && live && !x.closed && x.taken < x.produce && x.taken < x.consumed + x.depth && (m.itemsOf r).length < 64 &&
  (match m.readDesc r x with
   | .error _ => true
   | .ok d => (m.descCheck fl x.ctx x.ty d).isSome || m.blockTakes fl r x d)

/-- The round in which a ring is served: that of its floor and priority. -/
def roundOf (fl : Nat) (high : Bool) : Nat := 2 * fl + high.toNat

/-- The ring that a floor serves next (R308): high priority first, at most RING_TAKE_BURST descriptors a turn, then the next
ring of its priority by number. -/
def Mach.nextRing (m : Mach) (fl : Nat) : Option Nat :=
  let rs := m.rng.rings.filter fun r => ringFloor r.1 = fl && m.ringReady r.1 r.2
  let hs := rs.filter fun r => r.2.high
  let pool := (if hs.isEmpty then rs else hs).map (·.1)
  let k := roundOf fl (!hs.isEmpty)
  let t := nth 0 m.rng.turn k
  if pool.contains t && nth 0 m.rng.burst k < m.cfg kRingTakeBurst then some t
  else match pool.find? fun r => r > t with
  | some r => some r
  | none => pool.head?

/-! Acceptance (R310, R534, R704). -/

/-- An item that nothing holds begins where its block begins it. -/
def Mach.beginItem (m : Mach) (i : Item) : Mach :=
  let k := i.key
  if i.kind = kindNop then (m.startItem k).finish k .done
  else if i.kind = kindSession then m.sessionStart i
  else if i.kind = kindSave || i.kind = kindLoad then m.ckptBegin k
  else if i.kind = kindSite then
    match m.ring? i.ring with
    | some x => if m.siteTakes x.target then m.siteBegin k else m
    | none => m
  else if i.kind = kindCore then
    match m.ring? i.ring with
    | some x => if m.coreTakes (ringCore i.ring x) then m.coreBegin k else m
    | none => m
  else m

/-- An item just accepted. -/
def Mach.acceptItem (m : Mach) (i : Item) : Mach :=
  let k := i.key
  let m := m.setRng { m.rng with items := m.rng.items ++ [i] }
  let m := if i.kind = kindTraverse then m.travClaims k i.ctx i.desc else m
  if m.confCtx i.ctx && (sgetD {} m.sec.keys i.ctx).root.isNone then m.finish k .failKey ⟨0x0B, i.ctx⟩
  else if i.kind = kindSession then m.sessionBegin i
  else if m.itemFree i && i.skip && m.predecessorFailed i then m.finish k .failAborted
  else if i.kind = kindSweep || i.kind = kindMerge then
    m.setSwp { m.swp with queue := smod [] m.swp.queue (swpStack i.kind i.desc) (· ++ [k]) }
  else if i.kind = kindTraverse then m.travBegin k (m.itemFree i)
  else if m.itemFree i then m.beginItem i
  else m

/-- A ring's next descriptor is taken: refused, completed unread, or accepted under the current epoch (R309, R310, R703). -/
def Mach.takeRing (m : Mach) (r : Nat) : Mach :=
  match m.ring? r with
  | none => m
  | some x =>
    let fl := ringFloor r
    let s := x.taken
    let k := roundOf fl x.high
    let n := if nth 0 m.rng.turn k = r then nth 0 m.rng.burst k + 1 else 1
    let m := m.setRng { m.rng with turn := setAt m.rng.turn k r, burst := setAt m.rng.burst k n }
    let y := { x with taken := s + 1, cTaken := (x.cTaken + 1) % 2 ^ 64 }
    let g := m.fetchDesc r x
    let m := g.1
    match g.2 with
    | .error f => (m.setRing r { y with cAccepted := (y.cAccepted + 1) % 2 ^ 64 }).answer r s 0 0 m.fb.epoch false f.st f.unit
    | .ok d =>
      let m := m.touchLegs r x.ctx d
      match m.descCheck fl x.ctx x.ty d with
      | some t =>
        (m.setRing r { y with cRefused := (y.cRefused + 1) % 2 ^ 64 }).answer r s (descKind d) (descUser d) m.fb.epoch
          (descNotify d) t.st t.unit 0 t.result
      | none =>
        (m.setRing r { y with cAccepted := (y.cAccepted + 1) % 2 ^ 64 }).acceptItem
          { ring := r, seq := s, desc := d, kind := descKind d, epoch := m.fb.epoch, ctx := x.ctx, order := descOrder d
            skip := descSkip d, notify := descNotify d, user := descUser d, started := false }

/-- A floor takes the next descriptor of ring `r`, when that is the ring it serves next. -/
def Mach.take (m : Mach) (r : Nat) : Mach := if m.nextRing (ringFloor r) = some r then m.takeRing r else m

/-- A ring's next descriptor, where it can be read. -/
def Mach.nextDesc (m : Mach) (r : Nat) : Option Nat :=
  match m.ring? r with
  | none => none
  | some x => match m.readDesc r x with | .ok d => some d | .error _ => none

/-- As `take`, for a descriptor that satisfies `p`. -/
def Mach.takeKind (m : Mach) (r : Nat) (p : Nat → Bool) : Mach :=
  match m.nextDesc r with
  | some d => if p d then m.take r else m
  | none => m

/-- An accepted item that waited begins, or does no work because its predecessor failed (R313, R314). -/
def Mach.orderedStart (m : Mach) (k : Nat) : Mach :=
  match m.item? k with
  | none => m
  | some i =>
    if i.started || !m.itemFree i then m
    else if i.skip && m.predecessorFailed i then m.finish k .failAborted
    else if i.kind = kindTraverse then (m.startItem k).startLeg k
    else m.beginItem i

/-- The oldest accepted item of a ring, of a kind named, that waits for its block begins (R497, R704). -/
def Mach.startWaiting (m : Mach) (r : Nat) (p : Nat → Bool) : Mach :=
  match (sortItems (m.itemsOf r)).find? fun i => p i.kind && !i.started with
  | some i => m.orderedStart i.key
  | none => m

/-- A ring's next descriptor of a kind is taken, or else its oldest waiting item of that kind begins. -/
def Mach.takeOrStart (m : Mach) (r : Nat) (p : Nat → Bool) : Mach :=
  match m.nextDesc r with
  | some d => if p (descKind d) && m.nextRing (ringFloor r) = some r then m.takeRing r else m.startWaiting r p
  | none => m.startWaiting r p

/-! Ring commands. -/

/-- The partition of a ring number (R514, Table 15.8). -/
def Mach.ringInPlat (m : Mach) (p r : Nat) : Bool :=
  let v := m.runVal (key (0x7010 + p) 7)
  let f := ringFloor r
  let first := num v (4 * f) 2
  first ≤ r && r < first + num v (4 * f + 2) 2

/-- The submitter of a ring lies in a partition (R299, R513). -/
def Mach.subInPlat (m : Mach) (p kind n : Nat) : Bool :=
  bitOf (m.plat p (match kind with | 1 => 1 | 2 => 6 | _ => 8)) n

/-- RING_CREATE (R298 to R300): `v` is the creation record. A floor that is withdrawn has no rings (R106). A completion area that cannot
be written now stays as it is, and the command completes (DESIGN CHOICE, log 94). -/
def Mach.ringCreate (m : Mach) (v : Nat) : CmdRes :=
  let r := fld v 113 15
  let f := ringFloor r
  let ctx := fld v 128 12
  let ty := fld v 110 2
  let dl := fld v 104 5
  let sk := fld v 100 4
  let sub := fld v 92 8
  let tgt := fld v 88 4
  let start := fld v 208 48
  let x : Ring :=
    { ctx, ty, depthLog2 := dl, descAddr := fld v 174 34 * 64, cplAddr := fld v 140 34 * 64, start, high := bitOf v 112
      subKind := sk, submitter := sub, target := tgt, vector := fld v 72 16, produce := start, consumed := start, taken := start
      ansLow := start }
  let part := match m.ctx? ctx with | some c => c.part | none => 0
  let live := match m.ctx? ctx with | some c => c.st = .live | none => false
  let fmt := ty = 3 || bitOf v 109 || fld v 0 72 ≠ 0 || dl < 4 || dl > 16 || start % (2 * 2 ^ dl) ≠ 0 || !(sk = 1 || sk = 2 || sk = 5) ||
    (ty = 0 && tgt ≠ 0) || (ty = 1 && (tgt > 3 || tgt / 2 ≠ f))
  let access := ctx = 0 || !live || !m.subInPlat part sk sub || (ty = 1 && !bitOf (m.plat part 1) tgt) ||
    (ty = 2 && !bitOf (m.plat part 6) (16 * f + tgt)) || !m.ringInPlat part r
  let range := (m.ring? r).isSome || !m.areaGood f ctx x.descAddr (64 * 2 ^ dl) || !m.areaGood f ctx x.cplAddr (32 * 2 ^ dl)
  if fmt then m.refuse .rejectFormat
  else if access then m.refuse .rejectAccess
  else if range || m.floorGone f then m.refuse .rejectRange
  else
    let w := m.itemWrite (ringPort f) m.fb.epoch ctx x.cplAddr (List.replicate (32 * 2 ^ dl) 0)
    { m := (w.1.setRing r x).hold f 4 ⟨3, ctx⟩ ctx r }

/-- The records of a ring that wait for earlier writes (R129) are written now: those writes take the INV_ACKs that they await (log 8). -/
def Mach.recordsOut (m : Mach) (r : Nat) : Mach :=
  if m.rng.recWait.any fun w => w.ring = r then
    let g := (Origin.port (ringFloor r) 47 0).g
    (((m.grid.openWr.filter fun w => w.1.g = g).map (·.2.2)).foldl (fun m a => m.ackNow a) m).recordsGo
  else m

/-- A ring is closed with FAIL_ABORTED and ceases to exist, once its items have their records (R302). -/
def Mach.ringGone (m : Mach) (r : Nat) (unit : UnitRef) : Mach :=
  let m := (m.closeRing r .failAborted unit).recordsOut r
  (m.setRng { m.rng with rings := sdel m.rng.rings r }).unhold fun h => h.kind = 4 && h.object = r

/-- RING_DELETE. -/
def Mach.ringDelete (m : Mach) (r : Nat) : CmdRes :=
  match m.ring? r with
  | none => m.refuse .rejectRange
  | some _ => { m := m.ringGone r ⟨0x0C, r⟩ }

/-- RING_REOPEN (Tables 9.11, 9.14): a CLOSED ring keeps its sequences; a SITE or CORE ring waits for its target. -/
def Mach.ringReopen (m : Mach) (r : Nat) : CmdRes :=
  match m.ring? r with
  | none => m.refuse .rejectRange
  | some x =>
    let c := m.coreAt (ringCore r x)
    let live := match m.ctx? x.ctx with | some c => c.st = .live | none => false
    let s := m.siteAt x.target
    if !x.closed then { m }
    else if !live || (x.ty = 1 && (s.state ≠ 5 || s.readmitting || s.fencing.isSome)) || (x.ty = 2 && (c.state = 3 || c.state = 4 || c.fencing.isSome)) then
      m.refuse .rejectBusy
    else { m := m.setRing r { x with closed := false, lost := none } }

/-- RING_QUERY's answer. -/
def Mach.ringQuery (m : Mach) (r : Nat) : CmdRes :=
  match m.ring? r with
  | none => { m, val := List.replicate 33 0 ++ List.replicate 8 0xFF }
  | some x =>
    { m, val := leB 1 (if x.closed then 2 else 1) ++ leB 8 x.produce ++ leB 8 x.consumed ++ leB 8 x.taken ++ leB 8 x.ansLow ++
        leB 8 (match x.lost with | some l => l | none => 2 ^ 64 - 1) }

/-- The bytes of a ring's marks (R330). -/
def Marks.bytes (x : Marks) : Bytes :=
  leB 8 x.produce ++ leB 8 x.consumed ++ leB 8 x.taken ++ leB 8 x.ansLow ++ leB 8 x.ans ++ leB 8 x.ok

/-- RING_LAST_MARKS's answer (R331). -/
def Mach.ringMarks (m : Mach) (r : Nat) : CmdRes :=
  match sget m.rng.marks r with
  | none => m.refuse .fbValue
  | some x => { m, val := x.bytes }

/-! Contexts. -/

/-- DEBUG_STATE (Table 15.5): JTAG, console 0 and console 1 open, confidential lockout, a debug unlock used (R548 to R550). -/
def Mach.debugState (m : Mach) : Nat :=
  let conf := m.confResident
  (if conf then 8 else if m.sec.unlocked then 7 else m.cfg kDebugPorts % 8) + (if m.sec.unlocked then 16 else 0)

/-- A change of DEBUG_STATE is recorded (Table 9.15), and measured (Table 15.3, index 6). -/
def Mach.debugChange (old m : Mach) : Mach :=
  if m.debugState = old.debugState then m
  else (m.measure 6 (leB 1 m.debugState)).event evSecurity 0x06 1 {} 0 m.debugState

/-- A partition holds some resource in the plat (R292). -/
def Mach.partHolds (m : Mach) (p : Nat) : Bool :=
  [1, 2, 3, 4, 5, 6, 8].any (fun s => m.plat p s ≠ 0) || num (m.runVal (key (0x7010 + p) 7)) 2 2 ≠ 0 ||
  num (m.runVal (key (0x7010 + p) 7)) 6 2 ≠ 0

/-- A stack key in slot 0 of every stack (R293, R538). -/
def Mach.firstKey (m : Mach) (c : Nat) : Mach :=
  let d := m.stackKey c
  (d.2.setKeys c { slot0 := some d.1 }).keyEvent 0x02 c 3 0 0

/-- CONTEXT_CREATE (R290 to R293, R535, R548, R554): `v` is its 16 bytes. -/
def Mach.ctxCreate (m : Mach) (v : Bytes) : CmdRes :=
  let c := num v 0 2
  let p := num v 2 1
  let conf := num v 3 1
  let area := num v 4 8
  let dl := num v 12 1
  if num v 13 3 ≠ 0 || conf > 1 || !(dl = 0 || (4 ≤ dl && dl ≤ 16)) || (dl ≠ 0 && area % 32 ≠ 0) then m.refuse .rejectFormat
  else if c = 0 then m.refuse .rejectAccess
  else if conf = 1 && !m.hasLicence licConfidential then m.refuse .rejectLicence
  else if c > 4095 || (m.ctx? c).isSome || p > 3 || !m.partHolds p then m.refuse .rejectRange
  else if conf = 1 && m.sec.unlocked then m.refuse .rejectBusy
  else
    let x : Ctx := { part := p, conf := conf = 1, evAddr := area, evLog2 := dl }
    let n := m.setRng { m.rng with ctxs := sput m.rng.ctxs c x }
    let n := if conf = 0 then n.firstKey c else n
    let n := if conf = 1 && !m.confResident then
        (n.setSec { n.sec with tap := 1, coarse := true }).emit (.debug 0 0)
      else n
    { m := Mach.debugChange m n }

/-- Kinds whose started items end at once when their context is destroyed (Table 9.1 step 3). -/
def endsAtOnce (k : Nat) : Bool := k = kindTraverse || k = kindSave || k = kindLoad || k = kindSite || k = kindCore

/-- CONTEXT_DESTROY, steps 1 to 3 of Table 9.1; its reply waits for step 8 (R296). -/
def Mach.ctxDestroy (m : Mach) (c : Nat) : CmdRes :=
  if c = 0 then m.refuse .rejectAccess
  else match m.ctx? c with
  | none => m.refuse .rejectRange
  | some x =>
    if x.st = .destroying then m.refuse .rejectBusy
    else
      let m := m.setRng { m.rng with
        ctxs := sput m.rng.ctxs c { x with st := .destroying }
        rings := smap (fun r => if r.ctx = c then { r with closed := true } else r) m.rng.rings }
      let mine (p : Item → Bool) : List Nat := ((sortItems m.rng.items).filter fun i => i.ctx = c && p i).map Item.key
      let m := m.finishAll (mine fun i => !i.started) .failAborted ⟨0x0B, c⟩
      let m := m.finishAll (mine fun i => i.started && endsAtOnce i.kind) .failAborted ⟨0x0B, c⟩
      { m, wait := some (.ctxDestroy c) }

/-- Every key of a context is erased (Table 9.1 step 7, R188, R541, R547), with KEY_ERASED events for those it held. -/
def Mach.eraseKeys (m : Mach) (c : Nat) : Mach :=
  let k := sgetD {} m.sec.keys c
  let held := (m.keysOf c).slot0.isSome || (m.keysOf c).slot1.isSome
  let m := m.dropKeys c
  let m := m.setSec { m.sec with keys := sdel m.sec.keys c }
  let m := m.eraseLeases fun l => l.ctx = c
  let m := (m.sec.reqs.filter fun r => r.ctx = c).foldl (fun m r => m.endReq r .done true) m
  let m := if k.root.isSome then m.keyEvent 0x04 c 1 0 0 else m
  let m := if k.ckpt.isSome then m.keyEvent 0x04 c 2 0 0 else m
  if held then m.keyEvent 0x04 c 3 0 0 else m

/-- Steps 4 to 8 of Table 9.1, once no item of the context is without its record: cores bound to it are fenced with cause 5,
the context is fenced, its slots and keys go, and it is FREE (R296, R485, R469). -/
def Mach.ctxFinish (m : Mach) (c : Nat) : Mach :=
  match m.ctx? c with
  | none => m
  | some x =>
    if x.st ≠ .destroying || m.rng.items.any (fun i => i.ctx = c) then m
    else
      let old := m
      let m := (List.range 32).foldl (fun m i => if (m.coreAt i).ctx = c then m.fenceCore i 5 false else m) m
      let m := (m.dropXfers c).endSessions c
      let m := (m.reclaim ⟨3, c⟩).reportFence ⟨3, c⟩ ⟨0x0B, c⟩ 0 0 false
      let m := (m.clearSlots c).eraseKeys c
      let m := ((m.rng.rings.filter fun r => r.2.ctx = c).map (·.1)).foldl (fun m r => m.ringGone r ⟨0x0B, c⟩) m
      let m := m.event evSecurity 0x0A 1 ⟨0x0B, c⟩ c 0
      let m := m.setRng { m.rng with ctxs := sdel m.rng.ctxs c }
      Mach.debugChange old m

/-- CONTEXT_QUERY's answer. -/
def Mach.ctxQuery (m : Mach) (c : Nat) : CmdRes :=
  if c > 4095 then m.refuse .rejectRange
  else match m.ctx? c with
  | none => { m, val := List.replicate 9 0 }
  | some x =>
    { m, val := leB 1 (match x.st with | .live => 1 | .destroying => 2) ++ leB 1 x.part ++ leB 1 x.conf.toNat ++
        leB 2 (m.rng.rings.countP fun r => r.2.ctx = c) ++ leB 4 (m.rng.items.countP fun i => i.ctx = c) }

end Sys2Proof.Machine
end

