-- ==== Sys2Proof/Machine/Die.lean ====
section
/-! DEFINITION. The bridge's flits, lanes and retraining (R97 to R101), and the loss of a floor die (R102 to R113, Table 3.5). -/
namespace Sys2Proof.Machine

/-- A floor die as records name it (Table 9.9). -/
def dieRef (f : Nat) : UnitRef := ⟨0x01, f⟩

/-! What an item touches (Table 3.5 step 4). -/

/-- A range meets a line that is homed on a floor: in no MIRROR segment (R86 to R88). -/
def Mach.homedOn (m : Mach) (ctx : Nat) (s : Nat × Nat) (f : Nat) : Bool :=
  (pieces s.1 s.2).any fun p =>
    match m.findSeg ctx p.1 with
    | some (_, e) => !e.mirror && (e.place (p.1 - e.va) f).floor = f
    | none => false

/-- An item's target or port lies on a floor. -/
def Mach.usesFloor (m : Mach) (i : Item) (f : Nat) : Bool :=
  match m.ring? i.ring with
  | some x =>
    (i.kind = kindSite && x.target / 2 = f) || (i.kind = kindCore && ringCore i.ring x / 16 = f) ||
    ((i.kind = kindSave || i.kind = kindLoad) && ckptPort i.desc = f) ||
    (match sget m.trv.live i.key with
     | some t => t.claims.any fun c => portFloor c.port = f
     | none => false)
  | none => false

/-- An item touches a floor: a line homed there, or a unit of it. -/
def Mach.touches (m : Mach) (i : Item) (f : Nat) : Bool :=
  m.usesFloor i f || (m.itemSpans i).any fun s => m.homedOn i.ctx s f

/-! Losing a floor. -/

/-- The completions that the homes hold, each with its line (R94). -/
def Mach.heldAll (m : Mach) : List (Nat × HeldRsp) :=
  m.die.dir.flatMap fun e => match e.2 with
    | .inval h _ => h.map fun o => (e.1, o)
    | .held _ => []

/-- The survivor's requests that wait for the bridge end (Table 3.5 step 1). -/
def Mach.endBridgeWaits (m : Mach) (f : Nat) : Mach :=
  let fills := m.die.rlc.filterMap fun e =>
    match e.2 with
    | .fill _ q => if e.1 / 262144 = 1 - f then some q else none
    | .shared _ _ => none
  let m := fills.flatten.foldl (fun m x => m.replyRead x.1 .failDie []) m
  let on (t : Nat) : Nat := if t < 128 then t / 64 else (t - 128) / 96
  let hit (q : Nat) (t : Txn) : Bool := on q = f && t.org.floor ≠ f
  let waits := m.grid.wait.flatMap fun q => (q.2.filter (hit q.1)).map fun t => t
  let m := m.setGrid { m.grid with
    wait := (m.grid.wait.map fun q => (q.1, q.2.filter fun t => !hit q.1 t)).filter fun q => !q.2.isEmpty
    relWait := m.grid.relWait.filter fun t => t.org.floor ≠ f }
  let m := waits.foldl (fun m t =>
    match t.kind with
    | .read _ => m.replyRead t.org .failDie []
    | .write _ _ => m.replyWrite t.org .failDie
    | .atomic _ _ _ => m.replyAtomic t.org .failDie []) m
  (m.heldAll.filter fun h => h.2.org.floor ≠ f && paFloor h.1 = f).foldl (fun m h => m.heldDone h.1 h.2 (some .failDie)) m

/-- The survivor's cache and directory are emptied, and completions held for the lost floor's acknowledgement released
(Table 3.5 step 2). -/
def Mach.dropCoherence (m : Mach) (f : Nat) : Mach :=
  let held := m.heldAll.filter fun h => h.2.org.floor ≠ f && paFloor h.1 ≠ f
  let m := m.setDie { m.die with rlc := [], dir := [] }
  let m := held.foldl (fun m h => m.heldDone h.1 h.2) m
  (m.setGrid { m.grid with openWr := m.grid.openWr.filter fun w => w.1.floor ≠ f }).relSettle

/-- Items of the lost floor's rings count as finished (R108): they owe their records, and leave the blocks they ran in; what their
destinations hold is open (R25). -/
def Mach.strand (m : Mach) (f : Nat) : Mach :=
  let gone := m.rng.items.filter fun i => ringFloor i.ring = f
  let m := m.setRng { m.rng with items := m.rng.items.filter fun i => ringFloor i.ring ≠ f, owed := m.rng.owed ++ gone }
  (gone.foldl (fun m i => (((m.spoil i).dropTraverse i.key i.ctx .failDie).dropSweep i.key .failDie).dropHanded i.key) m).retireEpoch

/-- A session ends because its port or its floor does, with the draft it owns (R54); its requests go with it. -/
def Mach.dropSession (m : Mach) (n : Nat) : Mach :=
  let m := m.setFb { m.fb with sessions := sdel m.fb.sessions n, chans := sdel m.fb.chans n }
  let m := m.setSec { m.sec with clients := sdel m.sec.clients n }
  (m.draftOf (.session n) 2).emit (.closed n)

/-- The sessions of a management port end. -/
def Mach.dropSessionsOn (m : Mach) (p : Nat) : Mach :=
  ((m.fb.sessions.filter fun s => s.2.port = p).map (·.1)).foldl (fun m n => m.dropSession n) m

/-- A requester of floor F1. -/
def rqOnF1 : Rq → Bool
  | .core c => 16 ≤ c
  | .hostPort n => n = 1
  | .item ring _ _ => ringFloor ring = 1
  | _ => false

/-- The loss of F0 ends what it served: the commit that waited, the draft and waiting segment-map records (R54, R112). The requests of
F1's own parties wait no longer: `waitOver` answers them (R107 step 1). -/
def Mach.dropFieldBook (m : Mach) : Mach :=
  let m := m.setFb { m.fb with
    committing := none, survWaiting := false
    chans := m.fb.chans.filter fun c => match c.2.cur with | some p => rqOnF1 p.rq | none => c.2.reply.isSome
    draft := m.fb.draft.map fun d => { d with held := false } }
  (m.setGrid { m.grid with segWait := [] }).discardDraft 4

/-- A floor is declared lost by the other (R102, R107, Table 3.5): `cause` is the ledger's, `st` the status of its own rule for
a stop (Table 21.1). A floor in CLOCK_LOSS declares nothing (R569). -/
def Mach.dieLost (m : Mach) (f cause : Nat) (st : Status) : Mach :=
  let s := 1 - f
  if m.die.lost.isSome || m.floorGone f || m.floorGone s || nth false m.clk.loss s then m
  else
    let m := m.wake 9
    let before := m.rng.items.length
    let m := m.strand f
    let own := before - m.rng.items.length
    let m := m.setDie { m.die with lost := some f, bridgeFenced := true, replay := [[], []], waitTx := [[], []], retraining := false, naks := [0, 0] }
    let m := (m.endBridgeWaits f).dropCoherence f
    let m := (List.range 12).foldl (fun m p => m.portDown (12 * f + p) 12 .failDie) m
    let m := m.sendAll msgDown [if st = .failThermal then 3 else 2, 0xFFF * 2 ^ (12 * f)]
    let hit := (sortItems m.rng.items).filter fun i => m.touches i f
    let m := m.finishAll (hit.map Item.key) .failDie (dieRef f)
    let m := [2 * f, 2 * f + 1].foldl (fun m t => m.siteFails t 9) m
    let m := (List.range 16).foldl (fun m c => m.fenceCore (16 * f + c) 6 false) m
    let m := m.fenceHp f 6 false
    let m := m.setCad { m.cad with
      moves := m.cad.moves.filter fun x => !(x.unit.floor = f && x.stage ≤ 2)
      queued := m.cad.queued.filter fun q => q.1.floor ≠ f
      units := m.cad.units.map fun u => if u.2 = 4 && (m.cad.moves.any fun x =>
        x.unit.floor = f && x.stage ≤ 2 && physKey x.unit.kind x.unit.parent x.spare = u.1) then (u.1, 1) else u }
    let m := m.dropSessionsOn f
    let m := m.setStk { m.stk with dev := m.stk.dev.zipIdx.map fun x => if x.2 / 3 = f then { x.1 with selfRefresh := true } else x.1 }
    let m := (m.setDie { m.die with state := if f = 1 then 1 else 2 }).bump kDieLosses
    let m := if f = 0 then (m.setFb { m.fb with role := 1 }).setDie { m.die with f1Stopped := true } else m
    let m := if f = 0 then m.dropFieldBook else m
    let h := nth {} m.pwr.heat f
    let n := own + hit.length + h.ended
    (m.setPwr { m.pwr with heat := setAt m.pwr.heat f { h with ended := 0 } }).ledger 0x09 cause 0x07 (dieRef f)
      (if n = 0 then 0 else st.code) n

/-! The always-on sideband (R102 to R104). -/

/-- Both floors' last messages read RUN. -/
def Mach.bothRun (m : Mach) : Bool := m.die.sideMsg = [0, 0]

/-- The bridge is down (R99, R101): where both floors report RUN, F0 declares F1 lost and resets it (R103); otherwise a floor
declares the other, whose message reads RUN (R102). -/
def Mach.bridgeFails (m : Mach) (cause : Nat) : Mach :=
  let m := m.setDie { m.die with bridgeDown := true, retraining := false, width := [0, 0] }
  if m.die.lost.isSome then m
  else if m.bothRun then
    ((m.setDie { m.die with sideMsg := [0, 1] }).emit (.island 1 1)).dieLost 1 cause .failDie
  else if nth 0 m.die.sideMsg 1 = 0 then m.dieLost 1 cause .failDie
  else if nth 0 m.die.sideMsg 0 = 0 then m.dieLost 0 cause .failDie
  else m

/-- A state message of floor `f`'s island reaches the other floor (R102, R104). -/
def Mach.sideMessage (m : Mach) (f msg : Nat) : Mach :=
  let m := m.setDie { m.die with sideMsg := setAt m.die.sideMsg f msg }
  let m := if f = 0 && bitOf m.flt.alert 4 && m.die.lost ≠ some 0 then
      (m.setDie { m.die with f1Stopped := false }).alert 4 false
    else m
  match msg with
  | 0 => if m.die.bridgeDown && m.die.lost.isNone then m.bridgeFails 0x02 else m
  | 1 => m.dieLost f 0x03 .failDie
  | 2 => m.dieLost f 0x06 .failDie
  | 4 => m.dieLost f 0x07 .failThermal
  | _ => m

/-- F1 has heard nothing from F0 for `us` µs (R104). -/
def Mach.sideSilent (m : Mach) (us : Nat) : Mach :=
  if us < 5 || m.die.lost.isSome then m
  else (m.setDie { m.die with sideMsg := setAt m.die.sideMsg 0 5, f1Stopped := true }).alert 4 true

/-- F0 has not returned `ms` ms after its loss (R113). -/
def Mach.f0Late (m : Mach) (ms : Nat) : Mach :=
  if m.die.lost = some 0 && ms ≥ m.cfg kF0ReturnTimeout then m.alert 5 true else m

/-! The bridge. -/

/-- Every flit of a replay buffer is sent again, in order (R98). -/
def Mach.bridgeResend (m : Mach) (f : Nat) : Mach :=
  (nth [] m.die.replay f).foldl (fun m s => m.emit (.bridge f s.code (nth 0 s.fields 0) (nth 0 s.fields 1) s.data)) m

/-- What waits for room in a floor's replay buffer leaves as it has some (R98). -/
def Mach.bridgeGoes (m : Mach) (f : Nat) : Mach := Mach.drainBridge (nth [] m.die.waitTx f).length m f

/-- A NAK reaches floor `f` (R98, R99): the flits after `ack` are replayed, and the eighth in a row of one flit retrains the
bridge. -/
def Mach.bridgeNak (m : Mach) (f ack : Nat) : Mach :=
  if !m.bridgeOpen then m
  else
    let n := if nth 0 m.die.nakSeq f = ack && nth 0 m.die.naks f > 0 then nth 0 m.die.naks f + 1 else 1
    let m := m.setDie { m.die with
      naks := setAt m.die.naks f n, nakSeq := setAt m.die.nakSeq f ack
      replay := setAt m.die.replay f (acked (nth [] m.die.replay f) ack) }
    if n ≥ 8 then m.setDie { m.die with retraining := true } else ((m.bridgeResend f).bump kBridgeReplays).bridgeGoes f

/-- The code of a NAK among bridge messages. -/
def bNak : Nat := 0x40

/-- A header whose fields make its flit corrupt (R97, R141): a reserved field or KIND, or LINE bits of no physical address. -/
def headBad (head : Nat) : Bool :=
  fld head 88 8 ≠ 0 || fld head 100 3 > 3 || (fld head 100 3 = 0 && fld head 86 2 ≥ 2)

/-- A flit's trailer CRC holds (R97): over its header, under R7, and payload. -/
def flitCrc (head : Nat) (payload : Bytes) (crc : Nat) : Bool := crc = crc64 (leB 16 head ++ padTo 256 payload)

/-- A flit's header reaches floor `f` (R97, Table 3.3): a corrupt flit and every later one are discarded, and every corrupt one is
NAKed; a good one in order frees what it acknowledges, which ends a row of NAKs of the flit after the last good one (R99), and, with NAK set,
replays the rest. -/
def Mach.bridgeFlit (m : Mach) (f head : Nat) (payload : Bytes) (crc : Nat) : Mach :=
  if !m.bridgeOpen then m
  else if !flitCrc head payload crc || headBad head then
    (m.setDie { m.die with rxDiscard := setAt m.die.rxDiscard f true }).emit
      (.bridge f bNak ((nth 0 m.die.rxSeq f + 4095) % 4096) 0 [])
  else if fld head 116 12 ≠ nth 0 m.die.rxSeq f then m
  else
    let ack := fld head 104 12
    let m := m.setDie { m.die with
      rxSeq := setAt m.die.rxSeq f ((fld head 116 12 + 1) % 4096), rxDiscard := setAt m.die.rxDiscard f false
      replay := setAt m.die.replay f (acked (nth [] m.die.replay f) ack)
      naks := if ack = nth 0 m.die.nakSeq f then m.die.naks else setAt m.die.naks f 0 }
    if bitOf head 103 then m.bridgeNak f ack else m.bridgeGoes f

/-- Good lanes of a direction among its 72, and the width they allow (R101): 0 where the bridge is down. -/
def Mach.goodLanes (m : Mach) (d : Nat) : Nat := 72 - (m.die.badLanes.filter fun b => b.1 / 128 = d).length
def Mach.laneWidth (m : Mach) (d : Nat) : Nat := if m.goodLanes d ≥ 64 then 64 else if m.goodLanes d ≥ 32 then 32 else 0

/-- A direction runs at the width its good lanes allow, with its WIDTH_CHANGED event; `told` makes the event even where the width
stays (R101). -/
def Mach.takeWidth (m : Mach) (d : Nat) (told : Bool) : Mach :=
  let old := nth 0 m.die.width d
  let w := m.laneWidth d
  let m := m.setDie { m.die with width := setAt m.die.width d w }
  if w = old && !told then m else m.event evLink 0x03 2 (dieRef d) 0 (old * 2 ^ 56 + w * 2 ^ 48)

/-- As `takeWidth` in service: below 32 good lanes the bridge is down (R101). -/
def Mach.bridgeWidth (m : Mach) (d : Nat) : Mach :=
  let m := m.takeWidth d false
  if nth 0 m.die.width d = 0 then m.bridgeFails 0x02 else m

/-- The lowest spare lane of a direction that is good and unused (R100). -/
def Mach.spareLane (m : Mach) (d : Nat) : Option Nat :=
  ((List.range 8).map (64 + ·)).find? fun l =>
    !shas m.die.badLanes (128 * d + l) && !m.die.laneMap.any fun x => x.1 / 128 = d && x.2 = l

/-- A lane's traffic moves to spare `l` (R100), with its REMAP event. -/
def Mach.moveLane (m : Mach) (d lane old l : Nat) : Mach :=
  let m := m.setDie { m.die with badLanes := sput m.die.badLanes (128 * d + old) (), laneMap := sput m.die.laneMap (128 * d + lane) l }
  (m.abandonRuns (· = runKey (dieRef d) l)).event evRemap 0x05 1 (dieRef d) 0 (lane * 2 ^ 56 + old * 2 ^ 48 + l * 2 ^ 40)

/-- Training finds lanes bad, named by direction × 128 + lane: each active lane that stands on a bad one moves to a spare while the
direction has one (R100, R101). -/
def Mach.trainLanes (m : Mach) (bad : List Nat) : Mach :=
  let m := m.setDie { m.die with badLanes := bad.foldl (fun b l => sput b l ()) m.die.badLanes }
  [0, 1].foldl (fun m d => (List.range 64).foldl (fun m lane =>
    let old := sgetD lane m.die.laneMap (128 * d + lane)
    if !shas m.die.badLanes (128 * d + old) then m
    else match m.spareLane d with
      | some l => m.moveLane d lane old l
      | none => m) m) m

/-- Both floors have retrained the bridge (R99): `bad` names the lanes of each direction (direction × 128 + lane) that failed. -/
def Mach.bridgeRetrained (m : Mach) (ok : Bool) (bad : List Nat) : Mach :=
  if !m.die.retraining then m
  else if !ok then m.bridgeFails 0x02
  else
    let m := m.setDie { m.die with retraining := false, naks := [0, 0], rxDiscard := [false, false] }
    let m := ((m.trainLanes bad).bridgeWidth 0).bridgeWidth 1
    if m.die.bridgeDown then m else (((m.bridgeResend 0).bridgeResend 1).bridgeGoes 0).bridgeGoes 1

/-- The bridge trains from nothing, at survey step 06 or for a die that returns (R101, R105, R114, R115), from the recorded lanes and
widths: the flits of the time before are gone, and each direction takes the width its good lanes allow. -/
def Mach.trainBridge (m : Mach) (bad : List Nat) : Mach :=
  let m := (m.setDie { m.die with
    replay := [[], []], waitTx := [[], []], naks := [0, 0], txSeq := [0, 0], rxSeq := [0, 0], rxDiscard := [false, false]
    ackEarly := [], retraining := false, bridgeDown := false }).trainLanes bad
  [0, 1].foldl (fun m d => m.takeWidth d (m.laneWidth d < 64)) m

/-- The bridge trains from empty remote line caches after a loss of the reference (R571): completions that waited for an
acknowledgement are released, and a pending fill stays for its readers. -/
def Mach.bridgeAnew (m : Mach) : Mach :=
  let lines := (m.die.dir.filter fun e => match e.2 with | .inval _ _ => true | .held _ => false).map (·.1)
  let m := (lines.foldl (fun m l => m.invAckAt l) (m.setDie { m.die with ackEarly := [] })).rlcFlush
  let m := m.setDie { m.die with
    retraining := false, replay := [[], []], naks := [0, 0], rxDiscard := [false, false], txSeq := [0, 0], rxSeq := [0, 0] }
  (m.bridgeGoes 0).bridgeGoes 1

/-- Lane parity blames active lane `lane` of direction `d` for `n` corrupt flits within `us` µs (R100): its traffic moves to a
spare, or the direction narrows (R101). -/
def Mach.laneSpare (m : Mach) (d lane n us : Nat) : Mach :=
  if us > 1000 || n < m.cfg kBridgeLaneErrLimit || !m.bridgeOpen then m
  else
    let old := sgetD lane m.die.laneMap (128 * d + lane)
    match m.spareLane d with
    | some l => (m.moveLane d lane old l).ledger 0x02 0x04 0x03 (dieRef d)
    | none =>
      ((m.setDie { m.die with badLanes := sput m.die.badLanes (128 * d + old) () }).ledger 0x02 0x04 0 (dieRef d)).bridgeWidth d

/-- Lanes of the narrower direction, and unused spares of the direction with fewer (Table 3.7). -/
def Mach.bridgeLanes (m : Mach) : Nat := if m.die.bridgeDown then 0 else min (nth 0 m.die.width 0) (nth 0 m.die.width 1)
def Mach.bridgeSpares (m : Mach) : Nat :=
  let left (d : Nat) : Nat := ((List.range 8).filter fun i =>
    !shas m.die.badLanes (128 * d + 64 + i) && !m.die.laneMap.any fun x => x.1 / 128 = d && x.2 = 64 + i).length
  min (left 0) (left 1)

end Sys2Proof.Machine
end

