-- ==== Sys2Proof/Machine/Heat.lean ====
section
/-! DEFINITION. Sensors and the benchmark (R595 to R599), zones, levels and their actions (R600 to R607), stack reports (R176 to
R178), VCORE ceilings, current limits and droops (R588 to R591), and the clock of the host cores (R567, R603, R655). -/
namespace Sys2Proof.Machine

/-! The cores' clock. -/

/-- The clock that a floor's cores should run at, in MHz: HOST_CLOCK_MAX, under the floor's thermal step and the margin cap
(R603, R655). -/
def Mach.coreWanted (m : Mach) (f : Nat) : Nat :=
  let step := match (nth {} m.pwr.heat f).level with | 2 => 1600 | 3 => 800 | 4 => 800 | _ => 3200
  min (min (m.cfg kHostClockMax) step) (if shas m.age.atLimit (5 * f + 4) then 1600 else 3200)

/-- A switch of a floor's cores to their wanted clock is asked for; it follows once the other CPLL has locked (R567). -/
def Mach.askClock (m : Mach) (f : Nat) : Mach :=
  let w := m.coreWanted f
  if w = nth 0 m.clk.coreMhz f then m.setClk { m.clk with coreTo := setAt m.clk.coreTo f none }
  else if nth none m.clk.coreTo f = some w then m
  else
    let other := if nth 0 m.clk.cpll f = 0 then 2 else 1
    m.setClk { m.clk with
      coreTo := setAt m.clk.coreTo f (some w)
      locked := setAt m.clk.locked f (putBit (nth 0 m.clk.locked f) other false) }

/-! VCORE. -/

/-- A thermal step holds a site's ceiling (R603). -/
def Mach.zoneHolds (m : Mach) (t : Nat) : Bool := (m.siteAt t).level ≥ 2 || (nth {} m.pwr.heat (t / 2)).level ≥ 2

/-- The ceiling follows what holds it: it stands at the value in force when the first cause begins, and goes with the last
(R588, R603). -/
def Mach.ceilingFollows (m : Mach) (t : Nat) : Mach :=
  let x := m.siteAt t
  let hold := x.powerCap || m.zoneHolds t
  if hold && !x.held && x.railsOn then
    (m.setSiteAt t { x with ceiling := x.vcore, held := true }).event evPower 0x03 1 ⟨0x06, t⟩ 0 (x.vcore * 2 ^ 16 + 1)
  else if !hold && x.held then
    (m.setSiteAt t { x with ceiling := 950, held := false }).event evPower 0x03 1 ⟨0x06, t⟩ 0 (x.ceiling * 2 ^ 16)
  else m

/-- The 1 ms mean of a site's power, in W, lies above its limit (R588). -/
def Mach.powerOver (m : Mach) (t w : Nat) : Mach :=
  let m := m.setSiteAt t { m.siteAt t with power := w }
  if w > m.cfg (kSitePowerLimit + 256 * t) then
    (m.setSiteAt t { m.siteAt t with powerCap := true }).ceilingFollows t
  else m

/-- The mean has stayed at or below `w` W for `ms` ms (R588): below 95 % of the limit for 10 ms, the ceiling is released. -/
def Mach.powerBelow (m : Mach) (t w ms : Nat) : Mach :=
  let m := m.setSiteAt t { m.siteAt t with power := w }
  if ms ≥ 10 && 100 * w < 95 * m.cfg (kSitePowerLimit + 256 * t) then
    (m.setSiteAt t { m.siteAt t with powerCap := false }).ceilingFollows t
  else m

/-- VCORE current above 550 A for `ns` ns (R589): SITE_ILIM_EVENTS and the rail's RAIL_LIMIT_HITS count it. -/
def Mach.currentLimit (m : Mach) (t ma ns : Nat) : Mach :=
  if ma > 550000 && ns ≥ 1000 then
    let m := (m.bump (kSiteIlimEvents + 256 * t)).bump (key (0x9A00 + 16 * (t / 2) + 6 + t % 2) 3)
    m.event evPower 0x02 2 ⟨0x06, t⟩ 0 (m.count (kSiteIlimEvents + 256 * t))
  else m

/-- VCORE falls `mv` mV below its set value (R591): a droop event when no notice was given, reported at once the first time
and then at most once per DROOP_HOLDOFF. -/
def Mach.droop (m : Mach) (t mv : Nat) : Mach :=
  let x := m.siteAt t
  if mv ≤ 30 || (x.lnLow && !x.lnIgnored) then m
  else
    let m := m.bump (kSiteDroopEvents + 256 * t)
    let due := match nth none m.pwr.droopAt t with
      | none => true
      | some u => m.clk.us ≥ u + m.cfg kDroopHoldoff
    if due then
      let m := (m.setSiteAt t { x with droopsOwed := 0 }).setPwr { m.pwr with droopAt := setAt m.pwr.droopAt t (some m.clk.us) }
      m.event evPower 0x01 1 ⟨0x06, t⟩ 0 (x.droopsOwed + 1)
    else m.setSiteAt t { x with droopsOwed := x.droopsOwed + 1 }

/-! Levels (R602). -/

/-- Thresholds of a zone in 1/16 °C, WARNING to SHUTDOWN, and their hysteresis. -/
def Mach.thresholds (m : Mach) (stack : Bool) : List (Int × Int) :=
  let c (k : Nat) : Int := m.cfg k
  if stack then
    let t := c kThermStackThrottle
    [(16 * c kThermStackWarn, 48), (16 * t, 48), (16 * (t + c kThermStackStep2Delta), 48), (16 * c kThermStackShutdown, 48)]
  else
    let t := c kThermFloorThrottle
    [(16 * c kThermFloorWarn, 64), (16 * t, 64), (16 * (t + c kThermFloorStep2Delta), 64), (16 * c kThermFloorShutdown, 128)]

/-- The level a zone falls to: it leaves each level whose threshold less hysteresis lies above the sample. -/
def fallLevel (th : List (Int × Int)) (r : Int) : Nat → Nat
  | 0 => 0
  | l + 1 => let x := nth (0, 0) th l
             if r < x.1 - x.2 then fallLevel th r l else l + 1

/-- The level after a sample. -/
def nextLevel (th : List (Int × Int)) (old : Nat) (r : Int) : Nat :=
  max (fallLevel th r old) ((th.filter fun x => x.1 ≤ r).length)

/-- The LEVEL_CHANGED event: its severity is the new level's (Table 9.15). -/
def Mach.levelEvent (m : Mach) (kind num old new : Nat) (r : Int) : Mach :=
  let u : UnitRef := match kind with | 1 => dieRef num | 2 => ⟨0x06, num⟩ | _ => stackRef num
  m.event evThermal 0x01 (match new with | 0 | 1 => 0 | 2 | 3 => 1 | _ => 3) u 0
    (kind * 2 ^ 56 + old * 2 ^ 48 + new * 2 ^ 40 + unsigned 16 r * 2 ^ 16)

/-- A change done under `f` is told to the neighbours when a zone's step changes (R358, R607). -/
def Mach.telling (m : Mach) (kind zone : Nat) (f : Mach → Mach) : Mach :=
  let old := (m.zoneStep kind zone).1
  let m := f m
  let new := (m.zoneStep kind zone).1
  if new = old then m
  else
    let m := if kind = 1 then m.setPwr { m.pwr with stackStep := setAt m.pwr.stackStep zone m.clk.us }
      else m.setPwr { m.pwr with heat := setAt m.pwr.heat zone { nth {} m.pwr.heat zone with stepAt := m.clk.us } }
    m.sendThrottle kind zone true

/-! Stacks. -/

/-- A stack stops (R178, R604): cap 0, self-refresh, and FAIL_THERMAL for what needs it. -/
def Mach.stackStops (m : Mach) (s : Nat) : Mach :=
  let hit := (sortItems m.rng.items).filter fun i => m.needsStack i s
  let m := m.setStack s { m.stackAt s with selfRefresh := true, cool := 0 }
  let m := m.finishAll (hit.map Item.key) .failThermal (stackRef s)
  m.ledger 0x08 0x07 0 (stackRef s) (if hit.isEmpty then 0 else Status.failThermal.code) hit.length

/-- A stack zone's level becomes `l` at a reading. -/
def Mach.stackLevel (m : Mach) (s l : Nat) : Mach :=
  let x := m.stackAt s
  if x.level = l then m
  else
    let was := x.shut
    let m := (m.setStack s { x with level := l }).levelEvent 3 s x.level l x.temp
    if l = 4 && !was then m.stackStops s else m

/-- The hottest die of a report (R177), none where the report counts as missed. -/
def hottest (words : List Nat) : Option Int :=
  let bad := words.filter fun w => !bitOf w 15 || bitOf w 14
  let good := (words.filter fun w => bitOf w 15 && !bitOf w 14).map fun w => signed 12 (w % 4096)
  match good with
  | [] => none
  | g :: gs =>
    if bad.length > 4 || words.any fun w => fld w 12 2 ≠ 0 then none
    else some (gs.foldl max g + (if bad.isEmpty then 0 else 80))

/-- A thermal step wakes the module, since the blocks it caps must act (R578, Table 17.7 code 9): a zone comes to STEP1 or above. -/
def Mach.stepWakes (m : Mach) (old new : Nat) : Mach := if new > max old 1 then m.wake 9 else m

/-- A report is missed (R178). -/
def Mach.reportMissed (m : Mach) (s : Nat) : Mach :=
  if nth false m.clk.loss (s / 3) then m
  else
    let m := if (m.stackAt s).missed = 2 then m.stepWakes 0 2 else m
    let x := m.stackAt s
    let n := x.missed + 1
    m.telling 1 s fun m =>
      let m := m.setStack s { x with missed := n, cool := 0, missStep := x.missStep || n ≥ 3 }
      let m := if n = 3 then m.event evThermal 0x05 2 (stackRef s) 0 n else m
      m.setRefresh s

/-- Nothing has come for `us` µs: after 100 ms the stack counts as at its shut-down level (R178). -/
def Mach.reportsGone (m : Mach) (s us : Nat) : Mach :=
  let x := m.stackAt s
  if us < 100000 || x.silent || nth false m.clk.loss (s / 3) then m
  else
    let m := m.stepWakes x.level 4
    let x := m.stackAt s
    m.telling 1 s fun m =>
      let was := x.shut
      let m := (m.setStack s { x with silent := true, level := 4 })
      let m := if x.level = 4 then m else m.levelEvent 3 s x.level 4 x.temp
      (if was then m else m.stackStops s).setRefresh s

/-- The CRC-16 of a report (R176): over its sequence number and its die words, each under R7, from 0 (PRESUMED, log 12). -/
def reportCrc (seq : Nat) (words : List Nat) : Nat := crcOf 16 0x1021 (leB 2 seq ++ words.flatMap (leB 2))

/-- A report of sixteen words whose CRC holds (R176). -/
def reportGood (seq : Nat) (words : List Nat) (crc : Nat) : Bool := words.length = 16 && crc = reportCrc seq words

/-- A temperature report arrives (R174, R176, R177, R602 to R604). -/
def Mach.stackReport (m : Mach) (s seq : Nat) (words : List Nat) (crc : Nat) : Mach :=
  match if reportGood seq words crc then hottest words else none with
  | none => m.reportMissed s
  | some t =>
    let th := m.thresholds true
    let old := m.stackAt s
    let m := if old.shut then m else m.stepWakes old.level (nextLevel th old.level t)
    let x := m.stackAt s
    let back := t < (nth (0, 0) th 3).1 - 48
    let hot := if t ≥ 1360 then true else if t < 1312 then false else x.hot
    m.telling 1 s fun m =>
      let y := { x with temp := t, repSeq := seq, missed := 0, missStep := false, hot }
      if x.shut then
        let n := if back then x.cool + 1 else 0
        if n ≥ 3 then
          let m := m.setStack s { y with cool := 0, silent := false, selfRefresh := m.clk.pwr ≥ 2 || m.clk.loss.contains true }
          (m.stackLevel s 3).setRefresh s
        else (m.setStack s { y with cool := n, missStep := x.missStep }).setRefresh s
      else (((m.setStack s y).stackLevel s (nextLevel th x.level t)).setRefresh s)

/-! Floors and sites. -/

def Mach.heatAt (m : Mach) (f : Nat) : Heat := nth {} m.pwr.heat f
def Mach.setHeat (m : Mach) (f : Nat) (x : Heat) : Mach := m.setPwr { m.pwr with heat := setAt m.pwr.heat f x }

/-- Sensors `base` on take the readings of a sample, 1/16 °C before correction; those of `odd` lie more than 15 °C from the
mean of their nearest four, and the count of those of `dead` has stopped (R595 to R599). -/
def Heat.sample (h : Heat) (base : Nat) (reads : List Int) (odd dead : List Nat) : Heat :=
  { h with sensors := reads.zipIdx.foldl (fun l r =>
      let x := nth {} l (base + r.2)
      let n := if odd.contains (base + r.2) then x.odd + 1 else 0
      setAt l (base + r.2) { x with temp := r.1 + x.off - h.drift + (if h.failed then 48 else 0), odd := n
                                    valid := x.valid && n < 3 && !dead.contains (base + r.2) }) h.sensors }

/-- Sensors that are invalid now and were not are reported (R598). -/
def Mach.sensorEvents (m : Mach) (f : Nat) (old new : Heat) : Mach :=
  ((List.range 264).filter fun i => (nth {} old.sensors i).valid && !(nth {} new.sensors i).valid).foldl
    (fun m i => m.event evThermal 0x03 1 (dieRef f) 0 i) m

/-- The largest valid reading among `n` sensors from `base` on. -/
def Heat.largest (h : Heat) (base n : Nat) : Option Int :=
  match (((h.sensors.drop base).take n).filter (·.valid)).map (·.temp) with
  | [] => none
  | x :: xs => some (xs.foldl max x)

/-- A floor stops for heat (R605): its items end with FAIL_THERMAL, THERMAL_STOP is sent, its stacks enter self-refresh, its
rails stop, and THERMTRIP_N is driven (R606). Alone in the module, it reports the fault itself. -/
def Mach.thermalStop (m : Mach) (f : Nat) : Mach :=
  let hit := (sortItems m.rng.items).filter fun i => ringFloor i.ring = f
  let m := m.finishAll (hit.map Item.key) .failThermal (dieRef f)
  let m := m.setHeat f { m.heatAt f with stopped := true, ended := hit.length }
  let m := m.setStk { m.stk with dev := m.stk.dev.zipIdx.map fun x => if x.2 / 3 = f then { x.1 with selfRefresh := true } else x.1 }
  let m := (m.setPwr { m.pwr with floorOn := setAt m.pwr.floorOn f false, trip := true }).bump (kThermalStops + 256 * f)
  let m := m.emit (.island f 4)
  let m := if m.pwr.driven then m.emit (.pin 3 0 false) else m
  if m.floorGone (1 - f) || m.floorLost (1 - f) then
    m.ledger 0x09 0x07 0 (dieRef f) (if hit.isEmpty then 0 else Status.failThermal.code) hit.length
  else m

/-- A start that ends before step 21 has failed (R624). -/
def Mach.startFails (m : Mach) : Mach :=
  if m.cad.halted || m.cad.step = 0 || m.cad.step = 21 then m else m.setCad { m.cad with fails := min 255 (m.cad.fails + 1) }

/-- The survey halts at its step (R614): the survey log and both consoles get the cause. -/
def Mach.surveyHalt (m : Mach) : Mach :=
  let m := m.startFails
  let m := ((m.setCad { m.cad with halted := true }).alert 0 true).surveyLog 0x02 {} 0 Status.failUnit.code
  (m.emit (.debug 7 m.cad.step)).emit (.debug 8 m.cad.step)

/-- Cores whose logical unit is withdrawn read so (R467, HOST_CORE_STATE); one that has a spare again is fenced as it was. -/
def Mach.markCores (m : Mach) : Mach :=
  let gone (c : Nat) : Bool := shas m.cad.cur.gone (UnitRef.code ⟨0x09, c⟩)
  m.setCore { m.core with dev := m.core.dev.zipIdx.map fun x => if gone x.2 then { x.1 with state := 4 } else if x.1.state = 4 then { x.1 with state := 3 } else x.1 }

/-- Units of F1 are withdrawn whole (R106, R639): those of Table 19.8 leave the cadastre, which keeps their placement for the next
survey (Table 19.4), each with its REMAP event (R27); its sites, ports, host port and management port are out of use with the floor. -/
def Mach.withdrawF1 (m : Mach) : Mach :=
  if m.floorGone 1 then m
  else
    let m := m.setDie { m.die with withdrawn := [nth false m.die.withdrawn 0, true], state := 4 }
    let m := m.setCad { m.cad with back := some m.cad.cur, cur := (floorUnits 1).foldl (fun b u => b.drop u) m.cad.cur }
    let m := (List.range 12).foldl (fun m i => m.setPort (12 + i) { m.portAt (12 + i) with state := 1, cause := 12 }) m
    let m := [2, 3].foldl (fun m t => m.setSiteAt t { m.siteAt t with state := if (m.siteAt t).state = 0 then 0 else 1, railsOn := false }) m
    let m := m.setHpAt 1 { m.hpAt 1 with role := 0, link := 0, far := 0 }
    let m := (floorUnits 1).foldl (fun m u =>
      let i := match m.cad.back with | some b => b.physOf u | none => 0xFF
      if i = 0xFF then m else m.event evRemap 0x02 3 u 0 (i * 2 ^ 56)) m
    m.markCores.surveyLog 0x05 (dieRef 1)

/-- Actions of a floor's new level (Table 18.4). During survey steps 08 to 20 the shut-down level withdraws F1 or halts the
survey of F0 (Table 19.11). -/
def Mach.floorActs (m : Mach) (f new : Nat) : Mach :=
  let m := (m.askClock f).ceilingFollows (2 * f) |>.ceilingFollows (2 * f + 1)
  if new < 4 then m
  else if m.cad.step < 21 then
    if m.cad.step < 8 then m else if f = 1 then m.withdrawF1 else m.surveyHalt
  else m.thermalStop f

/-- A site's rails go, and it is fenced, at its shut-down level (Table 18.4). -/
def Mach.siteActs (m : Mach) (t new : Nat) : Mach := if new < 4 then m.ceilingFollows t else (m.ceilingFollows t).siteFails t 12

/-- A zone is sampled (R601): kind 1 a floor with its 256 readings, kind 2 a site with its 4. -/
def Mach.zoneSample (m : Mach) (kind zone : Nat) (reads : List Int) (odd dead : List Nat) : Mach :=
  let f := if kind = 1 then zone else zone / 2
  let base := if kind = 1 then 0 else 256 + zone % 2 * 4
  let n := if kind = 1 then 256 else 4
  let h := m.heatAt f
  if h.stopped || nth false m.clk.loss f || m.floorLost f || m.floorGone f then m
  else
    let g := h.sample base (reads.take n) odd dead
    let m := (m.setHeat f g).sensorEvents f h g
    let th := m.thresholds false
    m.telling 2 f fun m =>
      if kind = 1 then
        let r := (g.largest 0 256).getD g.temp
        let l := nextLevel th g.level r
        let m := m.setHeat f { g with temp := r, level := l }
        if l = g.level then m else ((m.stepWakes g.level l).levelEvent 1 f g.level l r).floorActs f l
      else
        let x := m.siteAt zone
        let own := g.largest base 4
        let r := own.getD (g.temp + 80)
        let l := nextLevel th x.level r
        let m := m.setSiteAt zone { x with temp := r, level := l }
        if l = x.level then m else ((m.stepWakes x.level l).levelEvent 2 zone x.level l r).siteActs zone l

/-! Calibration. -/

/-- Survey calibration of a floor (R596): each sensor's offset makes it read the benchmark; a correction beyond 5 °C makes it
invalid (R598). A die that did not settle keeps its offsets. -/
def Mach.calibrate (m : Mach) (f : Nat) (settled : Bool) (bench : Int) (raws : List Int) : Mach :=
  let h := m.heatAt f
  let h := { h with bench }
  if !settled || h.failed then m.setHeat f h
  else
    let g := { h with drift := 0, sensors := raws.zipIdx.foldl (fun l r =>
      let o := bench - r.1
      setAt l r.2 { nth {} l r.2 with off := o, temp := bench, odd := 0, valid := -80 ≤ o && o ≤ 80 }) h.sensors }
    let fresh := { h with sensors := h.sensors.map fun x => { x with valid := true } }
    ((m.setHeat f g).event evThermal 0x02 0 (dieRef f) 0 1).sensorEvents f fresh g

/-- One floor's measurements of a calibration as numbers: settled, the benchmark and 264 raw readings, 16 bits each. -/
def calOf (l : List Nat) : Bool × Int × List Int := (nth 0 l 0 = 1, signed 16 (nth 0 l 1), ((l.drop 2).take 264).map (signed 16))

/-- THERM_RECAL_NOW (0x2800.0A): `l` holds both floors' measurements. -/
def Mach.recalNow (m : Mach) (l : List Nat) : CmdRes :=
  let floors := [0, 1].filter fun f => !m.floorGone f && !m.floorLost f
  let cal (f : Nat) := calOf (l.drop (266 * f))
  let m := floors.foldl (fun m f => m.calibrate f (cal f).1 (cal f).2.1 (cal f).2.2) m
  if floors.any fun f => !(cal f).1 then m.refuse .rejectBusy else { m }

/-- The benchmark has failed (R599). -/
def Mach.benchFails (m : Mach) (f : Nat) : Mach :=
  let h := m.heatAt f
  ((m.setHeat f { h with failed := true }).event evThermal 0x04 3 (dieRef f) 0 (unsigned 16 h.bench * 2 ^ 16)).ledger
    0x02 0x07 0 (dieRef f)

/-- The 100 ms comparison of the benchmark with its 8 neighbours, given by index and raw reading (R597, R599). -/
def Mach.recal (m : Mach) (f : Nat) (bench : Int) (near : List (Nat × Int)) : Mach :=
  let h := { m.heatAt f with bench }
  if h.failed then m.setHeat f h
  else
    let dev : List Int := near.map fun x => x.2 + (nth {} h.sensors x.1).off - bench
    let mean : Int := if near.isEmpty then 0 else dev.foldl (· + ·) 0 / (near.length : Int)
    let off := mean - h.drift
    let n := if off > 80 || off < -80 then h.benchOdd + 1 else 0
    let m := m.setHeat f { h with benchOdd := n }
    if bench < -640 || bench > 2400 || n ≥ 10 then m.benchFails f
    else (m.setHeat f { h with benchOdd := n, drift := mean }).event evThermal 0x02 0 (dieRef f) 0 (unsigned 16 mean * 2 ^ 16 + 2)

/-- A stopped floor's benchmark reads below the shut-down threshold less 8 °C (R605): its rails return, and it waits for
re-admission (R114). -/
def Mach.floorReturns (m : Mach) (f : Nat) (bench : Int) : Mach :=
  let h := m.heatAt f
  let th := m.thresholds false
  if !h.stopped || bench ≥ (nth (0, 0) th 3).1 - 128 then m
  else
    let m := m.telling 2 f fun m =>
      m.setHeat f { h with stopped := false, bench, temp := bench, level := nextLevel th (min h.level 3) bench }
    (m.setPwr { m.pwr with floorOn := setAt m.pwr.floorOn f true }).emit (.island f 1)

end Sys2Proof.Machine
end

