-- ==== Sys2Proof/Machine/Trust.lean ====
section
/-! DEFINITION. The security controller: the attestation report, key release, context keys, island leases, licences' debug
unlock, TAP and consoles (R501 to R531, R536 to R551, R691, R692). -/
namespace Sys2Proof.Machine

/-! The report (R504, R519, R520). -/

/-- CDI (R504): it depends on the fused secret, the ROM, the image, its security version, the lifecycle and the debug fuses. -/
def Mach.cdi (m : Mach) (z : Fuses) : Bytes :=
  hkdfExtract (digest (m.measAt 1 ++ m.measAt 2 ++ beB 4 m.sec.version ++ beB 1 z.life ++ beB 1 z.debug)) (beB 48 z.uds)

/-- The alias key (R504). -/
def Mach.aliasKey (m : Mach) (z : Fuses) : Nat := privKey (hkdfExpand (m.cdi z) (label "STL2 alias") 64)

/-- The alias key's signature of a run of bytes (R506). -/
def Mach.aliasSign (m : Mach) (z : Fuses) (b : Bytes) : Bytes := b ++ leB 96 (Config.ecdsa (m.aliasKey z) b).toNat

/-- LICENCE_PENDING (R45): the features of the stored licences but those marked for removal. -/
def Mach.licPending (m : Mach) : Nat :=
  m.fb.stored.foldl (fun v l => Nat.lor v (if Nat.land (num l.2 5 1) m.fb.removing = 0 then num l.2 5 1 else 0)) 0

/-- An attestation report (Table 15.5): KIND 0, or 1 for a key-release request of a context with its body's digest. -/
def Mach.report (m : Mach) (z : Fuses) (kind : Nat) (nonce : Bytes) (ctx : Nat) (req : Bytes) : Bytes :=
  let x := match m.ctx? ctx with | some c => c | none => {}
  m.aliasSign z
    (leB 4 0x52545354 ++ leB 1 1 ++ leB 1 kind ++ leB 2 1128 ++ padTo 32 nonce ++ leB 8 z.serial ++ padTo 16 z.order ++
      leB 1 (leN (m.runVal kStepping)) ++ leB 1 z.life ++ leB 1 m.debugState ++ leB 1 m.fb.role ++ leB 4 m.sec.fwVersion ++
      leB 4 m.sec.version ++ leB 1 m.fb.licences ++ leB 1 m.licPending ++ leB 1 (m.cfg kActiveSheet) ++ leB 1 m.die.state ++
      leB 4 m.fb.epoch ++ leB 4 m.sec.measGen ++ leB 8 m.clk.us ++
      [1, 2, 3, 4, 5, 7, 8, 9, 10].flatMap (fun i => m.measAt i) ++ [0, 1, 2, 3].flatMap (fun t => m.tileBlock t) ++
      (if kind = 1 then leB 2 ctx ++ leB 1 x.part ++ leB 1 x.conf.toNat else leB 4 0) ++ leB 4 0 ++ padTo 48 req)

/-- ATTEST_REPORT (R521, R522). -/
def Mach.attest (m : Mach) (z : Fuses) (nonce : Bytes) : CmdRes :=
  if m.floorLost 0 then m.refuse .rejectBusy else { m, val := m.report z 0 nonce 0 [] }

/-- GET_MEASUREMENTS (R484, R521): indexes 1 to 14 as measurement blocks, 0x40 a KIND 0 report over the requester's nonce, 0 the
number of indexes and 0xFF all of them (PRESUMED, log 12). -/
def Mach.spdmMeasure (m : Mach) (z : Fuses) (n idx : Nat) (nonce : Bytes) : Mach :=
  if !m.hpServes n then m
  else
    let m := m.wake 4
    let block (i : Nat) : Bytes := leB 1 i ++ m.measAt i
    if m.spdmBusy then m.emit (.spdm n spdmError [3])
    else if 1 ≤ idx && idx ≤ 14 then m.emit (.spdm n 0x60 (block idx))
    else if idx = 0x40 then m.emit (.spdm n 0x60 (m.report z 0 nonce 0 []))
    else if idx = 0 then m.emit (.spdm n 0x60 [15])
    else if idx = 0xFF then
      m.emit (.spdm n 0x60 ((List.range 14).flatMap (fun i => block (i + 1)) ++ m.report z 0 nonce 0 []))
    else m.emit (.spdm n spdmError [1])

/-- SEC_VERSION_ADVANCE (R508): the fuses of `z` are burned up to the running image's version. -/
def Mach.svnAdvance (m : Mach) (z : Fuses) : CmdRes :=
  if z.svn ≥ m.sec.version || m.sec.version > 64 then m.refuse .rejectRange
  else { m := m.setSec { m.sec with burn := m.sec.version } }

/-! Key release (R523 to R526). -/

/-- A context is LIVE. -/
def Mach.ctxLive (m : Mach) (c : Nat) : Bool := match m.ctx? c with | some x => x.st = .live | none => false

/-- Keys of a context that the security controller holds. -/
def Mach.ctxKeys (m : Mach) (c : Nat) : CtxKeys := sgetD {} m.sec.keys c

/-- KEY_REQUEST (R522, R523). -/
def Mach.keyRequest (m : Mach) (z : Fuses) (v : Bytes) : CmdRes :=
  let c := num v 0 2
  let kind := num v 2 1
  let hours := num v 3 1
  let nonce := padTo 32 (v.drop 4)
  if !(kind = 1 || kind = 2) || hours > 72 then m.refuse .rejectFormat
  else if m.floorLost 0 then m.refuse .rejectBusy
  else if !m.ctxLive c || (kind = 1 && !m.confCtx c) then m.refuse .rejectRange
  else if m.sec.reqs.length ≥ 64 || m.sec.reqs.any (fun r => r.ctx = c && r.kind = kind) then m.refuse .rejectBusy
  else
    let d := m.draw
    let m := d.2
    let id := m.sec.reqId
    let want := if m.hasLicence licIsland then hours else 0
    let body := leB 4 0x51524B53 ++ leB 1 1 ++ leB 1 kind ++ leB 2 c ++ leB 4 id ++ leB 1 want ++ leB 3 0 ++ nonce ++
      leB 1 4 ++ leB 96 (Config.pubKey d.1).toNat ++ leB 15 0
    let m := m.setSec { m.sec with
      reqId := (id + 1) % 2 ^ 32
      reqs := m.sec.reqs ++ [{ id, ctx := c, kind, lease := want, draw := d.1, time := m.clk.us }] }
    { m, val := body ++ m.report z 1 nonce c (digest body) }

/-- A key is installed (R538, R539, R541): a first CONTEXT_ROOT gives the stack key of slot 0, a later one rotates it. -/
def Mach.installKey (m : Mach) (c kind key : Nat) (lease : Bool) : Mach :=
  let k := m.ctxKeys c
  if kind = 2 then
    (m.setSec { m.sec with keys := sput m.sec.keys c { k with ckpt := some key } }).keyEvent 0x02 c 2 0 lease.toNat
  else
    let m := (m.setSec { m.sec with keys := sput m.sec.keys c { k with root := some key } }).keyEvent 0x02 c 1 0 lease.toNat
    if k.root.isNone then m.firstKey c
    else
      let d := m.stackKey c
      d.2.rotate c d.1

/-- LEASE_MEASURE of a partition (R545). -/
def Mach.leaseMeasure (m : Mach) (p : Nat) : Bytes :=
  digest (m.measAt 4 ++ m.measAt 5 ++ m.measAt 9 ++ (bitList 4 (m.plat p 1)).flatMap fun t =>
    let e : Evid := match (m.siteAt t).evidence with | some e => e | none => ⟨false, 0, []⟩
    digest (leB 97 e.leaf) ++ (match listFind e.list 1 with | some d => d | none => List.replicate 48 0))

/-- The seal key of lease records (R544). -/
def Mach.sealKey (m : Mach) (z : Fuses) : Nat := beN (hkdfExpand (m.cdi z) (label "STL2 lease") 32)

/-- Bytes 0x00 to 0x5F of a lease record (Table 16.2). -/
def Lease.head (l : Lease) : Bytes :=
  leB 4 0x45534C53 ++ leB 1 1 ++ leB 1 l.kind ++ leB 2 l.ctx ++ leB 1 l.part ++ leB 3 0 ++ leB 4 l.id ++ leB 8 l.expiry ++
    padTo 48 l.measure ++ beB 12 l.nonce ++ leB 8 l.aonId ++ leB 4 0

/-- A lease record's tag verifies under the present seal key; its key opens with it. -/
def Mach.leaseOpens (m : Mach) (z : Fuses) (l : Lease) : Bool :=
  l.tag = gcmTag (m.sealKey z) l.nonce l.head l.wrapped
def Mach.leaseKey (m : Mach) (z : Fuses) (l : Lease) : Nat := beN (sealBytes (m.sealKey z) l.nonce l.wrapped)

/-- A released key is sealed into a lease record, with a drawn nonce (R544). -/
def Mach.sealLease (m : Mach) (z : Fuses) (c kind id hours key : Nat) : Mach :=
  let part := match m.ctx? c with | some x => x.part | none => 0
  let rest := m.sec.leases.filter fun l => !(l.ctx = c && l.kind = kind)
  if rest.length ≥ 64 then ((m.setSec { m.sec with leases := rest }).leaseEvent 2 c kind id).bump kLeaseFails
  else
    let d := m.draw
    let m := d.2
    let nonce := (Config.drbg d.1).toNat % 2 ^ 96
    let l : Lease := { kind, ctx := c, part, id, expiry := m.sec.island + 3600 * hours, measure := m.leaseMeasure part
                       aonId := m.sec.aonId, nonce, wrapped := sealBytes (m.sealKey z) nonce (beB 32 key), tag := [] }
    let l := { l with tag := gcmTag (m.sealKey z) nonce l.head l.wrapped }
    (m.setSec { m.sec with leases := rest ++ [l] }).leaseEvent 1 c kind id

/-- A release message is well formed (Table 15.7). -/
def releaseGood (v : Bytes) : Bool :=
  let n := num v 0x0E 2
  num v 0 4 = 0x4C524B53 && num v 4 1 = 1 && 1 ≤ n && n ≤ 4096 && v.length = 0xB0 + n + 96 && num v 0x0D 1 = 0 &&
  num v 0x71 15 = 0 && num v 0x0C 1 ≤ 72

/-- The wrapping key and nonce of a release for a request (R524). -/
def wrapKey (z : Fuses) (r : KeyReq) (pub : Bytes) : Nat × Nat :=
  let prk := hkdfExtract (beB 4 r.id ++ beB 8 z.serial) (beB 48 (Config.ecdh r.draw pub).toNat)
  (beN (hkdfExpand prk (label "STL2 release" ++ beB 2 r.ctx ++ beB 1 r.kind) 32), beN (hkdfExpand prk (label "STL2 rnonce") 12))

/-- A release message's tag verifies under its request's wrapping key, and the key that it carries (R524, Table 15.7). -/
def releaseOpens (z : Fuses) (r : KeyReq) (v : Bytes) : Bool :=
  let k := wrapKey z r ((v.drop 0x10).take 97)
  (v.drop 0xA0).take 16 = gcmTag k.1 k.2 (v.take 0x80) ((v.drop 0x80).take 32)
def releasedKey (z : Fuses) (r : KeyReq) (v : Bytes) : Nat :=
  let k := wrapKey z r ((v.drop 0x10).take 97)
  beN (sealBytes k.1 k.2 ((v.drop 0x80).take 32))

/-- KEY_INSTALL (R522, R524 to R526, R538, R539, R544): the findings are whether the chain verifies to the broker's root, and the
signature. -/
def Mach.keyInstall (m : Mach) (z : Fuses) (v : Bytes) (f : Verif) : CmdRes :=
  let kind := num v 5 1
  let c := num v 6 2
  let open? := m.sec.reqs.find? fun r => r.id = num v 8 4 && r.ctx = c && r.kind = kind
  let part := match m.ctx? c with | some x => x.part | none => 0
  let root := m.runVal kBrokerRootDigest
  let access := !f.chain || !f.sig || leN root = 0 || (match open? with | some r => !releaseOpens z r v | none => false) ||
    (kind = 1 && (m.ctx? c).isSome && leN (m.platBytes (kPlatTilePolicy + 256 * part)) = 0)
  if !releaseGood v then m.refuse .rejectFormat
  else if m.floorLost 0 then m.refuse .rejectBusy
  else if access then
    { m := match open? with | some r => m.endReq r .rejectAccess true | none => m, st := .rejectAccess }
  else match open? with
  | none => m.refuse .rejectRange
  | some r =>
    if (m.keysOf c).rot ≠ .steady then m.refuse .rejectBusy
    else
      let key := releasedKey z r v
      let m := (m.endReq r .done false).installKey c kind key false
      let hours := if m.hasLicence licIsland then num v 0x0C 1 else 0
      { m := if hours > 0 then m.sealLease z c kind r.id hours key else m }

/-- An open request has lived for KEY_REQUEST_TTL, `ms` ms in all (R526). -/
def Mach.keyExpire (m : Mach) (id ms : Nat) : Mach :=
  match m.sec.reqs.find? fun r => r.id = id with
  | some r => if ms ≥ m.cfg kKeyRequestTtl then m.endReq r .done true else m
  | none => m

/-! Context keys. -/

/-- KEY_ROTATE (R540). -/
def Mach.keyRotate (m : Mach) (c : Nat) : CmdRes :=
  if m.floorLost 0 then m.refuse .rejectBusy
  else if !m.ctxLive c || (m.confCtx c && (m.ctxKeys c).root.isNone) then m.refuse .rejectRange
  else if (m.keysOf c).rot ≠ .steady then m.refuse .rejectBusy
  else
    let d := m.stackKey c
    { m := d.2.rotate c d.1 }

/-- KEY_ERASE (R541, Table 16.6): the context's CHECKPOINT key goes. -/
def Mach.keyErase (m : Mach) (c : Nat) : CmdRes :=
  let k := m.ctxKeys c
  if m.floorLost 0 then m.refuse .rejectBusy
  else if k.ckpt.isNone then { m }
  else { m := (m.setSec { m.sec with keys := sput m.sec.keys c { k with ckpt := none } }).keyEvent 0x04 c 2 0 0 }

/-- KEY_QUERY's answer (Table 16.6). -/
def Mach.keyQuery (m : Mach) (c : Nat) : CmdRes :=
  if c > 4095 then m.refuse .rejectRange
  else
    let k := m.ctxKeys c
    let has (kind : Nat) : Bool := m.sec.leases.any fun l => l.ctx = c && l.kind = kind
    { m, val := leB 1 k.root.isSome.toNat ++ leB 1 k.ckpt.isSome.toNat ++
        leB 1 (match (m.keysOf c).rot with | .steady => 0 | .sweeping => 1 | .erasing => 2) ++
        leB 1 ((has 1).toNat + 2 * (has 2).toNat) }

/-! Leases. -/

/-- LEASE_UNSEAL (R546). -/
def Mach.leaseUnseal (m : Mach) (z : Fuses) (v : Bytes) : CmdRes :=
  let c := num v 0 2
  let kind := num v 2 1
  let rec? := m.sec.leases.find? fun l => l.ctx = c && l.kind = kind
  let access : Bool := m.sec.unlocked || (match rec? with
    | some l => !m.leaseOpens z l || l.measure ≠ m.leaseMeasure l.part ||
        (bitList 4 (m.plat l.part 1)).any fun t => (m.siteAt t).state ≠ 5
    | none => false)
  if !(kind = 1 || kind = 2) then m.refuse .rejectFormat
  else if m.floorLost 0 then m.refuse .rejectBusy
  else if access then m.refuse .rejectAccess
  else if !m.hasLicence licIsland then m.refuse .rejectLicence
  else match rec? with
  | none => m.refuse .rejectRange
  | some l =>
    let part := match m.ctx? c with | some x => x.part | none => 4
    if l.aonId ≠ m.sec.aonId || l.expiry ≤ m.sec.island || !m.ctxLive c || part ≠ l.part || (kind = 1 && !m.confCtx c) then
      m.refuse .rejectRange
    else if (m.keysOf c).rot ≠ .steady then m.refuse .rejectBusy
    else { m := (m.installKey c kind (m.leaseKey z l) true).leaseEvent 3 c kind l.id }

/-- LEASE_REVOKE (R547). -/
def Mach.leaseRevoke (m : Mach) (v : Bytes) : CmdRes :=
  let c := num v 0 2
  let kind := num v 2 1
  if kind > 2 then m.refuse .rejectFormat
  else if c > 4095 && c ≠ 0xFFFF then m.refuse .rejectRange
  else { m := m.eraseLeases fun l => (c = 0xFFFF || l.ctx = c) && (kind = 0 || l.kind = kind) }

/-- LEASE_LIST's answer. -/
def Mach.leaseList (m : Mach) : CmdRes :=
  { m, val := m.sec.leases.flatMap fun l =>
      leB 2 l.ctx ++ leB 1 l.kind ++ leB 1 l.part ++ leB 4 l.id ++ leB 4 (l.expiry - m.sec.island) }

/-- ISLAND_SECONDS reaches `secs`: records whose EXPIRY lies there are erased (R543, R547). -/
def Mach.leaseExpire (m : Mach) (secs : Nat) : Mach :=
  let m := m.setSec { m.sec with island := max m.sec.island secs }
  m.eraseLeases fun l => l.expiry ≤ m.sec.island

/-! Debug access. -/

/-- DEBUG_CHALLENGE (R550). -/
def Mach.debugChallenge (m : Mach) : CmdRes :=
  let d := m.draw
  { m := d.2.setSec { d.2.sec with challenge := some d.1 }, val := leB 32 (Config.drbg d.1).toNat }

/-- DEBUG_UNLOCK (R550): the findings are whether the chain verifies, and the signature over the last challenge. -/
def Mach.debugUnlock (m : Mach) (z : Fuses) (f : Verif) : CmdRes :=
  if !bitOf z.debug 0 || !f.chain || !f.sig || m.sec.challenge.isNone then m.refuse .rejectAccess
  else if m.confResident then m.refuse .rejectBusy
  else { m := Mach.debugChange m ((m.setSec { m.sec with unlocked := true }).emit (.debug 1 0)) }

/-- An instruction shifted into the TAP (R548, R549, R691): 0 BYPASS, 1 IDCODE, another number another instruction, which acts as
BYPASS while instruments are closed. -/
def Mach.tapInstr (m : Mach) (i : Nat) : Mach :=
  let i := if i ≤ 1 || bitOf m.debugState 0 then i else 0
  (m.setSec { m.sec with tap := i }).emit (.debug 2 (if i = 1 then 0x257609A7 else i))

/-- Input on console `c`: taken while it is open, ignored otherwise (R548, R549, R692). -/
def Mach.consoleIn (m : Mach) (c code : Nat) : Mach := if bitOf m.debugState (1 + c) then m.emit (.debug (3 + c) code) else m

end Sys2Proof.Machine
end

