-- ==== Sys2Proof/Machine/Power.lean ====
section
/-! DEFINITION. Closures (R592 to R594, R685, R695, Table 18.2), loss of power without warning (R593, R686) and the pins PORST_N,
WRST_N and PFW_N. -/
namespace Sys2Proof.Machine

/-- Every accepted item without its record ends with a status; answers how many. -/
def Mach.endAll (m : Mach) (st : Status) : Mach × Nat :=
  (m.finishAll ((sortItems m.rng.items).map Item.key) st, m.rng.items.length)

/-- Every party is fenced as part of a closure (R665): sites with one cause, cores where one is given, host ports with another. -/
def Mach.fenceParties (m : Mach) (site : Nat) (core : Option Nat) (hp : Nat) : Mach :=
  let m := (List.range 4).foldl (fun m t => (m.fenceSite t site true).measureTile t) m
  let m : Mach := match core with
    | some c => (List.range 32).foldl (fun m i => m.fenceCore i c true) m
    | none => m
  (m.fenceHp 0 hp true).fenceHp 1 hp true

/-- A closure is declared and runs to its step 4 (Table 18.2): 1 PFW_N, 2 PWR_OFF, 3 PORST_N, 4 WRST_N. -/
def Mach.startClosure (m : Mach) (by_ : Nat) : Mach :=
  let m := m.wake 9
  let m := m.setPwr { m.pwr with closure := some ⟨by_, m.clk.us⟩ }
  let m := m.setCore { m.core with dev := m.core.dev.map fun x => x.interrupt 5 }
  let m := ((m.alert 3 true).event evPower 0x04 (if by_ = 1 then 3 else 1) {} 0 by_).bump kPfwClosures
  let m := m.sendAll msgDown [1, 0xFFFFFF]
  let r := m.endAll .failPower
  let m := (r.1.rng.rings.map (·.1)).foldl (fun m r => m.closeRing r .failPower) r.1
  let m := (m.fenceParties 10 (some 7) 7).endRuns
  if by_ = 1 then m.ledger 0x0A 0x08 0x08 {} (if r.2 = 0 then 0 else Status.failPower.code) r.2 else m

/-- History records are written to board flash (R669). -/
def Mach.flushHist (m : Mach) : Mach := m.setFlt { m.flt with hist := m.flt.hist.map fun h => { h with flushed := true } }

/-- Steps 5 to 8 of Table 18.2, `us` µs after the closure began. -/
def Mach.closureStops (m : Mach) (us : Nat) : Mach :=
  let m := portList.foldl (fun m p => if (m.portAt p).state ≥ 2 then m.portDown p (m.portAt p).cause .failPower true else m) m
  let m := (m.dropSessionsOn 0).dropSessionsOn 1
  let m := m.setDie { m.die with retraining := true }
  let m := m.setHp { m.hp with dev := m.hp.dev.map fun x => { x with link := 0, width := 0, rate := 0, flit := false } }
  let m := m.setSite { m.site with dev := m.site.dev.map Site.powerDown }
  let m := m.flushHist
  let m := m.setCad { m.cad with closureRec := some us }
  let m := m.setStk { m.stk with dev := m.stk.dev.map fun x => { x with selfRefresh := true } }
  (m.setCount kPfwLastTime us).setCount kPfwShort 0

/-- Steps 9 and 10: the floor rails go and the module is OFF (R582, R594). A PWR_OFF command is answered first. -/
def Mach.closureEnds (m : Mach) (us : Nat) : Mach :=
  match m.pwr.closure with
  | some c =>
    if c.by_ > 2 then m
    else
      let m := m.closureStops us
      m.setPwr { m.pwr with closure := none, off := true, floorOn := [false, false] }
  | none => m

/-- A reset closure's step 8 ends and the reset takes hold (R685). -/
def Mach.resetHolds (m : Mach) (us : Nat) : Mach :=
  match m.pwr.closure with
  | some c =>
    if c.by_ ≤ 2 then m
    else
      let m := m.closureStops us
      m.setPwr { m.pwr with closure := none, reset := some c.by_ }
  | none => m

/-- PFW_N has been low for `ns` ns (R592): the closure is declared. During a survey it stops the survey and runs its steps 5 to
10 (R594); during a reset closure, that closure runs on to step 10 (R695). -/
def Mach.pfwFalls (m : Mach) (ns : Nat) : Mach :=
  if ns < 1000 then m
  else
    let m := m.setPwr { m.pwr with pfwLow := true }
    match m.pwr.closure with
    | some c => if c.by_ ≤ 2 then m else m.setPwr { m.pwr with closure := some { c with by_ := 1 } }
    | none =>
      if m.pwr.off || m.pwr.reset.isSome then m
      else if m.cad.step = 21 && !m.cad.halted then m.startClosure 1
      else
        let m := m.startFails
        let m := m.setCad { m.cad with halted := true }
        let m := m.setPwr { m.pwr with closure := some ⟨1, m.clk.us⟩ }
        ((m.alert 3 true).event evPower 0x04 3 {} 0 1).bump kPfwClosures

/-- PORST_N or WRST_N falls (R685, R695). -/
def Mach.resetFalls (m : Mach) (porst : Bool) : Mach :=
  let by_ := if porst then 3 else 4
  let m := if porst then m.setPwr { m.pwr with porstLow := true } else m.setPwr { m.pwr with wrstLow := true }
  if !porst && m.pwr.porstLow then m
  else match m.pwr.closure with
  | some c =>
    if c.by_ ≤ 2 then m
    else if porst then m.setPwr { m.pwr with closure := some { c with by_ := 3 } } else m
  | none =>
    if m.pwr.off then (if porst then m.setPwr { m.pwr with reset := some 3 } else m)
    else match m.pwr.reset with
    | some r => if porst && r = 4 then m.setPwr { m.pwr with reset := some 3 } else m
    | none =>
      if m.cad.step = 21 && !m.cad.halted then m.startClosure by_
      else
        let m := m.startFails
        let m := m.setCad { m.cad with halted := true, coldNeeded := true }
        m.setPwr { m.pwr with reset := some by_ }

/-- The module stops without warning (R593, R659): items have no records, and what no flash holds is gone. -/
def Mach.powerLost (m : Mach) : Mach :=
  let m := m.setRng { m.rng with items := [], owed := [], recWait := [] }
  let m := m.setTrv {}
  let kept := m.flt.hist.filter (·.flushed)
  let m := m.setFlt { m.flt with hist := kept, lseq := (kept.map (·.lseq)).foldl max 0, fencing := [] }
  let m := m.setFb { m.fb with sessions := [], chans := [], draft := none, committing := none, survWaiting := false }
  let m := m.startFails
  let m := m.setCad { m.cad with coldNeeded := true, halted := true }
  m.setPwr { m.pwr with closure := none, off := true, floorOn := [false, false], reset := some 5 }

/-- PVIN falls below 2.10 V (R587, R593, R695): the regulators stop. A closure under way is cut short. -/
def Mach.pvinLow (m : Mach) (mv : Nat) : Mach :=
  if mv ≥ 2100 then m
  else
    let short := m.pwr.closure.isSome
    let m := if short then m.setCount kPfwShort 1 else m
    let m := m.setPwr { m.pwr with railsOk := false }
    if m.pwr.off then m.setCad { m.cad with coldNeeded := true } else m.powerLost

/-- V1P8_AON falls below 1.62 V (R686): the retained counters, holdings, AON_ID and every lease are lost, and
ALERT_N and THERMTRIP_N are high-impedance (R690). -/
def Mach.aonLost (m : Mach) (mv : Nat) : Mach :=
  if mv ≥ 1620 then m
  else
    let m := m.powerLost
    let m := m.setRng { m.rng with rings := [] }
    let m := m.setFlt { m.flt with holdings := [] }
    let m := m.setPwr { m.pwr with driven := false }
    m.setSec { m.sec with aonUp := false, island := 0, aonId := 0, leases := [] }

/-- V1P8_AON comes up (R543): AON_ID is drawn anew, ISLAND_SECONDS starts, and lease records of another AON_ID go (R547). -/
def Mach.aonRises (m : Mach) : Mach :=
  if m.sec.aonUp then m
  else
    let d := m.draw
    d.2.setSec { d.2.sec with aonUp := true, island := 0, aonId := (Config.drbg d.1).toNat % 2 ^ 64, leases := [] }

/-- PWR_OFF (0x2100.0A, R582, R592): the closure from its step 2; its reply waits for the end. -/
def Mach.pwrOff (m : Mach) : CmdRes :=
  if m.pwr.closure.isSome || m.pwr.off || m.cad.step < 21 then m.refuse .rejectBusy
  else { m := m.startClosure 2, wait := some .pwrOff }

end Sys2Proof.Machine
end

