-- ==== Sys2Proof/Machine/Clocks.lean ====
section
/-! DEFINITION. Clocks and power states: PLLs (R563 to R565), domain switches (R567), reference loss and return (R568 to R571),
and the sleep states (R572 to R581). -/
namespace Sys2Proof.Machine

/-! Domain switches. -/

/-- A switch of a floor's domain has happened (R567): counted and recorded. -/
def Mach.switched (m : Mach) (f dom src dst : Nat) : Mach :=
  (m.bump (kDomainSwitches + 256 * f)).event evClock 0x06 0 (dieRef f) 0 (dom * 2 ^ 56 + src * 2 ^ 32 + dst * 2 ^ 16)

/-- The always-on island of a floor takes the source its state calls for (R561, Table 17.3). -/
def Mach.switchIsland (m : Mach) (f : Nat) : Mach :=
  let want := nth false m.clk.loss f
  if nth false m.clk.coasting f = want then m
  else (m.setClk { m.clk with coasting := setAt m.clk.coasting f want }).switched f 0 1 1

/-- Cores halted by a clock loss on a floor run again. -/
def Mach.unhalt (m : Mach) (f : Nat) : Mach :=
  m.setClk { m.clk with haltedClk := m.clk.haltedClk.filter fun c => c / 16 ≠ f }

/-- A floor's cores move to the other CPLL, once it has locked and the cores are not asleep (R567, R583). -/
def Mach.switchCores (m : Mach) (f : Nat) : Mach :=
  match nth none m.clk.coreTo f with
  | none => m
  | some mhz =>
    let other := 1 - nth 0 m.clk.cpll f
    if !bitOf (nth 0 m.clk.locked f) (1 + other) || m.clk.pwr ≥ 2 || nth false m.clk.loss f then m
    else
      let old := nth 0 m.clk.coreMhz f
      let m := m.setClk { m.clk with
        cpll := setAt m.clk.cpll f other, coreMhz := setAt m.clk.coreMhz f mhz, coreTo := setAt m.clk.coreTo f none }
      ((m.switched f 1 old mhz).unhalt f).askClock f

/-! Locks. -/

/-- A PLL has passed `n` windows in a row (R563). -/
def Mach.pllLocks (m : Mach) (f bit n : Nat) : Mach :=
  let l := nth 0 m.clk.locked f
  if n < 8 || bitOf l bit || m.clk.state = 2 then m
  else
    let m := (m.setClk { m.clk with locked := setAt m.clk.locked f (putBit l bit true) }).event evClock 0x01 0 (dieRef f) 0 bit
    if bit = 1 + nth 0 m.clk.cpll f then m.unhalt f
    else if bit = 1 || bit = 2 then
      if m.clk.haltedClk.any (fun c => c / 16 = f) && (nth none m.clk.coreTo f).isNone then
        m.setClk { m.clk with coreTo := setAt m.clk.coreTo f (some (nth 0 m.clk.coreMhz f)) }
      else m
    else if 3 ≤ bit && bit ≤ 5 then
      let s := 3 * f + bit - 3
      (m.setClk { m.clk with relock := m.clk.relock.filter (· ≠ s) }).serveAll
    else m

/-- CLOCK_LOSS of one floor alone (Table 17.2, GPLL): it says so on the sideband. -/
def Mach.floorClockLost (m : Mach) (f : Nat) : Mach :=
  let m := m.setClk { m.clk with loss := setAt m.clk.loss f true, lossAt := m.clk.us }
  ((m.clockSites.alert 2 true).switchIsland f).emit (.island f 2)

/-- A PLL has failed `n` windows while the reference is there (R565, Table 17.2). -/
def Mach.pllUnlocks (m : Mach) (f bit n : Nat) : Mach :=
  let l := nth 0 m.clk.locked f
  if n < 2 || !bitOf l bit || m.clk.state = 2 then m
  else
    let m := m.setClk { m.clk with locked := setAt m.clk.locked f (putBit l bit false) }
    let m := (m.bump (kPllUnlocks + 256 * f)).event evClock 0x02 2 (dieRef f) 0 bit
    if bit = 0 then m.floorClockLost f
    else if bit = 1 || bit = 2 then
      let cur := nth 0 m.clk.cpll f
      if bitOf (nth 0 m.clk.locked f) (1 + cur) then m
      else if bitOf (nth 0 m.clk.locked f) (2 - cur) then
        m.setClk { m.clk with coreTo := setAt m.clk.coreTo f (some (nth 0 m.clk.coreMhz f)) }
      else
        let runs := ((List.range 16).map (16 * f + ·)).filter fun c => (m.coreAt c).state = 1
        m.setClk { m.clk with haltedClk := m.clk.haltedClk ++ runs.filter fun c => !m.clk.haltedClk.contains c }
    else if bit ≤ 5 then m.setClk { m.clk with relock := m.clk.relock ++ [3 * f + bit - 3] }
    else if bit ≤ 17 then m.portDown (12 * f + bit - 6) 11 .failLink
    else if bit = 18 then m.setDie { m.die with retraining := true }
    else if bit ≤ 20 then
      let t := 2 * f + bit - 19
      m.setSiteAt t { m.siteAt t with bonds := smap (fun b => { b with retraining := true }) (m.siteAt t).bonds }
    else (if (m.hpAt f).role = 2 then m.farDown f else m.hpDown f).fenceHp f 4 false

/-- A stack's MPLL has not locked again after `us` µs (R565): its channels fail (Table 21.2), and move or are withdrawn (R635). -/
def Mach.mpllLate (m : Mach) (s us : Nat) : Mach :=
  if us < 10000 || !m.clk.relock.contains s then m
  else
    let hit := (sortItems m.rng.items).filter fun i => m.needsStack i s
    let m := m.setClk { m.clk with relock := m.clk.relock.filter (· ≠ s) }
    let m := (List.range 32).foldl (fun m c => m.unitFails (chanRef (32 * s + c)) 0x06 false 0 0) m
    m.serveAll.finishAll (hit.map Item.key) .failUnit (stackRef s)

/-! The reference. -/

/-- Every block that Table 17.5 stops and every party it fences. -/
def Mach.clockStops (m : Mach) : Mach :=
  let ps := portList.filter fun p => (m.portAt p).state ≥ 2
  let by_ := ps.map fun p => (p, m.itemsOnPort p)
  let m := ps.foldl (fun m p => m.portStops p 11) m
  let m := by_.foldl (fun m x => m.finishAll x.2 .failClock ⟨0x08, x.1⟩) m
  let m := ps.foldl (fun m p => match (m.portAt p).partner with | some y => m.fenceStation y.station true | none => m) m
  let m := m.setDie { m.die with retraining := true }
  let m := (m.dropSessionsOn 0).dropSessionsOn 1
  let r := m.endAll .failClock
  let m := (r.1.fenceParties 11 none 8).clockSites
  let runs := (List.range 32).filter fun c => (m.coreAt c).state = 1
  let m := m.setClk { m.clk with haltedClk := runs }
  let m := m.setHp { m.hp with dev := m.hp.dev.map fun x => { x with link := 0, width := 0, rate := 0, flit := false } }
  let m := m.setStk { m.stk with dev := m.stk.dev.map fun x => { x with selfRefresh := true } }
  m.endRuns.ledger 0x0A 0x06 0x08 {} (if r.2 = 0 then 0 else Status.failClock.code) r.2

/-- The reference is lost (R568 to R570, Table 17.5). A survey before step 05 waits (R571); one further on keeps its step; a
loss during the settle wait only restarts the wait. -/
def Mach.refLost (m : Mach) : Mach :=
  if m.pwr.off || m.clk.state = 2 then m
  else if m.clk.state = 1 then m.setClk { m.clk with state := 2 }
  else if m.cad.step < 5 then m.setClk { m.clk with state := 2, loss := [true, true] }
  else
    let m := m.setClk { m.clk with state := 2, loss := [true, true], lossAt := m.clk.us, coreTo := [none, none] }
    let m := ((m.alert 2 true).event evClock 0x03 3 (dieRef 0)).event evClock 0x03 3 (dieRef 1)
    let m := (m.bump kClockLosses).switchIsland 0 |>.switchIsland 1
    let m := (m.emit (.island 0 2)).emit (.island 1 2)
    m.clockStops

/-- Reference edges return: each floor begins its settle wait (R571). -/
def Mach.refReturns (m : Mach) : Mach :=
  if m.clk.state ≠ 2 then m
  else
    let m := (m.event evClock 0x04 1 (dieRef 0)).event evClock 0x04 1 (dieRef 1)
    m.setClk { m.clk with state := 1 }

/-- The settle delay that the straps select, in µs (R562). -/
def Mach.settleUs (m : Mach) : Nat := 1000 * 4 ^ (m.clk.refset % 4)

/-- A survey step of 05 or later restarts from its beginning (R571, R639): its record, and, at steps 14 and 17, the sites and ports
that the loss of the reference stopped start over. -/
def Mach.stepAgain (m : Mach) : Mach :=
  if m.cad.step < 5 || m.cad.step ≥ 21 || m.cad.halted then m
  else
    let m := m.setCad { m.cad with stepAt := m.clk.us }
    let m := m.surveyLog 0x01 {} 0 0 m.cad.warm.toNat (attempt := m.nextAttempt 0x01 {})
    if m.cad.step = 14 then
      (List.range 4).foldl (fun m t =>
        if (m.siteAt t).state = 6 && (m.siteAt t).cause = 11 then m.sitePowerUp t else m) m
    else if m.cad.step = 17 then
      portList.foldl (fun m p => if (m.portAt p).state = 1 && (m.portAt p).cause = 11 then m.startTraining p else m) m
    else m

/-- The settle wait ends after `us` µs (R562, R571): PLLs lock, CLOCK_LOSS clears, stacks wake, the bridge trains from empty
caches, and acceptance and the halted cores resume; the module is ACTIVE (R583). A survey that has no PLL yet goes on from its step. -/
def Mach.settled (m : Mach) (us : Nat) : Mach :=
  if m.clk.state ≠ 1 || us < m.settleUs then m
  else if m.cad.step < 5 then
    (m.setClk { m.clk with state := 0, loss := [false, false] }).setCad { m.cad with stepAt := m.clk.us }
  else
    let last := m.clk.us - m.clk.lossAt
    let m := m.setClk { m.clk with state := 0, loss := [false, false], locked := [2 ^ 22 - 1, 2 ^ 22 - 1], haltedClk := [], relock := [] }
    let m := ((m.setCount kClockLossLast last).switchIsland 0).switchIsland 1
    let m := (m.event evClock 0x05 1 (dieRef 0) 0 (last % 2 ^ 32)).event evClock 0x05 1 (dieRef 1) 0 (last % 2 ^ 32)
    let m := m.alert 2 false
    let m := m.clockSites.leaveRefresh fun _ => true
    let m := m.bridgeAnew
    let m := (m.emit (.island 0 0)).emit (.island 1 0)
    (((m.wake 9).askClock 0).askClock 1).stepAgain

/-! Power states. -/

/-- The module is idle (R573). -/
def Mach.idle (m : Mach) : Bool :=
  m.rng.items.isEmpty && m.rng.recWait.isEmpty && !m.rng.rings.any (fun r => m.ringReady r.1 r.2) && m.fb.committing.isNone && !m.fb.survWaiting &&
  m.grid.wait.isEmpty && m.grid.relWait.isEmpty && m.grid.openWr.isEmpty && !m.stk.keys.any (fun k => k.2.rot = .sweeping) &&
  m.cad.moves.all (fun x => x.stage ≠ 1) && m.die.resync.isEmpty && !m.clk.loss.contains true && m.die.state = 0 &&
  m.fb.role = 0 && m.cad.step = 21 && !m.cad.halted && m.pwr.closure.isNone && !m.pwr.off

/-- Wake latency of a power state in µs (Table 17.6). -/
def wakeUs (st : Nat) : Nat := nth 0 [0, 3, 40, 2000] st

/-- The module enters DOZE, NAP or DORMANT (R572, R575, R576). -/
def Mach.enterPwr (m : Mach) (st : Nat) : Mach :=
  let old := m.clk.pwr
  let m := m.sendAll msgSleep [st, wakeUs st]
  let m := if st ≥ 2 then m.setStk { m.stk with dev := m.stk.dev.map fun x => { x with selfRefresh := true } } else m
  let m : Mach := if st = 2 then
      m.setCore { m.core with dev := m.core.dev.zipIdx.map fun x =>
        if x.1.state = 1 && x.2 ≠ m.cfg kHostNapCore then { x.1 with state := 2 } else x.1 }
    else m
  let m : Mach := if st = 3 then
      let held := ((List.range 32).map fun c => (c, (m.coreAt c).state)).filter fun c => c.2 = 1 || c.2 = 2
      let up := m.upPorts
      let m := (m.cleanAll 0).cleanAll 1
      let m := m.setCore { m.core with cache := [], dev := m.core.dev.map fun x => if x.state = 1 then { x with state := 2 } else x }
      let m := up.foldl (fun m p => m.portDown p (m.portAt p).cause .failLink true) m
      m.setClk { m.clk with retained := held, portsStopped := up }
    else m
  let m := m.setClk { m.clk with pwr := st, entries := setAt m.clk.entries (st - 1) ((nth 0 m.clk.entries (st - 1) + 1) % 2 ^ 64) }
  m.endRuns.event evPower 0x05 0 {} 0 (old * 2 ^ 56 + st * 2 ^ 48)

/-- The state that an idle time of `us` µs calls for (R574). -/
def Mach.idleState (m : Mach) (us : Nat) : Nat :=
  let s := if us ≥ 1000 * m.cfg kPwrIdleDormant then 3 else if us ≥ m.cfg kPwrIdleNap then 2 else if us ≥ m.cfg kPwrIdleDoze then 1 else 0
  min s (m.cfg kPwrDeepest)

/-- The module has been idle for `us` µs (R573, R574). -/
def Mach.idleFor (m : Mach) (us : Nat) : Mach :=
  let s := m.idleState us
  if us ≥ 1 && s > m.clk.pwr && m.idle then m.enterPwr s else m

/-- PWR_REQUEST (0x2100.06; R574, R578, R583). -/
def Mach.pwrRequest (m : Mach) (st : Nat) : CmdRes :=
  if st > m.cfg kPwrDeepest then m.refuse .rejectRange
  else if st = 0 then
    if m.clk.loss.contains true then m.refuse .rejectBusy else { m := m.wake 7 }
  else if !m.idle then m.refuse .rejectBusy
  else if st = m.clk.pwr then { m }
  else { m := (if st < m.clk.pwr then m.wake 7 else m).enterPwr st }

/-- PWR_WAKE_TIMER has run for `ms` ms since the entry to a sleep state (R578). -/
def Mach.wakeTimer (m : Mach) (ms : Nat) : Mach :=
  let t := m.cfg kPwrWakeTimer
  if t ≠ 0 && ms ≥ t then m.wake 8 else m

end Sys2Proof.Machine
end

