-- ==== Sys2Proof/Machine/ClockRows.lean ====
section
/-! DEFINITION. The commands of the clocks and of the sleep states. Elapsed times are what the event's own timer measured. -/
namespace Sys2Proof.Machine

/-- PLL_LOCK (R563): PLL `bit` of floor `f` (Table 17.1) has passed `n` windows in a row. -/
def execPllLock (f bit n : Nat) (s : State) : Result := runIf (f < 2 && bit < 22) s fun m => m.pllLocks f bit n

/-- PLL_UNLOCK (R565): PLL `bit` of floor `f` has failed `n` windows in a row. -/
def execPllUnlock (f bit n : Nat) (s : State) : Result := runIf (f < 2 && bit < 22) s fun m => m.pllUnlocks f bit n

/-- DOMAIN_SWITCH (R567): domain 0 is the always-on island's, 1 the host cores'. -/
def execDomainSwitch (f dom : Nat) (s : State) : Result :=
  runIf (f < 2 && dom < 2) s fun m => if dom = 0 then m.switchIsland f else m.switchCores f

/-- REFERENCE_LOSS (R568 to R570). -/
def execReferenceLoss (s : State) : Result := run s Mach.refLost

/-- REFERENCE_RETURN (R571). -/
def execReferenceReturn (s : State) : Result := run s Mach.refReturns

/-- SETTLE_DELAY_EXPIRE (R562, R571): `us` µs after the edges returned. -/
def execSettleDelayExpire (us : Nat) (s : State) : Result := run s fun m => m.settled us

/-- POWER_IDLE_TIMEOUT (R573, R574): idle for `us` µs. -/
def execPowerIdleTimeout (us : Nat) (s : State) : Result := run s fun m => m.idleFor us

/-- PWR_WAKE_TIMER (R578): `ms` ms in a sleep state. -/
def execPwrWakeTimer (ms : Nat) (s : State) : Result := run s fun m => m.wakeTimer ms

/-- MPLL_RELOCK_TIMEOUT (R565): stack `st`, `us` µs after its unlock. -/
def execMpllRelockTimeout (st us : Nat) (s : State) : Result := runIf (st < 6) s fun m => m.mpllLate st us

end Sys2Proof.Machine
end

