-- ==== Sys2Proof/Machine/Regulate.lean ====
section
/-! DEFINITION. The bandwidth regulators' windows (R200 to R213): budgets, lowered masters and missed guarantees. -/
namespace Sys2Proof.Machine

/-- The partition of a site or core in the plat whose entries hold `val`: the one whose entry `sub` has bit `i`. -/
def platPartOf (val : Nat → Nat) (sub i : Nat) : Option Nat := (List.range 4).find? fun p => bitOf (val (key (0x7010 + p) sub)) i

/-- The partition a master belongs to (Table 6.1, R197) under the plat `val`: 0 to 3, 4 the pool, none for a site that no
partition names. -/
def masterPartOf (val : Nat → Nat) (f j : Nat) : Option Nat :=
  if j < 2 then platPartOf val 1 (2 * f + j)
  else if j < 6 then
    let c := 16 * f + 4 * (j - 2)
    match platPartOf val 6 c with
    | some p => if (List.range 4).all fun i => bitOf (val (key (0x7010 + p) 6)) (c + i) then some p else some 4
    | none => some 4
  else some 4

/-- The partition a master belongs to in the plat in force. -/
def Mach.masterPart (m : Mach) (f j : Nat) : Option Nat := masterPartOf m.cfg f j

/-- Logical channels of a stack that are up (STACK_CHANNELS_UP). -/
def Mach.channelsUp (m : Mach) (s : Nat) : Nat :=
  ((List.range 32).filter fun c => !shas m.cad.cur.gone (chanRef (32 * s + c)).code).length

/-- The capacity `a` of R202 for floor `f` and a medium; `other` gives the background bytes of each stack in the window
before. -/
def Mach.regAvail (m : Mach) (f medium : Nat) (other : List Nat) : Nat :=
  let cap := m.cfg (kRegCapacity + 256 * (2 * f + medium))
  if medium = 0 then cap
  else
    ((List.range 3).map fun i =>
      let s := 3 * f + i
      let full := cap / 3 * m.stackCap s * m.channelsUp s / 3200
      let sp := m.cfg (kRegStackpathWeight + 256 * s)
      let gs := m.cfg (kRegGridsideWeight + 256 * s)
      let low := if sp = 0 && gs = 0 then full / 2 else full * gs / (gs + sp)
      max low (full - nth 0 other s)).foldl (· + ·) 0

/-- Guarantees and budgets of the nine masters of floor `f` and a medium for a new window, and whether it is scaled (R202,
R203, R214). Bit `j` of `demand`: master `j` is demanding. -/
def Mach.regBudgets (m : Mach) (f medium demand : Nat) (other : List Nat) : List (Nat × Nat) × Bool :=
  let k := 2 * f + medium
  let a := m.regAvail f medium other
  let pg (p : Nat) := m.cfg (kRegPartMinP0 + 256 * k + p)
  let pw (p : Nat) := m.cfg (kRegPartWeightP0 + 256 * k + p)
  let mg (j : Nat) := m.cfg (kRegMinM0 + 256 * k + j)
  let mw (j : Nat) := m.cfg (kRegWeightM0 + 256 * k + j)
  let sum := ((List.range 5).map pg).foldl (· + ·) 0
  let scaled : Bool := a < sum
  let sc (x : Nat) : Nat := if scaled then x * a / sum else x
  let g (j : Nat) : Nat := sc (mg j)
  let parts := (List.range 9).map fun j => m.masterPart f j
  let of (p : Nat) : List Nat := (List.range 9).filter fun j => nth none parts j = some p
  let dem (p : Nat) : Bool := (of p).any (bitOf demand)
  let r := a - ((List.range 5).map fun p => sc (pg p)).foldl (· + ·) 0
  let wp := (((List.range 5).filter dem).map pw).foldl (· + ·) 0
  let b (p : Nat) : Nat := sc (pg p) + (if dem p then r * pw p / wp else 0)
  ((List.range 9).map fun j =>
    match nth none parts j with
    | none => (g j, g j)
    | some p =>
      let rp := b p - ((of p).map g).foldl (· + ·) 0
      let wm := (((of p).filter (bitOf demand)).map mw).foldl (· + ·) 0
      (g j, g j + (if bitOf demand j then rp * mw j / wm else 0)), scaled)

/-- A master's last window judged (R207 to R209) by the settings that the window took at its start (R206): `waited` tells that a
transaction waited at each of the 20 sample points. While one floor alone has lost its clock no window of either counts (DESIGN
CHOICE, log 76). -/
def Mach.regJudge (m : Mach) (f medium j : Nat) (waited : Bool) : Mach :=
  let k := 9 * (2 * f + medium) + j
  let x := sgetD {} m.reg.masters k
  if m.clk.loss.contains true || m.clk.pwr ≥ 1 || !(waited && x.bytes < x.guar && m.reg.enable) then
    m.setReg { m.reg with masters := sput m.reg.masters k { x with run := 0, since := 0, quietUs := 0, told := false } }
  else
    let x := { x with run := x.run + 1, since := x.since + 1, quietUs := x.quietUs + 1 }
    let first : Bool := !x.told && x.run ≥ m.reg.missWindows
    let say : Bool := first || (x.told && x.quietUs ≥ m.reg.missHoldoff)
    let n := if first then x.run else x.since
    let m := m.bump (key (0x9300 + k) 3)
    let y := if say then { x with since := 0, quietUs := 0, told := true } else x
    let m := m.setReg { m.reg with masters := sput m.reg.masters k y }
    if say then
      (m.bump (kRegMissEvents + 256 * f)).event evRegMiss 0x01 2 ⟨0x01, f⟩ 0
        (j * 2 ^ 60 + medium * 2 ^ 59 + min n 511 * 2 ^ 50 + x.guar % 2 ^ 25 * 2 ^ 25 + x.bytes % 2 ^ 25)
    else m

/-- One regulator's new window. -/
def Mach.regStart (m : Mach) (f medium demand : Nat) (other : List Nat) : Mach :=
  let bs := m.regBudgets f medium demand other
  let m := (List.range 9).foldl (fun m j =>
    let k := 9 * (2 * f + medium) + j
    let gb := nth (0, 0) bs.1 j
    m.setReg { m.reg with masters := smod {} m.reg.masters k fun x =>
      { x with bytes := 0, lowered := false, guar := gb.1, budget := gb.2 } }) m
  let k := 2 * f + medium
  let m := m.setReg { m.reg with scaled := if bs.2 then sput m.reg.scaled k () else sdel m.reg.scaled k }
  if bs.2 && medium = 1 then m.bump (kRegScaledWindows + 256 * f) else m

/-- Master `j` of floor `f` has a transaction of a medium waiting. -/
def Mach.masterWaits (m : Mach) (f medium j : Nat) : Bool :=
  let mine (t : Txn) : Bool := t.org.floor = f && t.org.master = some j
  (m.grid.wait.any fun q => (if q.1 < 128 then 0 else 1) = medium && q.2.any mine) ||
  m.grid.relWait.any fun t => mine t && (match m.findSeg t.ctx t.va with | some (_, e) => e.medium = medium | none => false)

/-- The demanding masters of a regulator (R202): those of `seen`, which had a transaction waiting at the end of the window that has
been served since, and those whose transactions wait still. -/
def Mach.demanding (m : Mach) (f medium seen : Nat) : Nat :=
  (List.range 9).foldl (fun d j => if bitOf seen j || m.masterWaits f medium j then putBit d j true else d) 0

/-- A window's share of a channel's copy: `n` more bytes of it, row by row (R158, R180, R193). -/
def Mach.copyWindow (m : Mach) (c n : Nat) : Mach :=
  let at_ := sgetD 0 m.stk.copied c
  let m := (List.range ((at_ + n) / 4096 - at_ / 4096)).foldl (fun m i => m.openPage (pageAddr c (at_ / 4096 + i))) m
  (m.setStk { m.stk with copied := sput m.stk.copied c (at_ + n) }).moved c n .back

/-- The channels' new windows (R157, R179, R180): what was put off, the sweeps' shares (R186) and the copies' (R193). -/
def Mach.chanWindows (m : Mach) : Mach :=
  let m := m.setStk { m.stk with
    otherPrev := m.stk.backNow
    copied := m.stk.copied.filter fun x => m.cad.moves.any fun v => v.unit = chanRef x.1 && v.stage = 1
    window := [], gridWin := [], backNow := [], capped := [] }
  let late := skeys m.stk.debt ++ (skeys m.stk.path).filter fun c => !shas m.stk.debt c
  let m := late.foldl (fun m c => m.chanWindow c !(sgetD [] m.grid.wait (128 + c)).isEmpty) m
  let m := m.cad.moves.foldl (fun m x =>
    if x.unit.kind = 3 && x.stage = 1 then
      m.copyWindow x.unit.num (m.windowCap (x.unit.num / 32) * m.cfg kStackRemapShare / 100)
    else m) m
  (skeys m.stk.keys).foldl (fun m c => m.sweepWindow c) m

/-- A rising edge of AOCLK (R200, R202, R207): misses judged, settings taken (R206), budgets computed, throttle windows begun
(R179). Bit 9 × f + j of a medium's demand speaks of master `j` of floor `f`, bit 18 × f + 9 × medium + j of `waited` of the same
master and medium. -/
def Mach.regWindow (m : Mach) (bufDemand stackDemand waited : Nat) : Mach :=
  let m := (List.range 36).foldl (fun m i => m.regJudge (i / 18) (i / 9 % 2) (i % 9) (bitOf waited i)) m
  let m := m.setReg { m.reg with
    enable := m.cfg kRegEnable = 1, missWindows := m.cfg kRegMissWindows, missHoldoff := m.cfg kRegMissHoldoff
    weights := (List.range 6).map fun s => (m.cfg (kRegGridsideWeight + 256 * s), m.cfg (kRegStackpathWeight + 256 * s)) }
  let d (k : Nat) := m.demanding (k / 2) (k % 2) (fld (if k % 2 = 0 then bufDemand else stackDemand) (9 * (k / 2)) 9)
  let ds := (List.range 4).map d
  let m := m.chanWindows
  let other := (List.range 6).map fun s => sgetD 0 m.stk.otherPrev s
  let m := (List.range 4).foldl (fun m k => m.regStart (k / 2) (k % 2) (nth 0 ds k) other) m
  m.serveAll

/-- A master whose bytes reach its budget is lowered for the rest of the window (R204, R205). -/
def Mach.regReached (m : Mach) (f medium j : Nat) : Mach :=
  let k := 9 * (2 * f + medium) + j
  let x := sgetD {} m.reg.masters k
  if m.reg.enable && x.bytes ≥ x.budget && !x.lowered then
    (m.setReg { m.reg with masters := sput m.reg.masters k { x with lowered := true } }).bump (key (0x9300 + k) 2)
  else m

/-- REG_WINDOW_START. -/
def execRegWindowStart (bufDemand stackDemand waited : Nat) (s : State) : Result :=
  run s fun m => m.regWindow bufDemand stackDemand waited

/-- MASTER_BUDGET_REACHED. -/
def execMasterBudgetReached (f medium j : Nat) (s : State) : Result :=
  runIf (f < 2 && medium < 2 && j < 9) s fun m => m.regReached f medium j

end Sys2Proof.Machine
end

