-- ==== Sys2Proof/Machine/Layers.lean ====
section
/-! DEFINITION. Types and ranges of entries (R33, R34), stored layers and their digests (R66 to R71, R696), coupling groups (R46
to R48 and the check each chapter gives), and the security store (R513 to R518). -/
namespace Sys2Proof.Machine

/-! Types and ranges. -/

/-- A value of the wrong length for its type (R33, Table 2.2): STR and BLOB take the lengths their entry allows. -/
def EntryRow.lenBad (r : EntryRow) (v : Bytes) : Bool :=
  if r.ty = 10 || r.ty = 11 then
    match r.range with
    | .len lo hi part => v.length < lo || hi < v.length || (if part = 0 then v.length ≠ lo else (v.length - lo) % part ≠ 0)
    | _ => v.length > r.len
  else v.length ≠ r.len

/-- Two's complement types: S32 and Q16.16. -/
def EntryRow.isSigned (r : EntryRow) : Bool := r.ty = 5 || r.ty = 9

/-- A value outside its entry's range (R33, Table 2.2). -/
def EntryRow.valueBad (r : EntryRow) (v : Bytes) : Bool :=
  let n := leN v
  if r.ty = 10 || r.ty = 11 then false
  else if r.ty = 6 then n > 1
  else match r.range with
    | .all => false
    | .span lo hi step =>
      let x : Int := if r.isSigned then signed 32 n else (n : Int)
      x < lo || hi < x || (step > 1 && (x - lo) % (step : Int) ≠ 0)
    | .spanOr lo hi other => !(lo ≤ n && n ≤ hi || n = other)
    | .listed codes => !codes.contains n
    | .bits mask => Nat.land n mask ≠ n
    | .len _ _ _ => false

/-! Stored layers. -/

/-- The values of a layer with another layer over it. -/
def layOver (a b : SMap Bytes) : SMap Bytes := b.foldl (fun s p => sput s p.1 p.2) a

/-- The canonical form of a stored layer (R696). -/
def layerBytes (s : SMap Bytes) : Bytes := s.flatMap fun p =>
  let ty := match entryRow p.1 with | some r => r.ty | none => 0
  leB 2 (p.1 / 256) ++ leB 1 (p.1 % 256) ++ leB 1 ty ++ leB 2 p.2.length ++ p.2

/-- A stored sheet. -/
def Mach.sheet (m : Mach) (n : Nat) : SMap Bytes := sgetD [] m.fb.sheets n

/-- The digest of a stored layer: 8 the baseline, 0 to 7 a sheet (R696). -/
def Mach.layerDigest (m : Mach) (l : Nat) : Bytes := digest (layerBytes (if l = 8 then m.fb.baseline else m.sheet l))

/-- SHEETS_DIGEST (Table 15.3, index 8). -/
def Mach.sheetsDigest (m : Mach) : Bytes := digest ((List.range 8).flatMap fun n => m.layerDigest n)

/-- The measurement of a stored layer that has been written (Table 15.3, indexes 7 and 8). -/
def Mach.measureLayer (m : Mach) (l : Nat) : Mach := if l = 8 then m.measure 7 (m.layerDigest 8) else m.measure 8 m.sheetsDigest

/-- A stored layer put to `s`; the write gives it a digest that matches. -/
def Mach.putLayer (m : Mach) (l : Nat) (s : SMap Bytes) : Mach :=
  let m := m.setFb (if l = 8 then { m.fb with baseline := s } else { m.fb with sheets := sput m.fb.sheets l s })
  (m.setCad { m.cad with badLayers := m.cad.badLayers.filter (· ≠ l) }).measureLayer l

/-- A stored layer as far as its digest passes (R71). -/
def Mach.goodLayer (m : Mach) (l : Nat) : SMap Bytes :=
  if m.cad.badLayers.contains l then [] else if l = 8 then m.fb.baseline else m.sheet l

/-- The entries of a layer that a change of sheet applies at once: STAGED and LIVE ones (R70). -/
def notCold (s : SMap Bytes) : SMap Bytes := s.filter fun p => wrOf p.1 ≠ 3
def onlyCold (s : SMap Bytes) : SMap Bytes := s.filter fun p => wrOf p.1 = 3

/-- An entry is sheet-able (R68). -/
def isSheet (k : Nat) : Bool := match entryRow k with | some r => r.sheet | none => false

/-! Coupling groups. -/

/-- The coupling group of an entry, 0 for none (Table 2.5). -/
def groupOf (k : Nat) : Nat :=
  match entryRow k with
  | some r => if r.coup = 0 then 0 else r.coup + r.coupStep * (k / 256 - r.idx)
  | none => 0

/-- Warning, throttle, step and shut-down thresholds that rise (R609), from the entry of the first. -/
def thermGood (v : Nat → Nat) (k : Nat) : Bool := v k < v (k + 1) && v (k + 1) + v (k + 2) < v (k + 3)

/-- The check of the regulation group of floor and medium `k` (R214). -/
def regGood (v : Nat → Nat) (k : Nat) : Bool :=
  let part (p : Nat) := v (kRegPartMinP0 + 256 * k + p)
  let min (j : Nat) := v (kRegMinM0 + 256 * k + j)
  let of (p : Option Nat) := (List.range 9).filter fun j => masterPartOf v (k / 2) j = p
  ((List.range 5).map part).foldl (· + ·) 0 ≤ v (kRegCapacity + 256 * k) &&
  ((List.range 5).all fun p => ((of (some p)).map min).foldl (· + ·) 0 ≤ part p) && (of none).all fun j => min j = 0

/-- The check of a port's far ranges (R500), for a far device of `cap` bytes. -/
def farGood (v : Nat → Bytes) (n cap : Nat) : Bool :=
  let rs := (List.range 4).map fun p => (num (v (kFarRangeP0 + 256 * n + p)) 0 8, num (v (kFarRangeP0 + 256 * n + p)) 8 8)
  rs.all (fun r => r.1 ≤ r.2 && r.1 % 4096 = 0 && r.2 % 4096 = 0 && r.2 ≤ cap) &&
  (rs.zipIdx.all fun a => rs.zipIdx.all fun b =>
    a.2 ≥ b.2 || a.1.1 = a.1.2 || b.1.1 = b.1.2 || a.1.2 ≤ b.1.1 || b.1.2 ≤ a.1.1)

/-- The sub-indices of plat entries that hold bits. -/
def platSubs : List Nat := [1, 2, 3, 4, 5, 6, 8]

/-- The ring range of floor `f` in a PLAT_RINGS value: first ring and the one past the last. -/
def ringSpan (v : Bytes) (f : Nat) : Nat × Nat := (num v (4 * f) 2, num v (4 * f) 2 + num v (4 * f + 2) 2)

/-- A use of a resource that a partition loses (R513): a footprint in a removed slice or stack, a ring in a removed range or with
a removed submitter or target, or a removed core that is bound. `had` and `has` tell what the partition held and holds, by entry
and bit; entry 7 stands for a ring number. -/
def Mach.usesRemoved (m : Mach) (ctx : Nat) (had has : Nat → Nat → Bool) : Bool :=
  let lost (s b : Nat) : Bool := had s b && !has s b
  (m.segsOf ctx).any (fun e =>
    if e.2.medium = 0 then (List.range 2).any fun f => (List.range 64).any fun u => lost (3 + f) u && e.2.uses f 0 u
    else (List.range 6).any fun s => lost 2 s && (List.range 32).any fun u => e.2.uses (s / 3) (s % 3) u) ||
  (m.rng.rings.any fun r => r.2.ctx = ctx &&
    (lost 7 r.1 || lost (match r.2.subKind with | 1 => 1 | 2 => 6 | _ => 8) r.2.submitter ||
     (r.2.ty = 1 && lost 1 r.2.target) || (r.2.ty = 2 && lost 6 (16 * ringFloor r.1 + r.2.target)))) ||
  ((List.range 32).any fun c => (m.coreAt c).ctx = ctx && lost 6 c)

/-- The check of group 0x0700 (R513) on plat values `v`. -/
def Mach.platGood (m : Mach) (v : Nat → Bytes) : Bool :=
  let pl (p s : Nat) : Nat := leN (v (key (0x7010 + p) s))
  let pairs := [(0, 1), (0, 2), (0, 3), (1, 2), (1, 3), (2, 3)]
  let span (p f : Nat) := ringSpan (v (key (0x7010 + p) 7)) f
  pairs.all (fun x => platSubs.all (fun s => Nat.land (pl x.1 s) (pl x.2 s) = 0) &&
    [0, 1].all fun f =>
      (span x.1 f).2 ≤ (span x.2 f).1 || (span x.2 f).2 ≤ (span x.1 f).1 || (span x.1 f).1 = (span x.1 f).2 ||
      (span x.2 f).1 = (span x.2 f).2) &&
  ((List.range 4).all fun p =>
    ((List.range 4).all fun t => !bitOf (pl p 1) t || (m.siteAt t).state ≠ 0) &&
    ([0, 1].all fun n => !bitOf (pl p 8) n || (m.hpAt n).role ≠ 0) &&
    ([0, 1].all fun f => (span p f).1 = (span p f).2 || (16384 * f ≤ (span p f).1 && (span p f).2 ≤ 16384 * (f + 1))) &&
    (m.rng.ctxs.all fun c =>
      c.1 = 0 || c.2.part ≠ p || c.2.st ≠ .live ||
      !m.usesRemoved c.1 (fun s b => if s = 7 then m.ringInPlat p b else bitOf (m.plat p s) b)
        (fun s b => if s = 7 then (span p (b / 16384)).1 ≤ b && b < (span p (b / 16384)).2 else bitOf (pl p s) b)))

/-- The check of a coupling group on the values `v` (R47). -/
def Mach.groupGood (m : Mach) (v : Nat → Bytes) (g : Nat) : Bool :=
  let n (k : Nat) : Nat := leN (v k)
  if g = 0x0210 then n kPwrIdleDoze < n kPwrIdleNap && n kPwrIdleNap < 1000 * n kPwrIdleDormant
  else if g = 0x0280 then thermGood n kThermFloorWarn
  else if g = 0x0281 then thermGood n kThermStackWarn
  else if g = 0x0320 then n kRlcWaysP0 + n kRlcWaysP1 + n kRlcWaysP2 + n kRlcWaysP3 ≤ 16
  else if g = 0x0340 then n kStackRefreshMin ≤ n kStackRefreshMax
  else if g = 0x0342 then n kStackThrottleCap2 < n kStackThrottleCap
  else if 0x0380 ≤ g && g < 0x0384 then regGood n (g - 0x0380)
  else if 0x0388 ≤ g && g < 0x038E then
    (n (kRegStackpathWeight + 256 * (g - 0x0388)) = 0) = (n (kRegGridsideWeight + 256 * (g - 0x0388)) = 0)
  else if g = 0x0500 then
    let a := n kStationAddr
    a = 0xFFFF || (a / 512 < n kTorusX && a / 16 % 32 < n kTorusY && a % 16 < n kTorusZ)
  else if g = 0x0540 then n kTravPatience ≤ n kTravPatienceMax
  else if 0x0580 ≤ g && g < 0x0584 then n (kSiteVcoreMin + 256 * (g - 0x0580)) ≤ n (kSiteVcoreMax + 256 * (g - 0x0580))
  else if g = 0x0640 || g = 0x0641 then farGood v (g - 0x0640) (m.hpAt (g - 0x0640)).capacity
  else if g = 0x0700 then m.platGood v
  else true

/-- The groups that entries `ks` call for, rising (R47); a plat entry calls for the regulation groups too (R213). -/
def groupsFor (ks : List Nat) : List Nat :=
  let gs := (ks.map groupOf).foldl (fun s g => if g = 0 then s else sput s g ()) ([] : SMap Unit)
  let gs := if shas gs 0x0700 then ([0, 1, 2, 3, 8, 9, 10, 11, 12, 13].map (0x0380 + ·)).foldl (fun s g => sput s g ()) gs else gs
  skeys gs

/-- The lowest group that fails on values `v`, where entries `ks` are given new ones (R47). -/
def Mach.badGroup (m : Mach) (v : Nat → Bytes) (ks : List Nat) : Option Nat := (groupsFor ks).find? fun g => !m.groupGood v g

/-! The security store. -/

/-- The plat's entries in the order of PLAT_DIGEST (R517). -/
def platKeys : List Nat := (List.range 4).flatMap fun p => (List.range 9).map fun s => key (0x7010 + p) (s + 1)

/-- The entries of the security store (R518). -/
def storeKeys : List Nat := platKeys ++ [kTileAllow, kBrokerRootDigest, kConfTrustedPorts, kMgmtClientRoots, kMgmtClientDeny]

/-- The security store is rewritten (R518). -/
def Mach.writeStore (m : Mach) : Mach :=
  m.setSec { m.sec with store := some (storeKeys.foldl (fun s k => sput s k (m.runVal k)) []), storeGood := true }

/-- PLAT_DIGEST (R517). -/
def Mach.platDigest (m : Mach) : Bytes := digest ((platKeys ++ [kTileAllow]).flatMap fun k => m.runVal k)

/-- The plat of R515: everything to partition 0, but empty sites and disabled host ports. -/
def Mach.wholePlat (m : Mach) : SMap Bytes :=
  let sites := ((List.range 4).filter fun t => (m.siteAt t).state ≠ 0).foldl (fun v t => v + 2 ^ t) 0
  let hps := ((List.range 2).filter fun n => (m.hpAt n).role ≠ 0).foldl (fun v n => v + 2 ^ n) 0
  let vals : List (Nat × Bytes) := [(1, leB 1 sites), (2, leB 1 0x3F), (3, leB 8 (2 ^ 64 - 1)), (4, leB 8 (2 ^ 64 - 1)),
    (5, leB 4 0xFFFFFF), (6, leB 4 0xFFFFFFFF), (7, leB 2 0 ++ leB 2 16384 ++ leB 2 16384 ++ leB 2 16384), (8, leB 1 hps)]
  vals.foldl (fun s x => sput s (key 0x7010 x.1) x.2) []

end Sys2Proof.Machine
end

