-- ==== Sys2Proof/Machine/Margin.lean ====
section
/-! DEFINITION. Ageing: path-delay monitors (R641, R642), eyes (R643, R652, R653), level runs (R645, R646) and the margin plan
(R647 to R651, R654, R655). -/
namespace Sys2Proof.Machine

/-! Monitors. -/

/-- The domain of a monitor (Table 20.1): 0 VGRID, 1 VSRAM, 2 VMEMIO, 3 VSERDES, 4 VHOST. -/
def monDomain (i : Nat) : Nat := if i < 20 then 0 else if i < 26 then 1 else if i < 38 then 2 else if i < 46 then 3 else 4

/-- The offset in mV that a slack in 0.1 ps requires in a domain (R642, Table 20.1). -/
def needOf (d : Nat) (slack : Int) : Nat :=
  let k : Nat := nth 4 [4, 3, 4, 5, 5] d
  let deficit : Nat := (10 * (nth 12 [12, 10, 12, 8, 10] d : Int) - slack).toNat
  (deficit + 5 * k - 1) / (5 * k) * 5

/-- A reading enters the readings of the last 10 s (R642): what it undercuts can no longer be the least. -/
def slackIn (now : Nat) (x : Int) (l : List (Nat × Int)) : List (Nat × Int) :=
  (l.filter fun e => e.1 + 10000000 > now && e.2 < x) ++ [(now, x)]

/-- A monitor's least slack of the last 10 s. -/
def Mach.leastOf (m : Mach) (f i : Nat) : Option Int :=
  ((sgetD [] m.age.least (64 * f + i)).find? fun e => e.1 + 10000000 > m.clk.us).map (·.2)

/-- The monitors of a floor report (R641): `reads` in 0.1 ps, `bad` those that R598's rules make invalid. A floor whose zone
stands at STEP1 or above takes none (Table 20.5). -/
def Mach.monitors (m : Mach) (f : Nat) (reads : List Int) (bad : List Nat) : Mach :=
  if (m.heatAt f).level ≥ 2 || (m.heatAt f).stopped || m.floorLost f || m.floorGone f then m
  else
    let rs := (reads.take 64).zipIdx
    let invalid := rs.foldl (fun s r => if bad.contains r.2 || r.1 = 0 then sput s (64 * f + r.2) () else sdel s (64 * f + r.2))
      m.age.invalid
    m.setAge { m.age with
      invalid
      slack := rs.foldl (fun s r => sput s (64 * f + r.2) r.1) m.age.slack
      least := rs.foldl (fun s r => smod [] s (64 * f + r.2) (slackIn m.clk.us r.1)) m.age.least }

/-- What a counted monitor requires (R642, R648); none where it is not counted. -/
def Mach.monNeed (m : Mach) (f i : Nat) : Option Nat :=
  if shas m.age.invalid (64 * f + i) || (i ≥ 46 && m.physState 9 f (i - 46) ≥ 2) then none
  else (m.leastOf f i).map (needOf (monDomain i))

/-- The largest requirement of a domain (R648). -/
def Mach.domainNeed (m : Mach) (f d : Nat) : Nat :=
  ((List.range 64).filter fun i => monDomain i = d).foldl (fun n i => max n ((m.monNeed f i).getD 0)) 0

/-! The plan. -/

/-- MARGIN_VMAX of a domain. -/
def Mach.vmax (m : Mach) (d : Nat) : Nat := m.cfg (kMarginVmaxVgrid + d)

/-- The logical core of floor `f` that physical core `i` serves. -/
def Mach.coreBehind (m : Mach) (f i : Nat) : Option Nat :=
  ((List.range 16).map (16 * f + ·)).find? fun c => m.cad.cur.physOf ⟨0x09, c⟩ = i

/-- Cores whose monitor requires more than MARGIN_RETIRE_MV wait for their retirement (R651); where none follows, and in the
other domains, GUARDBAND_HIGH is recorded (Table 20.3). -/
def Mach.planHigh (m : Mach) (f d : Nat) : Mach :=
  let lim := m.cfg kMarginRetireMv
  let high := (List.range 64).filter fun i => monDomain i = d && (m.monNeed f i).getD 0 > lim
  let goes (m : Mach) (i : Nat) : Option Nat :=
    if d = 4 && (m.spareFor ⟨0x09, 16 * f⟩).isSome then m.coreBehind f (i - 46) else none
  let left := high.filter fun i => (goes m i).isNone
  let m := high.foldl (fun m i => match goes m i with
    | some c => if m.age.retire.contains c then m else m.setAge { m.age with retire := m.age.retire ++ [c] }
    | none => m) m
  if left.isEmpty then m
  else m.marginEvent 0x03 2 (dieRef f) f d lim (left.foldl (fun n i => max n ((m.monNeed f i).getD 0)) 0)

/-- One domain of a floor is re-planned (R648, R649): at the survey directly, in service at most 5 mV down. -/
def Mach.planDomain (m : Mach) (f d : Nat) (survey : Bool) : Mach :=
  let need := m.domainNeed f d
  let want := min need (m.vmax d)
  let old := nth 0 m.age.offsets (5 * f + d)
  let new := if survey || want ≥ old then want else max want (old - 5)
  let m := if new = old then m
    else (m.setAge { m.age with offsets := setAt m.age.offsets (5 * f + d) new }).marginEvent 0x01 0 (dieRef f) f d old new
  let m := m.planHigh f d
  if need > m.vmax d then
    if shas m.age.atLimit (5 * f + d) then m
    else
      let m := m.setAge { m.age with atLimit := sput m.age.atLimit (5 * f + d) () }
      ((m.marginEvent 0x04 3 (dieRef f) f d (m.vmax d) need).ledger 0x02 0x05 0 (dieRef f)).askClock f
  else if shas m.age.atLimit (5 * f + d) then
    (m.setAge { m.age with atLimit := sdel m.age.atLimit (5 * f + d) }).askClock f
  else m

/-- The retention pass of survey step 10 gives each stack's requirement (R646). -/
def Mach.retentionPass (m : Mach) (req : List Nat) : Mach :=
  if req.length = 6 then m.setAge { m.age with levelReq := req, surveyReq := req } else m

/-- An unused canary (R645): the receive lane 8 of a port (R349), a bridge spare lane, C32 or C33 of a stack, or M16 of a site, which trains with it (R416). -/
def Mach.isCanary (m : Mach) (u : UnitRef) (lane : Nat) : Bool :=
  match u.kind with
  | 1 => u.num < 2 && 64 ≤ lane && lane < 72 && !m.die.laneMap.any fun x => x.1 / 128 = u.num && x.2 = lane
  | 2 => u.num < 6 && 32 ≤ lane && lane < 34 && m.physState 3 u.num lane = 1 && shas m.stk.prbs (u.num * 2 + lane - 32)
  | 6 => u.num < 4 && lane = 16 && m.physState 7 u.num 16 = 1 && bitOf (m.siteAt u.num).trained 16
  | 8 => u.num < 24 && lane = 8 && !(m.portAt u.num).rxMap.contains 8
  | _ => false

/-- The weak-cell requirement of a stack (R174, R646): its last retention pass's, or with no unused canary the survey's,
one step further while patrol counts more corrected sectors than MARGIN_CE_REFRESH_LIMIT in 24 h. -/
def Mach.planStack (m : Mach) (s : Nat) : Mach :=
  let n := (m.patrolFixes s).length
  let base := nth 1 (if [32, 33].any (m.isCanary ⟨0x02, s⟩ ·) then m.age.levelReq else m.age.surveyReq) s
  let need := if n > m.cfg kMarginCeRefreshLimit then min 8 (2 * base) else base
  let x := m.stackAt s
  let m := if need = x.weak then m
    else ((m.setStack s { x with weak := need }).marginEvent 0x01 0 (stackRef s) (s / 3) 2 x.weak need).setRefresh s
  if need > m.cfg kStackRefreshMax && need ≠ x.weak then
    (m.marginEvent 0x05 3 (stackRef s) (s / 3) 2 (m.cfg kStackRefreshMax) need).ledger 0x02 0x05 0 (stackRef s)
  else m

/-- A level run may be under way: the module is ACTIVE, with its reference, and no closure runs (Table 20.5). -/
def Mach.runsMay (m : Mach) : Bool := m.clk.pwr = 0 && !m.clk.loss.contains true && m.pwr.closure.isNone && !m.pwr.off

/-- A floor's level runs that ended early are retried on the units that are canaries still (Table 20.5). -/
def Mach.runsAgain (m : Mach) (f : Nat) : Mach :=
  let unit (r : Nat) : UnitRef := ⟨r / 128 / 65536, r / 128 % 65536⟩
  let mine := m.age.again.filter fun r => (unit r).floor = f
  if !m.runsMay then m
  else m.setAge { m.age with
    again := m.age.again.filter fun r => (unit r).floor ≠ f
    runs := m.age.runs ++ mine.filter fun r => m.isCanary (unit r) (r % 128) && !m.age.runs.contains r }

/-- A re-plan of one floor (R649). -/
def Mach.replanFloor (m : Mach) (f : Nat) (survey : Bool) : Mach :=
  let m := (List.range 5).foldl (fun m d => m.planDomain f d survey) m
  ((List.range 3).foldl (fun m i => m.planStack (3 * f + i)) m).runsAgain f

/-- A re-plan of every floor that runs (R649, Table 20.5). -/
def Mach.replan (m : Mach) (survey : Bool) : Mach :=
  ([0, 1].filter fun f => !m.floorLost f && !m.floorGone f).foldl (fun m f => m.replanFloor f survey) m

/-- MARGIN_REPLAN: `s` seconds since the last one (R649). -/
def Mach.replanDue (m : Mach) (s : Nat) : Mach := if s ≥ m.cfg kMarginReplanPeriod then m.replan false else m

/-- MARGIN_REPLAN_NOW's action. -/
def Mach.replanNow (m : Mach) : CmdRes := { m := m.replan false }

/-- MARGIN_PLAN_READ's answer: offsets of the floor's 5 domains, requirements of its 3 stacks, and 64 required offsets. -/
def Mach.planRead (m : Mach) (f : Nat) : CmdRes :=
  if f > 1 then m.refuse .rejectRange
  else { m, val := ((List.range 5).flatMap fun d => leB 1 (nth 0 m.age.offsets (5 * f + d))) ++
    ((List.range 3).flatMap fun i => leB 1 (m.stackAt (3 * f + i)).weak) ++
    (List.range 64).flatMap fun i => leB 1 (min 255 ((m.monNeed f i).getD 0)) }

/-! Eyes. -/

/-- The eye floor of a unit kind (R652). -/
def Mach.eyeFloor (m : Mach) (kind : Nat) : Nat :=
  match kind with
  | 1 => m.cfg kMarginEyeFloorBridge
  | 2 | 3 => m.cfg kStackEyeFloor
  | 7 => m.cfg kMarginEyeFloorBond
  | _ => m.cfg kMarginEyeFloorLink

/-- A measurement enters an eye's history (R643): the minimum of its day, 64 days at most. -/
def Eye.take (e : Eye) (day w h : Nat) (low : Bool) : Eye :=
  match e.minima with
  | x :: l =>
    if e.day = day then { e with minima := (min x.1 w, min x.2 h) :: l, low }
    else { e with minima := (w, h) :: (x :: l).take 63, day, low }
  | [] => { e with minima := [(w, h)], day, low }

/-- A unit is retired before failure (Table 20.2): whether a spare took it. -/
def Mach.eyeRetires (m : Mach) (u : UnitRef) (lane : Nat) : Mach × Bool :=
  if m.cfg kCadSparesInService = 0 then (m, false)
  else match u.kind with
  | 1 =>
    match m.spareLane (u.num % 2) with
    | some l => (m.moveLane (u.num % 2) lane (sgetD lane m.die.laneMap (128 * (u.num % 2) + lane)) l, true)
    | none => (m, false)
  | 8 =>
    let x := m.portAt u.num
    match indexOf? (· = lane) x.rxMap with
    | some i => if bitOf x.rxGood 8 && !x.rxMap.contains 8 then (m.toLane8 u.num 1 i lane, true) else (m, false)
    | none => (m, false)
  | _ => if (m.spareFor u).isSome && u.isCad then (m.unitRetires u 0x05, true) else (m, false)

/-- One eye is measured (R643, R652): below its floor twice running, the unit is retired before failure. An unused canary has no unit
to retire: MARGIN NO_SPARE and a ledger record name its stack, site, port or floor (DESIGN CHOICE, log 89). -/
def Mach.eyeTaken (m : Mach) (u : UnitRef) (lane w h : Nat) : Mach :=
  let k := runKey u lane
  let e := sgetD {} m.age.eyes k
  let low : Bool := w < m.eyeFloor u.kind
  let m := m.setAge { m.age with eyes := sput m.age.eyes k (e.take (m.clk.us / dayUs) w h low) }
  let moving := (m.cad.moves.any fun x => x.unit = u) || m.cad.queued.any fun q => q.1 = u
  if !(low && e.low) || moving then m
  else
    let r := m.eyeRetires u lane
    if r.2 then (r.1.bump kMarginRetired).retiredEvent u u.floor
    else (r.1.marginEvent 0x05 3 u u.floor u.kind (m.eyeFloor u.kind) w).ledger 0x02 0x05 0 u

/-- The survey-time eyes (R643, Table 5.8 step 7): unit kind, number, lane, width in mUI and height in mV of each. -/
def Mach.surveyEyes (m : Mach) (l : List (Nat × Nat × Nat × Nat × Nat)) : Mach :=
  l.foldl (fun m x => m.setAge { m.age with
    eyes := smod {} m.age.eyes (runKey ⟨x.1, x.2.1⟩ x.2.2.1) fun e => { e with survey := x.2.2.2 } }) m

/-- The eyes of R643's minute: unit kind, number, lane, width in mUI and height in mV of each. -/
def Mach.eyesTaken (m : Mach) (l : List (Nat × Nat × Nat × Nat × Nat)) : Mach :=
  l.foldl (fun m x => m.eyeTaken ⟨x.1, x.2.1⟩ x.2.2.1 x.2.2.2.1 x.2.2.2.2) m

/-! Level runs. -/

/-- A level run begins on a canary, or ends with how far the canary was pushed (R645, R646): `req` is the lowest multiplier whose
doubled refresh window found no failing cell. -/
def Mach.levelRun (m : Mach) (u : UnitRef) (lane phase ref req : Nat) (ends : Bool) : Mach :=
  let k := runKey u lane
  if !m.isCanary u lane then m
  else if ends then
    if !m.age.runs.contains k then m
    else
      let m := m.setAge { m.age with runs := m.age.runs.filter (· ≠ k), levels := sput m.age.levels k (phase, ref) }
      if u.kind = 2 && [1, 2, 4, 8].contains req then m.setAge { m.age with levelReq := setAt m.age.levelReq u.num req } else m
  else if m.age.runs.contains k || !m.runsMay then m
  else m.setAge { m.age with runs := m.age.runs ++ [k] }

end Sys2Proof.Machine
end

