-- ==== Sys2Proof/Machine/Survey.lean ====
section
/-! DEFINITION. The survey: its start and paths (R610, R624, R625), what every survey keeps (R297, R331, R617), its steps (Table
19.1), firmware sources (R619 to R622), and the building of the cadastre (R633, R634). -/
namespace Sys2Proof.Machine

/-! What stays. -/

/-- COLD entries as the survey puts them in force (R39, R617, R618): pending values over BOOT_SHEET's, the baseline's and the
defaults. -/
def Mach.coldValues (m : Mach) : SMap Bytes :=
  let boot := leN (sgetD (dfltVal kBootSheet) m.fb.pend kBootSheet)
  layOver (layOver (onlyCold (layOver (m.goodLayer 8) (m.goodLayer boot))) m.fb.pendSheet) m.fb.pend

/-- Moves of units that meet `p` and that a reset or a re-survey cuts short: their old units have failed or are retired, and an
unflipped spare is free again. -/
def Mach.settleMoves (m : Mach) (p : UnitRef → Bool := fun _ => true) : Mach :=
  let m := (m.cad.moves.filter fun x => p x.unit).foldl (fun m x =>
    let m := m.endPhys x.unit x.from_ x.final
    if x.stage ≤ 2 then m.setPhys x.unit.kind x.unit.parent x.spare 1 else m) m
  let m := (m.cad.queued.filter fun q => p q.1).foldl (fun m q => m.endPhys q.1 (m.cad.cur.physOf q.1) q.2) m
  m.setCad { m.cad with moves := m.cad.moves.filter fun x => !p x.unit, queued := m.cad.queued.filter fun q => !p q.1 }

/-- The marks of every ring (R331). -/
def Mach.ringMarksNow (m : Mach) : SMap Marks :=
  smap (fun x => (⟨x.produce, x.consumed, x.taken, x.ansLow, x.ans, x.ok⟩ : Marks)) m.rng.rings

/-- RING_MARKS_STATE (R331). -/
def Mach.marksNow (m : Mach) : Nat :=
  if !(m.cad.log.any fun r => r.ty = 0x0E) then 0 else if m.sec.aonId ≠ m.cad.aonLast then 2 else 1

/-- Step 02 copies the retained counters into the marks store; without V1P8_AON none were retained (R331). -/
def Mach.copyMarks (m : Mach) : Mach :=
  let st := m.marksNow
  m.setRng { m.rng with marks := if st = 2 then [] else m.rng.kept.getD [], marksState := st, kept := none }

/-- Counting entries that every survey keeps, and those counted since the last cold one. -/
def keptCounts : List Nat := [kSurveyNumber, kPfwLastTime, kPfwShort, kLedgerOverwritten]
def warmCounts : List Nat :=
  [kClockLosses, kDieLosses, kPfwClosures, kThermalStops, kThermalStops + 256, kCadRemaps, kMarginRetired, kFloorResets,
   kFloorResets + 256]

/-- The stacks' state that no reset clears: the trim store (R191), and, where the arrays are not tested, their contents, with the
temperatures and multipliers that self-refresh goes on by (R194). Tested arrays hold contents of no value. -/
def Mach.stkKept (m : Mach) (cold : Bool) : Stk :=
  if cold then { trims := m.stk.trims, fresh := smod 0 m.stk.fresh 192 (· + 1) }
  else
    { tag := m.stk.tag, recrypt := m.stk.recrypt, fresh := m.stk.fresh, errs := m.stk.errs, gen := m.stk.gen, poison := m.stk.poison
      trims := m.stk.trims
      dev := m.stk.dev.map fun x => { temp := x.temp, hot := x.hot, refresh := x.refresh, weak := x.weak, selfRefresh := true } }

/-- The roles that the straps select (R471, R472): HP0 takes root role only under FARROOT. -/
def strapRole (straps n : Nat) : Nat := if bitOf straps n then (if n = 1 then 2 else 0) else 1

/-- The module as a survey begins it: board flash, fuses' draws, the always-on island and the pins stay; all else is as after
reset. `cold` also empties the arrays that steps 08 and 10 test. -/
def Mach.reborn (m : Mach) (cold : Bool) : Mach :=
  let kept := m.fb.ctr.filter fun c => keptCounts.contains c.1 || (!cold && warmCounts.contains c.1)
  let roles := (List.range 2).map fun n => ({ role := strapRole m.cad.hpStraps n } : HostPort)
  let heat := m.pwr.heat.map fun h => ({ bench := h.bench, sensors := h.sensors.map fun x => { off := x.off } } : Heat)
  let ports := m.lnk.dev.map fun x => ({ recWidth := x.recWidth } : Port)
  let flt : Flt := { hist := m.flt.hist, lseq := m.flt.lseq, acked := m.flt.acked, degraded := m.flt.degraded, alert := 0
                     standing := m.flt.standing, fences := if cold then [0, 0, 0, 0, 0] else m.flt.fences
                     counts := if cold then [0, 0, 0, 0, 0, 0, 0, 0, 0, 0] else m.flt.counts }
  let sec : Sec := { draws := m.sec.draws, burn := m.sec.burn, store := m.sec.store, storeGood := m.sec.storeGood
                     leases := m.sec.leases, island := m.sec.island, aonId := m.sec.aonId, aonUp := m.sec.aonUp
                     unlocked := m.sec.unlocked, tap := m.sec.tap, reqId := m.sec.reqId }
  { fb := { baseline := m.fb.baseline, sheets := m.fb.sheets, pend := m.fb.pend, stored := m.fb.stored
            removing := m.fb.removing, ctr := kept, coldRun := m.coldValues
            cur := { ovr := layOver m.fb.pendSheet m.fb.pend } }
    die := { laneMap := m.die.laneMap, badLanes := m.die.badLanes, width := m.die.width }
    mem := if cold then {} else m.mem
    stk := m.stkKept cold
    rng := { marks := m.rng.marks, marksState := m.rng.marksState, kept := some (m.rng.kept.getD m.ringMarksNow) }
    cad := { m.cad with old := none, back := none, step := 1, halted := false, lastOk := false,
                        source := none, tried := 0, repairing := false, update := none
                        stepAt := 0, badNow := [], warm := !cold }
    clk := { refset := m.clk.refset, state := if m.clk.state = 2 then 2 else 0, loss := [m.clk.state = 2, m.clk.state = 2] }
    flt, sec
    lnk := { dev := ports }
    trv := { pendTile := m.trv.pendTile, pendId := m.trv.pendId, bcastId := m.trv.bcastId, reqId := m.trv.reqId }
    hp := { dev := roles }
    pwr := { heat, porstLow := m.pwr.porstLow, wrstLow := m.pwr.wrstLow, pfwLow := m.pwr.pfwLow, railsOk := m.pwr.railsOk
             trip := m.pwr.trip, driven := m.pwr.driven }
    age := { offsets := m.age.offsets, retire := m.age.retire, eyes := m.age.eyes, levelReq := m.age.levelReq,
             surveyReq := m.age.surveyReq, levels := m.age.levels }
    out := m.out }

/-- The survey cannot take the warm fast path (R610, R625, R674): `by_` 4 is WRST_N. -/
def Mach.mustBeCold (m : Mach) (by_ : Nat) : Bool :=
  let v (k : Nat) : Nat := leN (sgetD (dfltVal k) m.coldValues k)
  by_ ≠ 4 || m.cad.coldNeeded || !m.cad.lastOk || m.sec.aonId ≠ m.cad.aonLast || m.flt.lseq ≠ m.cad.ledgerAt ||
  m.cad.badStanding || v kSurveyFastEnable ≠ 1 || v kCadRetest ≠ 0 || v kCadRenumber ≠ 0 || m.cad.fails ≥ v kSurveyFailLimit

/-- PATH of the survey log's records (Table 19.6). -/
def Mach.pathCode (m : Mach) : Nat := m.cad.warm.toNat

/-- The placement of a floor that was withdrawn, or is being re-admitted, comes back into the cadastre (R106, Table 19.4). -/
def Mach.takeBack (m : Mach) : Mach :=
  match m.cad.back with
  | some b => m.setCad { m.cad with cur := m.cad.cur.takeFloor b (m.die.lost.getD 1), back := none }
  | none => m

/-- A survey begins (R610, R616, R331): `flash` names what fails its digest: sheets 0 to 7, 8 the baseline, 0x30 the security
store, 0x40 the standing table. Open key requests end (R526). -/
def Mach.beginSurvey (m : Mach) (by_ : Nat) (flash : List Nat) : Mach :=
  let m := m.takeBack.settleMoves
  let m := m.setCad { m.cad with badLayers := flash.filter (· < 9), badStanding := flash.contains 0x40 }
  let m := m.setSec { m.sec with storeGood := !flash.contains 0x30 }
  let reqs := m.sec.reqs
  let short := m.count kPfwShort = 1
  let m := m.reborn (m.mustBeCold by_)
  let m := ((m.bump kSurveyNumber).alert 0 true).surveyLog 0x01 {} 0 0 m.pathCode
  let m := if short then m.surveyLog 0x0B {} (m.count kPfwLastTime) else m
  let ports := (List.range 96).filter fun g => g % 48 < 32
  let m := m.setGrid { m.grid with closed := ports.foldl (fun s g => sput s g ()) [] }
  reqs.foldl (fun m r => m.endReq r .done true) m

/-- The survey that waits for its reset's rising edges begins (R610, R685, R695). -/
def Mach.maybeSurvey (m : Mach) (flash : List Nat) : Mach :=
  if !m.sec.aonUp || m.pwr.porstLow || m.pwr.wrstLow || m.pwr.closure.isSome then m
  else match m.pwr.reset with
  | some b => if b = 3 || b = 4 then m.beginSurvey b flash else m
  | none => if m.cad.step = 0 then m.beginSurvey 3 flash else m

/-- The host ports take the roles of the straps at the rising edge of PORST_N (R471). -/
def Mach.strapRoles (m : Mach) : Mach :=
  m.setHp { m.hp with dev := m.hp.dev.zipIdx.map fun x => ({ role := strapRole m.cad.hpStraps x.2 } : HostPort) }

/-- PORST_N or WRST_N rises (R610, R680): PORST_N samples the straps. -/
def Mach.resetRises (m : Mach) (porst : Bool) (hpStraps bootsrc refset test : Nat) (flash : List Nat) : Mach :=
  let m : Mach := if porst then
      let m := m.setPwr { m.pwr with porstLow := false, reset := if m.pwr.reset = some 5 then some 3 else m.pwr.reset }
      let m := m.setCad { m.cad with hpStraps := hpStraps % 4, bootsrc := bootsrc % 4, testStrap := test % 16 }
      let m := m.setClk { m.clk with refset := refset % 4 }
      (m.setSec { m.sec with unlocked := false, tap := 1 }).strapRoles
    else m.setPwr { m.pwr with wrstLow := false }
  m.maybeSurvey flash

/-! Firmware. -/

/-- A firmware source can be tried (Table 19.3). -/
def Mach.sourceUp (m : Mach) (s : Nat) : Bool :=
  match s with
  | 0 => true
  | 1 => m.cfg kMgmtEnable ≠ 0
  | 2 => m.hp.dev.any fun x => x.role = 1
  | _ => m.hp.dev.any fun x => x.role = 2 && x.far = 2

/-- The next source in order that has not been tried (R619). -/
def Mach.nextSource (m : Mach) : Option Nat :=
  let first := m.cad.firstSource.getD m.cad.bootsrc
  ((List.range 4).map fun i => (first + i) % 4).find? fun s => m.sourceUp s && !bitOf m.cad.tried s

/-- A SOURCE record, and the source counts as tried (R619). -/
def Mach.sourceTried (m : Mach) (s : Nat) (image : Bytes) (st : Status) : Mach :=
  let m := m.surveyLog 0x03 {} (s * 2 ^ 56 + num (digest image) 0 7) st.code
    (attempt := m.nextAttempt 0x03 {} fun r => r.data / 2 ^ 56 = s)
  m.setCad { m.cad with tried := putBit m.cad.tried s true }

/-- A source fails, and the next one is tried (R619, R620); when none is left, the survey waits for R621's retry. -/
def Mach.sourceFails (m : Mach) (s : Nat) (image : Bytes) : Mach :=
  let m := m.sourceTried s image .failUnit
  m.setCad { m.cad with source := m.nextSource }

/-- The checks of R507 on an image: `f.meas` holds whether its header names stepping A2 and part family STL2-576, its
SECURITY_VERSION and its FIRMWARE_VERSION. -/
def imageGood (z : Fuses) (image : Bytes) (f : Verif) : Bool :=
  f.chain && f.sig && nth 0 f.meas 0 = 1 && nth 0 f.meas 1 ≥ z.svn && 1024 ≤ image.length && image.length ≤ 16777216

/-- A licence's fields meet Table 15.11 and its serial is the module's (R529). -/
def licenceShape (z : Fuses) (v : Bytes) : Bool :=
  let f := num v 5 1
  let n := num v 6 2
  num v 0 4 = 0x4C4C5453 && num v 4 1 = 1 && f < 64 && 1 ≤ n && n ≤ 1872 && v.length = 176 + n && num v 21 11 = 0 &&
  (if bitOf f 2 then 1 ≤ num v 20 1 && num v 20 1 ≤ 99 else num v 20 1 = 0 && num v 32 48 = 0) && num v 8 8 = z.serial

/-- Licences at step 04 (R530): removal, the check of each, and LICENCE_PRESENT. `bad` names those whose chain or signature
fails. -/
def Mach.licencesChecked (m : Mach) (z : Fuses) (bad : List Nat) : Mach :=
  let left := m.fb.stored.filter fun l => Nat.land (num l.2 5 1) m.fb.removing = 0
  let good := left.filter fun l => licenceShape z l.2 && !bad.contains l.1
  let wrong := left.filter fun l => !(licenceShape z l.2 && !bad.contains l.1)
  let counts (l : Nat × Bytes) : Bool := bitOf (num l.2 5 1) 2 && num l.2 20 1 = orderPartner z.order
  let feats (l : Nat × Bytes) : Nat := if bitOf (num l.2 5 1) 2 && !counts l then num l.2 5 1 - 4 else num l.2 5 1
  let m := m.setFb { m.fb with stored := left, removing := 0, licences := good.foldl (fun v l => Nat.lor v (feats l)) 0 }
  let m := match good.find? counts with
    | some l => m.setSec { m.sec with partner := num l.2 20 1, partnerRoot := (l.2.drop 32).take 48 }
    | none => m
  let m := wrong.foldl (fun m l =>
    (m.surveyLog 0x07 {} (l.1 * 2 ^ 32 + num l.2 5 1) Status.fbValue.code).event evSecurity 0x09 2 {} 0
      (l.1 * 2 ^ 32 + num l.2 5 1)) m
  m.measure 5 (digest (good.flatMap (·.2)))

/-- HP0's root role once the licences are in effect (R472): without FARROOT the port stays DISABLED and the refusal is recorded. -/
def Mach.hp0Role (m : Mach) : Mach :=
  if !bitOf m.cad.hpStraps 0 then m
  else if m.hasLicence licFarroot then m.setHpAt 0 { m.hpAt 0 with role := 2 }
  else (m.setHpAt 0 { m.hpAt 0 with role := 0 }).surveyLog 0x0C {} m.cad.hpStraps

/-- An image arrives from the source being tried (R507, R619, R622, R610): answers whether it is accepted. -/
def Mach.imageIn (m : Mach) (z : Fuses) (s : Nat) (image : Bytes) (f : Verif) (badLic : List Nat) : Mach × Bool :=
  let ok := imageGood z image f && (s ≠ 0 || m.cad.imageGood)
  if !ok then (m.sourceFails s image, false)
  else
    let m := m.sourceTried s image .done
    let d := digest image
    let same : Bool := m.cad.lastImage = d
    let m := if m.cad.warm && !same then
        let n := (m.setCad { m.cad with warm := false }).surveyLog 0x02 {} 0 0 2
        (n.setMem {}).setStk (n.stkKept true)
      else m
    let repair : Bool := s ≠ 0 && m.cfg kFwRepairFlash = 1
    let m := m.setCad { m.cad with
      used := s, running := image, lastImage := d, source := none, repairing := repair
      firstSource := if s ≠ 0 && !repair then some s else none
      imageGood := if repair then false else m.cad.imageGood }
    let m := m.setSec { m.sec with version := nth 0 f.meas 1, fwVersion := nth 0 f.meas 2 }
    (((m.measure 2 d).licencesChecked z badLic).hp0Role, true)

/-! Units. -/

/-- Every channel's controller holds what the standing table has of the physical channel behind it (R173). -/
def Mach.reloadAll (m : Mach) : Mach := (List.range 192).foldl (fun m c => m.reloadChan c) m

/-- The retire lists that a cold survey clears leave the standing table (R171). -/
def Mach.clearLists (m : Mach) : Mach :=
  let clear : Nat := if m.cad.warm then 0 else m.cfg kStackRetireClear
  m.setFlt { m.flt with standing := m.flt.standing.filter fun x => !((x.kind = 2 || x.kind = 3) && bitOf clear x.parent) }

/-- A physical unit failed its test (R632, R673): it is marked failed and enters the standing table, once. -/
def Mach.unitBad (m : Mach) (u : Nat × Nat × Nat) : Mach :=
  let x : Standing := ⟨4, u.1, u.2.1, u.2.2, 0⟩
  let m := if m.flt.standing.contains x then m else m.addStanding x
  let m := m.setPhys u.1 u.2.1 u.2.2 2
  m.setCad { m.cad with badNow := physKey u.1 u.2.1 u.2.2 :: m.cad.badNow }

/-- CAD_RETEST as this survey applies it (R633, R674). -/
def Mach.retestMask (m : Mach) : Nat := if m.cad.badStanding then 0x3F else m.cfg kCadRetest

/-- Bit of CAD_RETEST that names a kind. -/
def retestBit (kind : Nat) : Nat := match kind with | 3 => 0 | 4 => 1 | 5 => 2 | 7 => 3 | _ => 4

/-- A unit already marked failed is not tested unless its kind is retested (Table 19.4). -/
def Mach.testedBad (m : Mach) (kind : Nat) (us : List (Nat × Nat × Nat)) : Mach :=
  (us.filter fun u => u.1 = kind && u.2.1 < parentsOf kind && u.2.2 < unitsOf kind + sparesOf kind &&
    (m.physState kind u.2.1 u.2.2 ≠ 2 || bitOf m.retestMask (retestBit kind))).foldl (fun m u => m.unitBad u) m

/-- Every logical unit of a kind is placed. -/
def Mach.placeKind (m : Mach) (kind : Nat) : Mach := (logicals kind).foldl (fun m u => m.placeUnit u) m

/-- Failed physical units of a retested kind that passed return (R633 step 1): behind their own withdrawn logical unit, else as
free spares; their standing entries go (R673). -/
def Mach.unretire (m : Mach) (kind : Nat) : Mach :=
  if !bitOf m.retestMask (retestBit kind) then m
  else
    let here := (List.range (parentsOf kind)).filter fun p => !m.floorGone (⟨kind, p * unitsOf kind⟩ : UnitRef).floor
    let all := here.flatMap fun p => (List.range (unitsOf kind + sparesOf kind)).map fun i => (p, i)
    let back := all.filter fun x => m.physState kind x.1 x.2 = 2 && !m.cad.badNow.contains (physKey kind x.1 x.2)
    back.foldl (fun m x =>
      let u : UnitRef := ⟨kind, x.1 * unitsOf kind + x.2⟩
      let own : Bool := x.2 < unitsOf kind && m.cad.cur.physOf u = 0xFF
      let m := m.setFlt { m.flt with standing := m.flt.standing.filter (· ≠ ⟨4, kind, x.1, x.2, 0⟩) }
      let m := m.setPhys kind x.1 x.2 (if own then 0 else 1)
      if own then m.setCad { m.cad with cur := m.cad.cur.place u x.2 } else m) m

/-- Renumbering of one parent (R634), with the REMAP events of the spares taken and the units withdrawn (R27): it leaves the floor that is
withdrawn as it is. -/
def Mach.renumber (m : Mach) (kind parent : Nat) : Mach :=
  let n := unitsOf kind
  let good := ((List.range (n + sparesOf kind)).filter fun i => m.physState kind parent i < 2).take n
  let all := List.range (n + sparesOf kind)
  let m := (all.filter fun i => m.physState kind parent i < 2).foldl (fun m i =>
    m.setPhys kind parent i (if good.contains i then 0 else 1)) m
  let bank := (List.range n).foldl (fun b l =>
    let u : UnitRef := ⟨kind, parent * n + l⟩
    match good[l]? with
    | some i => b.place u i
    | none => b.drop u) m.cad.cur
  (List.range n).foldl (fun x l =>
    let u : UnitRef := ⟨kind, parent * n + l⟩
    let i := m.cad.cur.physOf u
    match good[l]? with
    | some j => if i = j || j < n then x else x.spareTaken u i j 0
    | none => if i = 0xFF then x else x.event evRemap 0x02 3 u 0 (i * 2 ^ 56)) (m.setCad { m.cad with cur := bank })

/-- A core's pending retirement is carried out by the survey (R651). -/
def Mach.retireNow (m : Mach) (c : Nat) : Mach :=
  let u : UnitRef := ⟨0x09, c⟩
  let i := m.cad.cur.physOf u
  if (m.spareFor u).isNone || i = 0xFF then m
  else (((m.endPhys u i 3).placeUnit u 3).bump kMarginRetired).retiredEvent u (c / 16)

/-- The cadastre is built at step 13 (R633, R634): every kind but bond modules, which are completed as they train. -/
def Mach.buildCadastre (m : Mach) : Mach :=
  let before := m.cad.cur
  let m := m.age.retire.foldl (fun m c => m.retireNow c) m
  let m := m.setAge { m.age with retire := [] }
  let m := cadKinds.foldl (fun m k => (m.unretire k).placeKind k) m
  let again : Bool := m.cfg kCadRenumber = 1 && !m.cad.warm
  let m := if again then
      cadKinds.foldl (fun m k => ((List.range (parentsOf k)).filter fun p =>
        !m.floorGone (⟨k, p * unitsOf k⟩ : UnitRef).floor).foldl (fun m p => m.renumber k p) m) m
    else m
  let moved := (cadKinds.flatMap logicals).countP fun u => before.physOf u ≠ m.cad.cur.physOf u
  let m := if again then m.surveyLog 0x0D {} moved else m
  let clear (s : SMap Bytes) : SMap Bytes := sdel (sdel s kCadRetest) kCadRenumber
  (m.setFb { m.fb with pend := clear m.fb.pend, coldRun := clear m.fb.coldRun }).reloadAll.markCores

/-- A stack whose MPLL, or a floor whose CPLLs, fail at step 05 loses every physical unit behind them (Table 19.5). -/
def Mach.allBad (m : Mach) (kind parent : Nat) : Mach :=
  (List.range (unitsOf kind + sparesOf kind)).foldl (fun m i => m.unitBad (kind, parent, i)) m

/-- Step 05's outcomes for one floor, whose PLLs `l` have locked (Table 19.5); a site that is not populated has nothing to fence
(R2). -/
def Mach.lockOutcome (m : Mach) (z : Fuses) (f l : Nat) : Mach :=
  let m := m.setClk { m.clk with locked := setAt m.clk.locked f l, cpll := setAt m.clk.cpll f (if bitOf l 1 then 0 else 1) }
  let m := if !bitOf l 1 && !bitOf l 2 then m.allBad 9 f else m
  let m := (List.range 3).foldl (fun m i => if bitOf l (3 + i) then m else m.allBad 3 (3 * f + i)) m
  let m := (List.range 12).foldl (fun m i =>
    if bitOf l (6 + i) then m else m.setPort (12 * f + i) { m.portAt (12 * f + i) with state := 1, cause := 3 }) m
  let m := (List.range 2).foldl (fun m i =>
    if bitOf l (19 + i) || !bitOf z.sites (2 * f + i) then m
    else m.setSiteAt (2 * f + i) { m.siteAt (2 * f + i) with state := 6, cause := 8 }) m
  if bitOf l 21 then m else m.setHpAt f { m.hpAt f with role := 0 }

/-- Physical channels that a floor's training finds bad: those of `units`, and on the cold steps those whose eye lies below
STACK_EYE_FLOOR (Table 5.8 step 5). The warm fast path takes the cold steps for a channel without stored trims, and for those of
`fell`, which failed its steps (R191). -/
def Mach.trainedBad (m : Mach) (warm : Bool) (units fell : List (Nat × Nat × Nat)) (eyes : List (Nat × Nat × Nat × Nat × Nat)) :
    List (Nat × Nat × Nat) :=
  let low := (eyes.filter fun x => x.2.2.2.1 < m.eyeFloor 3).filterMap fun x =>
    if x.1 = 3 then
      let u : UnitRef := ⟨3, x.2.1⟩
      if m.cad.cur.physOf u = 0xFF then none else some (3, u.parent, m.cad.cur.physOf u)
    else if x.1 = 2 then some (3, x.2.1, x.2.2.1) else none
  units ++ low.filter fun u => !(warm && shas m.stk.trims (u.2.1 * 34 + u.2.2) && !fell.contains u)

/-- The channels of the floors that meet `fl` train (R189, R191): those that pass store their trims, and the unused
spares run as canaries (R192). -/
def Mach.trainChannels (m : Mach) (fl : Nat → Bool) (warm : Bool) (units fell : List (Nat × Nat × Nat))
    (eyes : List (Nat × Nat × Nat × Nat × Nat)) : Mach :=
  let m := m.testedBad 3 ((m.trainedBad warm units fell eyes).filter fun u => fl (u.2.1 / 3))
  let all := ((List.range 6).filter fun s => fl (s / 3)).flatMap fun s => (List.range 34).map fun i => (s, i)
  let m := m.setStk { m.stk with trims := all.foldl (fun t x =>
    if m.physState 3 x.1 x.2 = 2 then sdel t (x.1 * 34 + x.2) else sput t (x.1 * 34 + x.2) ()) m.stk.trims }
  (m.setStk { m.stk with prbs := (all.filter fun x => x.2 ≥ 32).foldl (fun t x =>
    if m.physState 3 x.1 x.2 = 1 then sput t (x.1 * 2 + x.2 - 32) () else sdel t (x.1 * 2 + x.2 - 32)) m.stk.prbs }).surveyEyes eyes

/-! Step 20. -/

/-- A LAYER record (R628), and an EPOCH event where the layer is not applied as stored. -/
def Mach.layerLog (m : Mach) (code : Nat) (d : Bytes) (st : Status) : Mach :=
  let m := m.surveyLog 0x08 {} (code * 2 ^ 56 + num d 0 7) st.code
  if st = .done then m else m.event evEpoch 0x05 2 {} 0 (code * 2 ^ 56 + (if st = .fbConflict then 2 else 1))

/-- The security store's values as step 20 restores them (R515, R518), and its outcome. -/
def Mach.restoreStore (m : Mach) : SMap Bytes × Status :=
  match m.sec.store with
  | none => (m.wholePlat, .done)
  | some st =>
    if !m.sec.storeGood then (m.wholePlat, .failMemLost)
    else if m.platGood fun k => sgetD (dfltVal k) st k then (st, .done)
    else (layOver (st.filter fun p => !platKeys.contains p.1) m.wholePlat, .fbConflict)

/-- Baseline and sheet are applied, and epoch 1 begins (R59, R67, R71, R625, R628); a stored sheet that fails its digest is recorded
whether it is applied or not. -/
def Mach.applyLayers (m : Mach) : Mach :=
  let store := m.restoreStore
  let m := m.layerLog 0x30 (layerBytes (m.sec.store.getD [])) store.2
  let m := m.setSec { m.sec with store := if m.sec.storeGood then m.sec.store else none, storeGood := true }
  let n : Nat := if m.cad.fails ≥ m.cfg kSurveyFailLimit then 2 else m.cfg kBootSheet
  let val (lay : SMap Bytes) (k : Nat) : Bytes :=
    match sget store.1 k with
    | some v => v
    | none => if wrOf k = 3 then m.runVal k else sgetD (dfltVal k) lay k
  let judge (l : Nat) (lay : SMap Bytes) (ks : SMap Bytes) : Status :=
    if m.cad.badLayers.contains l then .failMemLost
    else if (m.badGroup (val lay) (skeys ks)).isSome then .fbConflict else .done
  let base := judge 8 m.fb.baseline m.fb.baseline
  let low := if base = .done then m.fb.baseline else []
  let top := judge n (layOver low (m.sheet n)) (m.sheet n)
  let lay := if top = .done then layOver low (m.sheet n) else low
  let m := (m.layerLog 0x10 (m.layerDigest 8) base).layerLog (0x20 + n) (m.layerDigest n) top
  let m := (m.cad.badLayers.filter fun l => l ≠ 8 && l ≠ n).foldl (fun m l =>
    m.surveyLog 0x08 {} ((0x20 + l) * 2 ^ 56 + num (m.layerDigest l) 0 7) Status.failMemLost.code) m
  let ovr := layOver (onlyCold m.fb.cur.ovr) (sput store.1 kActiveSheet (leB 1 n))
  m.setFb { m.fb with cur := { ovr, lay := notCold lay }, old := none, epoch := 1, lastEpoch := 1, lastStatus := .done }

/-- Counters of the telemetry area begin at 0 at step 21 (R84). -/
def Mach.zeroCounters (m : Mach) : Mach := m.zeroArea 0x9000 0xA000

/-- Sites and ports whose optional steps failed at this start (R626, R627); one whose PLL did not lock at step 05 never began them. -/
def Mach.optionalFailures (m : Mach) : List Nat :=
  let locked (f b : Nat) : Bool := bitOf (nth 0 m.clk.locked f) b
  ((List.range 4).filter fun t => (m.siteAt t).state ≥ 6 && locked (t / 2) (19 + t % 2)).map (0x060000 + ·) ++
  (portList.filter fun p => (m.portAt p).state = 1 && !(m.portAt p).skipped && (m.portAt p).cause ≠ 12 &&
    locked (p / 12) (6 + p % 12)).map (0x080000 + ·)

/-- Step 21: the module is ready (R613). -/
def Mach.ready (m : Mach) (us : Nat) : Mach :=
  let m := m.zeroCounters
  let fails := m.cad.fails
  let m := m.setCad { m.cad with step := 21, fails := 0, lastOk := true, coldNeeded := false, ledgerAt := m.flt.lseq
                                 aonLast := m.sec.aonId, failedOpt := m.optionalFailures, badStanding := false }
  let up := (List.range 4).filter fun t => (m.siteAt t).state = 5
  let m := m.setGrid { m.grid with closed := m.grid.closed.filter fun g =>
    !(g.1 % 48 < 32 && up.contains (2 * (g.1 / 48) + g.1 % 48 / 16)) }
  let ms := us / 1000
  let m := (m.setCount kSurveyDuration ms).alert 0 false
  let m := m.surveyLog 0x0E {} (ms * 2 ^ 32 + fails) 0 m.pathCode
  let m := m.event evEpoch 0x06 1 {} 0 (m.count kSurveyNumber * 2 ^ 32 + m.pathCode)
  (m.emit (.island 0 0)).emit (.island 1 0)

/-! The steps. -/

/-- A site or port skips its optional step at this start (R627). -/
def Mach.skips (m : Mach) (code : Nat) : Bool := m.cfg kSurveySkipFailed = 1 && m.cad.failedOpt.contains code

/-- Step 14 powers the populated sites (R435, R439, R627); one that is not populated is EMPTY, fenced with cause 1 (R2). -/
def Mach.sitesBegin (m : Mach) (z : Fuses) : Mach :=
  (List.range 4).foldl (fun m t =>
    if !bitOf z.sites t then m.setSiteAt t { m.siteAt t with state := 0, cause := 1 }
    else if (m.siteAt t).state = 6 then m
    else if m.floorGone (t / 2) || m.skips (0x060000 + t) then m.setSiteAt t { m.siteAt t with state := 1 }
    else m.sitePowerUp t) m

/-- Step 17 starts every enabled port's training (R342 to R344, R362, R627). -/
def Mach.portsBegin (m : Mach) : Mach :=
  let wide := m.cfg kLinkWidthReset
  let m := portList.foldl (fun m p =>
    let x := m.portAt p
    let x := if bitOf wide p then { x with recWidth := 0 } else x
    let m := m.setPort p x
    if m.floorGone (p / 12) then m.setPort p { x with state := 1, cause := 12 }
    else match m.portOff p with
    | some c => m.setPort p { x with state := 0, cause := c }
    | none =>
      if x.state = 1 then m
      else if m.skips (0x080000 + p) then m.setPort p { x with state := 1, cause := 3, skipped := true }
      else m.startTraining p) m
  m.setFb { m.fb with pend := sdel m.fb.pend kLinkWidthReset, coldRun := sdel m.fb.coldRun kLinkWidthReset }

/-- ALERT_N and THERMTRIP_N drive their state from survey step 02 onward (R690). -/
def Mach.drivePads (m : Mach) : Mach :=
  if m.pwr.driven then m
  else ((m.setPwr { m.pwr with driven := true }).emit (.pin 0 0 (m.alertCauses = 0))).emit (.pin 3 0 (!m.pwr.trip))

/-- A step begins: its record, and what it starts. -/
def Mach.enterStep (m : Mach) (z : Fuses) (k : Nat) : Mach :=
  let m := m.setCad { m.cad with step := k, stepAt := m.clk.us }
  let skip : Bool := m.cad.warm && [8, 10, 11, 12, 18].contains k
  let m := m.surveyLog 0x01 {} 0 0 (if skip then 3 else m.pathCode)
  match k with
  | 2 => m.drivePads
  | 4 => m.setCad { m.cad with source := m.nextSource }
  | 14 => m.sitesBegin z
  | 17 => m.portsBegin
  | 19 => m.discoverAll z.serial
  | _ => m

/-- FUSE_DIGEST (Table 15.3, index 4): the non-secret values of Table 15.1 in table order. -/
def fuseDigest (z : Fuses) : Bytes :=
  digest (leB 8 z.serial ++ padTo 16 z.order ++ leB 1 z.sites ++ leB 1 z.life ++ leB 48 z.root ++ leB 8 (2 ^ z.svn - 1) ++
    leB 1 z.debug)

/-- The calibration of each floor at step 07 (R596), with its record. -/
def Mach.calibrateAll (m : Mach) (cal : List Nat) : Mach :=
  ([0, 1].filter fun f => !m.floorGone f).foldl (fun m f =>
    let c := calOf (cal.drop (266 * f))
    (m.calibrate f c.1 c.2.1 c.2.2).surveyLog 0x09 (dieRef f) ((if c.1 then 264 else 0) * 2 ^ 48 + (if c.1 then 0 else 1))) m

/-- Bridge lanes that training finds bad, by direction × 128 + lane: those of `units`, and those whose eye lies below
MARGIN_EYE_FLOOR_BRIDGE (R652). -/
def Mach.badLanesOf (m : Mach) (units : List (Nat × Nat × Nat)) (eyes : List (Nat × Nat × Nat × Nat × Nat)) : List Nat :=
  (units.filter fun x => x.1 = 1 && x.2.1 < 2 && x.2.2 < 72).map (fun x => 128 * x.2.1 + x.2.2) ++
  (eyes.filter fun x => x.1 = 1 && x.2.1 < 2 && x.2.2.1 < 72 && x.2.2.2.1 < m.eyeFloor 1).map fun x => 128 * x.2.1 + x.2.2.1

/-- The bridge trains at step 06, with a record of each direction's width (R101, R106). -/
def Mach.bridgeStep (m : Mach) (ok : Bool) (bad : List Nat) : Mach :=
  if m.floorGone 1 then m
  else
    let fresh : Bool := !m.cad.warm && bitOf m.retestMask 5
    let m := if fresh then m.setDie { m.die with laneMap := [], badLanes := [], width := [64, 64] } else m
    let m := m.trainBridge bad
    let m := [0, 1].foldl (fun m d => m.surveyLog 0x06 (dieRef d) (nth 0 m.die.width d * 2 ^ 56)) m
    if !ok || m.die.width.contains 0 then m.withdrawF1 else m

/-- F1 is released at step 07 (R502, R106): it proves PAIR_KEY, and its digest is measured. -/
def Mach.f1Step (m : Mach) (z : Fuses) (g : Found) : Mach :=
  let m := if m.floorGone 1 then m
    else if !g.ok || z.pair0 ≠ z.pair1 then m.withdrawF1 else m.measure 3 (padTo 48 g.data)
  m.calibrateAll g.cal

/-- What a step does as it ends, and whether the survey goes on to the next (Table 19.1). -/
def Mach.stepWork (m : Mach) (z : Fuses) (g : Found) : Mach × Bool :=
  let cold := !m.cad.warm
  match m.cad.step with
  | 1 => (m, m.clk.state = 0 && !m.pwr.pfwLow && g.us ≥ m.settleUs)
  | 2 =>
    if m.cad.testStrap ≠ 0 then (m.surveyHalt, false)
    else if !m.pwr.railsOk then (if g.us ≥ 100000 then m.surveyHalt else m, false)
    else
      let m := m.copyMarks
      (m.surveyLog 0x0A {} m.rng.marksState, true)
  | 3 =>
    if !g.ok || z.life = 3 then (m.surveyHalt, false)
    else
      let m := m.setSec { m.sec with measGen := 1 }
      (((m.measure 1 (padTo 48 g.data)).measure 4 (fuseDigest z)).measure 6 (leB 1 m.debugState), true)
  | 4 =>
    match m.cad.source with
    | some s => m.imageIn z s (if s = 0 then m.cad.image else g.data) g.verif g.licences
    | none => (m, false)
  | 5 =>
    let l0 := nth 0 g.nums 0
    let l1 := nth 0 g.nums 1
    if !bitOf l0 0 then (m.surveyHalt, false)
    else
      let m := m.lockOutcome z 0 l0
      (if bitOf l1 0 then m.lockOutcome z 1 l1 else m.withdrawF1, true)
  | 6 => ((m.bridgeStep g.ok (m.badLanesOf g.units g.eyes)).surveyEyes g.eyes, true)
  | 7 => (m.f1Step z g, true)
  | 8 => (if cold then m.testedBad 4 g.units else m, true)
  | 9 =>
    let m := m.clearLists.trainChannels (fun _ => true) m.cad.warm g.units g.fell g.eyes
    (((m.placeKind 3).reloadAll.leaveRefresh fun _ => true).firstKey 0, true)
  | 10 =>
    if cold then
      let m := (m.testedBad 3 g.units).retentionPass g.nums
      (((g.rows.foldl (fun m pa => m.rowFails pa 0x01) m).settleMoves.placeKind 3).reloadAll, true)
    else (m, true)
  | 11 => (if cold then m.testedBad 5 g.units else m, true)
  | 12 => (if cold then m.testedBad 9 g.units else m, true)
  | 13 => (m.buildCadastre, true)
  | 14 => (m.surveyEyes g.eyes, !m.site.dev.any fun x => x.state = 2)
  | 15 => (m, !m.site.dev.any fun x => x.state = 3)
  | 16 => if m.site.dev.any fun x => x.state = 4 then (m, false) else (m.measure 10 (digest m.trv.pendTile), true)
  | 17 => (m.surveyEyes g.eyes, !m.lnk.dev.any fun x => x.state = 2)
  | 18 => (m, !m.lnk.dev.any fun x => x.state = 3 && !x.gated)
  | 19 => (m, !m.lnk.dev.any fun x => x.state = 4 && m.cfg kStationAddr ≠ 0xFFFF)
  | 20 =>
    if m.cad.repairing then (m, false)
    else
      let m := m.applyLayers
      let m := ((m.measure 7 (m.layerDigest 8)).measure 8 m.sheetsDigest).measure 9 m.platDigest
      ((List.range 6).foldl (fun m s => m.setRefresh s) (m.replan true), true)
  | _ => (m, false)

/-- A survey step ends on both floors (R611); `total` is the survey's time so far, in µs. Nothing ends while a closure, a reset,
a halt or the loss of the reference holds the survey (R571, R594, R614). -/
def Mach.stepEnd (m : Mach) (z : Fuses) (g : Found) (total : Nat) : Mach :=
  if m.cad.halted || m.pwr.closure.isSome || m.pwr.off || m.pwr.reset.isSome || m.clk.state ≠ 0 || m.cad.step = 0 then m
  else
    let r := m.stepWork z g
    if !r.2 then r.1
    else
      let m := r.1.surveyLog 0x02 {} g.us 0 r.1.pathCode
      if m.cad.step = 20 then (m.setCad { m.cad with step := 21 }).ready total else m.enterStep z (m.cad.step + 1)

/-- A source has delivered no image for `ms` ms (R620); flash has no timeout. -/
def Mach.sourceLate (m : Mach) (ms : Nat) : Mach :=
  match m.cad.source with
  | some s => if m.cad.step = 4 && !m.cad.halted && s ≠ 0 && ms ≥ m.cfg kFwSourceTimeout then m.sourceFails s [] else m
  | none => m

/-- With no image accepted, every source is tried again 10 s later (R621). -/
def Mach.sourcesAgain (m : Mach) (ms : Nat) : Mach :=
  if m.cad.step = 4 && !m.cad.halted && m.cad.source.isNone && ms ≥ 10000 then
    let m := (m.setCad { m.cad with tried := 0 }).alert 0 true
    m.setCad { m.cad with source := m.nextSource }
  else m

/-- The host declares the image it has staged in BAR4 of port `n` (R620): step 04 verifies it when the host is the source. -/
def Mach.fwReady (m : Mach) (z : Fuses) (n v : Nat) (image : Bytes) (f : Verif) (badLic : List Nat) : Mach :=
  if (m.hpAt n).role ≠ 1 then m
  else
    let m := m.setHpAt n { m.hpAt n with bar4 := image }
    if v ≠ 1 || m.cad.step ≠ 4 || m.cad.halted || m.cad.source ≠ some 2 then m
    else
      let r := m.imageIn z 2 image f badLic
      if r.2 then (r.1.surveyLog 0x02 {} 0 0 r.1.pathCode).enterStep z 5 else r.1

/-- The flash repair completes (R622). -/
def Mach.repairDone (m : Mach) : Mach :=
  if m.cad.repairing then m.setCad { m.cad with repairing := false, image := m.cad.running, imageGood := true } else m

end Sys2Proof.Machine
end

