-- ==== Sys2Proof/Machine/Readmit.lean ====
section
/-! DEFINITION. The return of a lost floor die (R114 to R118, R668, R701) and a die that resets itself (R660). -/
namespace Sys2Proof.Machine

/-- Slots whose MIRROR segment has a buffer footprint await resynchronisation (R701). -/
def Mach.markMirrors (m : Mach) : Mach :=
  m.setDie { m.die with resync := m.grid.seg.foldl (fun s e =>
    if e.2.mirror && e.2.medium = 0 then sput s e.1 () else s) m.die.resync }

/-- One line of a MIRROR segment's copy on floor `f` rewritten from the survivor's (R117); a poisoned line stays poisoned. -/
def Mach.resyncLine (m : Mach) (e : SegEnt) (f i : Nat) : Mach :=
  let src := (e.place (256 * i) (1 - f)).pa 0
  let dst := (e.place (256 * i) f).pa 0
  if m.poisoned src 256 then m.addPoison dst else m.copyBytes e.ctx src dst 256

/-- Every marked segment's copy on floor `f` is rewritten, and its mark goes (R117). -/
def Mach.resyncAll (m : Mach) (f : Nat) : Mach :=
  let m := (skeys m.die.resync).foldl (fun m slot =>
    match sget m.grid.seg slot with
    | some e => (List.range (e.bytes / 256)).foldl (fun m i => m.resyncLine e f i) m
    | none => m) m
  m.setDie { m.die with resync := [] }

/-- FAIL_DIE records for every item of the floor's rings that was accepted and has none (R116). -/
def Mach.owedRecords (m : Mach) (f : Nat) : Mach :=
  let l := (sortItems m.rng.owed).filter fun i => ringFloor i.ring = f
  let m := m.setRng { m.rng with owed := m.rng.owed.filter fun i => ringFloor i.ring ≠ f }
  l.foldl (fun m i => m.answer i.ring i.seq i.kind i.user i.epoch i.notify .failDie (dieRef f)) m

/-- The floor's units after their tests (R115): failed ones get spares or are withdrawn, every logical number stays. -/
def Mach.placeFloor (m : Mach) (f : Nat) : Mach :=
  ((floorUnits f).filter fun u => u.kind ≠ 7).foldl (fun m u => m.placeUnit u) m

/-- The floor's ports train again, and its sites are re-admitted after a new attestation (R115). -/
def Mach.floorStarts (m : Mach) (f : Nat) : Mach :=
  let m := (List.range 12).foldl (fun m i =>
    let p := 12 * f + i
    if (m.portOff p).isSome || (m.portAt p).cause = 3 then m else m.startTraining p) m
  [2 * f, 2 * f + 1].foldl (fun m t =>
    let x := m.siteAt t
    if x.state = 0 || x.cause = 8 then m else m.siteReadmit t) m

/-- Survey steps `a` to `b` of floor `f` in the survey log, on the cold path (R115, R630); how long each took is a free value. -/
def Mach.floorSteps (m : Mach) (f a b : Nat) : Mach :=
  let now := m.cad.step
  let m := ((List.range 22).filter fun k => a ≤ k && k ≤ b).foldl (fun m k =>
    ((m.setCad { m.cad with step := k }).surveyLog 0x01 (dieRef f)).surveyLog 0x02 (dieRef f)
      (Config.unstated 630 [m.cad.log.length, m.fb.evseq, k] % 2 ^ 32)) m
  m.setCad { m.cad with step := now }

/-- A returned F0 tries the sources in order until one yields an accepted image (R114, R619, R620); with none it asserts ALERT_N, and
its survey stays at step 04 until it is tried again (R621). -/
def Mach.ownImage (z : Fuses) (g : Found) : Nat → Mach → Mach × Bool
  | 0, m => (m.alert 0 true, false)
  | n + 1, m =>
    match m.nextSource with
    | none => (m.alert 0 true, false)
    | some s =>
      let x := if s = 0 then (m.cad.image, g.verif) else nth ([], {}) g.images (s - 1)
      let r := m.imageIn z s x.1 x.2 g.licences
      if r.2 then r else Mach.ownImage z g n r.1

/-- A returned F0 runs steps 01 to 06 of its own survey, on the cold path (R114): DIE_STATE reads 5, and stays so where its fuses, its
image or its GPLL fail, with the bridge untrained. -/
def Mach.ownSurvey (m : Mach) (z : Fuses) (g : Found) : Mach :=
  let m := m.setDie { m.die with state := 5, width := [0, 0] }
  if !g.ok || z.life = 3 then m.floorSteps 0 1 2
  else
    let m := (m.setCad { m.cad with warm := false, tried := 0 }).setSec { m.sec with measGen := 1 }
    let m := ((m.measure 1 (padTo 48 g.data)).measure 4 (fuseDigest z)).measure 6 (leB 1 m.debugState)
    let r := Mach.ownImage z g 4 m
    let m := r.1.setCad { r.1.cad with source := none }
    let l := nth 0 g.nums 0
    if !r.2 || !bitOf l 0 then m.floorSteps 0 1 3
    else ((m.lockOutcome z 0 l).trainBridge (m.badLanesOf g.units g.eyes)).floorSteps 0 1 6

/-- The tests of a returning floor's steps 08 to 12, and the placement they lead to (R115): failed units get spares or are withdrawn in
the bank that the commit of the re-admission takes (R28, R118), while the live epochs keep theirs. -/
def Mach.testFloor (m : Mach) (f : Nat) (g : Found) : Mach :=
  let now := m.cad.cur
  let here := g.units.filter fun u => (⟨u.1, u.2.1 * unitsOf u.1⟩ : UnitRef).floor = f
  let m := [4, 5, 9].foldl (fun m k => m.testedBad k here) (m.settleMoves fun u => u.floor = f)
  let m := (m.trainChannels (· = f) false here [] g.eyes).placeFloor f
  let req := g.nums.drop 1
  let asks (old : List Nat) := old.zipIdx.map fun x => if x.2 / 3 = f then nth 1 req x.2 else x.1
  let m := if req.length = 6 then
      m.setAge { m.age with levelReq := asks m.age.levelReq, surveyReq := asks m.age.surveyReq }
    else m
  let m := (g.rows.filter fun pa => paFloor pa = f).foldl (fun m pa => m.rowFails pa 0x01) m
  let m := (m.settleMoves fun u => u.floor = f).placeFloor f
  m.setCad { m.cad with cur := now, back := some m.cad.cur }

/-- The surveyor's commit that restores a floor's units to the cadastre (R28, R118), with what the standing table has of its channels
(R173). -/
def Mach.commitFloor (m : Mach) (f : Nat) : Mach :=
  let m := m.surveyorCommit 0 (m.cad.back.map fun b => (f, b))
  let m := m.setCad { m.cad with back := none }
  (((List.range 96).map (96 * f + ·)).foldl (fun m c => m.reloadChan c) m).markCores

/-- A floor has come back, with what its own steps found (R114 to R117): F1 from step 05, F0 from step 07 after its own survey
(`own`). While the work lasts the floor stays lost to every other rule; READMIT_COMMIT ends that. Where a returned F0 finds F1's
measurement changed, it resets F1 and serves alone. -/
def Mach.dieReturns (m : Mach) (z : Fuses) (f : Nat) (own : Bool) (g : Found) : Mach :=
  if m.die.lost ≠ some f || !nth false m.pwr.floorOn f || (m.heatAt f).stopped || m.pwr.closure.isSome || m.clk.state ≠ 0 then m
  else if own then (if f = 0 then m.ownSurvey z g else m)
  else if (f = 0 && (m.die.state ≠ 5 || m.die.width.contains 0)) || (f = 1 && !bitOf (nth 0 g.nums 0) 0) then m
  else
    let m := if f = 0 then m else (m.lockOutcome z 1 (nth 0 g.nums 0)).trainBridge (m.badLanesOf g.units g.eyes)
    if !g.ok || z.pair0 ≠ z.pair1 || m.die.width.contains 0 then m.setDie { m.die with bridgeDown := m.die.width.contains 0 }
    else
      let m := m.setDie { m.die with state := 3, lost := none, bridgeFenced := false, bridgeDown := false }
      let m := m.setClk { m.clk with loss := setAt m.clk.loss f false, coreTo := setAt m.clk.coreTo f none }
      let m := ((m.clockSites.switchIsland f).floorSteps f (if f = 0 then 7 else 5) 20).testFloor f g
      let m := m.calibrate f (calOf g.cal).1 (calOf g.cal).2.1 (calOf g.cal).2.2
      let m := (m.replanFloor f true).leaveRefresh (· = f)
      let m := (m.loseSlices (fun fl _ => fl = f) true).markMirrors
      let m := m.unhold fun h => h.floor = f && h.kind = 1 && paMedium h.object = 0
      let m := ((m.owedRecords f).resyncAll f).floorStarts f
      let other : Bool := f = 0 && m.measAt 3 ≠ padTo 48 g.data
      let m := if f = 1 then m.measure 3 (padTo 48 g.data) else m
      if other then
        let m := (m.setFb { m.fb with role := 0 }).setDie { m.die with state := 0, f1Stopped := false }
        ((m.emit (.island 1 1)).dieLost 1 0x03 .failDie).commitFloor 0
      else m.setDie { m.die with lost := some f, bridgeFenced := true }

/-- Re-admission ends with a surveyor commit (R118): it waits for the floor's sites, and while two epochs are live, when it goes before
the operator's (R30). -/
def Mach.readmitted (m : Mach) : Mach :=
  match m.die.lost with
  | none => m
  | some f =>
    let busy := [2 * f, 2 * f + 1].any fun t => 2 ≤ (m.siteAt t).state && (m.siteAt t).state ≤ 4
    if m.die.state ≠ 3 || busy then m
    else if m.fb.old.isSome then m.setDie { m.die with readmitWaits := true }
    else
      let m := m.setDie { m.die with
        lost := none, bridgeFenced := false, state := 0, f1Stopped := false, sideMsg := [0, 0], readmitWaits := false }
      let m := m.resyncAll f
      let m := (m.setFb { m.fb with role := 0 }).commitFloor f
      let m := ((m.alert 4 false).alert 5 false).alert 2 (m.clk.loss.contains true)
      let m := if m.pwr.trip && !m.pwr.heat.any (·.stopped) then (m.setPwr { m.pwr with trip := false }).emit (.pin 3 0 true) else m
      (m.emit (.island f 0)).askClock f

/-- A self-check of floor `f`'s surveyor or security controller fails (R660): the die resets itself, and the other declares it
lost; a lone die only counts it. -/
def Mach.lockstep (m : Mach) (f : Nat) : Mach :=
  let m := (m.bump (kFloorResets + 256 * f)).emit (.island f 1)
  (m.setDie { m.die with sideMsg := setAt m.die.sideMsg f 1 }).dieLost f 0x03 .failDie

end Sys2Proof.Machine
end

