-- ==== Sys2Proof/Machine/Records.lean ====
section
/-! DEFINITION. The failure of a unit in service and its move (R635 to R639, R660), the survey log, cadastre, ledger and holdings as
commands read them (R630 to R632, R669 to R674), and the update of the firmware image (R623). -/
namespace Sys2Proof.Machine

/-! Units in service. -/

/-- An item needs a slice or channel: a line it reads or writes lies there. -/
def Mach.needsUnit (m : Mach) (i : Item) (u : UnitRef) : Bool :=
  (m.itemSpans i).any fun x => (pieces x.1 x.2).any fun p =>
    match m.findSeg i.ctx p.1 with
    | some (_, e) => (e.place (p.1 - e.va) (ringFloor i.ring)).ref = u
    | none => false

/-- Findings of the last second about a slice's lines or a channel's rows (Table 21.2). -/
def Mach.recentBad (m : Mach) (u : UnitRef) : Nat :=
  let l := if u.kind = 4 then sgetD [] m.grid.ueSecond u.num else sgetD [] m.stk.ueRows u.num
  (l.filter fun e => e.2 + 1000000 ≥ m.clk.us).length

/-- A slice or channel meets a condition of Table 21.2: a fault of its control logic or a failed retraining, or enough
uncorrectable lines or rows within a second. -/
def Mach.unitMeets (m : Mach) (u : UnitRef) (cause : Nat) : Bool :=
  if cause = 0x01 then m.recentBad u ≥ (if u.kind = 4 then 4 else 8)
  else if u.kind = 4 then cause = 0x03 else cause = 0x02 || cause = 0x06

/-- The spare of a running move fails: the move starts again on another, or the unit is withdrawn (Table 19.11). -/
def Mach.spareFails (m : Mach) (u : UnitRef) : Mach :=
  match m.cad.moves.find? fun x => x.unit = u && x.stage ≤ 2 with
  | none => m
  | some x =>
    let m := m.setCad { m.cad with moves := m.cad.moves.filter (· ≠ x) }
    let m := (m.setPhys u.kind u.parent x.spare 2).addStanding ⟨4, u.kind, u.parent, x.spare, 0⟩
    (m.moveUnit u x.final true).ledger 0x02 0x02 (m.moveOutcome u) u 0 0 0 0 x.spare

/-- A slice or channel fails in service (R660): it moves or is withdrawn (R635), and what needs it and can no longer reach it
ends with FAIL_UNIT (R658, R675). -/
def Mach.arrayFails (m : Mach) (u : UnitRef) (cause : Nat) (serves : Bool) : Mach :=
  let busy := (m.cad.moves.any fun x => x.unit = u) || m.cad.queued.any fun q => q.1 = u
  if busy || !m.unitMeets u cause || m.cad.cur.physOf u = 0xFF then m
  else
    let hit := (sortItems m.rng.items).filter fun i => m.needsUnit i u
    let lost : Bool := (m.spareFor u).isNone || (!serves && m.moving u.floor)
    let m := m.unitFails u cause serves (if lost && !hit.isEmpty then Status.failUnit.code else 0) (if lost then hit.length else 0)
    if lost then m.serveAll.finishAll (hit.map Item.key) .failUnit u else m

/-- UNIT_FAIL: a unit meets the condition of Table 21.2; for engines, bond modules, cores and dies it is what their own rows
do. -/
def Mach.unitFail (m : Mach) (u : UnitRef) (cause : Nat) (serves spare : Bool) : Mach :=
  if spare then m.spareFails u
  else match u.kind with
  | 1 => m.lockstep u.num
  | 3 => m.arrayFails u cause serves
  | 4 => m.arrayFails u cause serves
  | 5 => m.engineFault (u.num / 16) (u.num % 16)
  | 7 => 
    let t := u.num / 16
    if ((m.siteAt t).bond (u.num % 16)).retraining then m.bondFails t (u.num % 16) 0 0 else m
  | 9 => m.coreCacheUe u.num
  | _ => m

/-- CAD_REMAP_UNIT: the operator moves a logical unit to a spare (Table 19.9, R637); the reply waits for step 3. -/
def Mach.cadRemap (m : Mach) (v : Bytes) : CmdRes :=
  let u : UnitRef := ⟨num v 0 1, num v 1 2⟩
  let old := m.cad.cur.physOf u
  if num v 3 1 ≠ 0 then m.refuse .fbValue
  else if u.isCad && ((u.copies && m.moving u.floor) || (m.cad.moves.any fun x => x.unit = u) ||
      m.cad.queued.any fun q => q.1 = u) then m.refuse .rejectBusy
  else if !u.isCad || old = 0xFF then m.refuse .rejectRange
  else match m.freeSpare u.kind u.parent with
  | none => m.refuse .rejectRange
  | some i =>
    let m := (m.spareRuns u.kind u.parent i).setPhys u.kind u.parent i 4
    let m := m.setCad { m.cad with moves := m.cad.moves ++
      [{ unit := u, from_ := old, spare := i, stage := if u.copies then 1 else 2, final := 3 }] }
    { m := if u.copies then m else m.surveyorCommit 0, wait := some (.cadRemap u.kind u.num) }

/-- A unit's move has passed its flip, or ended without one. -/
def Mach.remapDone (m : Mach) (u : UnitRef) : Bool := !m.cad.moves.any fun x => x.unit = u && x.stage ≤ 2

/-! The survey log. -/

/-- SURVEY_LOG_READ: records of a survey in the order written, from the given one on (R630). -/
def Mach.logRead (m : Mach) (v : Bytes) : CmdRes :=
  let n := num v 0 4
  let n := if n = 0 then m.count kSurveyNumber else n
  let c := num v 6 2
  if c < 1 || c > 2048 then m.refuse .fbValue
  else
    let l := m.cad.log.reverse.filter fun r => r.survey = n
    { m, val := ((l.drop (num v 4 2)).take c).flatMap LogRec.bytes }

/-! The cadastre as read. -/

/-- The 512 bytes of a cadastre bank (Table 19.8). -/
def CadBank.bytes (b : CadBank) : Bytes :=
  cadKinds.flatMap fun k => (List.range (unitsOf k * parentsOf k)).map fun n => BitVec.ofNat 8 (b.physOf ⟨k, n⟩)

/-- A physical unit's state as CAD_READ shows it (R632): one that has failed and waits for a running move reads failed, whether or not
it still serves (R637). -/
def Mach.shownState (m : Mach) (k p i : Nat) : Nat :=
  if m.cad.queued.any fun q => q.2 = 2 && q.1.kind = k && q.1.parent = p && m.cad.cur.physOf q.1 = i then 2 else m.physState k p i

/-- The states of the 546 physical units (R632). -/
def Mach.physStates (m : Mach) : Bytes :=
  cadKinds.flatMap fun k => (List.range (parentsOf k)).flatMap fun p =>
    (List.range (unitsOf k + sparesOf k)).map fun i => BitVec.ofNat 8 (m.shownState k p i)

/-- CAD_READ: the current epoch's bank or the older one's, and the physical states (R631, R632). -/
def Mach.cadRead (m : Mach) (w : Nat) : CmdRes :=
  if w > 1 then m.refuse .fbValue
  else
    let b := if w = 1 then match m.cad.old with | some x => x.2 | none => m.cad.cur else m.cad.cur
    { m, val := b.bytes ++ m.physStates }

/-! The ledger. -/

/-- The 32 bytes of a history record (Table 21.6). -/
def Hist.bytes (h : Hist) : Bytes :=
  leB 32 (0x1E + h.data % 2 ^ 24 * 2 ^ 8 + h.sev * 2 ^ 32 + h.ctx % 4096 * 2 ^ 36 + h.items % 2 ^ 32 * 2 ^ 48 + h.status * 2 ^ 80 +
    h.outcome * 2 ^ 88 + h.cause * 2 ^ 96 + h.fclass * 2 ^ 104 + h.phys % 256 * 2 ^ 112 + h.unit.code * 2 ^ 120 +
    h.time % 2 ^ 48 * 2 ^ 144 + h.survey % 2 ^ 32 * 2 ^ 192 + h.lseq % 2 ^ 32 * 2 ^ 224)

/-- The ledger is written to board flash (R669); a write that fails degrades it, and its records stay in memory (R674). -/
def Mach.ledgerFlush (m : Mach) (ok : Bool) : Mach :=
  if m.flt.degraded || m.flt.hist.all (·.flushed) then m
  else if ok then m.flushHist
  else Mach.driveAlert m (m.setFlt { m.flt with degraded := true })

/-- LEDGER_LAST: the highest LSEQ written (Table 21.11). -/
def Mach.ledgerLast (m : Mach) : Nat := ((m.flt.hist.filter (·.flushed)).map (·.lseq)).foldl max 0

/-- LEDGER_READ: history records from an LSEQ on, those held in memory among them while DEGRADED (R672, R674). -/
def Mach.ledgerRead (m : Mach) (v : Bytes) : CmdRes :=
  let c := num v 4 2
  if c < 1 || c > 2048 || num v 6 2 ≠ 0 then m.refuse .fbValue
  else
    let l := m.flt.hist.reverse.filter fun h => h.lseq ≥ num v 0 4 && (h.flushed || m.flt.degraded)
    { m, val := (l.take c).flatMap Hist.bytes }

/-- The 8 bytes of a standing entry (R673). -/
def Standing.bytes (x : Standing) : Bytes := leB 1 x.kind ++ leB 1 x.unitKind ++ leB 1 x.parent ++ leB 1 x.index ++ leB 4 x.rowOrPage

/-- LEDGER_STANDING_READ (R673). -/
def Mach.standingRead (m : Mach) (v : Bytes) : CmdRes :=
  let c := num v 4 4
  if c < 1 || c > 4096 then m.refuse .fbValue
  else { m, val := ((m.flt.standing.drop (num v 0 4)).take c).flatMap Standing.bytes }

/-- LEDGER_ACK: every record up to an LSEQ is acknowledged (R671). -/
def Mach.ledgerAck (m : Mach) (n : Nat) : CmdRes :=
  { m := Mach.driveAlert m (m.setFlt { m.flt with acked := max m.flt.acked (min n m.flt.lseq) }) }

/-- HOLDINGS_READ: up to 4,096 records of a floor held by one party or all of a kind (R661). -/
def Mach.holdingsRead (m : Mach) (v : Bytes) : CmdRes :=
  let f := num v 0 1
  let p := num v 4 4
  if f > 1 || num v 2 2 ≠ 0 then m.refuse .fbValue
  else
    let l := (m.holdingsOn f).filter fun h => h.party.kind = num v 1 1 && (p = 0xFFFFFFFF || h.party.num = p)
    { m, val := (l.take 4096).flatMap Holding.bytes }

/-! The firmware image. -/

/-- The checks that a first chunk's header meets (R507): `f.meas` as for an image. -/
def headerGood (z : Fuses) (f : Verif) : Bool := nth 0 f.meas 0 = 1 && nth 0 f.meas 1 ≥ z.svn

/-- FW_UPDATE: a chunk of a new image (R623). From its first write the region is invalid; the chunk that completes it makes the
stored image be checked in full. -/
def Mach.fwUpdate (m : Mach) (z : Fuses) (v : Bytes) (f : Verif) : CmdRes :=
  let off := num v 0 4
  let total := num v 4 4
  let data := v.drop 8
  let ends (m : Mach) (have_ : Bytes) : CmdRes :=
    if have_.length < total then { m := m.setCad { m.cad with update := some ⟨total, have_⟩ } }
    else if imageGood z have_ f && have_.length = total then
      { m := m.setCad { m.cad with update := none, imageGood := true } }
    else { m := m.setCad { m.cad with update := none }, st := .fbValue }
  let write (have_ : Bytes) : CmdRes :=
    ends (m.setCad { m.cad with image := have_ ++ m.cad.image.drop have_.length, imageGood := false }) have_
  if off = 0 then
    if total < 1024 || total > 16777216 || data.length < 1024 || data.length > total || !headerGood z f then m.refuse .fbValue
    else write data
  else match m.cad.update with
  | none => m.refuse .fbValue
  | some u =>
    if u.total ≠ total || off ≠ u.data.length || off + data.length > total then m.refuse .fbValue else write (u.data ++ data)

end Sys2Proof.Machine
end

