-- ==== Sys2Proof/Machine/Values.lean ====
section
/-! DEFINITION. Entries as a request meets them: their rows (R31, R45), running values of read-only entries (Tables 2.11 to 21.11),
counters, readings and their latching (R84, R85, R552, R554), and descriptors (R697). -/
namespace Sys2Proof.Machine

/-! Rows. -/

/-- The rows of an index. -/
def rowsOf (i : Nat) : List EntryRow := entryRows.filter fun r => r.idx ≤ i && i < r.idx + r.n

/-- The row of sub-index 0x00: the highest sub-index in use, readable by every class with access to an entry of the record. -/
def subRow (i : Nat) (rs : List EntryRow) : EntryRow :=
  let top := rs.foldl (fun t r => max t (r.sub + r.k - 1)) 0
  let has (b : Nat) : Bool := rs.any fun r => bitOf r.acc b || bitOf r.acc (b + 1)
  let acc := [0, 2, 4, 6].foldl (fun a b => a + if has b then 2 ^ b else 0) 0
  .mk i 1 0 1 1 1 acc 0 false false 0 0 0 (leB 1 top) .all

/-- The row of an entry that exists (R31, R32), sub-index 0x00 among them. -/
def entryAt (k : Nat) : Option EntryRow :=
  if k % 256 = 0 then
    match rowsOf (k / 256) with
    | [] => none
    | rs => some (subRow (k / 256) rs)
  else entryRow k

/-- Access classes by their bit pair in ACCESS (Table 2.4, Table 2.5). -/
def rqClass : Rq → Nat
  | .session _ => 6
  | .item _ _ _ => 2
  | _ => 4

/-- A class may read an entry, and may write it or trigger it (R41). -/
def EntryRow.reads (r : EntryRow) (cls : Nat) : Bool := bitOf r.acc cls
def EntryRow.writes (r : EntryRow) (cls : Nat) : Bool := bitOf r.acc (cls + 1)

/-- An entry scoped to the requesting context (R42). -/
def isScoped (k : Nat) : Bool := k / 256 = 0x4820 || k / 256 = 0x9F00 || k = kRekeyMyState

/-- The context a requester acts for. -/
def rqCtx : Rq → Nat
  | .item _ _ c => c
  | _ => 0

/-! Counters and readings. -/

/-- First index of each group of COUNTER_CLEAR, and the one past its last (Table 2.16). -/
def counterGroup (g : Nat) : Nat × Nat :=
  nth (0, 0) [(0x9100, 0x9C00), (0x9100, 0x9200), (0x9200, 0x9300), (0x9300, 0x9400), (0x9400, 0x9500), (0x9500, 0x9700),
    (0x9700, 0x9780), (0x9780, 0x9800), (0x9800, 0x9900), (0x9900, 0x9A00), (0x9A00, 0x9B00), (0x9B10, 0x9C00)] g

/-- A counter or reading as it stands with counters `ctr` at `us`. -/
def telemetryAt (ctr : SMap Nat) (us k : Nat) : Nat :=
  let c := sgetD 0 ctr k
  if isMeasured k then (Config.reading k us + 2 ^ 64 - c) % 2 ^ 64
  else if 0x9A00 ≤ k / 256 && k / 256 < 0x9B00 && k % 256 ≤ 2 then Config.reading k us % 2 ^ 32
  else c

/-- A power reading in W: the mean over the last 100 ms window in steps of 50 W while readings are coarsened (R554). -/
def Mach.powerReading (m : Mach) (k now most : Nat) : Nat :=
  if m.sec.coarse then 50 * (Config.reading k m.lat.time % (most / 50 + 1)) else now

/-- What limits the power of rail `r` of floor `f`, in W, and its set voltage in mV (Table 18.1); VHOST's follows the core clock,
by a rule the spec does not give (free value, log 15). -/
def Mach.railSet (m : Mach) (f r : Nat) : Nat × Nat :=
  match r with
  | 4 => (19, 600 + Config.reading (0x9A0041 + 0x1000 * f) (nth 0 m.clk.coreMhz f) % 301)
  | 6 => (380, nth 0 m.lat.vcore (2 * f))
  | 7 => (380, nth 0 m.lat.vcore (2 * f + 1))
  | 8 => (380, 750)
  | 9 => (380, 750)
  | _ => (nth 0 [88, 28, 27, 72, 0, 6] r, nth 750 [750, 800, 750, 850, 750, 750] r)

/-- RAIL_CURRENT while readings are coarsened: the coarsened power over the set voltage, in Q16.16 A (R554). -/
def Mach.railCurrent (m : Mach) (f r : Nat) : Nat :=
  let x := m.railSet f r
  m.powerReading (key (0x9A00 + 16 * f + r) 1) 0 (x.1 + 25) * 65536000 / x.2

/-- An entry of the Counters and telemetry area as a class reads it (R85): latched for O and H while confidential-resident, and 0
for a core bound to a confidential context. -/
def Mach.telemetry (m : Mach) (cls k : Nat) : Nat :=
  let held : Bool := m.confResident && cls ≠ 2
  let i := k / 256
  if k = kCounterLatchTime then if m.confResident then m.lat.time else 0
  else if m.sec.coarse && 0x9A00 ≤ i && i < 0x9A20 && k % 256 = 1 then m.railCurrent ((i - 0x9A00) / 16) (i % 16)
  else if cls ≠ 2 && 0x9800 ≤ i && i < 0x9900 && m.confCtx (m.coreAt (i - 0x9800)).ctx then 0
  else if held then telemetryAt m.lat.ctr m.lat.time k
  else if m.sec.coarse && 0x9A00 ≤ i && i < 0x9B00 && k % 256 ≠ 2 && k % 256 ≠ 3 then telemetryAt m.fb.ctr m.lat.time k
  else telemetryAt m.fb.ctr m.clk.us k

/-- RING_COUNTERS's numbers. -/
def Ring.counts (x : Ring) : List Nat := [x.cTaken, x.cAccepted, x.cRefused, x.cDone, x.cFail]

/-- STREAM_COUNTERS's numbers of a stream: frames, bytes, frames held (R378), legs. -/
def Mach.streamCounts (m : Mach) (p dir tag : Nat) : List Nat :=
  let c := sgetD [0, 0, 0] m.trv.counters (streamKey p dir tag)
  let held := if dir = 1 then 0 else
    ((m.trv.held.filter fun h => h.port = p && h.tag = tag).map fun h => h.frames.length).foldl (· + ·) 0
  [nth 0 c 0, nth 0 c 1, held, nth 0 c 2]

/-- LEG_COUNTERS's numbers of a live traverse item: state, frames and waiting time of each leg. -/
def Trav.counts (t : Trav) : List Nat :=
  (List.range t.legs.length).flatMap fun l =>
    match sget t.runs l with
    | none => [0, 0, 0]
    | some r => [if r.done then 2 else 1, r.frames, r.waited]

/-- The boundary of AOCLK at which counters and telemetry are latched (R85, R552); coarsening ends at the first one without a
confidential context (R554). -/
def Mach.latchNow (m : Mach) : Mach :=
  let streams := m.trv.counters.map fun c => (c.1, m.streamCounts (c.1 / 32768 / 2) (c.1 / 32768 % 2) (c.1 % 32768))
  let m := m.setLat {
    time := m.clk.us / 100000 * 100000
    ctr := m.fb.ctr.filter fun c => 0x9000 ≤ c.1 / 256 && c.1 / 256 < 0xA000
    sensors := m.pwr.heat.map (·.sensors)
    slack := m.age.slack
    eyes := m.age.eyes
    rings := smap Ring.counts m.rng.rings
    streams
    legs := smap Trav.counts m.trv.live
    vcore := m.site.dev.map (·.vcore) }
  if m.confResident then m else m.setSec { m.sec with coarse := false }

/-! Read-only entries. -/

/-- Temperatures as Q16.16, from 1/16 °C. -/
def q16 (t : Int) : Bytes := leB 4 (unsigned 32 (t * 4096))

/-- A bit as a byte. -/
def bByte (b : Bool) : Bytes := leB 1 b.toNat

/-- 16 bytes and more of numbers of one width. -/
def leList (n : Nat) (l : List Nat) : Bytes := l.flatMap (leB n)

/-- ATTEST_CHAIN: the certificates of Table 15.2, whose bytes and length the spec does not state (free values). -/
def Mach.chainBytes (m : Mach) (z : Fuses) : Bytes :=
  let n := Config.unstated 505 [m.aliasKey z] % 4097
  (List.range n).map fun i => Config.chainByte (m.aliasKey z) i

/-- PORT_MAP. -/
def Mach.portMap (m : Mach) : Bytes :=
  portList.flatMap fun p =>
    let x := m.portAt p
    leB 1 x.state ++ leB 1 x.width ++ leB 2 (match x.partner with | some y => y.station | none => 0xFFFF) ++
      leB 1 (match x.partner with | some y => y.port | none => 0) ++ leB 1 x.protect ++ leB 1 (min (m.dirOf p) 0xFF) ++ [0]

/-- Identity, licences, drafts and stored layers (Tables 2.11 to 2.14). -/
def Mach.roBook (m : Mach) (z : Fuses) (k : Nat) : Bytes :=
  let i := k / 256
  if k = kOrderingCode then z.order
  else if k = kModuleSerial then leB 8 z.serial
  else if k = kFirmwareVersion then leB 4 m.sec.fwVersion
  else if k = kMonumentDigest then digest (leB 96 (Config.pubKey (monumentKey z)).toNat)
  else if k = kMgmtRole then leB 1 m.fb.role
  else if k = kLicencePresent then leB 1 m.fb.licences
  else if k = kLicencePending then leB 1 m.licPending
  else if k = kDraftState then leB 1 (match m.fb.draft with | none => 0 | some d => if rqClass d.owner = 6 then 1 else 2)
  else if k = kDraftWrites then leB 2 (match m.fb.draft with | none => 0 | some d => d.ents.length)
  else if k = kEpochCurrent then leB 4 m.fb.epoch
  else if k = kEpochOldestLive then leB 4 (match m.fb.old with | some o => o.1 | none => m.fb.epoch)
  else if k = kEpochOldItems then
    leB 4 (match m.fb.old with | some o => m.rng.items.countP (fun x => x.epoch = o.1) | none => 0)
  else if k = kCommitLastStatus then leB 1 m.fb.lastStatus.code
  else if k = kCommitLastEpoch then leB 4 m.fb.lastEpoch
  else if k = kCommitFailGroup then leB 2 m.fb.failGroup
  else if k = kBaselineDigest then m.layerDigest 8
  else if k = kBaselineEntries then leB 2 (m.goodLayer 8).length
  else if k % 256 = 1 then leB 2 (m.goodLayer (i - 0xA001)).length
  else m.layerDigest (i - 0xA001)

/-- Floor dies, grid, stacks, regulation, sweep engines, rings and contexts (Tables 3.7, 4.9, 5.9, 7.14, 9.14). -/
def Mach.roCore (m : Mach) (ctx k : Nat) : Option Bytes :=
  let i := k / 256
  let s := k % 256
  if k = kBridgeLanes then some (leB 1 m.bridgeLanes)
  else if k = kBridgeSparesLeft then some (leB 1 m.bridgeSpares)
  else if k = kDieState then some (leB 1 m.die.state)
  else if k = kMirrorResyncPending then some (leB 4 m.die.resync.length)
  else if k = kBufPoisonLines then some (leB 4 m.mem.poison.length)
  else if k = kSegmapValid then some (leB 4 m.grid.seg.length)
  else if 0x3410 ≤ i && i < 0x3416 then
    let t := i - 0x3410
    let x := m.stackAt t
    match s with
    | 1 => some (q16 x.temp)
    | 2 => some (leB 1 (m.stackCap t))
    | 3 => some (leB 1 x.refresh)
    | 6 => some (leB 4 ((m.stk.spareRows.filter fun r => r.1 / 64 / 32 = t).map (·.2)).sum)
    | 7 => some (leB 2 (x.retired.countP fun r => r.state = 1))
    | 8 => some (leB 4 (x.retired.countP fun r => r.state = 2))
    | 9 => some (leB 1 (m.channelsUp t))
    | 10 => some (leB 1 (m.sparesLeft 3 t))
    | 11 => some (leB 4 (m.stk.poison.countP fun p => (Place.ofPa (64 * p.1)).stack = t))
    | _ => none
  else if k = kRekeyMyState then some (leB 1 (match (m.keysOf ctx).rot with | .steady => 0 | .sweeping => 1 | .erasing => 2))
  else if 0x4010 ≤ i && i < 0x4016 then
    let t := i - 0x4010
    match s with
    | 1 => some (leB 1 ((List.range 16).countP fun e => m.cad.cur.physOf ⟨5, 16 * t + e⟩ ≠ 0xFF))
    | 2 => some (leB 1 (m.sparesLeft 5 t))
    | 5 => some (leB 2 (sgetD [] m.swp.queue t).length)
    | 6 => some (leList 2 ((List.range 16).map fun e =>
        match m.swp.sess.find? fun x => x.stack = t && x.first ≤ e && e < x.first + x.count && !x.freed.contains e with
        | some x => x.ctx
        | none => 0))
    | _ => none
  else if k = kRingsInUse then some (leB 2 m.rng.rings.length)
  else if k = kRingMarksState then some (leB 1 m.rng.marksState)
  else if k = kContextsInUse then some (leB 2 m.rng.ctxs.length)
  else if k = kMyContext then some (leB 2 ctx)
  else if k = kMyEventsLost then some (leB 4 (match m.ctx? ctx with | some c => c.evLost | none => 0))
  else none

/-- Link ports, traverses, tile sites, host cores, host and far-tier ports (Tables 10.10, 11.11, 12.11, 13.7, 14.11). -/
def Mach.roParts (m : Mach) (k : Nat) : Option Bytes :=
  let i := k / 256
  let s := k % 256
  if k = kPortMap then some m.portMap
  else if 0x5010 ≤ i && i < 0x5028 then
    let x := m.portAt (i - 0x5010)
    match s with
    | 1 => some (leB 1 x.state)
    | 2 => some (leB 1 x.cause)
    | 3 => some (leB 1 x.width)
    | 4 => some ((List.range 8).flatMap fun l => leB 1 (nth 0xFF x.txMap l))
    | 5 => some (bByte (x.txMap.contains 8 || x.rxMap.contains 8))
    | 9 => some (leB 1 x.nbrStep)
    | 10 => some (leB 8 (if x.sealKey.isSome then x.chainTx else 0))
    | _ => none
  else if k = kTravLive then some (leB 1 m.trv.live.length)
  else if 0x5810 ≤ i && i < 0x5814 then
    let t := i - 0x5810
    let x := m.siteAt t
    match s with
    | 1 => some (leB 1 x.state)
    | 2 => some (leB 1 x.cause)
    | 3 => some (leB 2 x.up)
    | 4 => some (leB 1 x.rate)
    | 7 => some (leB 2 (if m.sec.coarse then nth 0 m.lat.vcore t else x.vcore))
    | 8 => some (padTo 30 x.tileId)
    | _ => none
  else if 0x6010 ≤ i && i < 0x6030 then
    let c := i - 0x6010
    let x := m.coreAt c
    match s with
    | 1 => some (leB 1 (if x.state = 1 && m.clk.haltedClk.contains c then 2 else x.state))
    | 5 => some (leB 2 x.ctx)
    | 6 => some (leB 1 x.cause)
    | 7 => some (leB 8 (Config.reading k m.clk.us))
    | _ => none
  else if k = kHpRoleStraps then some (leB 1 m.cad.hpStraps)
  else if 0x6410 ≤ i && i < 0x6412 then
    let x := m.hpAt (i - 0x6410)
    match s with
    | 1 => some (leB 1 x.role)
    | 2 => some (leB 1 x.link)
    | 3 => some (leB 1 x.width)
    | 4 => some (leB 1 x.rate)
    | 5 => some (bByte x.flit)
    | 7 => some (leB 1 x.cause)
    | 8 => some (leB 1 x.sessions.length)
    | _ => none
  else if 0x6420 ≤ i && i < 0x6422 then
    let x := m.hpAt (i - 0x6420)
    match s with
    | 1 => some (leB 1 x.far)
    | 2 => some (leB 8 x.capacity)
    | 3 => some (padTo 16 x.device)
    | _ => none
  else none

/-- Security, management, clocks, power, heat, survey, cadastre, margins and ledger (Tables 15.8, 16.6, 17.10, 18.7, 19.12, 20.6,
21.11). -/
def Mach.roModule (m : Mach) (z : Fuses) (k : Nat) : Option Bytes :=
  let i := k / 256
  if k = kLifecycle then some (leB 1 z.life)
  else if k = kSvnFused then some (leB 1 (max z.svn m.sec.burn))
  else if k = kMeasGen then some (leB 4 m.sec.measGen)
  else if k = kAttestChain then some (m.chainBytes z)
  else if k = kKeyRequestsOpen then some (leB 1 m.sec.reqs.length)
  else if k = kConfContexts then some (leB 2 (m.rng.ctxs.countP fun c => c.2.conf))
  else if k = kLeases then some (leB 1 m.sec.leases.length)
  else if k = kIslandSeconds then some (leB 8 m.sec.island)
  else if k = kMgmtSessions then some (leB 1 m.fb.sessions.length)
  else if k = kRefsetDelay then some (leB 1 (4 ^ (m.clk.refset % 4)))
  else if k = kClockState then some (leB 1 m.clk.state)
  else if k = kGclkNow then some (leB 2 (if m.clk.loss.contains true then 400 else 2000))
  else if 0x2010 ≤ i && i < 0x2012 && k % 256 = 1 then some (leB 4 (nth 0 m.clk.locked (i - 0x2010)))
  else if k = kPwrState then some (leB 1 m.clk.pwr)
  else if k = kPwrLastWake then some (leB 1 m.clk.wake)
  else if k = kPwrEntries then some (leList 8 m.clk.entries)
  else if k = kPvinVolts then some (leB 4 (Config.reading k m.clk.us % 196609))
  else if k = kModulePower then some (leB 2 (m.powerReading k (Config.reading k m.clk.us % 2601) 2600))
  else if 0x2210 ≤ i && i < 0x2212 then
    if k % 256 = 1 then some (leB 2 (m.powerReading k (Config.reading k m.clk.us % 301) 300))
    else some (leB 4 (Config.reading k m.clk.us))
  else if 0x2220 ≤ i && i < 0x2224 && k % 256 = 2 then some (leB 2 (m.powerReading k (m.siteAt (i - 0x2220)).power 550))
  else if 0x2220 ≤ i && i < 0x2224 && k % 256 = 3 then some (leB 2 (m.siteAt (i - 0x2220)).ceiling)
  else if 0x2810 ≤ i && i < 0x2812 then
    let h := m.heatAt (i - 0x2810)
    match k % 256 with
    | 1 => some (q16 h.temp)
    | 2 => some (leB 1 h.level)
    | 3 => some (q16 h.bench)
    | 4 => some (bByte h.failed)
    | 5 => some (leB 2 (h.sensors.countP fun x => x.valid))
    | _ => none
  else if 0x2820 ≤ i && i < 0x2824 then
    let x := m.siteAt (i - 0x2820)
    some (if k % 256 = 1 then q16 x.temp else leB 1 x.level)
  else if 0x2830 ≤ i && i < 0x2836 then some (leB 1 (m.stackAt (i - 0x2830)).level)
  else if k = kSurveyStep then some (leB 1 m.cad.step)
  else if k = kSurveyPath then some (bByte m.cad.warm)
  else if k = kSurveyFailedStarts then some (leB 1 m.cad.fails)
  else if k = kFwSourceUsed then some (leB 1 m.cad.used)
  else if k = kFwSourcesTried then some (leB 1 m.cad.tried)
  else if k = kCadSparesLeft then
    some ([3, 4, 5, 7, 9].flatMap fun t => (List.range (parentsOf t)).flatMap fun p => leB 1 (m.sparesLeft t p))
  else if k = kCadWithdrawn then some (leB 2 m.cad.cur.gone.length)
  else if k = kCadMoveState then
    some (leB 1 ((m.cad.moves.map (·.stage)).foldl (fun a b => if a = 0 then b else min a b) 0))
  else if k = kMarginOffsets then some (leList 1 m.age.offsets)
  else if k = kLedgerLast then some (leB 4 m.ledgerLast)
  else if k = kLedgerUnacked then some (leB 2 (min m.unacked 65535))
  else if k = kLedgerState then some (bByte m.flt.degraded)
  else if k = kHoldingsInUse then some (leB 4 (m.holdingsOn 0).length ++ leB 4 (m.holdingsOn 1).length)
  else if k = kFences then some (leList 4 m.flt.fences)
  else if k = kAlertCauses then some (leB 2 m.alertCauses)
  else if k = kFaultCounts then some (leList 4 m.flt.counts)
  else none

/-- The running value of a read-only entry: a computed one, or the count it keeps. -/
def Mach.roVal (m : Mach) (z : Fuses) (cls ctx k : Nat) : Bytes :=
  let i := k / 256
  if k % 256 = 0 || k = kVendor || k = kPartFamily || k = kStepping || k = kFbSchema || k = kSweepFnId then
    match entryAt k with
    | some r => r.dflt
    | none => []
  else if 0x9000 ≤ i && i < 0xA000 then leB (lenOf k) (m.telemetry cls k)
  else if i < 0x2000 || 0xA000 ≤ i then m.roBook z k
  else match m.roCore ctx k with
  | some v => v
  | none => match m.roParts k with
    | some v => v
    | none => match m.roModule z k with
      | some v => v
      | none => leB (lenOf k) (m.count k)

/-- The value of an entry with target running, as a requester reads it (R39, R44): the default where its licence is absent. -/
def Mach.readVal (m : Mach) (z : Fuses) (rq : Rq) (r : EntryRow) (k : Nat) : Bytes :=
  if r.lic ≠ 0 && !m.hasLicence (r.lic - 1) then r.dflt
  else if r.wr = 0 then m.roVal z (rqClass rq) (rqCtx rq) k
  else if k = kMyEventClasses then leB 2 (match m.ctx? (rqCtx rq) with | some c => c.evClasses | none => 0)
  else m.runVal k

/-! Descriptors. -/

/-- The descriptor of an entry (Table 2.5). -/
def EntryRow.desc (r : EntryRow) (k : Nat) : Nat :=
  r.len + groupOf k * 2 ^ 16 + r.lic * 2 ^ 32 + (if r.result then 2 ^ 42 else 0) + (if r.sheet then 2 ^ 43 else 0) +
    r.wr * 2 ^ 44 + r.acc * 2 ^ 48 + r.ty * 2 ^ 56

/-- Minimum and maximum of an entry of fixed length (R697). -/
def EntryRow.ends (r : EntryRow) : Int × Int :=
  let top : Int := 2 ^ (8 * r.len) - 1
  if r.ty = 6 then (0, 1)
  else match r.range with
    | .span lo hi _ => (lo, hi)
    | .spanOr lo hi other => (min lo other, max hi other)
    | .listed l => (l.foldl min (l.headD 0), l.foldl max 0)
    | .bits mask => (0, mask)
    | _ => if r.isSigned then (-2 ^ 31, 2 ^ 31 - 1) else (0, top)

/-- What DESCRIBE answers for an entry (R45, R697). -/
def EntryRow.describe (r : EntryRow) (k : Nat) : Bytes :=
  let put (x : Int) : Bytes := leB r.len (unsigned (8 * r.len) x)
  leB 8 (r.desc k) ++
    if r.ty = 10 || r.ty = 11 then leB 2 r.dflt.length ++ r.dflt
    else padTo r.len r.dflt ++ put r.ends.1 ++ put r.ends.2

end Sys2Proof.Machine
end

