-- ==== Sys2Proof/Machine/Book.lean ====
section
/-! DEFINITION. The Field Book's operations: reads, writes and their refusals (R31 to R45, R76, R77, R112, R615), live writes (R34
to R36, R78), drafts (R49 to R54), commits and their switch (R55 to R65, R698), licences (R529, R530), stored layers (R66 to R70)
and change notifications (R81). -/
namespace Sys2Proof.Machine

/-! Operation records. -/

/-- The entry an operation record names. -/
def opKey (r : OpRec) : Nat := key r.index r.sub

/-- The stored layer of a target (Table 2.10): 8 the baseline, 0 to 7 a sheet. -/
def opLayer (t : Nat) : Option Nat := if t = 0x10 then some 8 else if 0x20 ≤ t && t ≤ 0x27 then some (t - 0x20) else none

/-- A record that its frame's type does not allow (Tables 2.2, 2.9, 2.10, R52): a status, a reserved target or type, a value where
none belongs, a write to the pending layer, a draft write of a CMD entry. -/
def opMalformed (ty : Nat) (r : OpRec) : Bool :=
  r.status ≠ 0 || !(r.target ≤ 2 || (opLayer r.target).isSome) ||
  (if ty = 3 then r.ty = 0 || r.ty > 11 || r.target = 2 || (r.target = 1 && wrOf (opKey r) = 4)
   else r.ty ≠ 0 || !r.value.isEmpty)

/-- The first status of a list of checks whose condition holds (R77). -/
def firstBad : List (Bool × Status) → Option Status
  | [] => none
  | c :: r => if c.1 then some c.2 else firstBad r

/-! Reads. -/

/-- The value of an entry in a target layer (Table 2.10, R39, R44, R68). -/
def Mach.targetVal (m : Mach) (z : Fuses) (rq : Rq) (e : EntryRow) (t k : Nat) : Bytes :=
  let now := m.readVal z rq e k
  if e.lic ≠ 0 && !m.hasLicence (e.lic - 1) then e.dflt
  else if t = 1 then
    match m.fb.draft with
    | some d => sgetD now d.ents k
    | none => now
  else if t = 2 then if e.wr = 3 then sgetD (sgetD now m.fb.pendSheet k) m.fb.pend k else now
  else match opLayer t with
  | none => now
  | some n =>
    if n = 8 then if e.sheet then sgetD e.dflt (m.goodLayer 8) k else e.dflt
    else if e.sheet then sgetD [] (m.goodLayer n) k else []

/-- A READ of one record (R41, R76): status, type and value. -/
def Mach.opRead (m : Mach) (z : Fuses) (rq : Rq) (r : OpRec) : Status × Nat × Bytes :=
  if opMalformed 2 r then (.rejectFormat, 0, [])
  else match entryAt (opKey r) with
  | none => (.rejectRange, 0, [])
  | some e =>
    if e.reads (rqClass rq) then (.done, e.ty, m.targetVal z rq e r.target (opKey r)) else (.fbAccessClass, 0, [])

/-- A DESCRIBE of one record, for every class (R697). -/
def opDescribe (r : OpRec) : Status × Nat × Bytes :=
  if opMalformed 4 r then (.rejectFormat, 0, [])
  else match entryAt (opKey r) with
  | none => (.rejectRange, 0, [])
  | some e => (.done, e.ty, e.describe (opKey r))

/-! Writes. -/

/-- Who owns what a requester opens: a frame that came over VC 2 acts for host port 0 (R488). -/
def draftOwner : Rq → Rq
  | .member _ => .hostPort 0
  | rq => rq

/-- CMD entries refused until survey step 21 (R615). -/
def earlyBusy : List Nat := [kDraftOpen, kContextCreate, kRingCreate, kSegmapWrite]

/-- The requester owns the open draft (R50). -/
def Mach.ownsDraft (m : Mach) (rq : Rq) : Bool := match m.fb.draft with | some d => d.owner = draftOwner rq | none => false

/-- A commit holds the draft (R698). -/
def Mach.draftHeld (m : Mach) : Bool := match m.fb.draft with | some d => d.held | none => false

/-- The draft is full, and does not hold the entry (R53). -/
def Mach.draftFull (m : Mach) (k : Nat) : Bool :=
  match m.fb.draft with | some d => d.ents.length ≥ 16384 && !shas d.ents k | none => false

/-- The first cause that refuses a well-formed write of an entry that exists (R77). A draft write of a requester that owns no draft is refused with FB_NO_DRAFT, as
COMMIT is (Table 2.6; DESIGN CHOICE, log 23). -/
def Mach.writeRefused (m : Mach) (rq : Rq) (e : EntryRow) (r : OpRec) : Option Status :=
  let k := opKey r
  let cls := rqClass rq
  let layer := opLayer r.target
  let removes : Bool := (match layer with | some n => n < 8 | none => false) && r.value.isEmpty
  firstBad [
    (!e.writes cls || e.wr = 0 || (layer.isSome && cls ≠ 6) ||
      (cls = 2 && (!isScoped k || !(e.wr = 1 || e.wr = 4) || groupOf k ≠ 0)) ||
      (cls = 4 && k = kMgmtClientRoots && !(m.runVal k).isEmpty), .fbAccessClass),
    (e.lic ≠ 0 && !m.hasLicence (e.lic - 1), .rejectLicence),
    (r.ty ≠ e.ty || (!removes && e.lenBad r.value), .fbType),
    (!removes && (e.valueBad r.value || (k = kGroupFwd && r.value.any fun b => 24 ≤ b.toNat && b.toNat < 0xFE)), .fbValue),
    ((r.target = 0 && e.wr = 2) || (r.target = 1 && !m.ownsDraft rq), .fbNoDraft),
    (r.target = 0 && groupOf k ≠ 0, .fbCoupled),
    (m.fb.role = 1 || (m.cad.step < 21 && (e.wr = 2 || earlyBusy.contains k)) || (r.target = 1 && m.draftHeld), .rejectBusy),
    ((layer.isSome && !e.sheet) || (r.target = 1 && m.draftFull k), .rejectRange)]

/-- Place of a status in the order of R77; REJECT_ACCESS, which it leaves out, stands before REJECT_LICENCE as in R12. -/
def Status.opRank : Status → Nat
  | .rejectFormat => 0 | .fbAccessClass => 1 | .rejectAccess => 2 | .rejectLicence => 3 | .fbType => 4 | .fbValue => 5
  | .fbNoDraft => 6 | .fbCoupled => 7 | .rejectBusy => 8 | .rejectRange => 9 | _ => 10

/-- CMD entries whose own rule puts their refusals in the order of R12 (R299, R523, R525, R540, R546, R550): REJECT_RANGE before
REJECT_BUSY. -/
def r12Keys : List Nat := [kRingCreate, kKeyRequest, kKeyInstall, kKeyRotate, kLeaseUnseal, kDebugUnlock]

/-- A CMD entry refused for `st` whose own action ends with `own`: the first of the two in the order of R77, or of R12. CONTEXT_DESTROY
refuses contexts outside its entry's range by R291 and R296. -/
def cmdFirst (k : Nat) (st own : Status) : Status :=
  if k = kContextDestroy && st = .fbValue then own
  else if r12Keys.contains k && st = .rejectBusy && own = .rejectRange then own
  else if own.opRank < st.opRank then own else st

/-- As `writeRefused`, for a CMD entry whose own action ends with `own`. -/
def Mach.cmdRefused (m : Mach) (rq : Rq) (e : EntryRow) (r : OpRec) (own : Status) : Option Status :=
  (m.writeRefused rq e r).map fun st => cmdFirst (opKey r) st own

/-- LIVE entries that a running item reads until its end (R35). -/
def heldLive : List Nat := [kSiteWorkTimeout, kHostWorkTimeout, kTravHoldLimit]

/-- What items of an epoch that have started go on running under when entry `k` of its bank changes (R35). -/
def Mach.lateFor (m : Mach) (k epoch : Nat) (b : Bank) : List (Nat × Bytes × List Nat) :=
  let busy := (m.rng.items.filter fun i => i.started && i.epoch = epoch).map Item.key
  if heldLive.contains k && !busy.isEmpty then [(k, b.val k, busy)] else []

/-- A direct write of a LIVE entry reaches both banks (R36); items that have started keep the value that their own epoch's bank held
before it (R35). A context-scoped entry is the requesting context's (R42). -/
def Mach.putLive (m : Mach) (rq : Rq) (k : Nat) (v : Bytes) : Mach :=
  if k = kMyEventClasses then
    match m.ctx? (rqCtx rq) with
    | none => m
    | some c => m.setRng { m.rng with ctxs := sput m.rng.ctxs (rqCtx rq) { c with evClasses := leN v } }
  else
    let put (b : Bank) : Bank := { b with ovr := sput b.ovr k v }
    let old := match m.fb.old with | some o => m.lateFor k o.1 o.2 | none => []
    let late := m.fb.late ++ m.lateFor k m.fb.epoch m.fb.cur ++ old
    m.setFb { m.fb with cur := put m.fb.cur, old := m.fb.old.map fun o => (o.1, put o.2), late }

/-- What follows from a change of configuration outside the values themselves: cores' clocks (R567), refresh (R168) and open debug
ports (R548). -/
def Mach.configChanged (old m : Mach) : Mach :=
  let m := (List.range 6).foldl (fun m s => m.setRefresh s) m
  Mach.debugChange old ((m.askClock 0).askClock 1)

/-- A write that nothing refuses, of an entry that is no CMD entry: into the draft (R53), a stored layer (R69), the cold-entry store
(R39, R617), or live (R35). -/
def Mach.opPut (m : Mach) (rq : Rq) (e : EntryRow) (r : OpRec) : Mach :=
  let k := opKey r
  if r.target = 1 then
    match m.fb.draft with
    | some d => m.setFb { m.fb with draft := some { d with ents := sput d.ents k r.value } }
    | none => m
  else match opLayer r.target with
  | some n =>
    let l := m.goodLayer n
    m.putLayer n (if n < 8 && r.value.isEmpty then sdel l k else sput l k r.value)
  | none =>
    if e.wr = 3 then m.setFb { m.fb with pend := sput m.fb.pend k r.value }
    else Mach.configChanged m (m.putLive rq k r.value)

/-! Notifications. -/

/-- Change notifications of one session for the entries it named whose running value is not the one last told (R81, R82). -/
def Mach.noteSession (m : Mach) (z : Fuses) (n : Nat) (x : Session) : Session :=
  x.ents.foldl (fun x k =>
    match entryAt k with
    | none => x
    | some e =>
      let v := m.readVal z (.session n) e k
      if sget x.seen k = some v then x else { x.push (.entry k v) with seen := sput x.seen k v }) x

/-- Change notifications of every session. -/
def Mach.noteAll (m : Mach) (z : Fuses) : Mach :=
  m.setFb { m.fb with sessions := m.fb.sessions.map fun s => (s.1, m.noteSession z s.1 s.2) }

/-- `n`, which followed on `m`, with its change notifications where the epoch has switched between them (R81). -/
def Mach.toldAs (m : Mach) (z : Fuses) (n : Mach) : Mach := if n.fb.epoch = m.fb.epoch then n else n.noteAll z

/-! Drafts. -/

/-- The party that a requester is (Table 21.4). -/
def rqParty : Rq → Party
  | .session n => ⟨0, n⟩
  | .hostPort n => ⟨5, n⟩
  | .core c => ⟨2, c⟩
  | .member _ => ⟨5, 0⟩
  | .item _ _ c => ⟨3, c⟩

/-- DRAFT_OPEN (R49, R55). -/
def Mach.draftOpen (m : Mach) (rq : Rq) : CmdRes :=
  if m.fb.draft.isSome then m.refuse .rejectBusy
  else { m := (m.setFb { m.fb with draft := some { owner := draftOwner rq } }).hold 0 9 (rqParty rq) 0 0 }

/-- DRAFT_DISCARD (R50, R698): by its owner, or by class O for a draft of class H. -/
def Mach.draftDiscard (m : Mach) (rq : Rq) : CmdRes :=
  match m.fb.draft with
  | none => m.refuse .fbNoDraft
  | some d =>
    if !(d.owner = draftOwner rq || (rqClass rq = 6 && rqClass d.owner = 4)) then m.refuse .fbNoDraft
    else if d.held then m.refuse .rejectBusy
    else { m := m.discardDraft 1 }

/-- No write has reached the draft for `ms` ms (R54); the time does not run while a commit holds it (R698). -/
def Mach.draftIdle (m : Mach) (ms : Nat) : Mach :=
  if ms ≥ m.cfg kDraftIdleTimeout && !m.draftHeld then m.discardDraft 3 else m

/-- The draft is closed by a commit. -/
def Mach.draftClose (m : Mach) : Mach :=
  (m.setFb { m.fb with draft := none, committing := none }).unhold fun h => h.kind = 9

/-! Commits. -/

/-- The sheet that a draft makes active, where it changes (R70). -/
def Mach.newSheet (m : Mach) (ents : SMap Bytes) : Option Nat :=
  match sget ents kActiveSheet with
  | some v => if leN v = m.cfg kActiveSheet then none else some (leN v)
  | none => none

/-- The values of a sheet over the baseline, as far as their digests pass. -/
def Mach.sheetOver (m : Mach) (n : Nat) : SMap Bytes := layOver (m.goodLayer 8) (m.goodLayer n)

/-- The bank that a draft gives (R66, R70): a change of sheet drops the overrides of sheet-able STAGED and LIVE entries that are not
in the draft. -/
def Mach.draftBank (m : Mach) (ents : SMap Bytes) : Bank :=
  match m.newSheet ents with
  | none => { m.fb.cur with ovr := layOver m.fb.cur.ovr (notCold ents) }
  | some n =>
    { ovr := layOver (m.fb.cur.ovr.filter fun p => !isSheet p.1 || wrOf p.1 = 3) (notCold ents), lay := notCold (m.sheetOver n) }

/-- The lowest coupling group that fails for a draft (R47, R48): values of the draft, of a new sheet, and running ones. -/
def Mach.draftConflict (m : Mach) (ents : SMap Bytes) : Option Nat :=
  let sheet : SMap Bytes := match m.newSheet ents with | some n => m.goodLayer n | none => []
  let all := layOver sheet ents
  m.badGroup (fun k => sgetD (m.runVal k) all k) (skeys all)

/-- A commit ends with a failure status (R56, R58): its status, the group of a conflict in COMMIT_FAIL_GROUP, and the EPOCH event, which
carries that entry (R335). -/
def Mach.commitFails (m : Mach) (st : Status) (group : Nat := 0) : Mach :=
  let g := if st = .fbConflict then group else m.fb.failGroup
  (m.setFb { m.fb with lastStatus := st, failGroup := g }).event evEpoch 0x03 1 {} 0 (g * 65536 + st.code)

/-- COMMIT, steps 1 to 3 of Table 2.6 (R56 to R58): its reply waits for steps 4 to 7. -/
def Mach.commit (m : Mach) (rq : Rq) : CmdRes :=
  let fails (st : Status) (g : Nat) : CmdRes := { m := m.commitFails st g, st }
  match m.fb.draft with
  | none => fails .fbNoDraft 0
  | some d =>
    if d.owner ≠ draftOwner rq then fails .fbNoDraft 0
    else if d.held then m.refuse .rejectBusy
    else if d.ents.any fun p => match entryRow p.1 with
        | some e => e.lic ≠ 0 && !m.hasLicence (e.lic - 1)
        | none => false then fails .rejectLicence 0
    else match m.draftConflict d.ents with
    | some g => fails .fbConflict g
    | none =>
      if d.ents.isEmpty then
        { m := m.draftClose.setFb { m.draftClose.fb with lastStatus := .done }, val := leB 4 m.fb.epoch }
      else
        { m := m.setFb { m.fb with draft := some { d with held := true }, committing := some rq }, wait := some .commit }

/-- Sheet-able COLD entries. -/
def coldSheetKeys : List Nat :=
  (entryRows.filter fun r => r.sheet && r.wr = 3).flatMap fun r =>
    (List.range r.n).flatMap fun i => (List.range r.k).map fun j => key (r.idx + i) (r.sub + j)

/-- A session's client still meets R556: its root is listed and is not the broker's, its leaf is not denied. -/
def Mach.clientGood (m : Mach) (root leaf : Nat) : Bool :=
  let has (k d : Nat) : Bool := (chunks 48 32 (m.runVal k)).any fun c => leN c = d
  has kMgmtClientRoots root && !has kMgmtClientDeny leaf && root ≠ leN (m.runVal kBrokerRootDigest)

/-- Sessions whose client no longer meets R556 are closed (R557). -/
def Mach.closeRefused (m : Mach) : Mach :=
  m.sec.clients.foldl (fun m c =>
    if shas m.fb.sessions c.1 && !m.clientGood c.2.1 c.2.2 then m.dropSession c.1 else m) m

/-- Steps 5 to 7 of Table 2.6 for the draft `d` (R59 to R62, R70, R517, R518, R557). -/
def Mach.commitApply (m : Mach) (d : Draft) : Mach :=
  let old := m
  let sheet := m.newSheet d.ents
  let m := (m.wake 6).switchEpoch (m.draftBank d.ents) m.cad.cur d.ents.length 1
  let pendSheet : SMap Bytes := match sheet with
    | none => old.fb.pendSheet
    | some n => coldSheetKeys.foldl (fun s k => sput s k (sgetD (dfltVal k) (old.sheetOver n) k)) []
  let m := m.setFb { m.fb with pend := layOver m.fb.pend (onlyCold d.ents), pendSheet }
  let m := m.draftClose
  let plat : Bool := (kTileAllow :: platKeys).any fun k => old.runVal k ≠ m.runVal k
  let m := if plat then m.measure 9 m.platDigest else m
  let m := if storeKeys.any (shas d.ents) then m.writeStore else m
  let lists : Bool := [kMgmtClientRoots, kMgmtClientDeny].any fun k => old.runVal k ≠ m.runVal k
  let m := if lists then m.closeRefused else m
  Mach.configChanged old m

/-- A commit that waits at step 4 may go on (R63, R65): not while the surveyor has something to commit (R30). -/
def Mach.commitFree (m : Mach) : Bool := m.fb.old.isNone && !m.surveyorHas

/-- COMMIT_TIMEOUT has passed at step 4 (R56, R698): the draft is its owner's again, or goes with an owner that left. -/
def Mach.commitLate (m : Mach) : Mach :=
  match m.fb.draft with
  | none => m
  | some d =>
    let m := (m.commitFails .fbEpochFull).setFb
      { (m.commitFails .fbEpochFull).fb with draft := some { d with held := false, orphan := false }, committing := none }
    if d.orphan then m.discardDraft 2 else m

/-! Licences and stored layers. -/

/-- LICENCE_INSTALL (R529). -/
def Mach.licInstall (m : Mach) (z : Fuses) (v : Bytes) (f : Verif) : CmdRes :=
  let id := num v 16 4
  if !(licenceShape z v && f.chain && f.sig) then m.refuse .fbValue
  else if m.fb.stored.length ≥ 8 && !shas m.fb.stored id then m.refuse .rejectBusy
  else { m := m.setFb { m.fb with stored := sput m.fb.stored id v } }

/-- LICENCE_REMOVE (R530). -/
def Mach.licRemove (m : Mach) (v : Nat) : CmdRes := { m := m.setFb { m.fb with removing := Nat.lor m.fb.removing v } }

/-- SAVE_RUNNING: the sheet-able runtime overrides, COLD ones that the last survey put in force among them (R617), into a layer. -/
def Mach.saveRunning (m : Mach) (t : Nat) : CmdRes :=
  let n := if t = 0x10 then 8 else t - 0x20
  let vals := (m.fb.cur.ovr.filter fun p => isSheet p.1).filterMap fun p =>
    if wrOf p.1 = 3 then (sget m.fb.coldRun p.1).map fun v => (p.1, v) else some p
  { m := m.putLayer n (layOver (m.goodLayer n) vals) }

/-- SHEET_CLEAR (R69). -/
def Mach.sheetClear (m : Mach) (n : Nat) : CmdRes := { m := m.putLayer n [] }

/-- COUNTER_CLEAR (R84). -/
def Mach.counterClear (m : Mach) (g : Nat) : CmdRes :=
  { m := m.zeroArea (counterGroup g).1 (counterGroup g).2 }

end Sys2Proof.Machine
end

