-- ==== Sys2Proof/Machine/LinkRows.lean ====
section
/-! DEFINITION. The commands of link ports and traverses (10_link_ports.md, 11_traverses.md) other than frames, which may carry
VC 2, and Field Book commands. -/
namespace Sys2Proof.Machine

/-! Ports. -/

/-- LINK_NAK_RECEIVE (R339, R340): NAK with the last good sequence. -/
def execLinkNakReceive (p ack : Nat) (s : State) : Result := runIf (p < 24 && ack < 4096) s fun m => m.linkNak p ack

/-- LINK_NAK_RETRAIN (R340, R343, R355, R705): whether each retraining in turn succeeds, at the current width and then narrower. -/
def execLinkNakRetrain (p : Nat) (g : LinkRetrain) (s : State) : Result := runIf (p < 24) s fun m => m.nakRetrain p g

/-- LINK_TRAINING (Table 10.4, R342 to R344, R350 to R353); a partner detected in DORMANT wakes the module (Table 17.7). -/
def execLinkTraining (p tx rx protect : Nat) (w : LinkPeer) (s : State) : Result :=
  runFzIf (p < 24) s fun z m =>
    (if m.clk.pwr = 3 && m.clk.portsStopped.contains p then m.wake 5 else m).linkTrain z.serial p tx rx protect w fun d =>
      m.aliasSign z (leB 96 (Config.pubKey d).toNat) ++ m.chainBytes z

/-- PARTNER_DETECT_TIMEOUT (Table 10.4 step 1). -/
def execPartnerDetectTimeout (p ms : Nat) (s : State) : Result := runIf (p < 24) s fun m => m.partnerLate p ms

/-- LINK_BER_WINDOW (R345). -/
def execLinkBerWindow (p dir lane errs bits : Nat) (s : State) : Result :=
  runIf (p < 24 && dir < 2 && lane < 9) s fun m => m.berWindow p dir lane errs bits

/-- LINK_BER_GATE (R347, R348). -/
def execLinkBerGate (p : Nat) (errs : List Nat) (bits lost : Nat) (s : State) : Result :=
  runFzIf (p < 24) s fun z m => m.berGate z.serial p errs bits lost

/-- DISCOVER (R363, R364). -/
def execDiscover (p : Nat) (msg : LinkMsg) (s : State) : Result :=
  runFzIf (p < 24) s fun z m => m.msgIn z.serial p { msg with ty := 1 }

/-- THROTTLE (R359). -/
def execThrottle (p : Nat) (msg : LinkMsg) (s : State) : Result :=
  runIf (p < 24) s fun m => m.msgIn 0 p { msg with ty := 2 }

/-- THROTTLE_REPEAT (R358). -/
def execThrottleRepeat (kind zone us : Nat) (s : State) : Result :=
  runIf (if kind = 1 then zone < 6 else kind = 2 && zone < 2) s fun m => m.repeatThrottle kind zone us

/-- THROTTLE_EXPIRE (R359). -/
def execThrottleExpire (p kind zone us : Nat) (s : State) : Result :=
  runIf (p < 24) s fun m => m.throttleGone p kind zone us

/-- SLEEP_NOTICE (R361, R705). -/
def execSleepNotice (p : Nat) (msg : LinkMsg) (s : State) : Result :=
  runIf (p < 24) s fun m => m.msgIn 0 p { msg with ty := 3 }

/-- DOWN_NOTICE (R360, R705). -/
def execDownNotice (p : Nat) (msg : LinkMsg) (s : State) : Result :=
  runIf (p < 24) s fun m => m.msgIn 0 p { msg with ty := 4 }

/-- LINK_RETRY (R365). -/
def execLinkRetry (p ms : Nat) (s : State) : Result := runIf (p < 24) s fun m => m.linkRetry p ms

/-! Legs of traverse items. -/

/-- A frame arrives for a receiving leg whose OP is `op`, on its port, VC and stream (R378, R383). -/
def Mach.legRecv (m : Mach) (k i op : Nat) (f : Bytes) : Mach :=
  match m.legAt k i op with
  | none => m
  | some (_, _, l, _) =>
    let y := m.portAt l.port
    (m.setPort l.port { y with used := setAt y.used l.vc (nth 0 y.used l.vc + 1) }).streamFrame l.port l.vc l.stream (f.take 256)

/-- LEG_START (R374, R388): the next leg of an item. -/
def execLegStart (ring seq : Nat) (s : State) : Result :=
  runIf (ring < 32768 && seq < 2 ^ 48) s fun m =>
    match m.item? (itemKey ring seq) with
    | some i => if i.started then m.startLeg i.key else m
    | none => m

/-- SEND (R385, R706). -/
def execSend (ring seq leg : Nat) (s : State) : Result :=
  runIf (ring < 32768 && seq < 2 ^ 48) s fun m => m.advanceSend (itemKey ring seq) leg 1

/-- RECV (R706). -/
def execRecv (ring seq leg : Nat) (frame : Bytes) (s : State) : Result :=
  runIf (ring < 32768 && seq < 2 ^ 48) s fun m => m.legRecv (itemKey ring seq) leg 2 frame

/-- FORWARD (R706). -/
def execForward (ring seq leg : Nat) (frame : Bytes) (s : State) : Result :=
  runIf (ring < 32768 && seq < 2 ^ 48) s fun m => m.legRecv (itemKey ring seq) leg 3 frame

/-- REDUCE_RECV (R385 to R387). -/
def execReduceRecv (ring seq leg : Nat) (frame : Bytes) (s : State) : Result :=
  runIf (ring < 32768 && seq < 2 ^ 48) s fun m => m.legRecv (itemKey ring seq) leg 4 frame

/-- EMAX_SEND (R389). -/
def execEmaxSend (ring seq leg : Nat) (s : State) : Result :=
  runIf (ring < 32768 && seq < 2 ^ 48) s fun m => m.advanceSend (itemKey ring seq) leg 5

/-- EMAX_RECV (R389). -/
def execEmaxRecv (ring seq leg : Nat) (frame : Bytes) (s : State) : Result :=
  runIf (ring < 32768 && seq < 2 ^ 48) s fun m => m.legRecv (itemKey ring seq) leg 6 frame

/-- GRANT (R384). -/
def execGrant (ring seq leg : Nat) (s : State) : Result :=
  runIf (ring < 32768 && seq < 2 ^ 48) s fun m => m.grant (itemKey ring seq) leg

/-- WAIT_CREDIT (R384). -/
def execWaitCredit (ring seq leg : Nat) (s : State) : Result :=
  runIf (ring < 32768 && seq < 2 ^ 48) s fun m => m.waitCredit (itemKey ring seq) leg

/-- ATOMIC_SEND (R392). -/
def execAtomicSend (ring seq leg : Nat) (s : State) : Result :=
  runIf (ring < 32768 && seq < 2 ^ 48) s fun m => m.advanceSend (itemKey ring seq) leg 9

/-- ATOMIC_RECV (R391). -/
def execAtomicRecv (ring seq leg : Nat) (frame : Bytes) (s : State) : Result :=
  runIf (ring < 32768 && seq < 2 ^ 48) s fun m => m.legRecv (itemKey ring seq) leg 10 frame

/-! Streams and notices. -/

/-- UNCLAIMED_HOLD_EXPIRE (R378, R384): what is held for a tag has been held for `us` µs. -/
def execUnclaimedHoldExpire (p tag us : Nat) (s : State) : Result :=
  runIf (p < 24 && tag < 32768) s fun m => if us ≥ 1000 * m.cfg kTravHoldLimit then m.dropHeld p tag else m

/-- A TRAVERSE_NOTICE of one kind (Table 11.6). -/
def LinkMsg.note (g : LinkMsg) (n : Nat) : LinkMsg := { g with ty := 5, body := g.body % 2 ^ 184 + n * 2 ^ 184 }

/-- CREDIT_NOTICE (R384). -/
def execCreditNotice (p : Nat) (msg : LinkMsg) (s : State) : Result :=
  runIf (p < 24) s fun m => m.msgIn 0 p (LinkMsg.note msg 1)

/-- HOLD_NOTICE (R393). -/
def execHoldNotice (p : Nat) (msg : LinkMsg) (s : State) : Result :=
  runIf (p < 24) s fun m => m.msgIn 0 p (LinkMsg.note msg 2)

/-- HOLD_NOTICE_SEND (R395): `us` µs after the last, with the age of the last HOLD received for the tag, if any. -/
def execHoldNoticeSend (ring seq us : Nat) (holdAge : Option Nat) (s : State) : Result :=
  runIf (ring < 32768 && seq < 2 ^ 48) s fun m => if us ≥ 10000 then m.sendHolds (itemKey ring seq) holdAge else m

/-- FAIL_NOTICE (R398, R399). -/
def execFailNotice (p : Nat) (msg : LinkMsg) (s : State) : Result :=
  runIf (p < 24) s fun m => m.msgIn 0 p (LinkMsg.note msg 3)

/-- FAIL_NOTICE_FORGET (R399). -/
def execFailNoticeForget (p tag us : Nat) (s : State) : Result :=
  runIf (p < 24 && tag < 32768) s fun m =>
    if us ≥ 1000 * m.cfg kTravHoldLimit then
      (m.setTrv { m.trv with fails := m.trv.fails.filter fun f => !(f.port = p && f.tag = tag) }).heldNotices p
    else m

/-- LEG_PATIENCE_EXPIRE (R393, R394): leg `leg` has waited `us` µs. -/
def execLegPatienceExpire (ring seq leg us : Nat) (holdAge : Option Nat) (s : State) : Result :=
  runIf (ring < 32768 && seq < 2 ^ 48) s fun m => m.patience (itemKey ring seq) leg us holdAge

end Sys2Proof.Machine
end

