-- ==== Sys2Proof/Machine/Actions.lean ====
section
/-! DEFINITION. What a write of each CMD entry does (R79): readings and counters (Table 2.16, R85), the firmware broadcast (R408, R410),
the far test (R491), fences, and the entry's own action elsewhere. -/
namespace Sys2Proof.Machine

/-! Readings and counters. -/

/-- O and H see latched values (R85). -/
def Mach.latched (m : Mach) (cls : Nat) : Bool := m.confResident && cls ≠ 2

/-- SENSOR_READ (R598): 264 readings, then a bit for each that is valid. -/
def Mach.sensorRead (m : Mach) (cls f : Nat) : CmdRes :=
  if f > 1 then m.refuse .fbValue
  else
    let l := if m.latched cls then nth [] m.lat.sensors f else (m.heatAt f).sensors
    let at_ (i : Nat) : Sensor := nth {} l i
    let bits := (List.range 264).foldl (fun v i => if (at_ i).valid then v + 2 ^ i else v) 0
    { m, val := ((List.range 264).flatMap fun i => q16 (at_ i).temp) ++ leB 33 bits }

/-- How many units EYE_HISTORY_READ knows of a kind (Table 9.9). -/
def eyeUnits (kind : Nat) : Nat := match kind with | 1 => 2 | 3 => 192 | 7 => 64 | 8 => 24 | _ => 0

/-- EYE_HISTORY_READ (R643): the survey-time eye and 64 daily minima, latest first; days without one read as zeros. -/
def Mach.eyeRead (m : Mach) (cls : Nat) (v : Bytes) : CmdRes :=
  let kind := num v 0 1
  let n := num v 1 2
  if n ≥ eyeUnits kind then m.refuse .fbValue
  else
    let eyes := if m.latched cls then m.lat.eyes else m.age.eyes
    let e := sgetD {} eyes (runKey ⟨kind, n⟩ (num v 3 1))
    let put (p : Nat × Nat) : Bytes := leB 2 p.1 ++ leB 2 p.2
    { m, val := put e.survey ++ (List.range 64).flatMap fun i => put (nth (0, 0) e.minima i) }

/-- MONITOR_SLACK_READ (R641). -/
def Mach.slackRead (m : Mach) (cls f : Nat) : CmdRes :=
  if f > 1 then m.refuse .fbValue
  else
    let s := if m.latched cls then m.lat.slack else m.age.slack
    { m, val := (List.range 64).flatMap fun i => leB 2 (unsigned 16 (sgetD 0 s (64 * f + i))) }

/-- RING_COUNTERS: zeros for a ring of a confidential context (R85). -/
def Mach.ringCounters (m : Mach) (cls r : Nat) : CmdRes :=
  match m.ring? r with
  | none => m.refuse .rejectRange
  | some x =>
    let l := if m.confCtx x.ctx then [0, 0, 0, 0, 0] else if m.latched cls then sgetD [0, 0, 0, 0, 0] m.lat.rings r else x.counts
    { m, val := leList 8 l }

/-- STREAM_COUNTERS (R378). -/
def Mach.streamRead (m : Mach) (cls : Nat) (v : Bytes) : CmdRes :=
  let p := num v 0 1
  let dir := num v 1 1
  let tag := num v 2 2
  if p > 23 || dir > 1 || tag > 32767 then m.refuse .fbValue
  else
    let l := if m.latched cls then sgetD [0, 0, 0, 0] m.lat.streams (streamKey p dir tag) else m.streamCounts p dir tag
    { m, val := leList 8 l }

/-- A leg's state, 7 reserved bytes, frames and waiting time, from three numbers each. -/
def legBytes : Nat → List Nat → Bytes
  | 0, _ => []
  | n + 1, l => leB 8 (nth 0 l 0) ++ leB 8 (nth 0 l 1) ++ leB 8 (nth 0 l 2) ++ legBytes n (l.drop 3)

/-- LEG_COUNTERS of a live traverse item. -/
def Mach.legCounters (m : Mach) (cls : Nat) (v : Bytes) : CmdRes :=
  let k := itemKey (num v 0 2) (num v 2 8)
  match sget m.trv.live k with
  | none => m.refuse .rejectRange
  | some t =>
    let l := if m.latched cls then sgetD [] m.lat.legs k else t.counts
    { m, val := legBytes t.legs.length l }

/-- MY_RING_COUNTERS (R85). -/
def Mach.myRing (m : Mach) (ctx r : Nat) : CmdRes :=
  match m.ring? r with
  | none => m.refuse .rejectAccess
  | some x => if x.ctx = ctx then { m, val := leList 8 x.counts } else m.refuse .rejectAccess

/-- MY_CORE_COUNTERS (R85). -/
def Mach.myCore (m : Mach) (ctx c : Nat) : CmdRes :=
  if c > 31 || (m.coreAt c).ctx ≠ ctx then m.refuse .rejectAccess
  else { m, val := leList 8 ((List.range 6).map fun i => m.telemetry 2 (key (0x9800 + c) (i + 1))) }

/-! The firmware broadcast. -/

/-- Bytes of the pending tile firmware region (R616): board flash holds 64 MiB or more, how much more the spec does not state (a free
value, log 16). -/
def pendRegion : Nat := 2 ^ 26 - 0x01E40000 + Config.unstated 616 []

/-- A frame of the broadcast on every port of GROUP_BCAST_PORTS that is UP (R405). -/
def Mach.sendBcast (m : Mach) (b : Bytes) : Mach :=
  (m.upPorts.filter fun p => bitOf (m.cfg kGroupBcastPorts) p).foldl (fun m p => m.sendFrame p 2 (2 ^ 14 + 4) b) m

/-- FW_BCAST (R408, R410): its reply waits for the members it names. An image that cannot be read is refused (DEDUCED from R10: no
fail-class status in a reply; log 28). -/
def Mach.fwBcast (m : Mach) (rq : Rq) (v : Bytes) : CmdRes :=
  let ctx := num v 0 2
  let len := num v 16 4
  if len > pendRegion then m.refuse .rejectFormat
  else if num v 2 6 ≠ 0 || num v 20 12 ≠ 0 then m.refuse .fbValue
  else if m.trv.bcast.isSome then m.refuse .rejectBusy
  else if m.member ≠ 0 then m.refuse .rejectRange
  else
    let g := m.itemRead (ringPort 0) m.fb.epoch ctx (num v 8 8) len
    let m := g.1
    match g.2 with
  | .error f => m.refuse (if f.st.isReject then f.st else .rejectRange)
  | .ok image =>
    let id := m.trv.bcastId
    let head := leB 4 len ++ leB 4 id ++ digest image ++ List.replicate 200 0
    let m := m.setTrv { m.trv with bcastId := (id + 1) % 2 ^ 32, bcast := some { rq, id, mask := num v 32 16 } }
    let m := (chunks 256 (len / 256 + 1) image).foldl (fun m b => m.sendBcast (padTo 256 b)) (m.sendBcast head)
    if num v 32 16 = 0 then { m := m.setTrv { m.trv with bcast := none }, val := List.replicate 128 0xFE }
    else { m, wait := some .fwBcast }

/-- The 128 status bytes of a broadcast (R410). -/
def Bcast.bytes (b : Bcast) : Bytes :=
  (List.range 128).map fun i => BitVec.ofNat 8 (if bitOf b.mask i then sgetD 0xFF b.answers i else 0xFE)

/-! Fences, cores and the far test. -/

/-- SITE_FENCE (R444): answered when the fence completes. -/
def Mach.siteFenceCmd (m : Mach) (t : Nat) : CmdRes :=
  let m := m.startSiteFence t 2 false
  { m, wait := if (m.siteAt t).fencing.isSome then some (.siteFence t) else none }

/-- SITE_READMIT_NOW (R446): answered when the re-admission ends. -/
def Mach.readmitCmd (m : Mach) (t : Nat) : CmdRes :=
  let x := m.siteAt t
  if x.fencing.isSome || x.readmitting || m.floorLost (t / 2) || m.floorGone (t / 2) || m.pwr.closure.isSome then m.refuse .rejectBusy
  else if x.state ≠ 6 && x.state ≠ 7 && x.state ≠ 1 then m.refuse .rejectRange
  else { m := m.siteReadmit t, wait := some (.siteReadmit t) }

/-- HOST_CORE_FENCE (R466). -/
def Mach.coreFenceCmd (m : Mach) (c : Nat) : CmdRes :=
  let m := m.startCoreFence c 2 false
  { m, wait := if (m.coreAt c).fencing.isSome then some (.coreFence c) else none }

/-- HP_FENCE (R498). -/
def Mach.hpFenceCmd (m : Mach) (n : Nat) : CmdRes :=
  let m := m.startHpFence n 2 false
  { m, wait := if (m.hpAt n).fencing.isSome then some (.hpFence n) else none }

/-- HOST_CORE_START and HOST_CORE_STOP answer a status at once. -/
def cmdOf (r : Status × Mach) : CmdRes := { m := r.2, st := r.1 }

/-- FAR_TEST (R491, Table 14.11): the errors that its PRBS31 read-back finds are the command's operand. -/
def Mach.farTest (m : Mach) (n : Nat) (v : Bytes) (f : Verif) : CmdRes :=
  let base := num v 0 8
  let len := num v 8 8
  let x := m.hpAt n
  if base % 4096 ≠ 0 || len % 4096 ≠ 0 then m.refuse .fbValue
  else if !x.moves.isEmpty then m.refuse .rejectBusy
  else if x.role ≠ 2 || x.far ≠ 2 || base + len > x.capacity then m.refuse .rejectRange
  else { m := m.emit (.far n base []), val := leB 8 (nth 0 f.meas 0) }

/-! Dispatch. -/

/-- Actions of the areas below 0x5000: the Field Book's own, clocks and power, heat, grid, stacks, rings. -/
def Mach.actLow (m : Mach) (z : Fuses) (rq : Rq) (k : Nat) (v : Bytes) (f : Verif) : CmdRes :=
  if k = kLicenceInstall then m.licInstall z v f
  else if k = kLicenceRemove then m.licRemove (leN v)
  else if k = kDraftOpen then m.draftOpen rq
  else if k = kDraftDiscard then m.draftDiscard rq
  else if k = kCommit then m.commit rq
  else if k = kPwrRequest then m.pwrRequest (leN v)
  else if k = kPwrOff then m.pwrOff
  else if k = kThermRecalNow then m.recalNow f.meas
  else if k = kSegmapWrite then m.segWrite rq v
  else if k = kSegmapRead then m.segRead v
  else if k = kSegmapClearContext then m.segClear rq (leN v)
  else if k = kRlcFlush then { m := m.rlcFlush }
  else if k = kStackRetireList then m.retireList (leN v)
  else if k = kRekeyQuery then m.rekeyQuery (leN v)
  else if k = kRingCreate then m.ringCreate (leN v)
  else if k = kRingDelete then m.ringDelete (leN v)
  else if k = kRingReopen then m.ringReopen (leN v)
  else if k = kRingQuery then m.ringQuery (leN v)
  else if k = kRingLastMarks then m.ringMarks (leN v)
  else if k = kContextCreate then m.ctxCreate v
  else if k = kContextDestroy then m.ctxDestroy (leN v)
  else m.ctxQuery (leN v)

/-- Actions of the areas 0x5000 to 0x7FFF: links, sites, cores, host ports, security. -/
def Mach.actMid (m : Mach) (z : Fuses) (rq : Rq) (k : Nat) (v : Bytes) (f : Verif) : CmdRes :=
  let i := k / 256
  let s := k % 256
  if k = kLinkRetrain then m.linkRetrain (leN v)
  else if k = kFwBcast then m.fwBcast rq v
  else if 0x5810 ≤ i && i < 0x5814 then if s = 9 then m.siteFenceCmd (i - 0x5810) else m.readmitCmd (i - 0x5810)
  else if 0x6010 ≤ i && i < 0x6030 then
    let c := i - 0x6010
    if s = 2 then cmdOf (m.coreStart c (num v 0 2) (num v 2 2) (num v 4 8))
    else if s = 3 then cmdOf (m.coreStop c) else m.coreFenceCmd c
  else if 0x6410 ≤ i && i < 0x6412 then m.hpFenceCmd (i - 0x6410)
  else if 0x6420 ≤ i && i < 0x6422 then m.farTest (i - 0x6420) v f
  else if k = kSecVersionAdvance then m.svnAdvance z
  else if k = kAttestReport then m.attest z v
  else if k = kKeyRequest then m.keyRequest z v
  else if k = kKeyInstall then m.keyInstall z v f
  else if k = kDebugChallenge then m.debugChallenge
  else if k = kDebugUnlock then m.debugUnlock z f
  else if k = kKeyRotate then m.keyRotate (leN v)
  else if k = kKeyErase then m.keyErase (leN v)
  else if k = kKeyQuery then m.keyQuery (leN v)
  else if k = kLeaseUnseal then m.leaseUnseal z v
  else if k = kLeaseRevoke then m.leaseRevoke v
  else m.leaseList

/-- Actions of the areas from 0x8000 on: survey, ledger, margins, counters, stored layers. -/
def Mach.actHigh (m : Mach) (z : Fuses) (rq : Rq) (k : Nat) (v : Bytes) (f : Verif) : CmdRes :=
  let cls := rqClass rq
  if k = kSurveyLogRead then m.logRead v
  else if k = kFwUpdate then m.fwUpdate z v f
  else if k = kCadRead then m.cadRead (leN v)
  else if k = kCadRemapUnit then m.cadRemap v
  else if k = kMarginReplanNow then m.replanNow
  else if k = kMarginPlanRead then m.planRead (leN v)
  else if k = kLedgerRead then m.ledgerRead v
  else if k = kLedgerStandingRead then m.standingRead v
  else if k = kLedgerAck then m.ledgerAck (leN v)
  else if k = kHoldingsRead then m.holdingsRead v
  else if k = kCounterClear then m.counterClear (leN v)
  else if k = kSensorRead then m.sensorRead cls (leN v)
  else if k = kEyeHistoryRead then m.eyeRead cls v
  else if k = kMonitorSlackRead then m.slackRead cls (leN v)
  else if k = kRingCounters then m.ringCounters cls (leN v)
  else if k = kStreamCounters then m.streamRead cls v
  else if k = kLegCounters then m.legCounters cls v
  else if k = kMyRingCounters then m.myRing (rqCtx rq) (leN v)
  else if k = kMyCoreCounters then m.myCore (rqCtx rq) (leN v)
  else if k = kSaveRunning then m.saveRunning (leN v)
  else m.sheetClear (k / 256 - 0xA001)

/-- The action of a CMD entry (R79). -/
def Mach.act (m : Mach) (z : Fuses) (rq : Rq) (k : Nat) (v : Bytes) (f : Verif) : CmdRes :=
  if k < 0x500000 then m.actLow z rq k v f else if k < 0x800000 then m.actMid z rq k v f else m.actHigh z rq k v f

/-- A WRITE of one record (R77 to R79): the module after it, with the status, value and wait of a CMD entry. -/
def Mach.opWrite (m : Mach) (z : Fuses) (rq : Rq) (f : Verif) (r : OpRec) : CmdRes :=
  if opMalformed 3 r then m.refuse .rejectFormat
  else match entryAt (opKey r) with
  | none => m.refuse .rejectRange
  | some e =>
    if r.target = 0 && e.wr = 4 then
      let a := m.act z rq (opKey r) r.value f
      match m.cmdRefused rq e r a.st with
      | some st => if st = a.st then { m := a.m.noteAll z, st } else m.refuse st
      | none => { a with m := a.m.noteAll z }
    else match m.writeRefused rq e r with
    | some st => m.refuse st
    | none => { m := (m.opPut rq e r).noteAll z }

end Sys2Proof.Machine
end

