-- ==== Sys2Proof/Machine/Serve.lean ====
section
/-! DEFINITION. The Field Book Access Protocol: frames and operation records (R72 to R80, R696 to R700), replies to sessions, mailboxes
and items (R320, R459, R476, R488), sessions (R73, R556), and the answers that waited for their action (R79). -/
namespace Sys2Proof.Machine

/-! Records in bytes. -/

/-- Operation records in a payload (Table 2.9), at most `fuel` of them; `none` where they do not fill it exactly. A record whose
padding is not zero keeps a STATUS that no request may carry, so that it is refused as malformed. -/
def opsOf : Nat → Bytes → Option (List OpRec)
  | 0, b => if b.isEmpty then some [] else none
  | fuel + 1, b =>
    if b.isEmpty then some []
    else
      let len := num b 6 2
      let full := 8 + (len + 3) / 4 * 4
      if b.length < full then none
      else
        let pad := leN (((b.drop (8 + len)).take (full - 8 - len)))
        let r : OpRec := { index := num b 0 2, sub := num b 2 1, target := num b 3 1, ty := num b 4 1
                           status := if pad = 0 then num b 5 1 else 0xFF, value := (b.drop 8).take len }
        (opsOf fuel (b.drop full)).map fun l => r :: l

/-- The bytes of an operation record. -/
def opBytes (r : OpRec) : Bytes :=
  leB 2 r.index ++ leB 1 r.sub ++ leB 1 r.target ++ leB 1 r.ty ++ leB 1 r.status ++ leB 2 r.value.length ++
    padTo ((r.value.length + 3) / 4 * 4) r.value

/-- Bytes an answered record takes. -/
def opSize (r : OpRec) : Nat := 8 + (r.value.length + 3) / 4 * 4

/-- A record as its reply carries it. -/
def opAnswer (r : OpRec) (st : Status) (ty : Nat) (v : Bytes) : OpRec :=
  { r with status := st.code, ty := if v.isEmpty then r.ty else ty, value := v }

/-- A frame as its bytes spell it (Table 2.7). -/
def frameOf (b : Bytes) (f : Verif) : Frame :=
  let len := num b 8 4
  { version := num b 0 1, ty := num b 1 1, status := num b 2 1, flags := num b 3 1, reqId := num b 4 4, length := len
    rsvd := num b 12 4, payload := if len > 65520 then [] else padTo len (b.drop 16), verif := f }

/-- The bytes of a frame. -/
def frameBytes (f : Frame) : Bytes :=
  leB 1 f.version ++ leB 1 f.ty ++ leB 1 f.status ++ leB 1 f.flags ++ leB 4 f.reqId ++ leB 4 f.length ++ leB 4 f.rsvd ++ f.payload

/-- A reply frame's bytes. -/
def replyBytes (ty : Nat) (st : Status) (reqId : Nat) (payload : Bytes) : Bytes :=
  frameBytes { ty := (ty + 0x80) % 256, status := st.code, reqId, length := payload.length, payload }

/-- A requester is a session; the others, mailboxes and items, take READ, WRITE and DESCRIBE only (R459, R476). -/
def isSession : Rq → Bool
  | .session _ => true
  | _ => false

/-- A malformed frame (R74), of a requester whose HELLO has been answered or not. -/
def frameBad (rq : Rq) (hello : Bool) (f : Frame) : Bool :=
  let records : Bool := match opsOf 256 f.payload with | some l => l.isEmpty | none => true
  f.version ≠ 1 || f.length > 65520 || f.flags ≠ 0 || f.rsvd ≠ 0 || f.status ≠ 0 || f.payload.length ≠ f.length ||
  (if isSession rq then f.ty < 1 || f.ty > 8 || (f.ty = 1) = hello else f.ty < 2 || f.ty > 4) ||
  (if 2 ≤ f.ty && f.ty ≤ 4 then records
   else if f.ty = 5 then f.length < 4 || f.length ≠ 4 + 4 * num f.payload 2 2 else f.length ≠ 0)

/-! Replies. -/

/-- The Field Book answers requests: from the end of step 04 on, while power is there (R615). -/
def Mach.bookServes (m : Mach) : Bool := m.cad.step ≥ 5 && !m.pwr.off && m.pwr.reset.isNone

/-- A requester's channel. -/
def Mach.chanOf (m : Mach) (rq : Rq) : Chan := sgetD {} m.fb.chans (rqCode rq)

/-- A requester's channel put to `c`; one with nothing in it goes. -/
def Mach.putChan (m : Mach) (rq : Rq) (c : Chan) : Mach :=
  m.setFb { m.fb with
    chans := if c = {} then sdel m.fb.chans (rqCode rq) else sput m.fb.chans (rqCode rq) c }

/-- An FB_REQUEST item's reply is written and the item completes (R43, R320). -/
def Mach.itemReply (m : Mach) (k : Nat) (b : Bytes) (bare : Bytes) : Mach :=
  match m.item? k with
  | none => m
  | some i =>
    let b := if b.length > fbMax i.desc then bare else b
    let w := m.itemWrite (ringPort (ringFloor i.ring)) i.epoch i.ctx (fbReply i.desc) b
    match w.2 with
    | some f => w.1.finish k f.st f.unit
    | none => w.1.finish k .done {} 0 b.length

/-- A reply leaves for its requester: on its session, to the mailbox it then lands in, over VC 2, or into the item's buffer. -/
def Mach.sendReply (m : Mach) (rq : Rq) (ty : Nat) (st : Status) (reqId : Nat) (payload : Bytes) : Mach :=
  let b := replyBytes ty st reqId payload
  match rq with
  | .session n => if shas m.fb.sessions n then m.emit (.reply rq ((ty + 0x80) % 256) st reqId payload) else m
  | .hostPort n => if (m.hpAt n).mbxGo = 1 then m.putChan rq { m.chanOf rq with reply := some b } else m
  | .core c => if (m.coreAt c).mbxGo = 1 then m.putChan rq { m.chanOf rq with reply := some b } else m
  | .member k => m.sendVc2 k 0 (m.chanOf rq).vc2 Status.done.code b
  | .item ring seq _ => m.itemReply (itemKey ring seq) b (replyBytes ty .rejectRange reqId [])

/-! Carrying out. -/

/-- One record carried out: the module after it, and the type of its value (R76). -/
def Mach.opRun (m : Mach) (z : Fuses) (rq : Rq) (ty : Nat) (f : Verif) (r : OpRec) : CmdRes × Nat :=
  if ty = 3 then (m.opWrite z rq f r, match entryAt (opKey r) with | some e => e.ty | none => 0)
  else
    let x := if ty = 2 then m.opRead z rq r else opDescribe r
    ({ m, st := x.1, val := x.2.2 }, x.2.1)

/-- The bound of R699 holds for a requester's replies; an FB_REQUEST item's has REPLY_MAX in its place (R320). -/
def bounded : Rq → Bool
  | .item _ _ _ => false
  | _ => true

/-- Bytes of the value that the record of a waiting action will carry: an epoch, a status for each segment-map record, or for each member. -/
def waitBytes (r : OpRec) : Wait → Nat
  | .commit => 4
  | .segmap => if opKey r = kSegmapWrite then (r.value.length + 17) / 18 else 0
  | .fwBcast => 128
  | _ => 0

/-- Records in order (R76): those answered, latest first, and where one waits for its action, that one, those behind it and what it
waits for. A reply past 65,520 bytes refuses its record and every later one (R699). -/
def Mach.runOps (z : Fuses) (rq : Rq) (ty : Nat) (f : Verif) : Mach → List OpRec → List OpRec →
    Mach × List OpRec × Option (OpRec × List OpRec × Wait)
  | m, done, [] => (m, done, none)
  | m, done, r :: rest =>
    let x := m.opRun z rq ty f r
    let a := opAnswer r x.1.st x.2 (match x.1.wait with | some w => List.replicate (waitBytes r w) 0 | none => x.1.val)
    if bounded rq && (done.map opSize).foldl (· + ·) 0 + opSize a + 8 * rest.length > 65520 then
      (m, (rest.reverse.map fun q => opAnswer q .rejectRange 0 []) ++ opAnswer r .rejectRange 0 [] :: done, none)
    else match x.1.wait with
    | some w => (x.1.m, done, some (r, rest, w))
    | none => Mach.runOps z rq ty f x.1.m (a :: done) rest

/-- A frame's records are carried out; its reply goes out, or it waits (R79). -/
def Mach.opsOn (m : Mach) (z : Fuses) (rq : Rq) (ty reqId : Nat) (f : Verif) (done ops : List OpRec) : Mach :=
  match Mach.runOps z rq ty f m done ops with
  | (m, done, none) => (m.putChan rq { m.chanOf rq with cur := none }).sendReply rq ty .done reqId (done.reverse.flatMap opBytes)
  | (m, done, some (cur, rest, wait)) =>
    m.putChan rq { m.chanOf rq with cur := some { rq, ty, reqId, verif := f, done, cur, rest, wait } }

/-! Subscriptions. -/

/-- The entries that a SUBSCRIBE names, as key and reserved byte. -/
def namedOf : Nat → Bytes → List (Nat × Nat)
  | 0, _ => []
  | n + 1, b => (key (num b 0 2) (num b 2 1), num b 3 1) :: namedOf n (b.drop 4)

/-- SUBSCRIBE (R80, R700): its status, and the session after it. -/
def Mach.subscribe (m : Mach) (z : Fuses) (n : Nat) (x : Session) (b : Bytes) : Status × Session :=
  let mask := num b 0 2
  let names := namedOf (num b 2 2) (b.drop 4)
  let ents := names.map (·.1)
  let rows := ents.map entryAt
  if Nat.land mask 0xF001 ≠ 0 || names.any (fun e => e.2 ≠ 0) then (.rejectFormat, x)
  else if names.length > 64 || rows.any (·.isNone) then (.rejectRange, x)
  else if rows.any fun r => match r with | some e => !e.reads 6 | none => false then (.fbAccessClass, x)
  else
    let seen := ents.foldl (fun s k => match entryAt k with
      | some e => sput s k (m.readVal z (.session n) e k)
      | none => s) ([] : SMap Bytes)
    (.done, { x with mask, ents, seen })

/-- A session changed. -/
def Mach.putSession (m : Mach) (n : Nat) (x : Session) : Mach := m.setFb { m.fb with sessions := sput m.fb.sessions n x }

/-- The HELLO reply: MODULE_SERIAL, FB_SCHEMA, session number, greatest payload. -/
def helloBytes (z : Fuses) (n : Nat) : Bytes := leB 8 z.serial ++ leB 2 0x0100 ++ leB 1 n ++ leB 4 65520

/-! Frames. -/

/-- A requester's frame is carried out now (Table 2.8, R74). -/
def Mach.frameNow (m : Mach) (z : Fuses) (rq : Rq) (f : Frame) : Mach :=
  let hello : Bool := match rq with
    | .session n => (match sget m.fb.sessions n with | some x => x.hello | none => false)
    | _ => true
  if frameBad rq hello f then
    let m := m.sendReply rq f.ty .rejectFormat f.reqId []
    match rq with
    | .session n => (m.dropSession n).noteAll z
    | _ => m
  else if 2 ≤ f.ty && f.ty ≤ 4 then m.opsOn z rq f.ty f.reqId f.verif [] ((opsOf 256 f.payload).getD [])
  else match rq with
  | .session n =>
    match sget m.fb.sessions n with
    | none => m
    | some x =>
      let say (m : Mach) (st : Status) (b : Bytes) : Mach := m.sendReply rq f.ty st f.reqId b
      if f.ty = 1 then say (m.putSession n { x with hello := true }) .done (helloBytes z n)
      else if f.ty = 5 then
        let r := m.subscribe z n x f.payload
        say (m.putSession n r.2) r.1 []
      else if f.ty = 6 then say (m.putSession n { x with mask := 0, ents := [], seen := [] }) .done []
      else if f.ty = 7 then say m .done []
      else ((say m .done []).dropSession n).noteAll z
  | _ => m

/-- Frames held behind one that has been answered follow in order (R75). -/
def Mach.drainHeld (z : Fuses) (rq : Rq) : Nat → Mach → Mach
  | 0, m => m
  | fuel + 1, m =>
    let c := m.chanOf rq
    if c.cur.isSome then m
    else match c.held with
    | [] => m
    | f :: rest => Mach.drainHeld z rq fuel ((m.putChan rq { c with held := rest }).frameNow z rq f)

/-- A frame arrives on a session (R75): carried out, held behind one that waits, or refused at once past 16. -/
def Mach.sessionFrame (m : Mach) (z : Fuses) (n : Nat) (f : Frame) : Mach :=
  let rq : Rq := .session n
  if !m.bookServes || !shas m.fb.sessions n then m
  else
    let c := m.chanOf rq
    if c.cur.isNone then Mach.drainHeld z rq 16 (m.frameNow z rq f)
    else if c.held.length ≥ 15 then m.sendReply rq f.ty .rejectBusy f.reqId []
    else m.putChan rq { c with held := c.held ++ [f] }

/-- The operation a requester's frame waited for has ended: its record is answered and the frame goes on (R79). -/
def Mach.resume (m : Mach) (z : Fuses) (rq : Rq) (st : Status) (v : Bytes) : Mach :=
  match (m.chanOf rq).cur with
  | none => m
  | some p =>
    let ty := match entryAt (opKey p.cur) with | some e => e.ty | none => 0
    Mach.drainHeld z rq 16 (m.opsOn z rq p.ty p.reqId p.verif (opAnswer p.cur st ty v :: p.done) p.rest)

/-- As `resume`, where the requester's frame waits for `w`. -/
def Mach.resumeFor (m : Mach) (z : Fuses) (rq : Rq) (w : Wait) (st : Status) (v : Bytes) : Mach :=
  match (m.chanOf rq).cur with
  | none => m
  | some p => if p.wait = w then m.resume z rq st v else m

/-- What has ended among the actions that frames wait for; commits, broadcasts, closures and messages to other members are answered
by what ends them. With F0 lost every action of it has ended, and its record is refused as any write is then (R107, R112). -/
def Mach.waitOver (m : Mach) (rq : Rq) (w : Wait) : Option CmdRes :=
  if m.fb.role = 1 then some (m.refuse .rejectBusy)
  else match w with
  | .segmap => m.segReply rq
  | .ctxDestroy c =>
    match m.ctx? c with
    | some x => if x.st = .destroying then none else some { m }
    | none => some { m }
  | .siteFence t => if (m.siteAt t).fencing.isNone then some { m } else none
  | .siteReadmit t => if !(m.siteAt t).readmitting && (m.siteAt t).fencing.isNone then some { m } else none
  | .coreFence c => if (m.coreAt c).fencing.isNone then some { m } else none
  | .hpFence n => if (m.hpAt n).fencing.isNone then some { m } else none
  | .cadRemap kind num => if m.remapDone ⟨kind, num⟩ then some { m } else none
  | .linkRetrain p => if m.retrainDone p then some { m } else none
  | .commit | .fwBcast | .pwrOff => none

/-- The frame of one channel is answered if what it waits for has ended. -/
def Mach.resumeOne (m : Mach) (z : Fuses) (code : Nat) : Mach :=
  match (sgetD {} m.fb.chans code).cur with
  | none => m
  | some p =>
    match m.waitOver p.rq p.wait with
    | some r => r.m.resume z p.rq r.st r.val
    | none => m

/-- Every frame whose action has ended is answered (R79). -/
def Mach.resumeAll (m : Mach) (z : Fuses) : Mach := (skeys m.fb.chans).foldl (fun m c => m.resumeOne z c) m

/-! Requests by path. -/

/-- A core's or host port's mailbox request starts: MBX_GO reads 1 until its reply lands (Table 13.3, R459, R476). -/
def Mach.mailbox (m : Mach) (z : Fuses) (rq : Rq) (f : Frame) : Mach := Mach.drainHeld z rq 16 (m.frameNow z rq f)

/-- A core's request frame goes to the surveyor (R459), unless one is unanswered. -/
def Mach.coreMbx (m : Mach) (z : Fuses) (c : Nat) (f : Frame) : Mach :=
  let x := m.coreAt c
  if !m.bookServes || x.state ≠ 1 || x.fencing.isSome || x.mbxGo = 1 then m
  else (m.setCoreAt c { x with mbxGo := 1 }).mailbox z (.core c) f

/-- A host port's request for its own member starts (R476). -/
def Mach.ownMbx (m : Mach) (z : Fuses) (n : Nat) (f : Frame) : Mach :=
  let x := m.hpAt n
  if !m.hpServes n || x.mbxGo = 1 || !m.bookServes then m
  else ((m.wake 4).setHpAt n { (m.wake 4).hpAt n with mbxGo := 1 }).mailbox z (.hostPort n) f

/-- MBX_GO of a host port written with 1 (R476, R488): the port's own surveyor, or another member over VC 2 channel 0. -/
def Mach.hpMbx (m : Mach) (z : Fuses) (n : Nat) (f : Verif) : Mach :=
  let x := m.hpAt n
  if m.hpTarget n = m.ownMember then m.ownMbx z n (frameOf x.mbxReq f)
  else if !m.hpServes n || x.mbxGo = 1 then m
  else
    let m := m.wake 4
    let req := (m.trv.reqId + 1) % 65536
    let b := (padTo (16 + num x.mbxReq 8 4) x.mbxReq).take 65536
    let m := m.setHpAt n { x with mbxGo := 1 }
    (m.setTrv { m.trv with reqId := req, waits := m.trv.waits ++ [⟨req, m.hpTarget n, 0, n, 0⟩] }).sendVc2 (m.hpTarget n) 0 req 0 b

/-- The reply of a mailbox lands, and MBX_GO reads 2 (R459, Table 13.4). -/
def Mach.mbxLands (m : Mach) (rq : Rq) : Mach :=
  let c := m.chanOf rq
  match c.reply, rq with
  | some b, .core n =>
    let x := m.coreAt n
    (m.putChan rq { c with reply := none }).setCoreAt n ({ x with mbxReply := b, mbxGo := 2 }.interrupt 4)
  | some b, .hostPort n =>
    (m.putChan rq { c with reply := none }).setHpAt n { m.hpAt n with mbxReply := b, mbxGo := 2 }
  | _, _ => m

/-- An FB_REQUEST item's frame is carried out as class C of its context (R42, R43, R320). -/
def Mach.itemFrame (m : Mach) (z : Fuses) (i : Item) (f : Frame) : Mach :=
  let rq : Rq := .item i.ring i.seq i.ctx
  (m.startItem i.key).mailbox z rq f

/-- An FB_REQUEST item reads its request frame and carries it out (R320). -/
def Mach.fbItem (m : Mach) (z : Fuses) (i : Item) (v : Verif) : Mach :=
  let g := m.itemRead (ringPort (ringFloor i.ring)) i.epoch i.ctx (fbAddr i.desc) (fbLen i.desc)
  let m := g.1
  match g.2 with
  | .error e => (m.startItem i.key).finish i.key e.st e.unit
  | .ok b =>
    let f := frameOf b v
    m.itemFrame z i (if fbLen i.desc = 16 + f.length then f else { f with version := 0 })

/-- The oldest FB_REQUEST item of a ring that nothing holds is carried out, or does no work because its predecessor failed (R314). -/
def Mach.fbNext (m : Mach) (z : Fuses) (ring : Nat) (v : Verif) : Mach :=
  match (sortItems (m.itemsOf ring)).find? fun i => i.kind = kindFb && !i.started && m.itemFree i with
  | some i =>
    if i.skip && m.predecessorFailed i then m.finish i.key .failAborted
    else if m.bookServes then m.fbItem z i v else m
  | none => m

/-- A frame reaches the surveyor on its requester's path: a session's, a mailbox's, a VC 2 message's, or that of an accepted
FB_REQUEST item. -/
def Mach.request (m : Mach) (z : Fuses) (rq : Rq) (f : Frame) : Mach :=
  match rq with
  | .session n => m.sessionFrame z n f
  | .hostPort n => m.ownMbx z n f
  | .core c => m.coreMbx z c f
  | .member _ => if m.bookServes then m.mailbox z rq f else m
  | .item ring seq ctx =>
    match m.item? (itemKey ring seq) with
    | none => m
    | some i =>
      if !(i.kind = kindFb && !i.started && i.ctx = ctx && m.itemFree i) then m
      else if i.skip && m.predecessorFailed i then m.finish i.key .failAborted
      else if m.bookServes then m.itemFrame z i f else m

/-- A WRITE frame with one record that triggers a CMD entry. -/
def cmdFrame (k reqId : Nat) (v : Bytes) (f : Verif) : Frame :=
  let e := match entryRow k with | some e => e.ty | none => 1
  let b := opBytes { index := k / 256, sub := k % 256, ty := e, value := v }
  { ty := 3, length := b.length, reqId, payload := b, verif := f }

/-- A requester triggers a CMD entry with a value (R79). -/
def Mach.command (m : Mach) (z : Fuses) (rq : Rq) (k reqId : Nat) (v : Bytes) (f : Verif) : Mach :=
  m.request z rq (cmdFrame k reqId v f)

/-! Sessions. -/

/-- The lowest session number that is free (R73). -/
def Mach.freeSession (m : Mach) : Option Nat := (List.range 8).find? fun n => !shas m.fb.sessions n

/-- A TLS connection on MG port `p` (R72, R73, R556): the client's root and leaf digests as numbers, and whether its chain and its
signature verify. -/
def Mach.tlsConnect (m : Mach) (p root leaf : Nat) (f : Verif) : Mach :=
  match m.freeSession with
  | none => m.emit .refusedTls
  | some n =>
    if !m.bookServes || !bitOf (m.cfg kMgmtEnable) p || m.floorLost p || m.floorGone p || m.pwr.closure.isSome then m.emit .refusedTls
    else if !(f.chain && f.sig && m.clientGood root leaf) then (m.bump kMgmtAuthFails).emit .refusedTls
    else
      (m.setSec { m.sec with clients := sput m.sec.clients n (root, leaf) }).putSession n { port := p }

/-- A session has sent no frame for `secs` s (R73). -/
def Mach.sessionIdle (m : Mach) (n secs : Nat) : Mach :=
  if secs ≥ 300 && shas m.fb.sessions n then m.dropSession n else m

/-- The notification record in bytes, with its tag (R82, R83). -/
def Note.bytes : Note → Bytes
  | .event e => leB 4 1 ++ e.bytes
  | .entry k v =>
    let ty := match entryAt k with | some e => e.ty | none => 0
    leB 4 2 ++ opBytes { index := k / 256, sub := k % 256, ty, value := v }

/-- The records that fit in a NOTIFY payload, and those left. -/
def fitNotes : Nat → List Note → Bytes × List Note
  | _, [] => ([], [])
  | room, n :: rest =>
    let b := n.bytes
    if b.length > room then ([], n :: rest)
    else
      let x := fitNotes (room - b.length) rest
      (b ++ x.1, x.2)

/-- A session's queued notification records go out in one NOTIFY (R82). -/
def Mach.notifyOne (m : Mach) (n : Nat) : Mach :=
  match sget m.fb.sessions n with
  | none => m
  | some x =>
    if x.queue.isEmpty then m
    else
      let head := if x.lost = 0 then [] else leB 4 x.lost
      let r := fitNotes (65520 - head.length) x.queue
      (m.putSession n { x with queue := r.2, lost := 0 }).emit (.notify n x.lost (head ++ r.1))

/-- Every session's notifications. -/
def Mach.notifyAll (m : Mach) : Mach := (skeys m.fb.sessions).foldl (fun m n => m.notifyOne n) m

end Sys2Proof.Machine
end

