-- ==== Sys2Proof/Machine/Vc2.lean ====
section
/-! DEFINITION. VC 2 at a group member (R404 to R410, R488, R489, Tables 11.8, 14.6): frames forwarded or delivered, messages of
channels 0 to 3, and the firmware broadcast of channels 4 and 5. -/
namespace Sys2Proof.Machine

/-! Channels 0 to 3. -/

/-- A reply to member 0 for a transfer (R489): its data reaches host memory, its status is kept, and the transfer ends. -/
def Mach.transferReply (m : Mach) (w : GroupWait) (st : Nat) (data : Bytes) : Mach :=
  let n := w.chan / 16
  let k := w.chan % 16
  let m := m.setTrv { m.trv with waits := m.trv.waits.erase w }
  let y := m.xferAt n k
  if !y.busy then m
  else if st ≠ 0 then
    let f := match Status.ofCode st with | some f => f | none => .failAborted
    (m.setXfer n k { y with fail := some (y.fail.getD f) }).xferEnd n k
  else
    let m := m.setXfer n k { y with lines := w.bytes / 256 }
    (if w.what = 2 then m.emit (.hostMem n k y.hostAddr data) else m).xferEnd n k

/-- What waits at member 0 for a message of a channel from a member. -/
def Mach.waitOf (m : Mach) (src req what : Nat) : Option GroupWait :=
  if m.member = 0 then m.trv.waits.find? fun w => w.member = src && w.req = req && w.what = what else none

/-- A channel 0 message (R488): a Field Book request for this member's host port 0, or the reply to one that a host port of member
0 sent. A request that meets an unanswered one of its sender is dropped. -/
def Mach.vc2Mail (m : Mach) (z : Fuses) (src req : Nat) (b : Bytes) (f : Verif) : Mach :=
  match m.waitOf src req 0 with
  | some w =>
    let m := m.setTrv { m.trv with waits := m.trv.waits.erase w }
    if w.chan > 1 then m else m.putChan (.hostPort w.chan) { m.chanOf (.hostPort w.chan) with reply := some b }
  | none =>
    let rq : Rq := .member src
    if (m.chanOf rq).cur.isSome then m else (m.putChan rq { m.chanOf rq with vc2 := req }).request z rq (frameOf b f)

/-- The host port of member 0 that serves the group's host (R403). -/
def Mach.groupPort (m : Mach) : Nat := if (m.hpAt 0).role = 1 then 0 else 1

/-- A channel 1 message (R488, Table 14.6): a doorbell for a ring of this member, or a notice that member 0 raises (R478). -/
def Mach.vc2Bell (m : Mach) (b : Bytes) : Mach :=
  if num b 0 1 = 0 then (m.wake 1).doorbellFrom 0 5 0 (num b 8 8)
  else if num b 0 1 = 1 && m.member = 0 then m.hpNotice m.groupPort (num b 8 2)
  else m

/-- The context of a host-data message may be reached by host port 0's party (R481, R488). -/
def Mach.hostMay (m : Mach) (c : Nat) : Bool := m.hpCtx 0 c && !m.confCtx c

/-- A channel 2 message: host data written here, answered with its status (R488), or the status of a transfer of member 0. -/
def Mach.vc2Write (m : Mach) (src req st : Nat) (b : Bytes) : Mach :=
  match m.waitOf src req 1 with
  | some w => m.transferReply w st []
  | none =>
    let c := num b 0 2
    let say (m : Mach) (s : Status) : Mach := m.sendVc2 src 2 req s.code []
    if num b 2 6 ≠ 0 then say m .rejectFormat
    else if !m.hostMay c then say m .rejectAccess
    else
      let w := m.itemWrite (.bar2 0 0) m.fb.epoch c (num b 8 8) (b.drop 16)
      match w.2 with
      | some e => say w.1 e.st
      | none => say w.1 .done

/-- A channel 3 message: host data read here, answered with it (R488), or the data that a transfer of member 0 asked for. -/
def Mach.vc2Read (m : Mach) (src req st : Nat) (b : Bytes) : Mach :=
  match m.waitOf src req 2 with
  | some w => m.transferReply w st b
  | none =>
    let c := num b 0 2
    let say (m : Mach) (s : Status) (d : Bytes) : Mach := m.sendVc2 src 3 req s.code d
    if num b 2 6 ≠ 0 then say m .rejectFormat []
    else if !m.hostMay c then say m .rejectAccess []
    else
      let g := m.itemRead (.bar2 0 0) m.fb.epoch c (num b 8 8) (num b 16 4)
      match g.2 with
      | .error e => say g.1 e.st []
      | .ok d => say g.1 .done d

/-- A whole message of channels 0 to 3; a module outside every group takes none (R406). -/
def Mach.vc2Message (m : Mach) (z : Fuses) (chan src req st : Nat) (b : Bytes) (f : Verif) : Mach :=
  if m.member = 0xFF then m.bump kGroupVc2Discards
  else match chan with
  | 0 => m.vc2Mail z src req b f
  | 1 => m.vc2Bell b
  | 2 => m.vc2Write src req st b
  | _ => m.vc2Read src req st b

/-- A member has not replied to a transfer of channel `k` of host port `n` for `ms` ms (R489). -/
def Mach.transferLate (m : Mach) (n k ms : Nat) : Mach :=
  let ws := m.trv.waits.filter fun w => (w.what = 1 || w.what = 2) && w.chan = waitChan n k
  if ms < m.cfg kTravPatienceMax || ws.isEmpty then m
  else
    let m := m.disown fun w => ws.contains w
    let y := m.xferAt n k
    (m.setXfer n k { y with fail := some (y.fail.getD .failPatience) }).xferEnd n k

/-! Channels 4 and 5. -/

/-- A frame of a firmware broadcast (R408): the first gives length, BCAST_ID and digest, the others the image. -/
def Mach.fwFrame (m : Mach) (b : Bytes) : Mach :=
  match m.trv.rxImage with
  | some r =>
    if r.data.length < r.len then
      m.setTrv { m.trv with rxImage := some { r with data := (r.data ++ padTo 256 b).take r.len } }
    else m.setTrv { m.trv with rxImage := some { len := num b 0 4, id := num b 4 4, digest := padTo 48 (b.drop 8) } }
  | none => m.setTrv { m.trv with rxImage := some { len := num b 0 4, id := num b 4 4, digest := padTo 48 (b.drop 8) } }

/-- A complete image is checked, stored as the pending tile firmware and answered on channel 5 (R409, R509, R616); `busy` tells
whether the flash is busy. -/
def Mach.fwComplete (m : Mach) (busy : Bool) : Mach :=
  match m.trv.rxImage with
  | none => m
  | some r =>
    if r.data.length < r.len then m
    else
      let st : Status := if r.len > pendRegion || digest r.data ≠ r.digest then .rejectFormat else if busy then .rejectBusy else .done
      let m := m.setTrv { m.trv with rxImage := none }
      let m := if st = .done then
          (m.setTrv { m.trv with pendTile := r.data, pendId := r.id }).measure 10 (digest r.data)
        else m
      m.forwardVc2 none (vc2Tag 0 5) (padTo 256 (leB 1 m.member ++ leB 1 st.code ++ leB 4 r.id))

/-- FW_BCAST replies with a status byte for every member (R410). -/
def Mach.bcastEnds (m : Mach) (z : Fuses) (b : Bcast) : Mach :=
  (m.setTrv { m.trv with bcast := none }).resumeFor z b.rq .fwBcast .done b.bytes

/-- A member's answer on channel 5 (R409, R410). -/
def Mach.bcastAnswer (m : Mach) (z : Fuses) (member st id : Nat) : Mach :=
  match m.trv.bcast with
  | none => m
  | some b =>
    if b.id ≠ id || !bitOf b.mask member || shas b.answers member then m
    else
      let b := { b with answers := sput b.answers member st }
      if (bitList 128 b.mask).all (shas b.answers) then m.bcastEnds z b
      else m.setTrv { m.trv with bcast := some b }

/-- `ms` ms have passed since the broadcast's last frame (R410). -/
def Mach.bcastLate (m : Mach) (z : Fuses) (ms : Nat) : Mach :=
  match m.trv.bcast with
  | some b => if ms ≥ m.cfg kTravPatienceMax then m.bcastEnds z b else m
  | none => m

/-! Frames. -/

/-- A frame of channels 0 to 3 that is for this member: its content joins what came before, and the whole message acts. -/
def Mach.vc2Part (m : Mach) (z : Fuses) (chan : Nat) (p : Bytes) (f : Verif) : Mach :=
  let src := num p 0 1
  let req := num p 2 2
  let len := num p 4 4
  let off := num p 8 4
  let k := src * 2 ^ 24 + chan * 2 ^ 16 + req
  let sofar := if off = 0 then [] else sgetD [] m.trv.parts k
  if sofar.length ≠ off then m.setTrv { m.trv with parts := sdel m.trv.parts k }
  else
    let b := sofar ++ (p.drop 16).take (min 240 (len - off))
    if b.length < len then m.setTrv { m.trv with parts := sput m.trv.parts k b }
    else (m.setTrv { m.trv with parts := sdel m.trv.parts k }).vc2Message z chan src req (num p 12 1) b f

/-- A frame that is for this member, by its channel (Table 11.8). -/
def Mach.vc2Deliver (m : Mach) (z : Fuses) (chan : Nat) (p : Bytes) (f : Verif) : Mach :=
  if chan = 4 then m.fwFrame p
  else if chan = 5 then m.bcastAnswer z (num p 0 1) (num p 1 1) (num p 2 4)
  else m.vc2Part z chan p f

/-- The VC 2 frames made here for this member are delivered (R405). -/
def Mach.selfVc2Go (m : Mach) (z : Fuses) : Mach :=
  m.trv.selfVc2.foldl (fun m x => m.vc2Deliver z (x.1 % 128) (padTo 256 x.2) {}) (m.setTrv { m.trv with selfVc2 := [] })

/-- A VC 2 frame that arrived on port `p` (R405, R406). -/
def Mach.vc2Frame (m : Mach) (z : Fuses) (p tag : Nat) (b : Bytes) (f : Verif) : Mach :=
  let chan := tag % 128
  if m.member = 0xFF || chan > 5 then m.bump kGroupVc2Discards
  else if bitOf tag 14 then
    let out := m.upPorts.filter fun q => bitOf (m.cfg kGroupBcastPorts) q && q ≠ p
    (out.foldl (fun m q => m.sendFrame q 2 tag b) m).vc2Deliver z chan (padTo 256 b) f
  else if tag / 128 % 128 = m.member then m.vc2Deliver z chan (padTo 256 b) f
  else m.forwardVc2 (some p) tag b

/-- A link frame arrives on a port (R338); a data or control frame wakes a sleeping module (Table 17.7). -/
def Mach.linkFrame (m : Mach) (z : Fuses) (p : Nat) (x : LinkFrame) (f : Verif) : Mach :=
  ((if x.kind ≤ 1 && (m.portAt p).state ≥ 4 then m.wake 5 else m).linkIn z.serial p x fun y m =>
    m.vc2Frame z p y.stream (padTo y.bytes y.payload) f).selfVc2Go z

end Sys2Proof.Machine
end

