-- ==== Sys2Proof/Machine/CmdRows.lean ====
section
/-! DEFINITION. The commands that trigger a CMD entry (R79): the requester `rq` sends a WRITE frame with one record that carries the value
`v`; `f` is what the checks and measurements of the entry's action find. -/
namespace Sys2Proof.Machine

/-- DRAFT_OPEN (R49, R55). -/
def execDraftOpen (rq : Rq) (reqId : Nat) (v : Bytes) (f : Verif) (s : State) : Result :=
  runFz s fun z m => m.command z rq kDraftOpen reqId v f

/-- DRAFT_DISCARD (R50, R54). -/
def execDraftDiscard (rq : Rq) (reqId : Nat) (v : Bytes) (f : Verif) (s : State) : Result :=
  runFz s fun z m => m.command z rq kDraftDiscard reqId v f

/-- COMMIT (R56 to R58, Table 2.6 steps 1 to 3). -/
def execCommit (rq : Rq) (reqId : Nat) (v : Bytes) (f : Verif) (s : State) : Result :=
  runFz s fun z m => m.command z rq kCommit reqId v f

/-- LICENCE_INSTALL (R528, R529). -/
def execLicenceInstall (rq : Rq) (reqId : Nat) (v : Bytes) (f : Verif) (s : State) : Result :=
  runFz s fun z m => m.command z rq kLicenceInstall reqId v f

/-- LICENCE_REMOVE (R530). -/
def execLicenceRemove (rq : Rq) (reqId : Nat) (v : Bytes) (f : Verif) (s : State) : Result :=
  runFz s fun z m => m.command z rq kLicenceRemove reqId v f

/-- SAVE_RUNNING (R69, Table 2.14). -/
def execSaveRunning (rq : Rq) (reqId : Nat) (v : Bytes) (f : Verif) (s : State) : Result :=
  runFz s fun z m => m.command z rq kSaveRunning reqId v f

/-- SHEET_CLEAR (R69, Table 2.14), of sheet `n`. -/
def execSheetClear (n : Nat) (rq : Rq) (reqId : Nat) (v : Bytes) (f : Verif) (s : State) : Result :=
  runFzIf (n < 8) s fun z m => m.command z rq (kSheetClear + 256 * n) reqId v f

/-- COUNTER_CLEAR (R84). -/
def execCounterClear (rq : Rq) (reqId : Nat) (v : Bytes) (f : Verif) (s : State) : Result :=
  runFz s fun z m => m.command z rq kCounterClear reqId v f

/-- SENSOR_READ (R85, R598). -/
def execSensorRead (rq : Rq) (reqId : Nat) (v : Bytes) (f : Verif) (s : State) : Result :=
  runFz s fun z m => m.command z rq kSensorRead reqId v f

/-- EYE_HISTORY_READ (R643). -/
def execEyeHistoryRead (rq : Rq) (reqId : Nat) (v : Bytes) (f : Verif) (s : State) : Result :=
  runFz s fun z m => m.command z rq kEyeHistoryRead reqId v f

/-- MONITOR_SLACK_READ (R641). -/
def execMonitorSlackRead (rq : Rq) (reqId : Nat) (v : Bytes) (f : Verif) (s : State) : Result :=
  runFz s fun z m => m.command z rq kMonitorSlackRead reqId v f

/-- RING_COUNTERS (R85). -/
def execRingCounters (rq : Rq) (reqId : Nat) (v : Bytes) (f : Verif) (s : State) : Result :=
  runFz s fun z m => m.command z rq kRingCounters reqId v f

/-- STREAM_COUNTERS (R378). -/
def execStreamCounters (rq : Rq) (reqId : Nat) (v : Bytes) (f : Verif) (s : State) : Result :=
  runFz s fun z m => m.command z rq kStreamCounters reqId v f

/-- LEG_COUNTERS (R374). -/
def execLegCounters (rq : Rq) (reqId : Nat) (v : Bytes) (f : Verif) (s : State) : Result :=
  runFz s fun z m => m.command z rq kLegCounters reqId v f

/-- MY_RING_COUNTERS (R85). -/
def execMyRingCounters (rq : Rq) (reqId : Nat) (v : Bytes) (f : Verif) (s : State) : Result :=
  runFz s fun z m => m.command z rq kMyRingCounters reqId v f

/-- MY_CORE_COUNTERS (R85). -/
def execMyCoreCounters (rq : Rq) (reqId : Nat) (v : Bytes) (f : Verif) (s : State) : Result :=
  runFz s fun z m => m.command z rq kMyCoreCounters reqId v f

/-- RLC_FLUSH (R119). -/
def execRlcFlush (rq : Rq) (reqId : Nat) (v : Bytes) (f : Verif) (s : State) : Result :=
  runFz s fun z m => m.command z rq kRlcFlush reqId v f

/-- SEGMAP_WRITE (R138, R142 to R144). -/
def execSegmapWrite (rq : Rq) (reqId : Nat) (v : Bytes) (f : Verif) (s : State) : Result :=
  runFz s fun z m => m.command z rq kSegmapWrite reqId v f

/-- SEGMAP_READ (Table 4.9). -/
def execSegmapRead (rq : Rq) (reqId : Nat) (v : Bytes) (f : Verif) (s : State) : Result :=
  runFz s fun z m => m.command z rq kSegmapRead reqId v f

/-- SEGMAP_CLEAR_CONTEXT (R143). -/
def execSegmapClearContext (rq : Rq) (reqId : Nat) (v : Bytes) (f : Verif) (s : State) : Result :=
  runFz s fun z m => m.command z rq kSegmapClearContext reqId v f

/-- STACK_RETIRE_LIST (R171). -/
def execStackRetireList (rq : Rq) (reqId : Nat) (v : Bytes) (f : Verif) (s : State) : Result :=
  runFz s fun z m => m.command z rq kStackRetireList reqId v f

/-- REKEY_QUERY (R187). -/
def execRekeyQuery (rq : Rq) (reqId : Nat) (v : Bytes) (f : Verif) (s : State) : Result :=
  runFz s fun z m => m.command z rq kRekeyQuery reqId v f

/-- RING_CREATE (R298 to R301). -/
def execRingCreate (rq : Rq) (reqId : Nat) (v : Bytes) (f : Verif) (s : State) : Result :=
  runFz s fun z m => m.command z rq kRingCreate reqId v f

/-- RING_DELETE (R302). -/
def execRingDelete (rq : Rq) (reqId : Nat) (v : Bytes) (f : Verif) (s : State) : Result :=
  runFz s fun z m => m.command z rq kRingDelete reqId v f

/-- RING_REOPEN (R329). -/
def execRingReopen (rq : Rq) (reqId : Nat) (v : Bytes) (f : Verif) (s : State) : Result :=
  runFz s fun z m => m.command z rq kRingReopen reqId v f

/-- RING_QUERY (R330). -/
def execRingQuery (rq : Rq) (reqId : Nat) (v : Bytes) (f : Verif) (s : State) : Result :=
  runFz s fun z m => m.command z rq kRingQuery reqId v f

/-- RING_LAST_MARKS (R331). -/
def execRingLastMarks (rq : Rq) (reqId : Nat) (v : Bytes) (f : Verif) (s : State) : Result :=
  runFz s fun z m => m.command z rq kRingLastMarks reqId v f

/-- CONTEXT_CREATE (R290 to R293). -/
def execContextCreate (rq : Rq) (reqId : Nat) (v : Bytes) (f : Verif) (s : State) : Result :=
  runFz s fun z m => m.command z rq kContextCreate reqId v f

/-- CONTEXT_DESTROY (R296, Table 9.1). -/
def execContextDestroy (rq : Rq) (reqId : Nat) (v : Bytes) (f : Verif) (s : State) : Result :=
  runFz s fun z m => m.command z rq kContextDestroy reqId v f

/-- CONTEXT_QUERY (Table 9.14). -/
def execContextQuery (rq : Rq) (reqId : Nat) (v : Bytes) (f : Verif) (s : State) : Result :=
  runFz s fun z m => m.command z rq kContextQuery reqId v f

/-- LINK_RETRAIN (R346, R360). -/
def execLinkRetrain (rq : Rq) (reqId : Nat) (v : Bytes) (f : Verif) (s : State) : Result :=
  runFz s fun z m => m.command z rq kLinkRetrain reqId v f

/-- FW_BCAST (R408, R410). -/
def execFwBcast (rq : Rq) (reqId : Nat) (v : Bytes) (f : Verif) (s : State) : Result :=
  runFz s fun z m => m.command z rq kFwBcast reqId v f

/-- SITE_FENCE (R443, R444), of site `n`. -/
def execSiteFence (n : Nat) (rq : Rq) (reqId : Nat) (v : Bytes) (f : Verif) (s : State) : Result :=
  runFzIf (n < 4) s fun z m => m.command z rq (kSiteFence + 256 * n) reqId v f

/-- SITE_READMIT_NOW (R446), of site `n`. -/
def execSiteReadmitNow (n : Nat) (rq : Rq) (reqId : Nat) (v : Bytes) (f : Verif) (s : State) : Result :=
  runFzIf (n < 4) s fun z m => m.command z rq (kSiteReadmitNow + 256 * n) reqId v f

/-- HOST_CORE_START (R454, R467, R469), of core `n`. -/
def execHostCoreStart (n : Nat) (rq : Rq) (reqId : Nat) (v : Bytes) (f : Verif) (s : State) : Result :=
  runFzIf (n < 32) s fun z m => m.command z rq (kHostCoreStart + 256 * n) reqId v f

/-- HOST_CORE_STOP (R470), of core `n`. -/
def execHostCoreStop (n : Nat) (rq : Rq) (reqId : Nat) (v : Bytes) (f : Verif) (s : State) : Result :=
  runFzIf (n < 32) s fun z m => m.command z rq (kHostCoreStop + 256 * n) reqId v f

/-- HOST_CORE_FENCE (R466), of core `n`. -/
def execHostCoreFence (n : Nat) (rq : Rq) (reqId : Nat) (v : Bytes) (f : Verif) (s : State) : Result :=
  runFzIf (n < 32) s fun z m => m.command z rq (kHostCoreFence + 256 * n) reqId v f

/-- HP_FENCE (R498), of port `n`. -/
def execHpFence (n : Nat) (rq : Rq) (reqId : Nat) (v : Bytes) (f : Verif) (s : State) : Result :=
  runFzIf (n < 2) s fun z m => m.command z rq (kHpFence + 256 * n) reqId v f

/-- FAR_TEST (R491, Table 14.11), of port `n`. -/
def execFarTest (n : Nat) (rq : Rq) (reqId : Nat) (v : Bytes) (f : Verif) (s : State) : Result :=
  runFzIf (n < 2) s fun z m => m.command z rq (kFarTest + 256 * n) reqId v f

/-- SEC_VERSION_ADVANCE (R508). -/
def execSecVersionAdvance (rq : Rq) (reqId : Nat) (v : Bytes) (f : Verif) (s : State) : Result :=
  runFz s fun z m => m.command z rq kSecVersionAdvance reqId v f

/-- ATTEST_REPORT (R519 to R522). -/
def execAttestReport (rq : Rq) (reqId : Nat) (v : Bytes) (f : Verif) (s : State) : Result :=
  runFz s fun z m => m.command z rq kAttestReport reqId v f

/-- KEY_REQUEST (R523, R524). -/
def execKeyRequest (rq : Rq) (reqId : Nat) (v : Bytes) (f : Verif) (s : State) : Result :=
  runFz s fun z m => m.command z rq kKeyRequest reqId v f

/-- KEY_INSTALL (R525, R526). -/
def execKeyInstall (rq : Rq) (reqId : Nat) (v : Bytes) (f : Verif) (s : State) : Result :=
  runFz s fun z m => m.command z rq kKeyInstall reqId v f

/-- KEY_ROTATE (R540). -/
def execKeyRotate (rq : Rq) (reqId : Nat) (v : Bytes) (f : Verif) (s : State) : Result :=
  runFz s fun z m => m.command z rq kKeyRotate reqId v f

/-- KEY_ERASE (R541). -/
def execKeyErase (rq : Rq) (reqId : Nat) (v : Bytes) (f : Verif) (s : State) : Result :=
  runFz s fun z m => m.command z rq kKeyErase reqId v f

/-- KEY_QUERY (Table 16.6). -/
def execKeyQuery (rq : Rq) (reqId : Nat) (v : Bytes) (f : Verif) (s : State) : Result :=
  runFz s fun z m => m.command z rq kKeyQuery reqId v f

/-- LEASE_UNSEAL (R546). -/
def execLeaseUnseal (rq : Rq) (reqId : Nat) (v : Bytes) (f : Verif) (s : State) : Result :=
  runFz s fun z m => m.command z rq kLeaseUnseal reqId v f

/-- LEASE_REVOKE (R547). -/
def execLeaseRevoke (rq : Rq) (reqId : Nat) (v : Bytes) (f : Verif) (s : State) : Result :=
  runFz s fun z m => m.command z rq kLeaseRevoke reqId v f

/-- LEASE_LIST (Table 16.6). -/
def execLeaseList (rq : Rq) (reqId : Nat) (v : Bytes) (f : Verif) (s : State) : Result :=
  runFz s fun z m => m.command z rq kLeaseList reqId v f

/-- DEBUG_CHALLENGE (R550). -/
def execDebugChallenge (rq : Rq) (reqId : Nat) (v : Bytes) (f : Verif) (s : State) : Result :=
  runFz s fun z m => m.command z rq kDebugChallenge reqId v f

/-- DEBUG_UNLOCK (R550). -/
def execDebugUnlock (rq : Rq) (reqId : Nat) (v : Bytes) (f : Verif) (s : State) : Result :=
  runFz s fun z m => m.command z rq kDebugUnlock reqId v f

/-- PWR_REQUEST (R574, R578). -/
def execPwrRequest (rq : Rq) (reqId : Nat) (v : Bytes) (f : Verif) (s : State) : Result :=
  runFz s fun z m => m.command z rq kPwrRequest reqId v f

/-- PWR_OFF (R582, R592). -/
def execPwrOff (rq : Rq) (reqId : Nat) (v : Bytes) (f : Verif) (s : State) : Result :=
  runFz s fun z m => m.command z rq kPwrOff reqId v f

/-- THERM_RECAL_NOW (R597). -/
def execThermRecalNow (rq : Rq) (reqId : Nat) (v : Bytes) (f : Verif) (s : State) : Result :=
  runFz s fun z m => m.command z rq kThermRecalNow reqId v f

/-- FW_UPDATE (R623). -/
def execFwUpdate (rq : Rq) (reqId : Nat) (v : Bytes) (f : Verif) (s : State) : Result :=
  runFz s fun z m => m.command z rq kFwUpdate reqId v f

/-- SURVEY_LOG_READ (R630). -/
def execSurveyLogRead (rq : Rq) (reqId : Nat) (v : Bytes) (f : Verif) (s : State) : Result :=
  runFz s fun z m => m.command z rq kSurveyLogRead reqId v f

/-- CAD_READ (R631, R632). -/
def execCadRead (rq : Rq) (reqId : Nat) (v : Bytes) (f : Verif) (s : State) : Result :=
  runFz s fun z m => m.command z rq kCadRead reqId v f

/-- CAD_REMAP_UNIT (R637, Table 19.9). -/
def execCadRemapUnit (rq : Rq) (reqId : Nat) (v : Bytes) (f : Verif) (s : State) : Result :=
  runFz s fun z m => m.command z rq kCadRemapUnit reqId v f

/-- MARGIN_REPLAN_NOW (R649). -/
def execMarginReplanNow (rq : Rq) (reqId : Nat) (v : Bytes) (f : Verif) (s : State) : Result :=
  runFz s fun z m => m.command z rq kMarginReplanNow reqId v f

/-- MARGIN_PLAN_READ (R650). -/
def execMarginPlanRead (rq : Rq) (reqId : Nat) (v : Bytes) (f : Verif) (s : State) : Result :=
  runFz s fun z m => m.command z rq kMarginPlanRead reqId v f

/-- LEDGER_READ (R672). -/
def execLedgerRead (rq : Rq) (reqId : Nat) (v : Bytes) (f : Verif) (s : State) : Result :=
  runFz s fun z m => m.command z rq kLedgerRead reqId v f

/-- LEDGER_STANDING_READ (R673). -/
def execLedgerStandingRead (rq : Rq) (reqId : Nat) (v : Bytes) (f : Verif) (s : State) : Result :=
  runFz s fun z m => m.command z rq kLedgerStandingRead reqId v f

/-- LEDGER_ACK (R671). -/
def execLedgerAck (rq : Rq) (reqId : Nat) (v : Bytes) (f : Verif) (s : State) : Result :=
  runFz s fun z m => m.command z rq kLedgerAck reqId v f

/-- HOLDINGS_READ (R661). -/
def execHoldingsRead (rq : Rq) (reqId : Nat) (v : Bytes) (f : Verif) (s : State) : Result :=
  runFz s fun z m => m.command z rq kHoldingsRead reqId v f

end Sys2Proof.Machine
end

