-- ==== Sys2Proof/Machine/CoreRows.lean ====
section
/-! DEFINITION. The commands of host cores (13_host_cores.md) that are not Field Book commands. -/
namespace Sys2Proof.Machine

/-- What core `c` does only while it runs. -/
def Mach.onCore (m : Mach) (c : Nat) (f : Mach → Mach) : Mach := if m.coreRuns c then f m else m

/-- CORE_DOORBELL_WRITE (R456). -/
def execCoreDoorbellWrite (c word : Nat) (s : State) : Result :=
  runIf (c < 32 && word < 2 ^ 64) s fun m => m.onCore c fun m => m.coreBell c word

/-- WORK_POP (R455, R460). -/
def execWorkPop (c : Nat) (s : State) : Result := runIf (c < 32) s fun m => m.onCore c fun m => m.workPop c

/-- CORE_WORK_DONE (R318, R460): a store of `val` to offset 0x030, with the bytes at 0x020 and 0x028. -/
def execCoreWorkDone (c val : Nat) (s : State) : Result :=
  runIf (c < 32) s fun m => m.onCore c fun m => m.coreWorkDone c ((padTo 16 (m.coreAt c).workDone).take 16 ++ leB 8 val)

/-- NOTICE_POP (R462). -/
def execNoticePop (c : Nat) (s : State) : Result := runIf (c < 32) s fun m => m.onCore c fun m => m.noticePop c

/-- CACHE_CLEAN (R457). -/
def execCacheClean (c lines : Nat) (s : State) : Result :=
  runIf (c < 32) s fun m => m.onCore c fun m => m.cacheOp c 1 lines

/-- CACHE_INVALIDATE (R457). -/
def execCacheInvalidate (c lines : Nat) (s : State) : Result :=
  runIf (c < 32) s fun m => m.onCore c fun m => m.cacheOp c 2 lines

/-- CACHE_CLEAN_INVALIDATE (R457). -/
def execCacheCleanInvalidate (c lines : Nat) (s : State) : Result :=
  runIf (c < 32) s fun m => m.onCore c fun m => m.cacheOp c 3 lines

/-- CACHE_OP_DONE (R457). -/
def execCacheOpDone (c : Nat) (s : State) : Result := runIf (c < 32) s fun m => m.cacheDone c

/-- DRAW (R464). -/
def execDraw (c : Nat) (s : State) : Result := runIf (c < 32) s fun m => m.onCore c fun m => m.drawRead c

/-- ENTROPY (R465). -/
def execEntropy (c : Nat) (s : State) : Result := runIf (c < 32) s fun m => m.onCore c fun m => m.entropyRead c

/-- INT_PENDING_CLEAR (R463). -/
def execIntPendingClear (c mask : Nat) (s : State) : Result :=
  runIf (c < 32) s fun m => m.onCore c fun m => m.intClear c mask

/-- A store to a register that has no behaviour of its own: kind 2 a core's local page or mailbox, kind 5 a host port's
register window. -/
def Mach.regPut (m : Mach) (kind n off val : Nat) : Mach :=
  if kind = 2 then m.onCore n fun m => m.coreStores n off (val % 2 ^ 64) else m.hpPut n off val

/-- REGISTER_WRITE (R455, R475, R476). -/
def execRegisterWrite (kind n off val : Nat) (s : State) : Result :=
  runIf ((kind = 2 && n < 32) || (kind = 5 && n < 2)) s fun m => m.regPut kind n off val

/-- CORE_SEGMENT_ACCESS (R451 to R453): a load, or a store of bytes, at a physical address; `evict` are lines that the caches
give up for it. -/
def execCoreSegmentAccess (c addr len : Nat) (store : Option Bytes) (evict : List Nat) (ecc : Ecc) (wait : Bool) (s : State) :
    Result :=
  runIf (c < 32) s fun m => m.coreAt? c addr len store evict ecc wait

/-- HOST_WORK_TIMEOUT (R461). -/
def execHostWorkTimeout (ring seq us : Nat) (s : State) : Result :=
  runIf (ring < 32768 && seq < 2 ^ 48) s fun m => m.coreWorkLate (itemKey ring seq) us

/-- CORE_CACHE_UE (R466, R467). -/
def execCoreCacheUe (c : Nat) (s : State) : Result := runFzIf (c < 32) s fun z m => m.toldAs z (m.coreCacheUe c)

end Sys2Proof.Machine
end

