-- ==== Sys2Proof/Machine/DieRows.lean ====
section
/-! DEFINITION. The commands of the bridge and of the always-on sideband. -/
namespace Sys2Proof.Machine

/-- SIDEBAND_STATE_MESSAGE (R102, R103): `msg` as floor `f`'s island sends it. -/
def execSidebandStateMessage (f msg : Nat) (s : State) : Result := runIf (f < 2 && msg < 5) s fun m => m.sideMessage f msg

/-- SIDEBAND_SILENT (R104). -/
def execSidebandSilent (us : Nat) (s : State) : Result := run s fun m => m.sideSilent us

/-- F0_RETURN_TIMEOUT (R113). -/
def execF0ReturnTimeout (ms : Nat) (s : State) : Result := run s fun m => m.f0Late ms

/-- BRIDGE_FLIT_RECEIVE (R97): the 128 bits of the header that reaches floor `f`, and the flit's payload and trailer, whose upper half
is the CRC. -/
def execBridgeFlitReceive (f head : Nat) (body : Bytes) (s : State) : Result :=
  runIf (f < 2 && head < 2 ^ 128) s fun m => m.bridgeFlit f head (body.take 256) (num body 264 8)

/-- BRIDGE_NAK_RECEIVE (R98, R99). -/
def execBridgeNakReceive (f ack : Nat) (s : State) : Result := runIf (f < 2 && ack < 4096) s fun m => m.bridgeNak f ack

/-- BRIDGE_RETRAIN (R99, R101, R103). -/
def execBridgeRetrain (ok : Bool) (bad : List Nat) (s : State) : Result := run s fun m => m.bridgeRetrained ok bad

/-- BRIDGE_LANE_SPARE (R100, R101). -/
def execBridgeLaneSpare (d lane n us : Nat) (s : State) : Result :=
  runIf (d < 2 && lane < 64) s fun m => m.laneSpare d lane n us

end Sys2Proof.Machine
end

