-- ==== Sys2Proof/Machine/FrameRows.lean ====
section
/-! DEFINITION. The commands of Field Book sessions, frames, drafts and commits (02_field_book.md), of mailboxes and request items, and
those that end what a CMD entry waits for. -/
namespace Sys2Proof.Machine

/-! Sessions and their frames. The row's frame is whatever a requester sends there: a frame of another type acts as its TYPE says. -/

/-- TLS_CONNECT (R72, R73, R556): a client with root and leaf digests as numbers, on MG port `p`. -/
def execTlsConnect (p root leaf : Nat) (f : Verif) (s : State) : Result := runFzIf (p < 2) s fun _ m => m.tlsConnect p root leaf f

/-- HELLO (R74, Table 2.8). -/
def execHello (n : Nat) (f : Frame) (s : State) : Result := runFzIf (n < 8) s fun z m => m.sessionFrame z n f

/-- READ (R39, R41, R76, R77, R699). -/
def execFbRead (rq : Rq) (f : Frame) (s : State) : Result := runFz s fun z m => m.request z rq f

/-- DESCRIBE (R45, R697). -/
def execDescribe (rq : Rq) (f : Frame) (s : State) : Result := runFz s fun z m => m.request z rq f

/-- A WRITE with target running (R34 to R39, R77, R78). -/
def execWriteDirect (rq : Rq) (f : Frame) (s : State) : Result := runFz s fun z m => m.request z rq f

/-- A WRITE with target draft (R50 to R53). -/
def execWriteDraft (rq : Rq) (f : Frame) (s : State) : Result := runFz s fun z m => m.request z rq f

/-- A WRITE with target baseline or sheet (R68, R69). -/
def execWriteStoredLayer (rq : Rq) (f : Frame) (s : State) : Result := runFz s fun z m => m.request z rq f

/-- SUBSCRIBE (R80, R700). -/
def execSubscribe (n : Nat) (f : Frame) (s : State) : Result := runFzIf (n < 8) s fun z m => m.sessionFrame z n f

/-- UNSUBSCRIBE. -/
def execUnsubscribe (n : Nat) (f : Frame) (s : State) : Result := runFzIf (n < 8) s fun z m => m.sessionFrame z n f

/-- PING (R75). -/
def execPing (n : Nat) (f : Frame) (s : State) : Result := runFzIf (n < 8) s fun z m => m.sessionFrame z n f

/-- BYE (Table 2.8). -/
def execBye (n : Nat) (f : Frame) (s : State) : Result := runFzIf (n < 8) s fun z m => m.sessionFrame z n f

/-- SESSION_IDLE_TIMEOUT (R73). -/
def execSessionIdleTimeout (n secs : Nat) (s : State) : Result := 
  runFzIf (n < 8) s fun z m => (m.sessionIdle n secs).noteAll z

/-! Drafts and commits. -/

/-- DRAFT_IDLE_TIMEOUT (R54, R698). -/
def execDraftIdleTimeout (ms : Nat) (s : State) : Result := runFz s fun z m => (m.draftIdle ms).noteAll z

/-- The waiting commit passes steps 5 to 7 once at most one epoch is live, and replies (R56, R60, R65, R81). -/
def Mach.commitSwitch (m : Mach) (z : Fuses) : Mach :=
  match m.fb.committing, m.fb.draft with
  | some rq, some d =>
    if !m.commitFree then m
    else
      let m := (m.commitApply d).noteAll z
      m.resumeFor z rq .commit .done (leB 4 m.fb.epoch)
  | _, _ => m

/-- COMMIT_SWITCH (R60). -/
def execCommitSwitch (s : State) : Result := runFz s fun z m => m.commitSwitch z

/-- A commit still waits at step 4 after `ms` ms (R56). -/
def Mach.commitTimeout (m : Mach) (z : Fuses) (ms : Nat) : Mach :=
  match m.fb.committing with
  | some rq => if ms < m.cfg kCommitTimeout || m.commitFree then m else (m.commitLate.noteAll z).resumeFor z rq .commit .fbEpochFull []
  | none => m

/-- COMMIT_TIMEOUT_EXPIRED (R56, R698). -/
def execCommitTimeoutExpired (ms : Nat) (s : State) : Result := runFz s fun z m => m.commitTimeout z ms

/-- SURVEYOR_COMMIT (R28, R30, R65, R81). -/
def execSurveyorCommit (s : State) : Result :=
  runFz s fun z m => if m.surveyorHas then ((m.surveyorCommit 0).noteAll z).resumeAll z else m

/-- COUNTER_LATCH (R85, R552). -/
def execCounterLatch (s : State) : Result := run s Mach.latchNow

/-! Mailboxes and items. -/

/-- FB_REQUEST (R42, R43, R319, R320): taken, or carried out once nothing holds it. -/
def execFbRequest (ring : Nat) (f : Verif) (s : State) : Result :=
  runFzIf (ring < 32768) s fun z m => (m.takeOrStart ring (· = kindFb)).fbNext z ring f

/-- CORE_MBX_GO (R459): a core writes 1 to MBX_GO. -/
def execCoreMbxGo (c : Nat) (f : Verif) (s : State) : Result :=
  runFzIf (c < 32) s fun z m => m.coreMbx z c (frameOf (m.coreAt c).mbxReq f)

/-- MBX_REPLY_READY (R459): the mailbox of a core or host port. -/
def execMbxReplyReady (rq : Rq) (s : State) : Result := run s fun m => m.mbxLands rq

/-- HP_MBX_GO (R476, R488). -/
def execHpMbxGo (n : Nat) (f : Verif) (s : State) : Result := runFzIf (n < 2) s fun z m => m.hpMbx z n f

/-! What ends the action of a CMD entry. -/

/-- SEGMAP_RECORD_DRAINED (R143, R144). -/
def execSegmapRecordDrained (rq : Rq) (s : State) : Result := runFz s fun z m => (m.segDrained rq).resumeAll z

/-- SEGMAP_DRAIN_TIMEOUT (R143): the requester's record has waited `us` µs. -/
def execSegmapDrainTimeout (rq : Rq) (us : Nat) (s : State) : Result := runFz s fun z m => (m.segLate rq us).resumeAll z

/-- CONTEXT_DESTROY_FINISH (R296, Table 9.1 steps 4 to 8). -/
def execContextDestroyFinish (c : Nat) (s : State) : Result := runFzIf (c < 4096) s fun z m => (m.ctxFinish c).resumeAll z

/-- The fence of a party completes once its transactions have (R664, Tables 12.7, 21.5). -/
def Mach.fenceDrained (m : Mach) (p : Party) : Mach :=
  match m.flt.fencing.find? fun f => f.party = p with
  | none => m
  | some f =>
    if m.fenceHeld fun o => match p.kind, o with
      | 1, o => siteOrigin p.num o
      | 2, .core c _ => c = p.num
      | 5, .bar2 n _ => n = p.num
      | _, _ => false then m
    else match p.kind with
    | 1 => (m.finishSiteFence p.num f.cause f.quiet).measureTile p.num
    | 2 => m.finishCoreFence p.num f.cause f.quiet
    | 5 => m.finishHpFence p.num f.cause f.quiet
    | _ => m

/-- PARTY_FENCE_DRAINED (R664): a site, core or host port. -/
def execPartyFenceDrained (kind num : Nat) (s : State) : Result :=
  runFzIf (if kind = 1 then num < 4 else if kind = 2 then num < 32 else kind = 5 && num < 2) s fun z m =>
    ((m.fenceDrained ⟨kind, num⟩).noteAll z).resumeAll z

/-- A PWR_OFF command is answered, then the closure runs to its end (R582, R592). -/
def Mach.closureDone (m : Mach) (z : Fuses) (us : Nat) : Mach :=
  let who := (m.fb.chans.filterMap fun c => c.2.cur).filter fun p => p.wait = .pwrOff
  (who.foldl (fun m p => m.resumeFor z p.rq .pwrOff .done []) m).closureEnds us

/-- CLOSURE_COMPLETE (R592, Table 18.2): `us` µs after the closure was declared. -/
def execClosureComplete (us : Nat) (s : State) : Result := runFz s fun z m => m.closureDone z us

/-! Link frames and VC 2. -/

/-- LINK_FRAME_RECEIVE (R338, R341, R354, R357, R378): `v` is what the checks of a request it may carry find. -/
def execLinkFrameReceive (p : Nat) (f : LinkFrame) (v : Verif) (s : State) : Result :=
  runFzIf (p < 24) s fun z m => m.linkFrame z p f v

/-- VC2_FRAME_RECEIVE (R405, R406): a data frame of VC 2. -/
def execVc2FrameReceive (p : Nat) (f : LinkFrame) (v : Verif) (s : State) : Result :=
  runFzIf (p < 24) s fun z m => m.linkFrame z p { f with kind := 0, vc := 2 } v

/-- VC2_MAILBOX (R488): a whole channel 0 message of member `src`. -/
def execVc2Mailbox (src req : Nat) (b : Bytes) (v : Verif) (s : State) : Result :=
  runFz s fun z m => m.vc2Message z 0 src req 0 b v

/-- VC2_DOORBELL (R488): a whole channel 1 message. -/
def execVc2Doorbell (src req : Nat) (b : Bytes) (s : State) : Result := runFz s fun z m => m.vc2Message z 1 src req 0 b {}

/-- VC2_WRITE_DATA (R488): a whole channel 2 message. -/
def execVc2WriteData (src req st : Nat) (b : Bytes) (s : State) : Result := runFz s fun z m => m.vc2Message z 2 src req st b {}

/-- VC2_READ_DATA (R488): a whole channel 3 message. -/
def execVc2ReadData (src req st : Nat) (b : Bytes) (s : State) : Result := runFz s fun z m => m.vc2Message z 3 src req st b {}

/-- GROUP_TRANSFER_REPLY (R489): a member's reply on channel 2, or 3 where `reads`. -/
def execGroupTransferReply (src req st : Nat) (reads : Bool) (b : Bytes) (s : State) : Result := run s fun m =>
  match m.waitOf src req (if reads then 2 else 1) with
  | some w => m.transferReply w st b
  | none => m

/-- GROUP_TRANSFER_TIMEOUT (R489). -/
def execGroupTransferTimeout (n k ms : Nat) (s : State) : Result := runIf (n < 2 && k < 16) s fun m => m.transferLate n k ms

/-- FW_IMAGE_RECEIVED (R409). -/
def execFwImageReceived (busy : Bool) (s : State) : Result := run s fun m => m.fwComplete busy

/-- FW_BCAST_ANSWER (R410). -/
def execFwBcastAnswer (member st id : Nat) (s : State) : Result := runFz s fun z m => m.bcastAnswer z member st id

/-- FW_BCAST_TIMEOUT (R410). -/
def execFwBcastTimeout (ms : Nat) (s : State) : Result := runFz s fun z m => m.bcastLate z ms

end Sys2Proof.Machine
end

