-- ==== Sys2Proof/Machine/GridRows.lean ====
section
/-! DEFINITION. The commands of the grid, the remote line cache, the buffer and the stacks' controllers. -/
namespace Sys2Proof.Machine

/-- A grid access of one line that the address space can hold. -/
def lineAccess (ctx va len : Nat) : Bool := ctx < 4096 && va < 2 ^ 40 && 1 ≤ len && va % 256 + len ≤ 256

/-- GRID_READ (R16, R91, R125, R134). -/
def execGridRead (fl port tag ctx va len since way : Nat) (ecc : Ecc) (wait : Bool) (s : State) : Result :=
  runIf (fl < 2 && port < 48 && lineAccess ctx va len) s fun m =>
    m.arrive (.port fl port tag) ctx va (.read len) ecc since way wait

/-- GRID_WRITE (R129, R88, R93, R133). -/
def execGridWrite (fl port tag ctx va : Nat) (data : Bytes) (rel : Bool) (ecc : Ecc) (wait : Bool) (s : State) : Result :=
  runIf (fl < 2 && port < 48 && lineAccess ctx va data.length) s fun m =>
    m.arrive (.port fl port tag) ctx va (.write data rel) ecc 33 0 wait

/-- Aged transactions of a target are served, in its order, while one is next. -/
def Mach.serveAged : Nat → Mach → Nat → Mach
  | 0, m, _ => m
  | fuel + 1, m, target =>
    match m.nextTxn target with
    | none => m
    | some t => if t.aged then Mach.serveAged fuel (m.serveTxn target t) target else m

/-- A waiting transaction has aged (R124, R154): it goes before those that have not, after earlier aged ones as its target orders them. -/
def Mach.promoteTxn (m : Mach) (target i : Nat) : Mach :=
  let q := sgetD [] m.grid.wait target
  match q[i]? with
  | none => m
  | some t =>
    let m := m.setGrid { m.grid with wait := sput m.grid.wait target (setAt q i { t with aged := true }) }
    (Mach.serveAged q.length (m.takeIn 64 target) target).relSettle

/-- AGE_PROMOTE (R124): transaction `i` waiting at slice or channel `target` has waited GRID_AGE_PROMOTE, `ns` in all. -/
def execAgePromote (target i ns : Nat) (s : State) : Result :=
  runIf (target < 320) s fun m => if ns ≥ m.cfg kGridAgePromote then m.promoteTxn target i else m

/-- Write `j` of a channel's write queue has aged (R154): it goes to the array behind earlier aged ones and before all else. -/
def Mach.promoteWrite (m : Mach) (chan j : Nat) : Mach :=
  let q := sgetD [] m.stk.writeQ chan
  let n := sgetD 0 m.stk.agedW chan
  match q[j]? with
  | none => m
  | some w =>
    let m := if j < n then m
      else m.setStk { m.stk with
        writeQ := sput m.stk.writeQ chan (q.take n ++ w :: (q.eraseIdx j).drop n), agedW := sput m.stk.agedW chan (n + 1) }
    (Mach.serveTarget (sgetD [] m.grid.wait (128 + chan)).length m (128 + chan)).relSettle

/-- STACK_AGE_PROMOTE (R154): transaction `i` at a channel has waited STACK_AGE_LIMIT, `ns` in all: one that waits before it or in its
read queue, and after those one of its write queue. -/
def execStackAgePromote (chan i ns : Nat) (s : State) : Result :=
  runIf (chan < 192) s fun m =>
    let n := (sgetD [] m.grid.wait (128 + chan)).length
    if ns < m.cfg kStackAgeLimit then m else if i < n then m.promoteTxn (128 + chan) i else m.promoteWrite chan (i - n)

/-- FILL (R92), with the context and epoch of its requester (R148). -/
def execFill (r : FillReq) (pa way : Nat) (ecc : Ecc) (s : State) : Result :=
  runIf (r.ctx < 4096 && way < 16 && pa < 2 ^ 47) s fun m => m.fillAt r.ctx r.epoch pa way ecc

/-- DATA (R91): the line, or a status that says why it has none. -/
def execDataMsg (fl pa st : Nat) (data : Bytes) (s : State) : Result :=
  runIf (fl < 2 && pa < 2 ^ 47) s fun m =>
    match Status.ofCode st with
    | some x => m.dataIn fl pa x (padTo 256 data)
    | none => m

/-- INV (R93). -/
def execInvMsg (fl pa : Nat) (s : State) : Result := runIf (fl < 2 && pa < 2 ^ 47) s fun m => m.invAt fl pa

/-- INV_ACK (R94), as floor `f` sends it to the line's home; the home itself sends none. -/
def execInvAck (f pa : Nat) (s : State) : Result :=
  runIf (f < 2 && pa < 2 ^ 47) s fun m => if f = paFloor pa then m else m.invAckAt pa

/-! The buffer. -/

/-- A line of a slice scrubbed, with what its array has come to hold (R136): a corrected word written back, an uncorrectable line
treated as R134 treats a read. -/
def Mach.scrubLine (m : Mach) (pa : Nat) (ecc : Ecc) : Mach :=
  let line := pa / 256 * 256
  (m.plant line ecc).eccMeet m.fb.epoch 0 true (readGrains line 256)

/-- BUF_SCRUB: the scrub of a slice reaches one of its lines (R136). -/
def execBufScrub (slice line : Nat) (ecc : Ecc) (s : State) : Result :=
  runIf (slice < 128 && line < 32768) s fun m => m.scrubLine (Place.pa ⟨slice / 64, 0, 0, slice % 64, line⟩ 0) ecc

/-- Corrected errors of a slice in the present hour (R137). -/
def Mach.sliceCe (m : Mach) (slice : Nat) : Nat :=
  match sget m.grid.ceHour slice with
  | some x => if x.1 = m.clk.us / hourUs then x.2 else 0
  | none => 0

/-- SLICE_CE_RETIRE (R137): a slice over its limit is retired to a spare where one remains. -/
def execSliceCeRetire (slice : Nat) (s : State) : Result :=
  runIf (slice < 128) s fun m =>
    if m.sliceCe slice > m.cfg kBufCeRetireLimit && (m.spareFor ⟨0x04, slice⟩).isSome then
      (m.setGrid { m.grid with ceHour := sdel m.grid.ceHour slice }).unitRetires ⟨0x04, slice⟩ 0x04
    else m

/-! The channel controllers. -/

/-- A read or atomic operation waits at a channel. -/
def Mach.readWaits (m : Mach) (chan : Nat) : Bool := (sgetD [] m.grid.wait (128 + chan)).any fun t => !t.kind.isWrite

/-- The oldest queued writes of a channel go to its array while more than `floor` are left and its grid side may move data. -/
def Mach.drainSome : Nat → Mach → Nat → Nat → Mach
  | 0, m, _, _ => m
  | fuel + 1, m, chan, floor =>
    match sgetD [] m.stk.writeQ chan with
    | [] => m
    | w :: rest =>
      if rest.length < floor || m.gridHeld chan then m else Mach.drainSome fuel (m.issueWrite chan w) chan floor

/-- A channel drains its write queue (R156): at 48 writes or more, down to 16; with no read waiting, until it is empty. A drain that
the cap stops goes on (R179). Writes that waited for room enter the queue. -/
def Mach.drainWrites (m : Mach) (chan : Nat) : Mach :=
  let n := (sgetD [] m.stk.writeQ chan).length
  let floor := if m.readWaits chan then 16 else 0
  if !m.readWaits chan || n ≥ 48 || shas m.stk.draining chan then
    let m := Mach.drainSome 64 m chan floor
    let more : Bool := (sgetD [] m.stk.writeQ chan).length > floor
    let m := m.setStk { m.stk with draining := if more then sput m.stk.draining chan () else sdel m.stk.draining chan }
    (Mach.serveTarget (sgetD [] m.grid.wait (128 + chan)).length m (128 + chan)).relSettle
  else m

/-- WRITE_DRAIN (R156). -/
def execWriteDrain (chan : Nat) (s : State) : Result := runIf (chan < 192) s fun m =>
  if (m.stackAt (chan / 32)).selfRefresh then m else m.drainWrites chan

/-- ROW_NEIGHBOUR_REFRESH: the row of stack address `pa` is activated `n` times (R158). -/
def execRowNeighbourRefresh (pa n : Nat) (s : State) : Result :=
  runIf (2 ^ 46 ≤ pa && pa < 2 ^ 47) s fun m => m.rowActivated pa n

/-- Rows of a bank (Table 5.1). -/
def bankRows : Nat := 24576

/-- Row `r` lies among the `n` rows refreshed from row `at_` on. -/
def inRefresh (at_ n r : Nat) : Bool := (r + bankRows - at_ % bankRows) % bankRows < n

/-- A bank's refresh falls due (R158, R174, R175): issued, or deferred while the bank is busy, at most 8 intervals. It refreshes the
next `rows` rows, whose activations count anew. A stack in self-refresh refreshes itself (R194); C32 and C33 of stack `s`, channels
192 + 2s and 193 + 2s here, are refreshed while they are unused (R192). -/
def Mach.bankRefresh (m : Mach) (chan bank rows : Nat) (busy : Bool) : Mach :=
  let st := if chan < 192 then chan / 32 else (chan - 192) / 2
  let idle : Bool := 192 ≤ chan && m.physState 3 st (32 + (chan - 192) % 2) ≠ 1
  let k := chan * 64 + bank
  let d := sgetD 0 m.stk.deferred k
  if (m.stackAt st).selfRefresh || idle then m
  else if busy && d < 8 then m.setStk { m.stk with deferred := sput m.stk.deferred k (d + 1) }
  else
    let at_ := sgetD 0 m.stk.refreshAt k
    let due := rows + d * rows
    let base := chan * 2 ^ 32 + bank / 4 * 2 ^ 20 + bank % 4 * 2 ^ 16
    let m := m.setStk { m.stk with
      deferred := sdel m.stk.deferred k
      refreshAt := sput m.stk.refreshAt k ((at_ + due) % bankRows)
      openRow := sdel m.stk.openRow k
      acts := m.stk.acts.filter fun a => !(a.1 / 2 ^ 16 = base / 2 ^ 16 && inRefresh at_ due (a.1 % 2 ^ 16)) }
    if chan < 192 then m.bump (key (0x9200 + chan) 4) due else m

/-- BANK_REFRESH (R175): bank `bank` (die × 4 + bank) of a channel, `rows` rows an interval. -/
def execBankRefresh (chan bank rows : Nat) (busy : Bool) (s : State) : Result :=
  runIf (chan < 204 && bank < 64) s fun m => m.bankRefresh chan bank rows busy

/-- Sectors of a channel. -/
def chanSectors : Nat := 3 * 2 ^ 24

/-- Patrol visits the next sector of a channel, with what it has come to hold (R166): it pauses in self-refresh and at the cap, and goes
on with the sector where it stopped; no item fails. -/
def Mach.patrolSector (m : Mach) (chan : Nat) (ecc : Ecc) : Mach :=
  let x := m.stackAt (chan / 32)
  if x.selfRefresh || x.shut || m.atCap chan then m
  else
    let i := sgetD 0 m.stk.patrol chan
    let pa := Place.pa ⟨chan / 96, 1, chan / 32, chan % 32, i / 4⟩ (i % 4 * 64)
    let m := m.setStk { m.stk with patrol := sput m.stk.patrol chan ((i + 1) % chanSectors) }
    let m := ((m.openRowOf pa false).moved chan 64 .back).bump (key (0x9200 + chan) 1) 64
    let m := if nth 0 ecc.errs 0 = 0 then m else m.setErrs pa (nth 0 ecc.errs 0)
    let fixed : Bool := m.errsAt pa ≠ 0 && m.errsAt pa ≤ eccLimit 1 && !m.poisoned pa 8
    let m := if fixed then m.patrolFixed (chan / 32) else m
    m.eccMeet m.fb.epoch 0 true [pa] .back

/-- STACK_PATROL (R166). -/
def execStackPatrol (st chan : Nat) (ecc : Ecc) (s : State) : Result :=
  runIf (st < 6 && chan < 32) s fun m => m.patrolSector (32 * st + chan) ecc

/-- ROW_COPY_DONE: the copy of a row or page ends; what waited for it is served (R169). -/
def execRowCopyDone (pa : Nat) (s : State) : Result :=
  runIf (2 ^ 46 ≤ pa && pa < 2 ^ 47) s fun m =>
    let k := 128 + paChan pa
    ((Mach.serveTarget (sgetD [] m.grid.wait k).length (m.endCopy pa) k).relSettle).resumeAtomics

/-- A channel's window has reached the throttle cap (R179). -/
def Mach.capReached (m : Mach) (chan : Nat) : Mach :=
  let cap := m.windowCap (chan / 32)
  if m.stackCap (chan / 32) < 100 && sgetD 0 m.stk.window chan ≥ cap && !shas m.stk.capped chan then
    (m.setStk { m.stk with capped := sput m.stk.capped chan () }).bump (key (0x9200 + chan) 6)
  else m

/-- STACK_CAP_REACHED (R179). -/
def execStackCapReached (chan : Nat) (s : State) : Result := runIf (chan < 192) s fun m => m.capReached chan

/-- REKEY_SWEEP_DONE (R187). -/
def execRekeySweepDone (ctx : Nat) (s : State) : Result := runIf (ctx < 4096) s fun m => m.sweepDone ctx

/-- OLD_KEY_ERASE (R187). -/
def execOldKeyErase (ctx : Nat) (s : State) : Result := runIf (ctx < 4096) s fun m => m.eraseOld ctx

/-- CHANNEL_COPY_DONE (R193). -/
def execChannelCopyDone (chan : Nat) (s : State) : Result := runIf (chan < 192) s fun m =>
  if (m.stackAt (chan / 32)).shut then m else m.moveDone (chanRef chan)

end Sys2Proof.Machine
end

