-- ==== Sys2Proof/Machine/HeatRows.lean ====
section
/-! DEFINITION. The commands of the temperature sensors and zones. Readings are in 1/16 °C. -/
namespace Sys2Proof.Machine

/-- BENCHMARK_RECAL (R597, R599): the benchmark of floor `f` reads `bench`, its eight neighbours `near` (index, reading). -/
def execBenchmarkRecal (f : Nat) (bench : Int) (near : List (Nat × Int)) (s : State) : Result :=
  runIf (f < 2) s fun m => m.recal f bench near

/-- ZONE_SAMPLE (R601, R598): zone kind 1 is a floor's, 2 a site's; `odd` names the sensors that differ from their
neighbours, `dead` those that do not count. -/
def execZoneSample (kind zone : Nat) (reads : List Int) (odd dead : List Nat) (s : State) : Result :=
  runIf (kind = 1 && zone < 2 || kind = 2 && zone < 4) s fun m => m.zoneSample kind zone reads odd dead

/-- FLOOR_THERMAL_RETURN (R605). -/
def execFloorThermalReturn (f : Nat) (bench : Int) (s : State) : Result := runIf (f < 2) s fun m => m.floorReturns f bench

/-- STACK_TEMP_REPORT (R176, R177): the sequence number, die words and CRC of a report of stack `st`. -/
def execStackTempReport (st seq : Nat) (words : List Nat) (crc : Nat) (s : State) : Result :=
  runIf (st < 6 && seq < 2 ^ 16 && words.all (· < 2 ^ 16)) s fun m => m.stackReport st seq words crc

/-- STACK_REPORT_MISSED (R178). -/
def execStackReportMissed (st : Nat) (s : State) : Result := runIf (st < 6) s fun m => m.reportMissed st

/-- STACK_REPORT_TIMEOUT (R178): `us` µs without a valid report. -/
def execStackReportTimeout (st us : Nat) (s : State) : Result := runIf (st < 6) s fun m => m.reportsGone st us

end Sys2Proof.Machine
end

