-- ==== Sys2Proof/Machine/HostRows.lean ====
section
/-! DEFINITION. The commands of host and far-tier ports (14_host_bridge.md) that are not Field Book commands. -/
namespace Sys2Proof.Machine

/-- HP_DOORBELL_WRITE (R477). -/
def execHpDoorbellWrite (n word : Nat) (s : State) : Result :=
  runIf (n < 2 && word < 2 ^ 64) s fun m => m.hpBell n word

/-- BAR2_READ (R479). -/
def execBar2Read (n tag off len : Nat) (ecc : Ecc) (since way : Nat) (wait : Bool) (s : State) : Result :=
  runIf (n < 2 && off < 2 ^ 32) s fun m => m.bar2Read n tag off len ecc since way wait

/-- BAR2_WRITE (R479). -/
def execBar2Write (n tag off : Nat) (data : Bytes) (ecc : Ecc) (wait : Bool) (s : State) : Result :=
  runIf (n < 2 && off < 2 ^ 32) s fun m => m.bar2Write n tag off data ecc wait

/-- XFER_TO_MODULE (R481, R487): GO on channel `k` with DIR 0; host memory holds `data` where SEALED is 0, and `records` where it
is 1. -/
def execXferToModule (n k ctl : Nat) (data records : Bytes) (s : State) : Result :=
  runIf (n < 2 && k < 16) s fun m =>
    m.xferStart n k (ctl % 2 ^ 30 + ctl / 2 ^ 31 * 2 ^ 31) (if ctlSealed ctl then records else data)

/-- XFER_TO_HOST (R481, R487): GO on channel `k` with DIR 1. -/
def execXferToHost (n k ctl : Nat) (s : State) : Result :=
  runIf (n < 2 && k < 16) s fun m => m.xferStart n k (ctl % 2 ^ 30 + 2 ^ 30) []

/-- XFER_END (R482). -/
def execXferEnd (n k : Nat) (s : State) : Result := runIf (n < 2 && k < 16) s fun m => m.xferEnd n k

/-- SPDM_REQUEST (R484): request code `code`, in session `sess`. -/
def execSpdmRequest (n code sess : Nat) (s : State) : Result :=
  runIf (n < 2 && code < 256) s fun m => m.spdmRequest n code sess

/-- XFER_BIND (R485). -/
def execXferBind (n sess k ctx : Nat) (auth : Bytes) (s : State) : Result :=
  runFzIf (n < 2) s fun z m => m.xferBind z n sess k ctx auth

/-- XFER_UNBIND (R485). -/
def execXferUnbind (n sess k : Nat) (s : State) : Result := runIf (n < 2) s fun m => m.xferUnbind n sess k

/-- HP_LINK_DOWN (R498). -/
def execHpLinkDown (n : Nat) (s : State) : Result := runIf (n < 2) s fun m => m.hpLinkLost n

/-- FUNCTION_LEVEL_RESET (R498). -/
def execFunctionLevelReset (n : Nat) (s : State) : Result :=
  runIf (n < 2) s fun m => if (m.hpAt n).role = 1 && (m.hpAt n).link = 2 then m.startHpFence n 5 false else m

/-- HP_PERST (R695). -/
def execHpPerst (n : Nat) (s : State) : Result := runIf (n < 2) s fun m => m.hpLinkLost n

/-- HP_LINK_UP (R474). -/
def execHpLinkUp (n width rate : Nat) (flit : Bool) (s : State) : Result :=
  runIf (n < 2) s fun m => m.hpLinkUp n width rate flit

/-- SPDM_HEARTBEAT_EXPIRE (R484): `us` µs without a heartbeat of session `sess`. -/
def execSpdmHeartbeatExpire (n sess us : Nat) (s : State) : Result :=
  runIf (n < 2) s fun m => if us ≥ 60000000 then m.spdmEnd n sess else m

/-- FAR_DEVICE_ATTACH (R490). -/
def execFarDeviceAttach (n kind cap : Nat) (device : Bytes) (s : State) : Result :=
  runIf (n < 2) s fun m => m.farAttach n kind cap device

/-- FAR_DEVICE_DOWN (R499). -/
def execFarDeviceDown (n : Nat) (s : State) : Result := runIf (n < 2) s fun m => m.farDown n

/-- CHECKPOINT_MOVE_DONE (R495, R496): `h` and `b` are the extent's header and data as read, `hPoison` and `bPoison` whether the
device's read of each was poisoned. -/
def execCheckpointMoveDone (ring seq : Nat) (h b : Bytes) (hPoison bPoison : Bool) (s : State) : Result :=
  runIf (ring < 32768 && seq < 2 ^ 48) s fun m => m.ckptMoved (itemKey ring seq) h b hPoison bPoison

end Sys2Proof.Machine
end

