-- ==== Sys2Proof/Machine/MarginRows.lean ====
section
/-! DEFINITION. The commands of ageing and margin planning. -/
namespace Sys2Proof.Machine

/-- MONITOR_SAMPLE (R641, R642): the 64 slacks of floor `f` in 0.1 ps, and the monitors that R598's rules make invalid. -/
def execMonitorSample (f : Nat) (reads : List Int) (bad : List Nat) (s : State) : Result :=
  runIf (f < 2) s fun m => m.monitors f reads bad

/-- EYE_MEASURE (R643, R652): unit kind, number, lane, width in mUI and height in mV of each eye measured. -/
def execEyeMeasure (eyes : List (Nat × Nat × Nat × Nat × Nat)) (s : State) : Result := run s fun m => m.eyesTaken eyes

/-- MARGIN_REPLAN (R649): `secs` seconds since the last re-plan. -/
def execMarginReplan (secs : Nat) (s : State) : Result := run s fun m => m.replanDue secs

/-- LEVEL_RUN (R645, R646): a run on canary `lane` of a unit begins, or ends with what it found. -/
def execLevelRun (kind unit lane phase ref req : Nat) (ends : Bool) (s : State) : Result :=
  run s fun m => m.levelRun ⟨kind, unit⟩ lane phase ref req ends

end Sys2Proof.Machine
end

