-- ==== Sys2Proof/Machine/PowerRows.lean ====
section
/-! DEFINITION. The commands of the power pins, of closures and of the site supplies. -/
namespace Sys2Proof.Machine

/-- PFW_N_FALL (R592): PFW_N has been low for `ns` ns. -/
def execPfwNFall (ns : Nat) (s : State) : Result := run s fun m => m.pfwFalls ns

/-- PFW_N_RISE (R684). -/
def execPfwNRise (s : State) : Result := run s fun m => m.setPwr { m.pwr with pfwLow := false }

/-- RAILS_IN_RANGE (R684). -/
def execRailsInRange (s : State) : Result := run s fun m => m.setPwr { m.pwr with railsOk := true }

/-- PVIN_LOW_STOP (R593): PVIN has fallen to `mv` mV. -/
def execPvinLowStop (mv : Nat) (s : State) : Result := run s fun m => m.pvinLow mv

/-- V1P8_AON_LOSS (R686): V1P8_AON has fallen to `mv` mV. -/
def execV1p8AonLoss (mv : Nat) (s : State) : Result := run s fun m => m.aonLost mv

/-- V1P8_AON_RISE (R543). -/
def execV1p8AonRise (s : State) : Result := run s Mach.aonRises

/-- PORST_N_FALL (R685, R695). -/
def execPorstNFall (s : State) : Result := run s fun m => m.resetFalls true

/-- WRST_N_FALL (R685, R695). -/
def execWrstNFall (s : State) : Result := run s fun m => m.resetFalls false

/-- SITE_POWER_OVER (R588): the 1 ms mean of site `t` is `w` W. -/
def execSitePowerOver (t w : Nat) (s : State) : Result := runIf (t < 4) s fun m => m.powerOver t w

/-- SITE_CEILING_RELEASE (R588): the mean of site `t` has stayed at or below `w` W for `ms` ms. -/
def execSiteCeilingRelease (t w ms : Nat) (s : State) : Result := runIf (t < 4) s fun m => m.powerBelow t w ms

/-- VCORE_CURRENT_LIMIT (R589): site `t` draws `ma` mA for `ns` ns. -/
def execVcoreCurrentLimit (t ma ns : Nat) (s : State) : Result := runIf (t < 4) s fun m => m.currentLimit t ma ns

/-- DROOP_EVENT (R591): VCORE of site `t` falls `mv` mV below its set value. -/
def execDroopEvent (t mv : Nat) (s : State) : Result := runIf (t < 4) s fun m => m.droop t mv

end Sys2Proof.Machine
end

