-- ==== Sys2Proof/Machine/RecordRows.lean ====
section
/-! DEFINITION. The commands of units in service and of the ledger's flush. -/
namespace Sys2Proof.Machine

/-- UNIT_FAIL (R660): the unit or, where `spare`, the spare its move goes to; `serves` tells whether the old unit can still
serve (R636), `cause` is a code of Table 21.7. -/
def execUnitFail (kind num cause : Nat) (serves spare : Bool) (s : State) : Result :=
  runFzIf ((UnitRef.isCad ⟨kind, num⟩ || (kind = 1 && num < 2))) s fun z m => m.toldAs z (m.unitFail ⟨kind, num⟩ cause serves spare)

/-- SLICE_COPY_DONE (R635): the copy of a slice ends, and its move awaits the flip that SURVEYOR_COMMIT makes (Table 19.9 step 3). -/
def execSliceCopyDone (slice : Nat) (s : State) : Result := runIf (slice < 128) s fun m =>
  if m.floorLost (slice / 64) then m else m.moveDone ⟨0x04, slice⟩

/-- MOVE_RETIRE (R635): the old unit of a move whose last mapping epoch has retired leaves service. -/
def execMoveRetire (kind num : Nat) (s : State) : Result := runIf (UnitRef.isCad ⟨kind, num⟩) s fun m =>
  match m.cad.moves.find? fun x => x.unit = ⟨kind, num⟩ && x.stage = 3 with
  | some x => m.moveRetire x
  | none => m

/-- MOVE_START_QUEUED (R637). -/
def execMoveStartQueued (f : Nat) (s : State) : Result := runIf (f < 2) s fun m => m.startQueued f

/-- LEDGER_FLUSH (R669): `ok` tells whether the flash write succeeds (R674). -/
def execLedgerFlush (ok : Bool) (s : State) : Result := run s fun m => m.ledgerFlush ok

end Sys2Proof.Machine
end

