-- ==== Sys2Proof/Machine/RingRows.lean ====
section
/-! DEFINITION. The commands of sweep engines, rings and items that are not Field Book commands (07_sweep_engines.md,
09_work_rings.md, 11_traverses.md, 12_tile_sites.md, 13_host_cores.md, 14_host_bridge.md). -/
namespace Sys2Proof.Machine

/-! Items taken from a ring (R307 to R311). -/

/-- SWEEP (R221, R230, R244, R245). -/
def execSweep (ring : Nat) (s : State) : Result :=
  runIf (ring < 32768) s fun m => m.takeKind ring fun d => descKind d = kindSweep

/-- SWEEP_MERGE (R240, R241). -/
def execSweepMerge (ring : Nat) (s : State) : Result :=
  runIf (ring < 32768) s fun m => m.takeKind ring fun d => descKind d = kindMerge

/-- SWEEP_SESSION_OPEN (R248, R249). -/
def execSweepSessionOpen (ring : Nat) (s : State) : Result :=
  runIf (ring < 32768) s fun m => m.takeKind ring fun d => descKind d = kindSession && bitOf d 499

/-- SWEEP_SESSION_CLOSE (R248, R251). -/
def execSweepSessionClose (ring : Nat) (s : State) : Result :=
  runIf (ring < 32768) s fun m => m.takeKind ring fun d => descKind d = kindSession && !bitOf d 499

/-- TRAVERSE (R371 to R377, R382). -/
def execTraverse (ring : Nat) (s : State) : Result :=
  runIf (ring < 32768) s fun m => m.takeKind ring fun d => descKind d = kindTraverse

/-- CHECKPOINT_SAVE (R493 to R497): taken, or begun once its port is free. -/
def execCheckpointSave (ring : Nat) (s : State) : Result :=
  runIf (ring < 32768) s fun m => m.takeOrStart ring (· = kindSave)

/-- CHECKPOINT_LOAD (R493 to R497). -/
def execCheckpointLoad (ring : Nat) (s : State) : Result :=
  runIf (ring < 32768) s fun m => m.takeOrStart ring (· = kindLoad)

/-- SITE_WORK (R426, R704): taken, or handed over once the site can take it. -/
def execSiteWork (ring : Nat) (s : State) : Result :=
  runIf (ring < 32768) s fun m => m.takeOrStart ring (· = kindSite)

/-- CORE_WORK (R460, R704). -/
def execCoreWork (ring : Nat) (s : State) : Result :=
  runIf (ring < 32768) s fun m => m.takeOrStart ring (· = kindCore)

/-- DESCRIPTOR_TAKE (R307 to R310): any kind. -/
def execDescriptorTake (ring : Nat) (s : State) : Result :=
  runIf (ring < 32768) s fun m => m.take ring

/-- ORDERED_ITEM_START (R313, R314). -/
def execOrderedItemStart (ring seq : Nat) (s : State) : Result :=
  runIf (ring < 32768 && seq < 2 ^ 48) s fun m => m.orderedStart (itemKey ring seq)

/-! Sweep engines. -/

/-- SWEEP_DISPATCH (R244 to R247). -/
def execSweepDispatch (stack : Nat) (s : State) : Result := runIf (stack < 6) s fun m => m.swpDispatch stack

/-- SWEEP_COMBINE (R237, R255): the engines of item `seq` of ring `ring` have all finished. -/
def execSweepCombine (ring seq : Nat) (s : State) : Result :=
  runIf (ring < 32768 && seq < 2 ^ 48) s fun m => m.swpCombine (itemKey ring seq)

/-- ENGINE_FAULT (R253): a logical engine of a stack faults. -/
def execEngineFault (stack engine : Nat) (s : State) : Result :=
  runIf (stack < 6 && engine < 16) s fun m => m.engineFault stack engine

/-- SESSION_OPEN_DONE (R249). -/
def execSessionOpenDone (ring seq : Nat) (s : State) : Result :=
  runIf (ring < 32768 && seq < 2 ^ 48) s fun m => m.sessionOpened (itemKey ring seq)

/-- SWEEP_SESSION_EXPIRE (R251): the `i`-th open session has been open for `us`. -/
def execSweepSessionExpire (i us : Nat) (s : State) : Result := run s fun m => m.sessionExpire i us

/-! Doorbells. -/

/-- A doorbell that reaches its floor's rings, from submitter `num` of kind `kind` (Table 9.11): it wakes the module. -/
def Mach.ringBell (m : Mach) (kind num word : Nat) : Mach := (m.wake 1).doorbell kind num word

/-- DOORBELL_PRODUCE (R303 to R305). -/
def execDoorbellProduce (kind num word : Nat) (s : State) : Result :=
  run s fun m => m.ringBell kind num (word % 2 ^ 63)

/-- DOORBELL_CONSUME (R303 to R305). -/
def execDoorbellConsume (kind num word : Nat) (s : State) : Result :=
  run s fun m => m.ringBell kind num (word % 2 ^ 63 + 2 ^ 63)

end Sys2Proof.Machine
end

