-- ==== Sys2Proof/Machine/SiteRows.lean ====
section
/-! DEFINITION. The commands of tile sites (12_tile_sites.md): flits, sideband messages, limits and the load notice. -/
namespace Sys2Proof.Machine

/-! Flits (Table 12.2): a command's own OP, or the reserved one that its flit gives. -/

/-- SITE_READ (R420, R421). -/
def execSiteRead (t b : Nat) (f : Flit) (ecc : Ecc) (since way : Nat) (wait : Bool) (s : State) : Result :=
  runIf (t < 4 && b < 16) s fun m => m.flitIn t b (flitOwn f 1) ecc since way wait

/-- SITE_WRITE (R420, R421). -/
def execSiteWrite (t b : Nat) (f : Flit) (ecc : Ecc) (wait : Bool) (s : State) : Result :=
  runIf (t < 4 && b < 16) s fun m => m.flitIn t b (flitOwn f 2) ecc 33 0 wait

/-- SITE_DOORBELL (R426). -/
def execSiteDoorbell (t b : Nat) (f : Flit) (s : State) : Result :=
  runIf (t < 4 && b < 16) s fun m => m.flitIn t b (flitOwn f 4)

/-- WORK_DONE (R318, R424, R426). -/
def execWorkDone (t b : Nat) (f : Flit) (s : State) : Result :=
  runIf (t < 4 && b < 16) s fun m => m.flitIn t b (flitOwn f 5)

/-- VSET (R437). -/
def execVset (t b : Nat) (f : Flit) (s : State) : Result :=
  runIf (t < 4 && b < 16) s fun m => m.flitIn t b (flitOwn f 6)

/-- VSET_SETTLED (R437). -/
def execVsetSettled (t : Nat) (s : State) : Result := runIf (t < 4) s fun m => m.vsetSettled t

/-- FW_STATUS (R441). -/
def execFwStatus (t b : Nat) (f : Flit) (s : State) : Result :=
  runIf (t < 4 && b < 16) s fun m => m.flitIn t b (flitOwn f 7)

/-- NULL (R429). -/
def execNullFlit (t b : Nat) (f : Flit) (s : State) : Result :=
  runIf (t < 4 && b < 16) s fun m => m.flitIn t b (flitOwn f 0)

/-- SITE_FLIT_CORRUPT (R432). -/
def execSiteFlitCorrupt (t b : Nat) (s : State) : Result := runIf (t < 4 && b < 16) s fun m => m.flitCorrupt t b

/-- SITE_NAK_RECEIVE (R432): `seq` is the last sequence the tile received in order. -/
def execSiteNakReceive (t b seq : Nat) (s : State) : Result :=
  runIf (t < 4 && b < 16 && seq < 128) s fun m => m.bondNak t b seq

/-- BOND_RETRAIN (R414, R417, R418, R432): retraining ends with what it found; `rsp` and `work` are the grants of a spare that takes
over. -/
def execBondRetrain (t b : Nat) (test : BondTest) (rsp work : Nat) (s : State) : Result :=
  runFzIf (t < 4 && b < 16) s fun z m => m.toldAs z (m.bondRetrained t b test rsp work)

/-! Limits. -/

/-- PROTO_ERR_LIMIT (R425). -/
def execProtoErrLimit (t rise : Nat) (s : State) : Result := runIf (t < 4) s fun m => m.protoLimit t rise

/-- SITE_WORK_TIMEOUT (R427). -/
def execSiteWorkTimeout (ring seq us : Nat) (s : State) : Result :=
  runIf (ring < 32768 && seq < 2 ^ 48) s fun m => m.siteWorkLate (itemKey ring seq) us

/-! Sideband (Table 12.5). -/

/-- SB_HELLO (R439, R414, R415): `tests` is what training finds at 4, 2 and 1 GT/s, `rsp` and `work` the tile's grants. -/
def execSbHello (t : Nat) (msg : SbMsg) (tests : List (List BondTest)) (rsp work : List Nat) (s : State) : Result :=
  runIf (t < 4) s fun m => m.sbTake t 1 msg (num msg.payload 3 1 ≠ 0) fun m => m.siteHello t msg.payload tests rsp work

/-- SB_ACCEPT (R439, R440). -/
def execSbAccept (t : Nat) (msg : SbMsg) (s : State) : Result :=
  runIf (t < 4) s fun m => m.sbTake t 3 msg false fun m => m.siteAccept t msg.payload

/-- SB_EVIDENCE (R440, R441, R510 to R512). -/
def execSbEvidence (t : Nat) (msg : SbMsg) (s : State) : Result :=
  runFzIf (t < 4) s fun z m => m.sbTake t 5 msg false fun m => m.toldAs z (m.siteEvidence z.order t msg.payload msg.verif)

/-- SB_FENCE_REQ (R443). -/
def execSbFenceReq (t : Nat) (msg : SbMsg) (s : State) : Result :=
  runIf (t < 4) s fun m => m.sbTake t 9 msg false fun m => m.startSiteFence t 5 false

/-- SB_ACK (R433). -/
def execSbAck (t : Nat) (msg : SbMsg) (s : State) : Result := runIf (t < 4) s fun m => m.sbAck t msg

/-- SIDEBAND_LOST (R434). -/
def execSidebandLost (t us : Nat) (s : State) : Result := runIf (t < 4) s fun m => m.sbLost t us

/-- HELLO_TIMEOUT (R435). -/
def execHelloTimeout (t us : Nat) (s : State) : Result := runIf (t < 4) s fun m => m.helloLate t us

/-- EVIDENCE_TIMEOUT (R440, R512). -/
def execEvidenceTimeout (t us : Nat) (s : State) : Result := runIf (t < 4) s fun m => m.evidenceLate t us

/-! The load notice. -/

/-- LN_N_ASSERT (R438, R590). -/
def execLnNAssert (t : Nat) (s : State) : Result := runIf (t < 4) s fun m => m.lnFall t

/-- LN_N_RELEASE (R590). -/
def execLnNRelease (t : Nat) (s : State) : Result := runIf (t < 4) s fun m => m.lnRise t

/-- LN_N_OVERLONG (R438). -/
def execLnNOverlong (t ns : Nat) (s : State) : Result := runIf (t < 4) s fun m => m.lnLong t ns

/-- TILE_RECHECK (R512). -/
def execTileRecheck (t us : Nat) (s : State) : Result := runIf (t < 4) s fun m => m.tileRecheck t us

/-- SITE_READMIT_AUTO (R446). -/
def execSiteReadmitAuto (t : Nat) (s : State) : Result := runIf (t < 4) s fun m => m.siteAuto t

end Sys2Proof.Machine
end

