-- ==== Sys2Proof/Machine/SurveyRows.lean ====
section
/-! DEFINITION. The commands of the survey, of firmware sources and of a returning die. -/
namespace Sys2Proof.Machine

/-- SURVEY_START (R610, R680): PORST_N, or else WRST_N, rises; the straps as they stand, and the stored regions whose digest
fails. -/
def execSurveyStart (porst : Bool) (hpStraps bootsrc refset test : Nat) (flash : List Nat) (s : State) : Result :=
  run s fun m => m.resetRises porst hpStraps bootsrc refset test flash

/-- RESET_CLOSURE_END (R685): the closure before a reset ends after `us` µs; the survey follows once both pins are high. -/
def execResetClosureEnd (us : Nat) (flash : List Nat) (s : State) : Result :=
  run s fun m => (m.resetHolds us).maybeSurvey flash

/-- SURVEY_STEP_END (R611): the running step ends with what it found, `total` µs into the survey. -/
def execSurveyStepEnd (g : Found) (total : Nat) (s : State) : Result := runFz s fun z m => m.stepEnd z g total

/-- FW_SOURCE_TIMEOUT (R620): the source has delivered nothing for `ms` ms. -/
def execFwSourceTimeout (ms : Nat) (s : State) : Result := run s fun m => m.sourceLate ms

/-- FW_SOURCE_RETRY (R621): `ms` ms after the last source failed. -/
def execFwSourceRetry (ms : Nat) (s : State) : Result := run s fun m => m.sourcesAgain ms

/-- FLASH_REPAIR_DONE (R622). -/
def execFlashRepairDone (s : State) : Result := run s Mach.repairDone

/-- FW_READY (R620): the host writes `v` to FW_READY of port `n` with `image` staged in BAR4. -/
def execFwReady (n v : Nat) (image : Bytes) (f : Verif) (bad : List Nat) (s : State) : Result :=
  runFzIf (n < 2) s fun z m => m.fwReady z n v image f bad

/-- DIE_READMIT (R114 to R117, R701). -/
def execDieReadmit (f : Nat) (own : Bool) (g : Found) (s : State) : Result :=
  runFzIf (f < 2) s fun z m => m.dieReturns z f own g

/-- READMIT_COMMIT (R118). -/
def execReadmitCommit (s : State) : Result := runFz s fun z m => m.toldAs z m.readmitted

/-- SURVEYOR_LOCKSTEP_FAULT (R660). -/
def execSurveyorLockstepFault (f : Nat) (s : State) : Result := runIf (f < 2) s fun m => m.lockstep f

end Sys2Proof.Machine
end

