-- ==== Sys2Proof/Machine/TrustRows.lean ====
section
/-! DEFINITION. The commands of the security controller that are not Field Book commands (15_trust.md, 16_confidential.md,
22_package.md). -/
namespace Sys2Proof.Machine

/-- GET_MEASUREMENTS (R521). -/
def execGetMeasurements (n idx : Nat) (nonce : Bytes) (s : State) : Result :=
  runFzIf (n < 2) s fun z m => m.spdmMeasure z n idx nonce

/-- KEY_REQUEST_EXPIRE (R526): request `id` has been open for `ms` ms. -/
def execKeyRequestExpire (id ms : Nat) (s : State) : Result := run s fun m => m.keyExpire id ms

/-- LEASE_EXPIRY (R547): ISLAND_SECONDS reaches `secs`. -/
def execLeaseExpiry (secs : Nat) (s : State) : Result := run s fun m => m.leaseExpire secs

/-- JTAG_INSTRUCTION (R548, R549, R691). -/
def execJtagInstruction (code : Nat) (s : State) : Result := run s fun m => m.tapInstr code

/-- CONSOLE_INPUT (R548, R549, R692). -/
def execConsoleInput (console code : Nat) (s : State) : Result := runIf (console < 2) s fun m => m.consoleIn console code

end Sys2Proof.Machine
end

