-- ==== Sys2Proof/Machine/Dispatch.lean ====
section
/-! DEFINITION. One arm for each command: what it does to everything but the queue. -/
namespace Sys2Proof.Machine

/-- The effect of a command (opcode_table.json), by one direct call of its meaning. -/
def exec (i : Instr) (s : State) : Host.Outcome State Fault Refusal :=
  match i with
  | .tlsConnect p root leaf f => Sys2Proof.Machine.execTlsConnect p root leaf f s
  | .hello n f => Sys2Proof.Machine.execHello n f s
  | .fbRead rq f => Sys2Proof.Machine.execFbRead rq f s
  | .describe rq f => Sys2Proof.Machine.execDescribe rq f s
  | .writeDirect rq f => Sys2Proof.Machine.execWriteDirect rq f s
  | .writeDraft rq f => Sys2Proof.Machine.execWriteDraft rq f s
  | .writeStoredLayer rq f => Sys2Proof.Machine.execWriteStoredLayer rq f s
  | .subscribe n f => Sys2Proof.Machine.execSubscribe n f s
  | .unsubscribe n f => Sys2Proof.Machine.execUnsubscribe n f s
  | .ping n f => Sys2Proof.Machine.execPing n f s
  | .bye n f => Sys2Proof.Machine.execBye n f s
  | .sessionIdleTimeout n secs => Sys2Proof.Machine.execSessionIdleTimeout n secs s
  | .draftOpen rq reqId v f => Sys2Proof.Machine.execDraftOpen rq reqId v f s
  | .draftDiscard rq reqId v f => Sys2Proof.Machine.execDraftDiscard rq reqId v f s
  | .draftIdleTimeout ms => Sys2Proof.Machine.execDraftIdleTimeout ms s
  | .commit rq reqId v f => Sys2Proof.Machine.execCommit rq reqId v f s
  | .commitSwitch => Sys2Proof.Machine.execCommitSwitch s
  | .commitTimeoutExpired ms => Sys2Proof.Machine.execCommitTimeoutExpired ms s
  | .surveyorCommit => Sys2Proof.Machine.execSurveyorCommit s
  | .licenceInstall rq reqId v f => Sys2Proof.Machine.execLicenceInstall rq reqId v f s
  | .licenceRemove rq reqId v f => Sys2Proof.Machine.execLicenceRemove rq reqId v f s
  | .saveRunning rq reqId v f => Sys2Proof.Machine.execSaveRunning rq reqId v f s
  | .sheetClear n rq reqId v f => Sys2Proof.Machine.execSheetClear n rq reqId v f s
  | .counterClear rq reqId v f => Sys2Proof.Machine.execCounterClear rq reqId v f s
  | .counterLatch => Sys2Proof.Machine.execCounterLatch s
  | .sensorRead rq reqId v f => Sys2Proof.Machine.execSensorRead rq reqId v f s
  | .eyeHistoryRead rq reqId v f => Sys2Proof.Machine.execEyeHistoryRead rq reqId v f s
  | .monitorSlackRead rq reqId v f => Sys2Proof.Machine.execMonitorSlackRead rq reqId v f s
  | .ringCounters rq reqId v f => Sys2Proof.Machine.execRingCounters rq reqId v f s
  | .streamCounters rq reqId v f => Sys2Proof.Machine.execStreamCounters rq reqId v f s
  | .legCounters rq reqId v f => Sys2Proof.Machine.execLegCounters rq reqId v f s
  | .myRingCounters rq reqId v f => Sys2Proof.Machine.execMyRingCounters rq reqId v f s
  | .myCoreCounters rq reqId v f => Sys2Proof.Machine.execMyCoreCounters rq reqId v f s
  | .sidebandStateMessage f msg => Sys2Proof.Machine.execSidebandStateMessage f msg s
  | .sidebandSilent us => Sys2Proof.Machine.execSidebandSilent us s
  | .f0ReturnTimeout ms => Sys2Proof.Machine.execF0ReturnTimeout ms s
  | .dieReadmit f own g => Sys2Proof.Machine.execDieReadmit f own g s
  | .readmitCommit => Sys2Proof.Machine.execReadmitCommit s
  | .bridgeFlitReceive f head body => Sys2Proof.Machine.execBridgeFlitReceive f head body s
  | .bridgeNakReceive f ack => Sys2Proof.Machine.execBridgeNakReceive f ack s
  | .bridgeRetrain ok bad => Sys2Proof.Machine.execBridgeRetrain ok bad s
  | .bridgeLaneSpare d lane n us => Sys2Proof.Machine.execBridgeLaneSpare d lane n us s
  | .fill r pa way ecc => Sys2Proof.Machine.execFill r pa way ecc s
  | .dataMsg fl pa st data => Sys2Proof.Machine.execDataMsg fl pa st data s
  | .invMsg fl pa => Sys2Proof.Machine.execInvMsg fl pa s
  | .invAck f pa => Sys2Proof.Machine.execInvAck f pa s
  | .rlcFlush rq reqId v f => Sys2Proof.Machine.execRlcFlush rq reqId v f s
  | .gridRead fl port tag ctx va len since way ecc wait => Sys2Proof.Machine.execGridRead fl port tag ctx va len since way ecc wait s
  | .gridWrite fl port tag ctx va data rel ecc wait => Sys2Proof.Machine.execGridWrite fl port tag ctx va data rel ecc wait s
  | .agePromote target j ns => Sys2Proof.Machine.execAgePromote target j ns s
  | .bufScrub slice line ecc => Sys2Proof.Machine.execBufScrub slice line ecc s
  | .sliceCeRetire slice => Sys2Proof.Machine.execSliceCeRetire slice s
  | .segmapWrite rq reqId v f => Sys2Proof.Machine.execSegmapWrite rq reqId v f s
  | .segmapRecordDrained rq => Sys2Proof.Machine.execSegmapRecordDrained rq s
  | .segmapDrainTimeout rq us => Sys2Proof.Machine.execSegmapDrainTimeout rq us s
  | .segmapRead rq reqId v f => Sys2Proof.Machine.execSegmapRead rq reqId v f s
  | .segmapClearContext rq reqId v f => Sys2Proof.Machine.execSegmapClearContext rq reqId v f s
  | .stackAgePromote chan j ns => Sys2Proof.Machine.execStackAgePromote chan j ns s
  | .writeDrain chan => Sys2Proof.Machine.execWriteDrain chan s
  | .rowNeighbourRefresh pa n => Sys2Proof.Machine.execRowNeighbourRefresh pa n s
  | .bankRefresh chan bank rows busy => Sys2Proof.Machine.execBankRefresh chan bank rows busy s
  | .stackPatrol st chan ecc => Sys2Proof.Machine.execStackPatrol st chan ecc s
  | .rowCopyDone pa => Sys2Proof.Machine.execRowCopyDone pa s
  | .stackTempReport st seq words crc => Sys2Proof.Machine.execStackTempReport st seq words crc s
  | .stackReportMissed st => Sys2Proof.Machine.execStackReportMissed st s
  | .stackReportTimeout st us => Sys2Proof.Machine.execStackReportTimeout st us s
  | .stackCapReached chan => Sys2Proof.Machine.execStackCapReached chan s
  | .rekeySweepDone ctx => Sys2Proof.Machine.execRekeySweepDone ctx s
  | .oldKeyErase ctx => Sys2Proof.Machine.execOldKeyErase ctx s
  | .channelCopyDone chan => Sys2Proof.Machine.execChannelCopyDone chan s
  | .stackRetireList rq reqId v f => Sys2Proof.Machine.execStackRetireList rq reqId v f s
  | .rekeyQuery rq reqId v f => Sys2Proof.Machine.execRekeyQuery rq reqId v f s
  | .regWindowStart bufDemand stackDemand waited => Sys2Proof.Machine.execRegWindowStart bufDemand stackDemand waited s
  | .masterBudgetReached f medium j => Sys2Proof.Machine.execMasterBudgetReached f medium j s
  | .sweep ring => Sys2Proof.Machine.execSweep ring s
  | .sweepMerge ring => Sys2Proof.Machine.execSweepMerge ring s
  | .sweepDispatch stack => Sys2Proof.Machine.execSweepDispatch stack s
  | .sweepCombine ring seq => Sys2Proof.Machine.execSweepCombine ring seq s
  | .engineFault stack engine => Sys2Proof.Machine.execEngineFault stack engine s
  | .sweepSessionOpen ring => Sys2Proof.Machine.execSweepSessionOpen ring s
  | .sessionOpenDone ring seq => Sys2Proof.Machine.execSessionOpenDone ring seq s
  | .sweepSessionClose ring => Sys2Proof.Machine.execSweepSessionClose ring s
  | .sweepSessionExpire j us => Sys2Proof.Machine.execSweepSessionExpire j us s
  | .doorbellProduce kind num word => Sys2Proof.Machine.execDoorbellProduce kind num word s
  | .doorbellConsume kind num word => Sys2Proof.Machine.execDoorbellConsume kind num word s
  | .descriptorTake ring => Sys2Proof.Machine.execDescriptorTake ring s
  | .orderedItemStart ring seq => Sys2Proof.Machine.execOrderedItemStart ring seq s
  | .fbRequest ring f => Sys2Proof.Machine.execFbRequest ring f s
  | .ringCreate rq reqId v f => Sys2Proof.Machine.execRingCreate rq reqId v f s
  | .ringDelete rq reqId v f => Sys2Proof.Machine.execRingDelete rq reqId v f s
  | .ringReopen rq reqId v f => Sys2Proof.Machine.execRingReopen rq reqId v f s
  | .ringQuery rq reqId v f => Sys2Proof.Machine.execRingQuery rq reqId v f s
  | .ringLastMarks rq reqId v f => Sys2Proof.Machine.execRingLastMarks rq reqId v f s
  | .contextCreate rq reqId v f => Sys2Proof.Machine.execContextCreate rq reqId v f s
  | .contextDestroy rq reqId v f => Sys2Proof.Machine.execContextDestroy rq reqId v f s
  | .contextDestroyFinish c => Sys2Proof.Machine.execContextDestroyFinish c s
  | .contextQuery rq reqId v f => Sys2Proof.Machine.execContextQuery rq reqId v f s
  | .linkFrameReceive p f v => Sys2Proof.Machine.execLinkFrameReceive p f v s
  | .linkNakReceive p ack => Sys2Proof.Machine.execLinkNakReceive p ack s
  | .linkNakRetrain p oks => Sys2Proof.Machine.execLinkNakRetrain p oks s
  | .linkTraining p tx rx protect w => Sys2Proof.Machine.execLinkTraining p tx rx protect w s
  | .partnerDetectTimeout p ms => Sys2Proof.Machine.execPartnerDetectTimeout p ms s
  | .linkBerWindow p dir lane errs bits => Sys2Proof.Machine.execLinkBerWindow p dir lane errs bits s
  | .linkBerGate p errs bits lost => Sys2Proof.Machine.execLinkBerGate p errs bits lost s
  | .discover p msg => Sys2Proof.Machine.execDiscover p msg s
  | .throttle p msg => Sys2Proof.Machine.execThrottle p msg s
  | .throttleRepeat kind zone us => Sys2Proof.Machine.execThrottleRepeat kind zone us s
  | .throttleExpire p kind zone us => Sys2Proof.Machine.execThrottleExpire p kind zone us s
  | .sleepNotice p msg => Sys2Proof.Machine.execSleepNotice p msg s
  | .downNotice p msg => Sys2Proof.Machine.execDownNotice p msg s
  | .linkRetry p ms => Sys2Proof.Machine.execLinkRetry p ms s
  | .linkRetrain rq reqId v f => Sys2Proof.Machine.execLinkRetrain rq reqId v f s
  | .traverse ring => Sys2Proof.Machine.execTraverse ring s
  | .legStart ring seq => Sys2Proof.Machine.execLegStart ring seq s
  | .send ring seq leg => Sys2Proof.Machine.execSend ring seq leg s
  | .recv ring seq leg frame => Sys2Proof.Machine.execRecv ring seq leg frame s
  | .forward ring seq leg frame => Sys2Proof.Machine.execForward ring seq leg frame s
  | .reduceRecv ring seq leg frame => Sys2Proof.Machine.execReduceRecv ring seq leg frame s
  | .emaxSend ring seq leg => Sys2Proof.Machine.execEmaxSend ring seq leg s
  | .emaxRecv ring seq leg frame => Sys2Proof.Machine.execEmaxRecv ring seq leg frame s
  | .grant ring seq leg => Sys2Proof.Machine.execGrant ring seq leg s
  | .waitCredit ring seq leg => Sys2Proof.Machine.execWaitCredit ring seq leg s
  | .atomicSend ring seq leg => Sys2Proof.Machine.execAtomicSend ring seq leg s
  | .atomicRecv ring seq leg frame => Sys2Proof.Machine.execAtomicRecv ring seq leg frame s
  | .unclaimedHoldExpire p tag us => Sys2Proof.Machine.execUnclaimedHoldExpire p tag us s
  | .creditNotice p msg => Sys2Proof.Machine.execCreditNotice p msg s
  | .holdNotice p msg => Sys2Proof.Machine.execHoldNotice p msg s
  | .holdNoticeSend ring seq us holdAge => Sys2Proof.Machine.execHoldNoticeSend ring seq us holdAge s
  | .failNotice p msg => Sys2Proof.Machine.execFailNotice p msg s
  | .failNoticeForget p tag us => Sys2Proof.Machine.execFailNoticeForget p tag us s
  | .legPatienceExpire ring seq leg us holdAge => Sys2Proof.Machine.execLegPatienceExpire ring seq leg us holdAge s
  | .vc2FrameReceive p f v => Sys2Proof.Machine.execVc2FrameReceive p f v s
  | .vc2Mailbox src req b v => Sys2Proof.Machine.execVc2Mailbox src req b v s
  | .vc2Doorbell src req b => Sys2Proof.Machine.execVc2Doorbell src req b s
  | .vc2WriteData src req st b => Sys2Proof.Machine.execVc2WriteData src req st b s
  | .vc2ReadData src req st b => Sys2Proof.Machine.execVc2ReadData src req st b s
  | .groupTransferReply src req st reads b => Sys2Proof.Machine.execGroupTransferReply src req st reads b s
  | .groupTransferTimeout n k ms => Sys2Proof.Machine.execGroupTransferTimeout n k ms s
  | .fwBcast rq reqId v f => Sys2Proof.Machine.execFwBcast rq reqId v f s
  | .fwImageReceived busy => Sys2Proof.Machine.execFwImageReceived busy s
  | .fwBcastAnswer member st id => Sys2Proof.Machine.execFwBcastAnswer member st id s
  | .fwBcastTimeout ms => Sys2Proof.Machine.execFwBcastTimeout ms s
  | .siteRead t b f ecc since way wait => Sys2Proof.Machine.execSiteRead t b f ecc since way wait s
  | .siteWrite t b f ecc wait => Sys2Proof.Machine.execSiteWrite t b f ecc wait s
  | .siteDoorbell t b f => Sys2Proof.Machine.execSiteDoorbell t b f s
  | .workDone t b f => Sys2Proof.Machine.execWorkDone t b f s
  | .siteWork ring => Sys2Proof.Machine.execSiteWork ring s
  | .vset t b f => Sys2Proof.Machine.execVset t b f s
  | .vsetSettled t => Sys2Proof.Machine.execVsetSettled t s
  | .fwStatus t b f => Sys2Proof.Machine.execFwStatus t b f s
  | .nullFlit t b f => Sys2Proof.Machine.execNullFlit t b f s
  | .siteFlitCorrupt t b => Sys2Proof.Machine.execSiteFlitCorrupt t b s
  | .siteNakReceive t b seq => Sys2Proof.Machine.execSiteNakReceive t b seq s
  | .bondRetrain t b test rsp work => Sys2Proof.Machine.execBondRetrain t b test rsp work s
  | .protoErrLimit t rise => Sys2Proof.Machine.execProtoErrLimit t rise s
  | .siteWorkTimeout ring seq us => Sys2Proof.Machine.execSiteWorkTimeout ring seq us s
  | .sbHello t msg tests rsp work => Sys2Proof.Machine.execSbHello t msg tests rsp work s
  | .sbAccept t msg => Sys2Proof.Machine.execSbAccept t msg s
  | .sbEvidence t msg => Sys2Proof.Machine.execSbEvidence t msg s
  | .sbFenceReq t msg => Sys2Proof.Machine.execSbFenceReq t msg s
  | .sbAck t msg => Sys2Proof.Machine.execSbAck t msg s
  | .sidebandLost t us => Sys2Proof.Machine.execSidebandLost t us s
  | .helloTimeout t us => Sys2Proof.Machine.execHelloTimeout t us s
  | .evidenceTimeout t us => Sys2Proof.Machine.execEvidenceTimeout t us s
  | .lnNAssert t => Sys2Proof.Machine.execLnNAssert t s
  | .lnNRelease t => Sys2Proof.Machine.execLnNRelease t s
  | .lnNOverlong t ns => Sys2Proof.Machine.execLnNOverlong t ns s
  | .tileRecheck t us => Sys2Proof.Machine.execTileRecheck t us s
  | .siteFence n rq reqId v f => Sys2Proof.Machine.execSiteFence n rq reqId v f s
  | .siteReadmitNow n rq reqId v f => Sys2Proof.Machine.execSiteReadmitNow n rq reqId v f s
  | .siteReadmitAuto t => Sys2Proof.Machine.execSiteReadmitAuto t s
  | .partyFenceDrained kind num => Sys2Proof.Machine.execPartyFenceDrained kind num s
  | .hostCoreStart n rq reqId v f => Sys2Proof.Machine.execHostCoreStart n rq reqId v f s
  | .hostCoreStop n rq reqId v f => Sys2Proof.Machine.execHostCoreStop n rq reqId v f s
  | .hostCoreFence n rq reqId v f => Sys2Proof.Machine.execHostCoreFence n rq reqId v f s
  | .coreDoorbellWrite c word => Sys2Proof.Machine.execCoreDoorbellWrite c word s
  | .coreWork ring => Sys2Proof.Machine.execCoreWork ring s
  | .workPop c => Sys2Proof.Machine.execWorkPop c s
  | .coreWorkDone c val => Sys2Proof.Machine.execCoreWorkDone c val s
  | .noticePop c => Sys2Proof.Machine.execNoticePop c s
  | .cacheClean c lines => Sys2Proof.Machine.execCacheClean c lines s
  | .cacheInvalidate c lines => Sys2Proof.Machine.execCacheInvalidate c lines s
  | .cacheCleanInvalidate c lines => Sys2Proof.Machine.execCacheCleanInvalidate c lines s
  | .cacheOpDone c => Sys2Proof.Machine.execCacheOpDone c s
  | .draw c => Sys2Proof.Machine.execDraw c s
  | .entropy c => Sys2Proof.Machine.execEntropy c s
  | .intPendingClear c mask => Sys2Proof.Machine.execIntPendingClear c mask s
  | .registerWrite kind n off val => Sys2Proof.Machine.execRegisterWrite kind n off val s
  | .coreMbxGo c f => Sys2Proof.Machine.execCoreMbxGo c f s
  | .mbxReplyReady rq => Sys2Proof.Machine.execMbxReplyReady rq s
  | .coreSegmentAccess c addr len store evict ecc wait => Sys2Proof.Machine.execCoreSegmentAccess c addr len store evict ecc wait s
  | .hostWorkTimeout ring seq us => Sys2Proof.Machine.execHostWorkTimeout ring seq us s
  | .coreCacheUe c => Sys2Proof.Machine.execCoreCacheUe c s
  | .hpDoorbellWrite n word => Sys2Proof.Machine.execHpDoorbellWrite n word s
  | .hpMbxGo n f => Sys2Proof.Machine.execHpMbxGo n f s
  | .fwReady n v image f bad => Sys2Proof.Machine.execFwReady n v image f bad s
  | .bar2Read n tag off len ecc since way wait => Sys2Proof.Machine.execBar2Read n tag off len ecc since way wait s
  | .bar2Write n tag off data ecc wait => Sys2Proof.Machine.execBar2Write n tag off data ecc wait s
  | .xferToModule n k ctl data records => Sys2Proof.Machine.execXferToModule n k ctl data records s
  | .xferToHost n k ctl => Sys2Proof.Machine.execXferToHost n k ctl s
  | .xferEnd n k => Sys2Proof.Machine.execXferEnd n k s
  | .spdmRequest n code sess => Sys2Proof.Machine.execSpdmRequest n code sess s
  | .getMeasurements n idx nonce => Sys2Proof.Machine.execGetMeasurements n idx nonce s
  | .xferBind n sess k ctx auth => Sys2Proof.Machine.execXferBind n sess k ctx auth s
  | .xferUnbind n sess k => Sys2Proof.Machine.execXferUnbind n sess k s
  | .hpLinkDown n => Sys2Proof.Machine.execHpLinkDown n s
  | .functionLevelReset n => Sys2Proof.Machine.execFunctionLevelReset n s
  | .hpPerst n => Sys2Proof.Machine.execHpPerst n s
  | .hpFence n rq reqId v f => Sys2Proof.Machine.execHpFence n rq reqId v f s
  | .farDeviceAttach n kind cap device => Sys2Proof.Machine.execFarDeviceAttach n kind cap device s
  | .farDeviceDown n => Sys2Proof.Machine.execFarDeviceDown n s
  | .farTest n rq reqId v f => Sys2Proof.Machine.execFarTest n rq reqId v f s
  | .checkpointSave ring => Sys2Proof.Machine.execCheckpointSave ring s
  | .checkpointLoad ring => Sys2Proof.Machine.execCheckpointLoad ring s
  | .checkpointMoveDone ring seq h b hPoison bPoison => Sys2Proof.Machine.execCheckpointMoveDone ring seq h b hPoison bPoison s
  | .anchInitFixed a wait => Sys2Proof.Machine.execAnchInitFixed a wait s
  | .anchInitAuto a wait => Sys2Proof.Machine.execAnchInitAuto a wait s
  | .anchEmax a wait => Sys2Proof.Machine.execAnchEmax a wait s
  | .anchAdd a wait => Sys2Proof.Machine.execAnchAdd a wait s
  | .anchAddRaw a wait => Sys2Proof.Machine.execAnchAddRaw a wait s
  | .anchRead a wait => Sys2Proof.Machine.execAnchRead a wait s
  | .anchReadRaw a wait => Sys2Proof.Machine.execAnchReadRaw a wait s
  | .anchFetchClear a wait => Sys2Proof.Machine.execAnchFetchClear a wait s
  | .faddFp32 a wait => Sys2Proof.Machine.execFaddFp32 a wait s
  | .faddBf16 a wait => Sys2Proof.Machine.execFaddBf16 a wait s
  | .faddFp16 a wait => Sys2Proof.Machine.execFaddFp16 a wait s
  | .iadd a wait => Sys2Proof.Machine.execIadd a wait s
  | .iand a wait => Sys2Proof.Machine.execIand a wait s
  | .ior a wait => Sys2Proof.Machine.execIor a wait s
  | .ixor a wait => Sys2Proof.Machine.execIxor a wait s
  | .smin a wait => Sys2Proof.Machine.execSmin a wait s
  | .smax a wait => Sys2Proof.Machine.execSmax a wait s
  | .umin a wait => Sys2Proof.Machine.execUmin a wait s
  | .umax a wait => Sys2Proof.Machine.execUmax a wait s
  | .swap a wait => Sys2Proof.Machine.execSwap a wait s
  | .cas a wait => Sys2Proof.Machine.execCas a wait s
  | .lock a wait => Sys2Proof.Machine.execLock a wait s
  | .unlock a wait => Sys2Proof.Machine.execUnlock a wait s
  | .secVersionAdvance rq reqId v f => Sys2Proof.Machine.execSecVersionAdvance rq reqId v f s
  | .attestReport rq reqId v f => Sys2Proof.Machine.execAttestReport rq reqId v f s
  | .keyRequest rq reqId v f => Sys2Proof.Machine.execKeyRequest rq reqId v f s
  | .keyInstall rq reqId v f => Sys2Proof.Machine.execKeyInstall rq reqId v f s
  | .keyRequestExpire id ms => Sys2Proof.Machine.execKeyRequestExpire id ms s
  | .keyRotate rq reqId v f => Sys2Proof.Machine.execKeyRotate rq reqId v f s
  | .keyErase rq reqId v f => Sys2Proof.Machine.execKeyErase rq reqId v f s
  | .keyQuery rq reqId v f => Sys2Proof.Machine.execKeyQuery rq reqId v f s
  | .leaseUnseal rq reqId v f => Sys2Proof.Machine.execLeaseUnseal rq reqId v f s
  | .leaseRevoke rq reqId v f => Sys2Proof.Machine.execLeaseRevoke rq reqId v f s
  | .leaseList rq reqId v f => Sys2Proof.Machine.execLeaseList rq reqId v f s
  | .leaseExpiry secs => Sys2Proof.Machine.execLeaseExpiry secs s
  | .debugChallenge rq reqId v f => Sys2Proof.Machine.execDebugChallenge rq reqId v f s
  | .debugUnlock rq reqId v f => Sys2Proof.Machine.execDebugUnlock rq reqId v f s
  | .jtagInstruction code => Sys2Proof.Machine.execJtagInstruction code s
  | .consoleInput console code => Sys2Proof.Machine.execConsoleInput console code s
  | .pllLock f bit n => Sys2Proof.Machine.execPllLock f bit n s
  | .pllUnlock f bit n => Sys2Proof.Machine.execPllUnlock f bit n s
  | .domainSwitch f dom => Sys2Proof.Machine.execDomainSwitch f dom s
  | .referenceLoss => Sys2Proof.Machine.execReferenceLoss s
  | .referenceReturn => Sys2Proof.Machine.execReferenceReturn s
  | .settleDelayExpire us => Sys2Proof.Machine.execSettleDelayExpire us s
  | .powerIdleTimeout us => Sys2Proof.Machine.execPowerIdleTimeout us s
  | .pwrRequest rq reqId v f => Sys2Proof.Machine.execPwrRequest rq reqId v f s
  | .pwrWakeTimer ms => Sys2Proof.Machine.execPwrWakeTimer ms s
  | .pwrOff rq reqId v f => Sys2Proof.Machine.execPwrOff rq reqId v f s
  | .pfwNFall ns => Sys2Proof.Machine.execPfwNFall ns s
  | .closureComplete us => Sys2Proof.Machine.execClosureComplete us s
  | .pvinLowStop mv => Sys2Proof.Machine.execPvinLowStop mv s
  | .v1p8AonLoss mv => Sys2Proof.Machine.execV1p8AonLoss mv s
  | .sitePowerOver t w => Sys2Proof.Machine.execSitePowerOver t w s
  | .siteCeilingRelease t w ms => Sys2Proof.Machine.execSiteCeilingRelease t w ms s
  | .vcoreCurrentLimit t ma ns => Sys2Proof.Machine.execVcoreCurrentLimit t ma ns s
  | .droopEvent t mv => Sys2Proof.Machine.execDroopEvent t mv s
  | .benchmarkRecal f bench near => Sys2Proof.Machine.execBenchmarkRecal f bench near s
  | .thermRecalNow rq reqId v f => Sys2Proof.Machine.execThermRecalNow rq reqId v f s
  | .zoneSample kind zone reads odd dead => Sys2Proof.Machine.execZoneSample kind zone reads odd dead s
  | .floorThermalReturn f bench => Sys2Proof.Machine.execFloorThermalReturn f bench s
  | .porstNFall => Sys2Proof.Machine.execPorstNFall s
  | .wrstNFall => Sys2Proof.Machine.execWrstNFall s
  | .resetClosureEnd us flash => Sys2Proof.Machine.execResetClosureEnd us flash s
  | .surveyStart porst hpStraps bootsrc refset test flash => Sys2Proof.Machine.execSurveyStart porst hpStraps bootsrc refset test flash s
  | .surveyStepEnd g total => Sys2Proof.Machine.execSurveyStepEnd g total s
  | .fwSourceTimeout ms => Sys2Proof.Machine.execFwSourceTimeout ms s
  | .fwSourceRetry ms => Sys2Proof.Machine.execFwSourceRetry ms s
  | .flashRepairDone => Sys2Proof.Machine.execFlashRepairDone s
  | .fwUpdate rq reqId v f => Sys2Proof.Machine.execFwUpdate rq reqId v f s
  | .surveyLogRead rq reqId v f => Sys2Proof.Machine.execSurveyLogRead rq reqId v f s
  | .cadRead rq reqId v f => Sys2Proof.Machine.execCadRead rq reqId v f s
  | .cadRemapUnit rq reqId v f => Sys2Proof.Machine.execCadRemapUnit rq reqId v f s
  | .unitFail kind num cause serves spare => Sys2Proof.Machine.execUnitFail kind num cause serves spare s
  | .sliceCopyDone slice => Sys2Proof.Machine.execSliceCopyDone slice s
  | .moveRetire kind num => Sys2Proof.Machine.execMoveRetire kind num s
  | .moveStartQueued f => Sys2Proof.Machine.execMoveStartQueued f s
  | .surveyorLockstepFault f => Sys2Proof.Machine.execSurveyorLockstepFault f s
  | .monitorSample f reads bad => Sys2Proof.Machine.execMonitorSample f reads bad s
  | .eyeMeasure eyes => Sys2Proof.Machine.execEyeMeasure eyes s
  | .marginReplan secs => Sys2Proof.Machine.execMarginReplan secs s
  | .marginReplanNow rq reqId v f => Sys2Proof.Machine.execMarginReplanNow rq reqId v f s
  | .marginPlanRead rq reqId v f => Sys2Proof.Machine.execMarginPlanRead rq reqId v f s
  | .levelRun kind unit lane phase ref req ends => Sys2Proof.Machine.execLevelRun kind unit lane phase ref req ends s
  | .ledgerFlush ok => Sys2Proof.Machine.execLedgerFlush ok s
  | .ledgerRead rq reqId v f => Sys2Proof.Machine.execLedgerRead rq reqId v f s
  | .ledgerStandingRead rq reqId v f => Sys2Proof.Machine.execLedgerStandingRead rq reqId v f s
  | .ledgerAck rq reqId v f => Sys2Proof.Machine.execLedgerAck rq reqId v f s
  | .holdingsRead rq reqId v f => Sys2Proof.Machine.execHoldingsRead rq reqId v f s
  | .mpllRelockTimeout st us => Sys2Proof.Machine.execMpllRelockTimeout st us s
  | .hpLinkUp n width rate flit => Sys2Proof.Machine.execHpLinkUp n width rate flit s
  | .spdmHeartbeatExpire n sess us => Sys2Proof.Machine.execSpdmHeartbeatExpire n sess us s
  | .v1p8AonRise => Sys2Proof.Machine.execV1p8AonRise s
  | .pfwNRise => Sys2Proof.Machine.execPfwNRise s
  | .railsInRange => Sys2Proof.Machine.execRailsInRange s

end Sys2Proof.Machine
end

