-- ==== Sys2Proof/Machine/Tick.lean ====
section
/-! DEFINITION. What time does by itself while no command waits (log 17): 1 µs of AOCLK, residency counters, waiting transactions
and doorbells, answers that their action's end makes due, and notifications. -/
namespace Sys2Proof.Machine

/-- AOCLK counts 1 µs, and ISLAND_SECONDS each whole second, while the always-on island has power (R543, Table 9.10). -/
def Mach.clockRuns (m : Mach) : Mach :=
  if !m.sec.aonUp then m
  else
    let us := m.clk.us + 1
    let m := m.setClk { m.clk with us }
    if us % 1000000 = 0 then m.setSec { m.sec with island := (m.sec.island + 1) % 2 ^ 64 } else m

/-- Residency in power states of the floors in service, and in the levels of zones: floors, sites, stacks (Table 2.16). -/
def Mach.residency (m : Mach) : Mach :=
  if m.cad.step < 21 || m.pwr.off then m
  else
    let floors := [0, 1].filter fun f => !m.floorLost f && !m.floorGone f
    let m := floors.foldl (fun m f => m.bump (key (0x9900 + f) (1 + m.clk.pwr))) m
    let zone (m : Mach) (n level : Nat) : Mach := m.bump (key (0x9B10 + n) (1 + level))
    let m := floors.foldl (fun m f => zone m f (m.heatAt f).level) m
    let m := (List.range 4).foldl (fun m t => zone m (2 + t) (m.siteAt t).level) m
    (List.range 6).foldl (fun m s => zone m (6 + s) (m.stackAt s).level) m

/-- A microsecond in which no command arrives. -/
def Mach.tick (m : Mach) (z : Fuses) : Mach :=
  let m := ((m.clockRuns.residency).serveAll.resumeAtomics).selfVc2Go z
  let m := (m.coreBells.hpBells.hpAtoms).entropyStalled
  (((m.resumeAll z).noteAll z).notifyAll)

end Sys2Proof.Machine
end

