-- ==== Sys2Proof/Machine/Step.lean ====
section
/-! DEFINITION. One step: the command at the front of the queue, or a microsecond of idle time. -/
namespace Sys2Proof.Machine

/-- The command at the front leaves the queue and acts on the rest; an empty queue lets 1 µs pass (log 17). -/
def step (s : State) : Host.Outcome State Fault Refusal :=
  match s.pending with
  | [] => runFz s fun z m => m.tick z
  | c :: rest => exec c (s.setPending rest)

/-- `s` with the command that a table word spells put at the front of its queue: the table gives no row any bits, so no word spells
one and `s` stays. -/
def State.withFetchWord (s : State) (_nbits _w : Nat) : State := s

end Sys2Proof.Machine
end

