-- ==== Sys2Proof/WellFormed.lean ====
section
/-! DEFINITION. Which commands can reach a module: every operand that numbers a unit lies in the range of Table 0.2, and
every field of a frame, a flit or a message fits the bits its table gives it. -/
namespace Sys2Proof

/-- The requester exists (R4). -/
def Rq.fits : Rq → Bool
  | .session n => n < 8
  | .hostPort n => n < 2
  | .core c => c < 32
  | .member m => m < 128
  | .item ring seq ctx => ring < 32768 && seq < 2 ^ 48 && ctx < 4096

/-- The header fields fit Table 2.7. -/
def Frame.fits (f : Frame) : Bool :=
  f.version < 256 && f.ty < 256 && f.flags < 256 && f.status < 256 && f.length < 2 ^ 32 && f.reqId < 2 ^ 32 &&
  f.rsvd < 2 ^ 32

/-- The header fields fit Table 12.2 and the data slot holds at most 256 bytes. -/
def Flit.fits (f : Flit) : Bool :=
  f.op < 64 && f.rsvd < 2 && f.ctx < 4096 && f.tag < 65536 && f.addr < 2 ^ 40 && f.len < 512 && f.crClass < 8 &&
  f.seq < 128 && f.ack < 128 && f.crc < 65536 && f.crCount < 256 && f.operand < 2 ^ 32 && f.data.length ≤ 256

/-- The issuing party exists (Table 8.8), and the word's fields fit Table 8.4. -/
def AtomArgs.fits (a : AtomArgs) : Bool :=
  (match a.party.kind with
   | 1 => a.party.num < 4 && a.bond < 16 | 2 => a.party.num < 32 | 3 => a.party.num < 4096 | 4 => a.party.num < 2 ^ 24
   | 5 => a.party.num < 2 | _ => false) &&
  a.fmt < 16 && a.ofmt < 4 && a.cnt < 8 && a.rsvd < 8192 && a.flit.fits

/-- A logical unit of Table 19.8 exists: a channel, slice, engine, bond module or core. -/
def unitExists (kind num : Nat) : Bool :=
  match kind with | 3 => num < 192 | 4 => num < 128 | 5 => num < 96 | 7 => num < 64 | 9 => num < 32 | _ => false

/-- A TYPE that a command of a tile has (Table 12.5). -/
def sbTileType (ty : Nat) : Bool := [1, 3, 5, 9, 10].contains ty

/-- The header fields fit R433; a TYPE given is none that another command has. -/
def SbMsg.fits (m : SbMsg) : Bool :=
  (match m.ty with | some y => y < 256 && !sbTileType y | none => true) &&
  m.version < 256 && m.seq < 65536 && m.rsvd < 65536 && m.crc < 2 ^ 32 && m.payload.length ≤ 8192

/-- The fields fit Table 10.5. -/
def LinkMsg.fits (m : LinkMsg) : Bool :=
  m.version < 256 && m.ty < 256 && m.rsvd < 2 ^ 24 && m.sender < 65536 && m.senderPort < 256 && m.body < 2 ^ 192

/-- The header fields fit Table 10.3. -/
def LinkFrame.fits (f : LinkFrame) : Bool :=
  f.seq < 4096 && f.ack < 4096 && f.kind < 8 && f.vc < 4 && f.creditVc < 4 && f.credit < 256 && f.chainLo < 65536 &&
  f.bytes < 512 && f.stream < 32768 && f.payload.length ≤ 256 && f.crc < 2 ^ 32 && f.tag < 2 ^ 128

/-- The operands of a command number units that exist (R4, Table 0.2). -/
def Instr.wellFormed : Instr → Bool
  | .tlsConnect p root leaf _ => p < 2 && root < 2 ^ 384 && leaf < 2 ^ 384
  | .hello n f => n < 8 && f.fits
  | .fbRead rq f => rq.fits && f.fits
  | .describe rq f => rq.fits && f.fits
  | .writeDirect rq f => rq.fits && f.fits
  | .writeDraft rq f => rq.fits && f.fits
  | .writeStoredLayer rq f => rq.fits && f.fits
  | .subscribe n f => n < 8 && f.fits
  | .unsubscribe n f => n < 8 && f.fits
  | .ping n f => n < 8 && f.fits
  | .bye n f => n < 8 && f.fits
  | .sessionIdleTimeout n _ => n < 8
  | .draftOpen rq reqId _ _ => reqId < 2 ^ 32 && rq.fits
  | .draftDiscard rq reqId _ _ => reqId < 2 ^ 32 && rq.fits
  | .draftIdleTimeout _ => true
  | .commit rq reqId _ _ => reqId < 2 ^ 32 && rq.fits
  | .commitSwitch => true
  | .commitTimeoutExpired _ => true
  | .surveyorCommit => true
  | .licenceInstall rq reqId _ _ => reqId < 2 ^ 32 && rq.fits
  | .licenceRemove rq reqId _ _ => reqId < 2 ^ 32 && rq.fits
  | .saveRunning rq reqId _ _ => reqId < 2 ^ 32 && rq.fits
  | .sheetClear n rq reqId _ _ => n < 8 && reqId < 2 ^ 32 && rq.fits
  | .counterClear rq reqId _ _ => reqId < 2 ^ 32 && rq.fits
  | .counterLatch => true
  | .sensorRead rq reqId _ _ => reqId < 2 ^ 32 && rq.fits
  | .eyeHistoryRead rq reqId _ _ => reqId < 2 ^ 32 && rq.fits
  | .monitorSlackRead rq reqId _ _ => reqId < 2 ^ 32 && rq.fits
  | .ringCounters rq reqId _ _ => reqId < 2 ^ 32 && rq.fits
  | .streamCounters rq reqId _ _ => reqId < 2 ^ 32 && rq.fits
  | .legCounters rq reqId _ _ => reqId < 2 ^ 32 && rq.fits
  | .myRingCounters rq reqId _ _ => reqId < 2 ^ 32 && rq.fits
  | .myCoreCounters rq reqId _ _ => reqId < 2 ^ 32 && rq.fits
  | .sidebandStateMessage f msg => f < 2 && msg < 5
  | .sidebandSilent _ => true
  | .f0ReturnTimeout _ => true
  | .dieReadmit f _ _ => f < 2
  | .readmitCommit => true
  | .bridgeFlitReceive f head body => f < 2 && head < 2 ^ 128 && body.length = 272
  | .bridgeNakReceive f ack => f < 2 && ack < 4096
  | .bridgeRetrain _ _ => true
  | .bridgeLaneSpare d lane _ _ => d < 2 && lane < 64
  | .fill r pa way _ => r.ctx < 4096 && r.epoch < 2 ^ 32 && way < 16 && pa < 2 ^ 47
  | .dataMsg fl pa _ _ => fl < 2 && pa < 2 ^ 47
  | .invMsg fl pa => fl < 2 && pa < 2 ^ 47
  | .invAck f pa => f < 2 && pa < 2 ^ 47
  | .rlcFlush rq reqId _ _ => reqId < 2 ^ 32 && rq.fits
  | .gridRead fl port _ ctx va len _ _ _ _ => fl < 2 && port < 48 && ctx < 4096 && va < 2 ^ 40 && 1 ≤ len && va % 256 + len ≤ 256
  | .gridWrite fl port _ ctx va data _ _ _ => fl < 2 && port < 48 && ctx < 4096 && va < 2 ^ 40 && 1 ≤ data.length && va % 256 + data.length ≤ 256
  | .agePromote target _ _ => target < 320
  | .bufScrub slice line _ => slice < 128 && line < 32768
  | .sliceCeRetire slice => slice < 128
  | .segmapWrite rq reqId _ _ => reqId < 2 ^ 32 && rq.fits
  | .segmapRecordDrained rq => rq.fits
  | .segmapDrainTimeout rq _ => rq.fits
  | .segmapRead rq reqId _ _ => reqId < 2 ^ 32 && rq.fits
  | .segmapClearContext rq reqId _ _ => reqId < 2 ^ 32 && rq.fits
  | .stackAgePromote chan _ _ => chan < 192
  | .writeDrain chan => chan < 192
  | .rowNeighbourRefresh pa _ => 2 ^ 46 ≤ pa && pa < 2 ^ 47
  | .bankRefresh chan bank _ _ => chan < 204 && bank < 64
  | .stackPatrol st chan _ => st < 6 && chan < 32
  | .rowCopyDone pa => 2 ^ 46 ≤ pa && pa < 2 ^ 47
  | .stackTempReport st seq words _ => st < 6 && seq < 2 ^ 16 && words.all (· < 2 ^ 16)
  | .stackReportMissed st => st < 6
  | .stackReportTimeout st _ => st < 6
  | .stackCapReached chan => chan < 192
  | .rekeySweepDone ctx => ctx < 4096
  | .oldKeyErase ctx => ctx < 4096
  | .channelCopyDone chan => chan < 192
  | .stackRetireList rq reqId _ _ => reqId < 2 ^ 32 && rq.fits
  | .rekeyQuery rq reqId _ _ => reqId < 2 ^ 32 && rq.fits
  | .regWindowStart _ _ _ => true
  | .masterBudgetReached f medium j => f < 2 && medium < 2 && j < 9
  | .sweep ring => ring < 32768
  | .sweepMerge ring => ring < 32768
  | .sweepDispatch stack => stack < 6
  | .sweepCombine ring seq => ring < 32768 && seq < 2 ^ 48
  | .engineFault stack engine => stack < 6 && engine < 16
  | .sweepSessionOpen ring => ring < 32768
  | .sessionOpenDone ring seq => ring < 32768 && seq < 2 ^ 48
  | .sweepSessionClose ring => ring < 32768
  | .sweepSessionExpire _ _ => true
  | .doorbellProduce _ _ word => word < 2 ^ 64
  | .doorbellConsume _ _ word => word < 2 ^ 64
  | .descriptorTake ring => ring < 32768
  | .orderedItemStart ring seq => ring < 32768 && seq < 2 ^ 48
  | .fbRequest ring _ => ring < 32768
  | .ringCreate rq reqId _ _ => reqId < 2 ^ 32 && rq.fits
  | .ringDelete rq reqId _ _ => reqId < 2 ^ 32 && rq.fits
  | .ringReopen rq reqId _ _ => reqId < 2 ^ 32 && rq.fits
  | .ringQuery rq reqId _ _ => reqId < 2 ^ 32 && rq.fits
  | .ringLastMarks rq reqId _ _ => reqId < 2 ^ 32 && rq.fits
  | .contextCreate rq reqId _ _ => reqId < 2 ^ 32 && rq.fits
  | .contextDestroy rq reqId _ _ => reqId < 2 ^ 32 && rq.fits
  | .contextDestroyFinish c => c < 4096
  | .contextQuery rq reqId _ _ => reqId < 2 ^ 32 && rq.fits
  | .linkFrameReceive p f _ => p < 24 && f.fits
  | .linkNakReceive p ack => p < 24 && ack < 4096
  | .linkNakRetrain p _ => p < 24
  | .linkTraining p _ _ _ _ => p < 24
  | .partnerDetectTimeout p _ => p < 24
  | .linkBerWindow p dir lane _ _ => p < 24 && dir < 2 && lane < 9
  | .linkBerGate p _ _ _ => p < 24
  | .discover p msg => p < 24 && msg.fits
  | .throttle p msg => p < 24 && msg.fits
  | .throttleRepeat kind zone _ => (if kind = 1 then zone < 6 else kind = 2 && zone < 2)
  | .throttleExpire p _ _ _ => p < 24
  | .sleepNotice p msg => p < 24 && msg.fits
  | .downNotice p msg => p < 24 && msg.fits
  | .linkRetry p _ => p < 24
  | .linkRetrain rq reqId _ _ => reqId < 2 ^ 32 && rq.fits
  | .traverse ring => ring < 32768
  | .legStart ring seq => ring < 32768 && seq < 2 ^ 48
  | .send ring seq _ => ring < 32768 && seq < 2 ^ 48
  | .recv ring seq _ _ => ring < 32768 && seq < 2 ^ 48
  | .forward ring seq _ _ => ring < 32768 && seq < 2 ^ 48
  | .reduceRecv ring seq _ _ => ring < 32768 && seq < 2 ^ 48
  | .emaxSend ring seq _ => ring < 32768 && seq < 2 ^ 48
  | .emaxRecv ring seq _ _ => ring < 32768 && seq < 2 ^ 48
  | .grant ring seq _ => ring < 32768 && seq < 2 ^ 48
  | .waitCredit ring seq _ => ring < 32768 && seq < 2 ^ 48
  | .atomicSend ring seq _ => ring < 32768 && seq < 2 ^ 48
  | .atomicRecv ring seq _ _ => ring < 32768 && seq < 2 ^ 48
  | .unclaimedHoldExpire p tag _ => p < 24 && tag < 32768
  | .creditNotice p msg => p < 24 && msg.fits
  | .holdNotice p msg => p < 24 && msg.fits
  | .holdNoticeSend ring seq _ _ => ring < 32768 && seq < 2 ^ 48
  | .failNotice p msg => p < 24 && msg.fits
  | .failNoticeForget p tag _ => p < 24 && tag < 32768
  | .legPatienceExpire ring seq _ _ _ => ring < 32768 && seq < 2 ^ 48
  | .vc2FrameReceive p f _ => p < 24 && f.fits
  | .vc2Mailbox src req _ _ => src < 128 && req < 65536
  | .vc2Doorbell src req _ => src < 128 && req < 65536
  | .vc2WriteData src req st _ => src < 128 && req < 65536 && st < 256
  | .vc2ReadData src req st _ => src < 128 && req < 65536 && st < 256
  | .groupTransferReply src req st _ _ => src < 128 && req < 65536 && st < 256
  | .groupTransferTimeout n k _ => n < 2 && k < 16
  | .fwBcast rq reqId _ _ => reqId < 2 ^ 32 && rq.fits
  | .fwImageReceived _ => true
  | .fwBcastAnswer member st id => member < 128 && st < 256 && id < 2 ^ 32
  | .fwBcastTimeout _ => true
  | .siteRead t b f _ _ _ _ => t < 4 && b < 16 && f.fits
  | .siteWrite t b f _ _ => t < 4 && b < 16 && f.fits
  | .siteDoorbell t b f => t < 4 && b < 16 && f.fits
  | .workDone t b f => t < 4 && b < 16 && f.fits
  | .siteWork ring => ring < 32768
  | .vset t b f => t < 4 && b < 16 && f.fits
  | .vsetSettled t => t < 4
  | .fwStatus t b f => t < 4 && b < 16 && f.fits
  | .nullFlit t b f => t < 4 && b < 16 && f.fits
  | .siteFlitCorrupt t b => t < 4 && b < 16
  | .siteNakReceive t b seq => t < 4 && b < 16 && seq < 128
  | .bondRetrain t b _ _ _ => t < 4 && b < 16
  | .protoErrLimit t _ => t < 4
  | .siteWorkTimeout ring seq _ => ring < 32768 && seq < 2 ^ 48
  | .sbHello t msg _ _ _ => t < 4 && msg.fits
  | .sbAccept t msg => t < 4 && msg.fits
  | .sbEvidence t msg => t < 4 && msg.fits
  | .sbFenceReq t msg => t < 4 && msg.fits
  | .sbAck t msg => t < 4 && msg.fits
  | .sidebandLost t _ => t < 4
  | .helloTimeout t _ => t < 4
  | .evidenceTimeout t _ => t < 4
  | .lnNAssert t => t < 4
  | .lnNRelease t => t < 4
  | .lnNOverlong t _ => t < 4
  | .tileRecheck t _ => t < 4
  | .siteFence n rq reqId _ _ => n < 4 && reqId < 2 ^ 32 && rq.fits
  | .siteReadmitNow n rq reqId _ _ => n < 4 && reqId < 2 ^ 32 && rq.fits
  | .siteReadmitAuto t => t < 4
  | .partyFenceDrained kind num => if kind = 1 then num < 4 else if kind = 2 then num < 32 else kind = 5 && num < 2
  | .hostCoreStart n rq reqId _ _ => n < 32 && reqId < 2 ^ 32 && rq.fits
  | .hostCoreStop n rq reqId _ _ => n < 32 && reqId < 2 ^ 32 && rq.fits
  | .hostCoreFence n rq reqId _ _ => n < 32 && reqId < 2 ^ 32 && rq.fits
  | .coreDoorbellWrite c word => c < 32 && word < 2 ^ 64
  | .coreWork ring => ring < 32768
  | .workPop c => c < 32
  | .coreWorkDone c _ => c < 32
  | .noticePop c => c < 32
  | .cacheClean c _ => c < 32
  | .cacheInvalidate c _ => c < 32
  | .cacheCleanInvalidate c _ => c < 32
  | .cacheOpDone c => c < 32
  | .draw c => c < 32
  | .entropy c => c < 32
  | .intPendingClear c _ => c < 32
  | .registerWrite kind n _ _ => (if kind = 2 then n < 32 else kind = 5 && n < 2)
  | .coreMbxGo c _ => c < 32
  | .mbxReplyReady rq => rq.fits
  | .coreSegmentAccess c _ _ _ _ _ _ => c < 32
  | .hostWorkTimeout ring seq _ => ring < 32768 && seq < 2 ^ 48
  | .coreCacheUe c => c < 32
  | .hpDoorbellWrite n word => n < 2 && word < 2 ^ 64
  | .hpMbxGo n _ => n < 2
  | .fwReady n _ _ _ _ => n < 2
  | .bar2Read n _ off _ _ _ _ _ => n < 2 && off < 2 ^ 32
  | .bar2Write n _ off _ _ _ => n < 2 && off < 2 ^ 32
  | .xferToModule n k _ _ _ => n < 2 && k < 16
  | .xferToHost n k _ => n < 2 && k < 16
  | .xferEnd n k => n < 2 && k < 16
  | .spdmRequest n code _ => n < 2 && code < 256
  | .getMeasurements n _ _ => n < 2
  | .xferBind n _ _ _ _ => n < 2
  | .xferUnbind n _ _ => n < 2
  | .hpLinkDown n => n < 2
  | .functionLevelReset n => n < 2
  | .hpPerst n => n < 2
  | .hpFence n rq reqId _ _ => n < 2 && reqId < 2 ^ 32 && rq.fits
  | .farDeviceAttach n _ _ _ => n < 2
  | .farDeviceDown n => n < 2
  | .farTest n rq reqId _ _ => n < 2 && reqId < 2 ^ 32 && rq.fits
  | .checkpointSave ring => ring < 32768
  | .checkpointLoad ring => ring < 32768
  | .checkpointMoveDone ring seq _ _ _ _ => ring < 32768 && seq < 2 ^ 48
  | .anchInitFixed a _ => a.floor < 2 && a.va < 2 ^ 40 && a.ctx < 4096 && a.fits
  | .anchInitAuto a _ => a.floor < 2 && a.va < 2 ^ 40 && a.ctx < 4096 && a.fits
  | .anchEmax a _ => a.floor < 2 && a.va < 2 ^ 40 && a.ctx < 4096 && a.fits
  | .anchAdd a _ => a.floor < 2 && a.va < 2 ^ 40 && a.ctx < 4096 && a.fits
  | .anchAddRaw a _ => a.floor < 2 && a.va < 2 ^ 40 && a.ctx < 4096 && a.fits
  | .anchRead a _ => a.floor < 2 && a.va < 2 ^ 40 && a.ctx < 4096 && a.fits
  | .anchReadRaw a _ => a.floor < 2 && a.va < 2 ^ 40 && a.ctx < 4096 && a.fits
  | .anchFetchClear a _ => a.floor < 2 && a.va < 2 ^ 40 && a.ctx < 4096 && a.fits
  | .faddFp32 a _ => a.floor < 2 && a.va < 2 ^ 40 && a.ctx < 4096 && a.fits
  | .faddBf16 a _ => a.floor < 2 && a.va < 2 ^ 40 && a.ctx < 4096 && a.fits
  | .faddFp16 a _ => a.floor < 2 && a.va < 2 ^ 40 && a.ctx < 4096 && a.fits
  | .iadd a _ => a.floor < 2 && a.va < 2 ^ 40 && a.ctx < 4096 && a.fits
  | .iand a _ => a.floor < 2 && a.va < 2 ^ 40 && a.ctx < 4096 && a.fits
  | .ior a _ => a.floor < 2 && a.va < 2 ^ 40 && a.ctx < 4096 && a.fits
  | .ixor a _ => a.floor < 2 && a.va < 2 ^ 40 && a.ctx < 4096 && a.fits
  | .smin a _ => a.floor < 2 && a.va < 2 ^ 40 && a.ctx < 4096 && a.fits
  | .smax a _ => a.floor < 2 && a.va < 2 ^ 40 && a.ctx < 4096 && a.fits
  | .umin a _ => a.floor < 2 && a.va < 2 ^ 40 && a.ctx < 4096 && a.fits
  | .umax a _ => a.floor < 2 && a.va < 2 ^ 40 && a.ctx < 4096 && a.fits
  | .swap a _ => a.floor < 2 && a.va < 2 ^ 40 && a.ctx < 4096 && a.fits
  | .cas a _ => a.floor < 2 && a.va < 2 ^ 40 && a.ctx < 4096 && a.fits
  | .lock a _ => a.floor < 2 && a.va < 2 ^ 40 && a.ctx < 4096 && a.fits
  | .unlock a _ => a.floor < 2 && a.va < 2 ^ 40 && a.ctx < 4096 && a.fits
  | .secVersionAdvance rq reqId _ _ => reqId < 2 ^ 32 && rq.fits
  | .attestReport rq reqId _ _ => reqId < 2 ^ 32 && rq.fits
  | .keyRequest rq reqId _ _ => reqId < 2 ^ 32 && rq.fits
  | .keyInstall rq reqId _ _ => reqId < 2 ^ 32 && rq.fits
  | .keyRequestExpire _ _ => true
  | .keyRotate rq reqId _ _ => reqId < 2 ^ 32 && rq.fits
  | .keyErase rq reqId _ _ => reqId < 2 ^ 32 && rq.fits
  | .keyQuery rq reqId _ _ => reqId < 2 ^ 32 && rq.fits
  | .leaseUnseal rq reqId _ _ => reqId < 2 ^ 32 && rq.fits
  | .leaseRevoke rq reqId _ _ => reqId < 2 ^ 32 && rq.fits
  | .leaseList rq reqId _ _ => reqId < 2 ^ 32 && rq.fits
  | .leaseExpiry _ => true
  | .debugChallenge rq reqId _ _ => reqId < 2 ^ 32 && rq.fits
  | .debugUnlock rq reqId _ _ => reqId < 2 ^ 32 && rq.fits
  | .jtagInstruction _ => true
  | .consoleInput console _ => console < 2
  | .pllLock f bit _ => f < 2 && bit < 22
  | .pllUnlock f bit _ => f < 2 && bit < 22
  | .domainSwitch f dom => f < 2 && dom < 2
  | .referenceLoss => true
  | .referenceReturn => true
  | .settleDelayExpire _ => true
  | .powerIdleTimeout _ => true
  | .pwrRequest rq reqId _ _ => reqId < 2 ^ 32 && rq.fits
  | .pwrWakeTimer _ => true
  | .pwrOff rq reqId _ _ => reqId < 2 ^ 32 && rq.fits
  | .pfwNFall _ => true
  | .closureComplete _ => true
  | .pvinLowStop _ => true
  | .v1p8AonLoss _ => true
  | .sitePowerOver t _ => t < 4
  | .siteCeilingRelease t _ _ => t < 4
  | .vcoreCurrentLimit t _ _ => t < 4
  | .droopEvent t _ => t < 4
  | .benchmarkRecal f _ _ => f < 2
  | .thermRecalNow rq reqId _ _ => reqId < 2 ^ 32 && rq.fits
  | .zoneSample kind zone _ _ _ => if kind = 1 then zone < 2 else kind = 2 && zone < 4
  | .floorThermalReturn f _ => f < 2
  | .porstNFall => true
  | .wrstNFall => true
  | .resetClosureEnd _ _ => true
  | .surveyStart _ _ _ _ _ _ => true
  | .surveyStepEnd _ _ => true
  | .fwSourceTimeout _ => true
  | .fwSourceRetry _ => true
  | .flashRepairDone => true
  | .fwUpdate rq reqId _ _ => reqId < 2 ^ 32 && rq.fits
  | .surveyLogRead rq reqId _ _ => reqId < 2 ^ 32 && rq.fits
  | .cadRead rq reqId _ _ => reqId < 2 ^ 32 && rq.fits
  | .cadRemapUnit rq reqId _ _ => reqId < 2 ^ 32 && rq.fits
  | .unitFail kind num cause _ _ => (unitExists kind num || (kind = 1 && num < 2)) && cause < 256
  | .sliceCopyDone slice => slice < 128
  | .moveRetire kind num => unitExists kind num
  | .moveStartQueued f => f < 2
  | .surveyorLockstepFault f => f < 2
  | .monitorSample f _ _ => f < 2
  | .eyeMeasure _ => true
  | .marginReplan _ => true
  | .marginReplanNow rq reqId _ _ => reqId < 2 ^ 32 && rq.fits
  | .marginPlanRead rq reqId _ _ => reqId < 2 ^ 32 && rq.fits
  | .levelRun _ _ _ _ _ _ _ => true
  | .ledgerFlush _ => true
  | .ledgerRead rq reqId _ _ => reqId < 2 ^ 32 && rq.fits
  | .ledgerStandingRead rq reqId _ _ => reqId < 2 ^ 32 && rq.fits
  | .ledgerAck rq reqId _ _ => reqId < 2 ^ 32 && rq.fits
  | .holdingsRead rq reqId _ _ => reqId < 2 ^ 32 && rq.fits
  | .mpllRelockTimeout st _ => st < 6
  | .hpLinkUp n _ _ _ => n < 2
  | .spdmHeartbeatExpire n _ _ => n < 2
  | .v1p8AonRise => true
  | .pfwNRise => true
  | .railsInRange => true

end Sys2Proof
end

