-- ==== Sys2Proof/Safety.lean ====
section
/-! DEFINITION. What counts as a step that goes on, a queue of commands that can reach the module, and a command that runs to its
end. -/
namespace Sys2Proof.Machine

/-- The step answers a next state. -/
def goesOn (s : State) : Bool :=
  match step s with
  | .next _ => true
  | .fault _ => false
  | .refused _ => false

/-- Every waiting command can reach a module (R4). -/
def State.safe (s : State) : Bool := s.pending.all fun c => c.wellFormed

/-- What every step keeps: the queue's commands can reach the module, and SVN_FUSES stands at no more than its 64 fuses and at no
less than what the security controller has asked to burn (R501, R508). -/
def State.inv (s : State) : Prop := s.safe = true ∧ s.fuses.svn ≤ 64 ∧ min 64 s.hw.sec.burn ≤ s.fuses.svn

/-- `i` runs to its end at `s`: `exec` answers a next state, whose module meets `p`; the queue stays, and of the fuses only
SVN_FUSES may change, and never falls (R501, R508). -/
def completes (i : Instr) (s : State) (p : Mach → Prop) : Prop :=
  ∃ t, exec i s = .next t ∧ t.pending = s.pending ∧ { t.fuses with svn := s.fuses.svn } = s.fuses ∧
    s.fuses.svn ≤ t.fuses.svn ∧ p t.hw

/-- `i` runs to its end (`completes`) at every state whose module is `h`. -/
def runs (i : Instr) (h : Mach) (p : Mach → Prop) : Prop := ∀ s : State, s.hw = h → completes i s p

/-! CMD entries. -/

/-- A request that triggers a CMD entry (R79): requester, entry, REQ_ID, value, and what the action's checks find. -/
structure CmdReq where
  rq : Rq
  key : Nat
  reqId : Nat
  value : Bytes
  verif : Verif

/-- The request that a row of the CMD entries is, where its unit exists. -/
def asCmd : Instr → Option CmdReq
  | .draftOpen rq q v f => some ⟨rq, kDraftOpen, q, v, f⟩
  | .draftDiscard rq q v f => some ⟨rq, kDraftDiscard, q, v, f⟩
  | .commit rq q v f => some ⟨rq, kCommit, q, v, f⟩
  | .licenceInstall rq q v f => some ⟨rq, kLicenceInstall, q, v, f⟩
  | .licenceRemove rq q v f => some ⟨rq, kLicenceRemove, q, v, f⟩
  | .saveRunning rq q v f => some ⟨rq, kSaveRunning, q, v, f⟩
  | .sheetClear i rq q v f => if i < 8 then some ⟨rq, kSheetClear + 256 * i, q, v, f⟩ else none
  | .counterClear rq q v f => some ⟨rq, kCounterClear, q, v, f⟩
  | .sensorRead rq q v f => some ⟨rq, kSensorRead, q, v, f⟩
  | .eyeHistoryRead rq q v f => some ⟨rq, kEyeHistoryRead, q, v, f⟩
  | .monitorSlackRead rq q v f => some ⟨rq, kMonitorSlackRead, q, v, f⟩
  | .ringCounters rq q v f => some ⟨rq, kRingCounters, q, v, f⟩
  | .streamCounters rq q v f => some ⟨rq, kStreamCounters, q, v, f⟩
  | .legCounters rq q v f => some ⟨rq, kLegCounters, q, v, f⟩
  | .myRingCounters rq q v f => some ⟨rq, kMyRingCounters, q, v, f⟩
  | .myCoreCounters rq q v f => some ⟨rq, kMyCoreCounters, q, v, f⟩
  | .rlcFlush rq q v f => some ⟨rq, kRlcFlush, q, v, f⟩
  | .segmapWrite rq q v f => some ⟨rq, kSegmapWrite, q, v, f⟩
  | .segmapRead rq q v f => some ⟨rq, kSegmapRead, q, v, f⟩
  | .segmapClearContext rq q v f => some ⟨rq, kSegmapClearContext, q, v, f⟩
  | .stackRetireList rq q v f => some ⟨rq, kStackRetireList, q, v, f⟩
  | .rekeyQuery rq q v f => some ⟨rq, kRekeyQuery, q, v, f⟩
  | .ringCreate rq q v f => some ⟨rq, kRingCreate, q, v, f⟩
  | .ringDelete rq q v f => some ⟨rq, kRingDelete, q, v, f⟩
  | .ringReopen rq q v f => some ⟨rq, kRingReopen, q, v, f⟩
  | .ringQuery rq q v f => some ⟨rq, kRingQuery, q, v, f⟩
  | .ringLastMarks rq q v f => some ⟨rq, kRingLastMarks, q, v, f⟩
  | .contextCreate rq q v f => some ⟨rq, kContextCreate, q, v, f⟩
  | .contextDestroy rq q v f => some ⟨rq, kContextDestroy, q, v, f⟩
  | .contextQuery rq q v f => some ⟨rq, kContextQuery, q, v, f⟩
  | .linkRetrain rq q v f => some ⟨rq, kLinkRetrain, q, v, f⟩
  | .fwBcast rq q v f => some ⟨rq, kFwBcast, q, v, f⟩
  | .siteFence i rq q v f => if i < 4 then some ⟨rq, kSiteFence + 256 * i, q, v, f⟩ else none
  | .siteReadmitNow i rq q v f => if i < 4 then some ⟨rq, kSiteReadmitNow + 256 * i, q, v, f⟩ else none
  | .hostCoreStart i rq q v f => if i < 32 then some ⟨rq, kHostCoreStart + 256 * i, q, v, f⟩ else none
  | .hostCoreStop i rq q v f => if i < 32 then some ⟨rq, kHostCoreStop + 256 * i, q, v, f⟩ else none
  | .hostCoreFence i rq q v f => if i < 32 then some ⟨rq, kHostCoreFence + 256 * i, q, v, f⟩ else none
  | .hpFence i rq q v f => if i < 2 then some ⟨rq, kHpFence + 256 * i, q, v, f⟩ else none
  | .farTest i rq q v f => if i < 2 then some ⟨rq, kFarTest + 256 * i, q, v, f⟩ else none
  | .secVersionAdvance rq q v f => some ⟨rq, kSecVersionAdvance, q, v, f⟩
  | .attestReport rq q v f => some ⟨rq, kAttestReport, q, v, f⟩
  | .keyRequest rq q v f => some ⟨rq, kKeyRequest, q, v, f⟩
  | .keyInstall rq q v f => some ⟨rq, kKeyInstall, q, v, f⟩
  | .keyRotate rq q v f => some ⟨rq, kKeyRotate, q, v, f⟩
  | .keyErase rq q v f => some ⟨rq, kKeyErase, q, v, f⟩
  | .keyQuery rq q v f => some ⟨rq, kKeyQuery, q, v, f⟩
  | .leaseUnseal rq q v f => some ⟨rq, kLeaseUnseal, q, v, f⟩
  | .leaseRevoke rq q v f => some ⟨rq, kLeaseRevoke, q, v, f⟩
  | .leaseList rq q v f => some ⟨rq, kLeaseList, q, v, f⟩
  | .debugChallenge rq q v f => some ⟨rq, kDebugChallenge, q, v, f⟩
  | .debugUnlock rq q v f => some ⟨rq, kDebugUnlock, q, v, f⟩
  | .pwrRequest rq q v f => some ⟨rq, kPwrRequest, q, v, f⟩
  | .pwrOff rq q v f => some ⟨rq, kPwrOff, q, v, f⟩
  | .thermRecalNow rq q v f => some ⟨rq, kThermRecalNow, q, v, f⟩
  | .fwUpdate rq q v f => some ⟨rq, kFwUpdate, q, v, f⟩
  | .surveyLogRead rq q v f => some ⟨rq, kSurveyLogRead, q, v, f⟩
  | .cadRead rq q v f => some ⟨rq, kCadRead, q, v, f⟩
  | .cadRemapUnit rq q v f => some ⟨rq, kCadRemapUnit, q, v, f⟩
  | .marginReplanNow rq q v f => some ⟨rq, kMarginReplanNow, q, v, f⟩
  | .marginPlanRead rq q v f => some ⟨rq, kMarginPlanRead, q, v, f⟩
  | .ledgerRead rq q v f => some ⟨rq, kLedgerRead, q, v, f⟩
  | .ledgerStandingRead rq q v f => some ⟨rq, kLedgerStandingRead, q, v, f⟩
  | .ledgerAck rq q v f => some ⟨rq, kLedgerAck, q, v, f⟩
  | .holdingsRead rq q v f => some ⟨rq, kHoldingsRead, q, v, f⟩
  | _ => none

/-- The record that triggers an entry with a value (Table 2.9). -/
def cmdRec (k : Nat) (v : Bytes) : OpRec :=
  { index := k / 256, sub := k % 256, ty := match entryRow k with | some e => e.ty | none => 1, value := v }

/-! Requests, by the path of their requester (R73 to R76, R320, R459, R476, R488). -/

/-- The path takes a frame now: a session has said HELLO; a core runs, a host port is served, and no request of it is unanswered; an
FB_REQUEST item has not started, and nothing holds it. -/
def Mach.pathOpen (m : Mach) : Rq → Bool
  | .session n => (match sget m.fb.sessions n with | some x => x.hello | none => false)
  | .hostPort n => n < m.hp.dev.length && m.hpServes n && m.clk.pwr = 0 && (m.hpAt n).mbxGo ≠ 1
  | .core c => c < m.core.dev.length && (m.coreAt c).state = 1 && (m.coreAt c).fencing.isNone && (m.coreAt c).mbxGo ≠ 1
  | .member _ => true
  | .item ring seq ctx =>
    match m.item? (itemKey ring seq) with
    | some i => i.kind = kindFb && !i.started && i.ctx = ctx && m.itemFree i && !(i.skip && m.predecessorFailed i)
    | none => false

/-- The Field Book serves, the requester's path takes a frame, and no frame of it waits (R75, R615). -/
def Mach.asks (m : Mach) (rq : Rq) : Bool := m.bookServes && m.pathOpen rq && (sget m.fb.chans (rqCode rq)).isNone

/-- The module with the request taken: MBX_GO reads 1, or the item has started. -/
def Mach.opens (m : Mach) : Rq → Mach
  | .hostPort n => m.setHpAt n { m.hpAt n with mbxGo := 1 }
  | .core c => m.setCoreAt c { m.coreAt c with mbxGo := 1 }
  | .item ring seq _ => m.startItem (itemKey ring seq)
  | .session _ | .member _ => m

/-- The requester may send frame `f`, which is not malformed (R74). -/
def Mach.hears (m : Mach) (rq : Rq) (f : Frame) : Bool := m.asks rq && !frameBad rq true f

/-- The record that answers `r` with the status, type and value `x` (Table 2.9). -/
def recAnswer (r : OpRec) (x : Status × Nat × Bytes) : OpRec := opAnswer r x.1 x.2.1 x.2.2

/-- The records that answer a READ or DESCRIBE frame, one by one (R76). -/
def Mach.answersTo (m : Mach) (z : Fuses) (rq : Rq) (f : Frame) : List OpRec :=
  ((opsOf 256 f.payload).getD []).map fun r => recAnswer r (if f.ty = 2 then m.opRead z rq r else opDescribe r)

/-- They fit a reply (R699). -/
def fits (rq : Rq) (l : List OpRec) : Bool := !bounded rq || (l.map opSize).sum ≤ 65520

/-- Frame `f` of `rq` is a WRITE of the one record `r` of entry `e`, and nothing refuses it (R77). -/
def Mach.takesWrite (m : Mach) (rq : Rq) (f : Frame) (r : OpRec) (e : EntryRow) : Bool :=
  f.ty = 3 && m.hears rq f && opsOf 256 f.payload = some [r] && !opMalformed 3 r && entryAt (opKey r) = some e &&
  ((m.opens rq).writeRefused rq e r).isNone

/-- The WRITE frame `f` of `rq` with the record `r` lands: it is answered with DONE, after the notifications of what it changed; `p`
tells what the module is before them. -/
def lands (i : Instr) (rq : Rq) (f : Frame) (r : OpRec) (h : Mach) (p : Mach → Prop) : Prop :=
  ∀ s : State, s.hw = h → completes i s fun m => ∃ a : Mach,
    m = (a.noteAll s.fuses).sendReply rq 3 .done f.reqId (opBytes (recAnswer r (.done, 0, []))) ∧ p a

/-- The frame of the row `i` of a CMD entry is taken: its requester may ask, and nothing refuses its record (R77, R79). -/
def Mach.takes (m : Mach) (i : Instr) : Bool :=
  match asCmd i with
  | some c => m.asks c.rq && c.value.length ≤ 65512 && (match entryAt c.key with
    | some e => ((m.opens c.rq).writeRefused c.rq e (cmdRec c.key c.value)).isNone
    | none => false)
  | none => false

/-- The request of a CMD entry is answered (R75, R79): REQ_ID, and one record with the action's status and value. -/
def Mach.replies (m : Mach) (c : CmdReq) (st : Status) (v : Bytes) : Mach :=
  m.sendReply c.rq 3 .done c.reqId (opBytes { cmdRec c.key v with status := st.code })

/-- `i`, a row of a CMD entry, runs to its end at `s` and its reply says DONE (R79, R81): `p` tells, of the module with the request
taken, what the module is after the action, before its notifications, and which value is answered. -/
def answersAt (i : Instr) (s : State) (p : Mach → Mach → Bytes → Prop) : Prop :=
  match asCmd i with
  | some c => completes i s fun m => ∃ (a : Mach) (v : Bytes), m = (a.noteAll s.fuses).replies c .done v ∧ p (s.hw.opens c.rq) a v
  | none => False

/-- `answersAt` every state whose module is `h`. -/
def answers (i : Instr) (h : Mach) (p : Mach → Mach → Bytes → Prop) : Prop := ∀ s : State, s.hw = h → answersAt i s p

/-- What a requester's frame waits with for `w`. -/
def CmdReq.waiting (c : CmdReq) (w : Wait) : Partial :=
  { rq := c.rq, ty := 3, reqId := c.reqId, verif := c.verif, done := [], cur := cmdRec c.key c.value, rest := [], wait := w }

/-- `i`, a row of a CMD entry, runs to its end, its frame waiting for `w` (R79, R81); `p` as in `answers`. -/
def awaits (i : Instr) (h : Mach) (w : Wait) (p : Mach → Mach → Prop) : Prop :=
  match asCmd i with
  | some c => ∀ s : State, s.hw = h → completes i s fun m =>
      ∃ a : Mach, m = (a.noteAll s.fuses).putChan c.rq { cur := some (c.waiting w) } ∧ p (h.opens c.rq) a
  | none => False

/-- The frame of `c` alone waits, for `w` (R79). -/
def Mach.onlyWaits (m : Mach) (c : CmdReq) (w : Wait) : Bool := m.fb.chans = [(rqCode c.rq, { cur := some (c.waiting w) })]

/-- `i` runs to its end and answers the request `c` that waited, with status `st`; `p` tells what the module is before that reply and
which value is answered. -/
def concludes (i : Instr) (h : Mach) (c : CmdReq) (st : Status) (p : Mach → Bytes → Prop) : Prop :=
  runs i h fun m => ∃ (a : Mach) (v : Bytes), m = a.replies c st v ∧ a.fb.chans = [] ∧ p a v

/-- A status that a Field Book reply may carry: neither DONE_FLAGGED nor of the fail class (R10). -/
def Status.inReplies (s : Status) : Bool := s ≠ .doneFlagged && !s.isFail

/-! Transactions at the grid. -/

/-- A transaction that waits for nothing: its port is open, its target is free and nothing waits there, and no completion record
waits. -/
def Mach.goesNow (m : Mach) (o : Origin) (ctx va : Nat) (k : TxnKind) (way : Nat := 0) : Bool :=
  let t : Txn := { org := o, ctx, va, kind := k, way }
  !m.portClosed o && m.grid.relWait.isEmpty && m.rng.recWait.isEmpty && !m.txnBlocked t && !(k.release && m.writesOpen o ctx) &&
  (match m.txnTarget t with | some x => (sgetD [] m.grid.wait x).isEmpty | none => true)

/-- The arrays hold no error, and no access waits at a target or for the other floor's copy of a line, nor a completion record for
writes before it. -/
def Mach.calm (m : Mach) : Bool :=
  m.mem.errs.isEmpty && m.stk.errs.isEmpty && m.grid.wait.isEmpty && m.grid.relWait.isEmpty && m.rng.recWait.isEmpty &&
  (m.die.dir.all fun e => match e.2 with | .held _ => true | .inval _ _ => false) &&
  (m.die.rlc.all fun e => match e.2 with | .shared _ _ => true | .fill _ _ => false)

/-- No granule that an access to these bytes reads has an error. -/
def Mach.sound (m : Mach) (pa n : Nat) : Bool := (readGrains pa n ++ partGrains pa n).all fun a => m.errsAt a = 0

/-! Sites. -/

/-- Module `b` of site `t` is up, neither it nor the site is being retrained or fenced, nothing waits on it and its replay buffer has
room. -/
def Mach.siteOpen (m : Mach) (t b : Nat) : Bool :=
  let x := m.siteAt t
  let y := x.bond b
  t < m.site.dev.length && bitOf x.up b && x.srstReleased && x.fencing.isNone && !y.retraining && y.waitIn.isEmpty &&
  y.waitOut.isEmpty && y.replay.length < 62 && m.clk.pwr = 0

/-- Flit `f`, whose CRC holds, in sequence and well formed, without NAK, is taken by module `b` of a site in state `st`, with the credit
that its message needs (R424, R429 to R432). -/
def Mach.siteHears (m : Mach) (t b : Nat) (f : Flit) (st : Nat) : Bool :=
  let y := (m.siteAt t).bond b
  t < 4 && b < 16 && m.siteOpen t b && (m.siteAt t).state = st && f.seq = (y.rxSeq + 1) % 128 && !f.low && !f.nak &&
  f.crc = flitCheck f && !flitBad f &&
  ((reqClass f.op).isNone || y.rsp > 0)

/-- The flit that module `b` of a site sends `k` flits from now, when the last flit it has taken is `ack` (Table 12.2, R431): its OP, its
TAG, OPERAND, CR_CLASS, CR_COUNT and LEN, and its data. -/
def Mach.flitOut (m : Mach) (t b ack k op : Nat) (fields : List Nat) (data : Bytes) : Emit :=
  let y := (m.siteAt t).bond b
  .flit t b (flitWire ({ y with rxSeq := ack }.shown ⟨(y.txSeq + k) % 128, op, fields, data⟩))

/-- A tile's request of a context with a TAG is performed and its response sent (R418, R421). -/
def Mach.siteAsks (m : Mach) (t b ctx tag : Nat) : Bool :=
  (m.siteRefused t ctx).isNone && !(m.siteAt t).stale.contains (b * 65536 + tag)

/-- A sideband message of TYPE `ty` is taken at a site in state `st` (R433, R434). -/
def Mach.sbHears (m : Mach) (t ty : Nat) (x : SbMsg) (st : Nat) : Bool :=
  t < 4 && t < m.site.dev.length && (m.siteAt t).srstReleased && x.ty.getD ty = ty && !sbBad ty x && (m.siteAt t).state = st &&
  m.clk.pwr = 0

/-- Host port `n` exists, and its register window and BAR2 serve (R474, R498). -/
def Mach.hpHears (m : Mach) (n : Nat) : Bool := n < 2 && n < m.hp.dev.length && m.hpServes n && m.clk.pwr = 0

/-- It answers SPDM requests (R484, R522). -/
def Mach.hpSpdm (m : Mach) (n : Nat) : Bool := m.hpHears n && !m.spdmBusy

/-- Its transfer channel `k` exists and is not BUSY; started with control word `c` it moves clear data of this module (R481). -/
def Mach.xferGoes (m : Mach) (n k c : Nat) : Bool :=
  let y : Xfer := { m.xferAt n k with ctl := c, lines := 0, busy := true, status := 0, fail := none }
  m.hpHears n && k < 16 && k < (m.hpAt n).xfer.length && !(m.xferAt n k).busy && (firstReject (m.xferRejects n y)).isNone &&
  ctlMember c = m.ownMember && !ctlSealed c && m.calm

/-- The fence of host port `n` has begun with cause `c`, and nothing else of the module is changed than is said (R498). -/
abbrev Mach.hpFences (m h : Mach) (n c : Nat) : Prop :=
  (m.hpAt n).fencing = some c ∧ (m.hpAt n).stopped = true ∧ m.flt.fencing = h.flt.fencing ++ [⟨⟨5, n⟩, c, false⟩] ∧ m.rng = h.rng ∧
  m.mem = h.mem

/-- Site `t` is admitted and under no fence. -/
def Mach.siteServes (m : Mach) (t : Nat) : Bool :=
  t < 4 && t < m.site.dev.length && (m.siteAt t).state = 5 && (m.siteAt t).fencing.isNone

/-- A fence of site `t` is under way with cause `c`, and the tile has been told (R444). -/
def Mach.siteFences (m h : Mach) (t c : Nat) : Prop :=
  (m.siteAt t).fencing = some c ∧ (m.siteAt t).state = 5 ∧
  m.out.head? = some (.sideband t (sbBytes 8 (h.siteAt t).sbSeq (leB 1 c))) ∧ m.mem = h.mem ∧ m.rng = h.rng

/-- What a party's atomic operation is at the grid (R283, R421, R458, R480): its requester, its context and its operands. -/
def Mach.atomFrom (m : Mach) (a : AtomArgs) : Origin × Nat × Bytes :=
  let n := a.party.num
  match a.party.kind with
  | 1 => (.site n a.bond a.tag, a.ctx, a.operand)
  | 2 => (.core n 0, (m.coreAt n).ctx, padTo 256 a.operand)
  | 5 => (.bar2 n 0, (m.hpAt n).apCtx, padTo 256 a.operand)
  | _ => (.agent a.party a.floor (36 + a.bond % 6) a.tag, a.ctx, a.operand)

/-- The party can issue an operation now (R420, R421, R430, R458, R480): a tile of an admitted site on a module that is up and has room
and an RSP credit, in a context that it may name; a core that runs; a host port that is served and has none open. -/
def Mach.mayIssue (m : Mach) (a : AtomArgs) (op : Nat) (w : AtomWord) : Bool :=
  let n := a.party.num
  match a.party.kind with
  | 1 => m.siteHears n a.bond (AtomArgs.siteFlit a op) 5 && m.siteAsks n a.bond a.ctx a.tag
  | 2 => n < m.core.dev.length && m.coreRuns n && m.clk.pwr = 0
  | 5 =>
    n < m.hp.dev.length && m.hpServes n && m.clk.pwr = 0 && !m.hpAtomOpen n && (m.hpAt n).atomWait.isEmpty &&
    !m.bar2Refused n a.va w.bytes .atomic
  | _ => true

/-- The bytes of an atomic operation's target. -/
def Mach.atomOld (m : Mach) (ctx : Nat) (w : AtomWord) (q : Piece) : Bytes := (List.range w.bytes).map fun i => m.rdByte ctx (q.pa + i)

/-- The operation with ATOP `op` of arguments `a` reaches its target `q` at once, and none of its reject or fail causes holds (R89,
R145, R278, R279, R283, R662). -/
def Mach.atomReady (m : Mach) (a : AtomArgs) (op : Nat) (q : Piece) : Bool :=
  let w := AtomWord.ofNat (AtomArgs.word a op)
  let x := m.atomFrom a
  AtomArgs.ok a && m.mayIssue a op w &&
  m.goesNow x.1 x.2.1 a.va (.atomic (AtomArgs.word a op) x.2.2 (a.party.kind = 1 && a.flit.release)) &&
  m.atomPiece x.1.floor x.2.1 a.va w = some q && m.atomRefused m.fb.epoch x.2.1 a.va w x.2.2 q = none &&
  m.placeFails m.fb.epoch x.2.1 q.place = [] && !m.poisoned q.pa w.bytes && m.sound q.pa w.bytes &&
  sget m.die.dir (q.pa / 256 * 256) = none && !(op = 0x3A && m.lockRefused q.place.floor a.party) &&
  (op ≠ 0x3B ||
    (let old := leN (m.atomOld x.2.1 w q); fld old 56 4 = a.party.kind && fld old 32 24 = a.party.num))

/-- The answer of an atomic operation where its party finds it (R420, R458, R480): an ATOMIC_RSP flit, the registers of the core or
host port, or the response of the link engine. -/
def Mach.atomAnswered (m : Mach) (a : AtomArgs) (st : Status) (ret : Bytes) : Prop :=
  let n := a.party.num
  match a.party.kind with
  | 1 => m.out.head? = some (m.flitOut n a.bond ((m.siteAt n).bond a.bond).rxSeq 127 0x23 [a.tag, st.code] ret)
  | 2 => (m.coreAt n).atomGo = st.code ∧ (m.coreAt n).atomRes = padTo 256 ret
  | 5 => (m.hpAt n).atomGo = st.code ∧ (m.hpAt n).atomRes = padTo 256 ret
  | _ => m.out.head? = some (.atomicRsp a.party st ret)

/-- From a memory in its form, bytes `[pa, pa + new.length)` of the arrays of `m` are `new`, and every other is as in `h`. -/
def Mach.onlyBytes (m h : Mach) (pa : Nat) (new : Bytes) : Prop :=
  Memory.wf h.mem.cells = true → ∀ x, sgetD 0 m.mem.cells x = if pa ≤ x ∧ x < pa + new.length then nth 0 new (x - pa) else sgetD 0 h.mem.cells x

/-- What a read of a requester delivers at once: its target is free, its entry lets it, no error is met, and its floor's remote line
cache has no part in it (R88, R91, R133, R145). -/
def Mach.readsNow (m : Mach) (o : Origin) (ctx va len : Nat) (way : Nat := 0) : Option Bytes :=
  match m.findSeg ctx va with
  | some (slot, e) =>
    let p := (m.txnPlaces o (.read len) slot e va).headD (e.place (va - e.va) o.floor)
    let pa := p.pa (va % 256)
    if e.rd && m.goesNow o ctx va (.read len) way && !m.rlcStops m.fb.epoch o ctx e pa way && m.sound pa len then
      match m.readPiece m.fb.epoch ctx o.floor ⟨slot, e, p, pa, va, len⟩ with
      | .ok d => some d
      | .error _ => none
    else none
  | none => none

/-- Bytes `[pa, pa + n)` of place `p` can be written by a context with no other effect on the arrays. -/
def Mach.writable (m : Mach) (ctx : Nat) (p : Place) (pa n : Nat) : Bool :=
  paMedium pa = p.medium && m.placeFails m.fb.epoch ctx p = [] && !m.writeMeetsPoison pa n && m.sound pa n &&
  (p.medium = 0 || (((m.keysOf ctx).slot (m.keysOf ctx).write).isSome && !m.promotes ctx pa))

/-- Where a write of `n` bytes of a requester goes at once, both copies of a MIRROR line (R88, R129, R145), where the other floor holds
no copy of the line. -/
def Mach.writesNow (m : Mach) (o : Origin) (ctx va : Nat) (data : Bytes) (rel : Bool := false) : List Nat :=
  match m.findSeg ctx va with
  | some (slot, e) =>
    let ps := m.txnPlaces o (.write data rel) slot e va
    let pas := ps.map fun p => p.pa (va % 256)
    if e.wr && m.goesNow o ctx va (.write data rel) && (ps.all fun p => m.writable ctx p (p.pa (va % 256)) data.length) &&
        (e.mirror || pas.all fun a => (sget m.die.dir (a / 256 * 256)).isNone) then pas
    else []
  | none => []

/-- `m` holds the bytes `data` that a context has written at each of `pas`, and in the buffer, where they went to one place, nothing
else is changed. -/
def Mach.wrote (m h : Mach) (ctx : Nat) (pas : List Nat) (data : Bytes) : Prop :=
  (∀ a ∈ pas, ∀ i < data.length, m.rdByte ctx (a + i) = nth 0 data i) ∧
  (∀ a, pas = [a] → paMedium a = 0 → m.onlyBytes h a data)

/-- A flit of floor `f` leaves on the bridge at once (R98). -/
def Mach.bridgeFree (m : Mach) (f : Nat) : Bool :=
  m.bridgeOpen && (nth [] m.die.replay f).length < 256 && (nth [] m.die.waitTx f).isEmpty

/-- The grid side of a channel moves data (R157, R179, R194). -/
def Mach.gridFree (m : Mach) (c : Nat) : Bool :=
  m.stackCap (c / 32) = 100 && !shas m.stk.capped c && sgetD 0 m.stk.debt c = 0 && sgetD 0 m.stk.path c = 0 &&
  !(m.stackAt (c / 32)).selfRefresh

/-! Links and legs. -/

/-- Link port `p` exists and is in state `st` (Table 10.4). -/
def Mach.portIs (m : Mach) (p st : Nat) : Bool := p < 24 && p < m.lnk.dev.length && (m.portAt p).state = st

/-- A message leaves port `p` at once, `n` of them (R339, Table 10.8). -/
def Mach.portMay (m : Mach) (p n : Nat) : Bool := (m.portAt p).replay.length + n ≤ 1024 && (m.portAt p).waitMsg.isEmpty

/-- The next frame that a port sends (R337, R339, R353). -/
def Mach.frameOut (m : Mach) (p code : Nat) (fields : List Nat) (payload : Bytes) : Emit :=
  .link p ((m.portAt p).shown ⟨(m.portAt p).txSeq, code, fields, payload⟩)

/-- The control frame with one link message that a port sends next (Tables 10.5, 10.6). -/
def Mach.msgOut (m : Mach) (p ty : Nat) (body : List Nat) : Emit := m.frameOut p 16 [0, 32] (msgBytes (m.cfg kStationAddr) p ty body)

/-- The item under key `k` is live, its leg `i` with OP `op` started and unfinished, and memory is calm. -/
def Mach.legRuns (m : Mach) (ring seq i op : Nat) (it : Item) (t : Trav) (l : Leg) (r : LegRun) : Bool :=
  ring < 32768 && seq < 2 ^ 48 && m.legAt (itemKey ring seq) i op = some (it, t, l, r) && m.calm

/-- As `legRuns`, for a leg that claims the stream it receives, of which no frame is held (R377, R378). -/
def Mach.legHears (m : Mach) (ring seq i op : Nat) (it : Item) (t : Trav) (l : Leg) (r : LegRun) : Bool :=
  m.legRuns ring seq i op it t l r && m.claimOf l.port false l.stream = some (itemKey ring seq, i) && m.trv.held.isEmpty

/-- A frame of `n` bytes of the stream that a leg receives has come: it is counted, and its buffer is free again (R341, R378, R383). -/
def Mach.legTook (m : Mach) (l : Leg) (n : Nat) : Mach :=
  let y := m.portAt l.port
  ((m.setPort l.port { y with used := setAt y.used l.vc (nth 0 y.used l.vc + 1) }).countStream l.port 0 l.stream n).freeBuffer l.port l.vc

/-- The run of leg `i` of a live item. -/
def Mach.legRun? (m : Mach) (ring seq i : Nat) : Option LegRun := (sget m.trv.live (itemKey ring seq)).bind fun t => sget t.runs i

/-- When leg `i`, now `r`, finishes, another leg of its item is unfinished. -/
def Trav.goesOn (t : Trav) (i : Nat) (r : LegRun) : Bool :=
  (svals (sput t.runs i { r with done := true })).countP (·.done) < t.legs.length

/-! Items. -/

/-- The item that descriptor `d` of ring `ring`, now `x`, becomes (R310). -/
def Mach.itemOf (m : Mach) (ring : Nat) (x : Ring) (d : Nat) (started : Bool) : Item :=
  { ring, seq := x.taken, desc := d, kind := descKind d, epoch := m.fb.epoch, ctx := x.ctx, order := descOrder d, skip := descSkip d
    notify := descNotify d, user := descUser d, started }

/-- A ring whose next descriptor has been taken and accepted. -/
def Ring.took (x : Ring) : Ring :=
  { x with taken := x.taken + 1, cTaken := (x.cTaken + 1) % 2 ^ 64, cAccepted := (x.cAccepted + 1) % 2 ^ 64 }

/-- Ring `ring`, now `x`, is the one that its floor serves next, its next descriptor `d` is faultless, its keys are there and nothing
holds the item (R307 to R314, R534), and memory is calm. -/
def Mach.givesDesc (m : Mach) (ring : Nat) (x : Ring) (d : Nat) : Bool :=
  let i := m.itemOf ring x d false
  ring < 32768 && m.ring? ring = some x && m.nextDesc ring = some d && m.nextRing (ringFloor ring) = some ring &&
  (m.descCheck (ringFloor ring) x.ctx x.ty d).isNone && !(m.confCtx x.ctx && (sgetD {} m.sec.keys x.ctx).root.isNone) &&
  m.itemFree i && !(i.skip && m.predecessorFailed i) && (m.item? i.key).isNone && m.calm

/-- The atomic operation of constructor `f`, ATOP `op`, whichever party issues it: performed at once it answers DONE, or DONE_FLAGGED
where a flag was raised or returned, with the bytes of Table 8.5, and in the buffer its target holds the operation's new bytes and
every other byte reads as before; where its target is busy it waits there, and memory is as before. Rings, items and the other
parties' units stay. -/
def atomicCompletes (f : AtomArgs → Bool → Instr) (op : Nat) : Prop :=
  ∀ (h : Mach) (a : AtomArgs) (q : Piece) (new ret : Bytes) (fl : Nat),
    let w := AtomWord.ofNat (AtomArgs.word a op)
    let x := h.atomFrom a
    h.atomReady a op q = true →
    atomEffect w a.party (h.cfg kAnchorOverflow = 1) (h.cfg kAnchorSubnormals = 1) (h.atomOld x.2.1 w q) x.2.2 = some (new, ret, fl) →
    runs (f a false) h (fun m =>
      m.atomAnswered a (if fl = 0 then .done else .doneFlagged) ret ∧ m.rng = h.rng ∧
      (a.party.kind ≠ 1 → m.site = h.site) ∧ (a.party.kind ≠ 2 → m.core = h.core) ∧ (a.party.kind ≠ 5 → m.hp = h.hp) ∧
      ((∀ i < w.bytes, paMedium (q.pa + i) = 0) → m.onlyBytes h q.pa new)) ∧
    runs (f a true) h (fun m => m.mem = h.mem ∧ ∃ t : Txn, sgetD [] m.grid.wait q.place.target = [t] ∧ t.org = x.1 ∧ t.va = a.va ∧
      t.kind = .atomic (AtomArgs.word a op) x.2.2 (a.party.kind = 1 && a.flit.release))

end Sys2Proof.Machine
end

