-- ==== Sys2Proof/Certificates/Slice0/Obligations.lean ====
section
/-! DEFINITION. What is claimed of the machine: one proposition for each obligation. -/
section
open Sys2Proof Sys2Proof.Machine

/-- A step of a machine with commands waiting runs the front one on the rest of the queue (24_opcode_table.md, R4).
The queue is the model's (log 17). -/
def Obligations.StepRunsTheFrontCommand : Prop :=
  ∀ (s : State) (c : Instr) (rest : List Instr), s.pending = c :: rest → step s = exec c (s.setPending rest)

/-- A step of a machine with no command waiting lets 1 µs pass (the model's choice, log 17) (17_clocks.md). -/
def Obligations.AnEmptyQueueLetsTimePass : Prop :=
  ∀ s : State, s.pending = [] →
    ∃ t, step s = .next t ∧ t.pending = [] ∧ t.hw = s.hw.tick s.fuses ∧ { t.fuses with svn := s.fuses.svn } = s.fuses

/-- Every well-formed command runs to a next state at every state, and none touches the queue or a fuse but SVN_FUSES
(R4, R501, R508). -/
def Obligations.WellFormedCommandsComplete : Prop :=
  ∀ (i : Instr) (s : State),
    (i.wellFormed = true → ∃ t, exec i s = .next t) ∧
    ((∃ t, exec i s = .next t) ∨ exec i s = .fault .noSuchUnit) ∧
    (∀ t, exec i s = .next t → t.pending = s.pending ∧ { t.fuses with svn := s.fuses.svn } = s.fuses ∧
      t.fuses.svn = max s.fuses.svn (min 64 t.hw.sec.burn))

/-- From every state that meets the invariant a step goes on, and its next state meets the invariant (R4, R501, R508).
-/
def Obligations.EveryStepKeepsTheInvariant : Prop :=
  ∀ s : State, s.inv → ∃ t, step s = .next t ∧ t.inv

/-- A WRITE of a CMD entry carries out its action and answers REQ_ID with its status and value, or waits for the
action to end (R75, R76, R77, R79). -/
def Obligations.CmdFramesAnswerTheirEntry : Prop :=
  ∀ (s : State) (i : Instr) (c : CmdReq), asCmd i = some c →
    (let o := s.hw.opens c.rq
     let a := o.act s.fuses c.rq c.key c.value c.verif
     (s.hw.takes i → sget a.m.fb.chans (rqCode c.rq) = none → (bounded c.rq = true → a.val.length ≤ 65512) →
       (a.wait = none → completes i s fun m => m = (a.m.noteAll s.fuses).replies c a.st a.val) ∧
       (∀ w, a.wait = some w → completes i s fun m => m = (a.m.noteAll s.fuses).putChan c.rq { cur := some (c.waiting w) })) ∧
     (∀ (e : EntryRow) (st : Status), s.hw.asks c.rq → c.value.length ≤ 65512 → entryAt c.key = some e →
       o.cmdRefused c.rq e (cmdRec c.key c.value) a.st = some st → completes i s fun m => m = o.replies c st []))

/-- Draft, commit, licence, layer and counter commands change what they name and answer DONE (R49, R50, R56, R57, R58,
R69, R84, R529, R530, R698). -/
def Obligations.DraftAndLayerCommands : Prop :=
  ∀ (rq : Rq) (q : Nat) (v : Bytes) (f : Verif),
  (∀ h : Mach, (let i : Instr := .draftOpen rq q v f; h.takes i → h.fb.draft = none →
    answers i h fun _ a b => b = [] ∧ a.fb.draft = some { owner := draftOwner rq } ∧ a.fb.cur = h.fb.cur ∧ a.rng =
      h.rng ∧ a.grid = h.grid) ∧
   (∀ (d : Draft), let i : Instr := .draftDiscard rq q v f; h.takes i → h.fb.draft = some d →
    d.owner = draftOwner rq → d.held = false →
    answers i h fun _ a b => b = [] ∧ a.fb.draft = none ∧ a.fb.cur = h.fb.cur ∧ a.rng.rings = h.rng.rings) ∧
   (∀ (d : Draft), let i : Instr := .commit rq q v f; h.takes i → h.fb.draft = some d → d.owner = draftOwner rq →
    d.held = false → d.ents = [] →
    answers i h fun _ a b => b = leB 4 h.fb.epoch ∧ a.fb.draft = none ∧ a.fb.lastStatus = .done ∧ a.fb.epoch =
      h.fb.epoch ∧ a.fb.cur = h.fb.cur) ∧
   (∀ (d : Draft), let i : Instr := .commit rq q v f; h.takes i → h.fb.draft = some d → d.owner = draftOwner rq →
    d.held = false → d.ents ≠ [] →
    d.ents.all (fun p => (match entryRow p.1 with | some e => e.lic = 0 || h.hasLicence (e.lic - 1) | none => true))
      = true →
    h.draftConflict d.ents = none →
    awaits i h (.commit) fun _ a => a.fb.draft = some { d with held := true } ∧ a.fb.committing = some rq ∧
      a.fb.epoch = h.fb.epoch ∧ a.fb.cur = h.fb.cur)) ∧
  (∀ (s : State), let i : Instr := .licenceInstall rq q v f; s.hw.takes i → licenceShape s.fuses v → f.chain →
    f.sig → s.hw.fb.stored.length < 8 →
    answersAt i s fun o a b => b = [] ∧ a = o.setFb { o.fb with stored := sput o.fb.stored (num v 16 4) v }) ∧
  (∀ h : Mach, (let i : Instr := .licenceRemove rq q v f; h.takes i →
    answers i h fun o a b => b = [] ∧ a = o.setFb { o.fb with removing := Nat.lor o.fb.removing (leN v) }) ∧
   (let i : Instr := .saveRunning rq q v f; h.takes i →
    answers i h fun o a b => b = [] ∧ a = (o.saveRunning (leN v)).m) ∧
   (∀ (j : Nat), let i : Instr := .sheetClear j rq q v f; h.takes i → j < 8 →
    answers i h fun o a b => b = [] ∧ a = o.putLayer j [] ∧ a.sheet j = []) ∧
   (let i : Instr := .counterClear rq q v f; h.takes i → let g := counterGroup (leN v);
    answers i h fun _ a b => b = [] ∧ (∀ k, g.1 ≤ k / 256 → k / 256 < g.2 → isMeasured k = false → sget a.fb.ctr k =
      none) ∧ (∀ k, (k / 256 < g.1 ∨ g.2 ≤ k / 256) → sget a.fb.ctr k = sget h.fb.ctr k) ∧ a.rng = h.rng))

/-- Sensor, eye, slack and counter reads answer what is held and change nothing; a class C item reads its own context
(R42, R43, R85, R320, R374, R378, R598, R641, R643). -/
def Obligations.CountersAreReadAsTheyAre : Prop :=
  ∀ (h : Mach) (rq : Rq) (q : Nat) (v : Bytes) (f : Verif),
  (let i : Instr := .sensorRead rq q v f; h.takes i → h.confResident = false → leN v < 2 →
    let l := (h.heatAt (leN v)).sensors;
    answers i h fun o a b => b = (((List.range 264).flatMap fun i => q16 (nth {} l i).temp) ++ leB 33 ((List.range
      264).foldl (fun w i => if (nth {} l i).valid then w + 2 ^ i else w) 0)) ∧ a = o) ∧
  (let i : Instr := .eyeHistoryRead rq q v f; h.takes i → h.confResident = false →
    num v 1 2 < eyeUnits (num v 0 1) → let e := sgetD {} h.age.eyes (runKey ⟨num v 0 1, num v 1 2⟩ (num v 3 1));
    answers i h fun o a b => b = (leB 2 e.survey.1 ++ leB 2 e.survey.2 ++ (List.range 64).flatMap fun i => leB 2
      (nth (0, 0) e.minima i).1 ++ leB 2 (nth (0, 0) e.minima i).2) ∧ a = o) ∧
  (let i : Instr := .monitorSlackRead rq q v f; h.takes i → h.confResident = false → leN v < 2 →
    answers i h fun o a b => b = ((List.range 64).flatMap fun i => leB 2 (unsigned 16 (sgetD 0 h.age.slack (64 * leN
      v + i)))) ∧ a = o) ∧
  (∀ (x : Ring), let i : Instr := .ringCounters rq q v f; h.takes i → h.confResident = false →
    h.ring? (leN v) = some x →
    answers i h fun o a b => b = leList 8 x.counts ∧ a = o) ∧
  (let i : Instr := .streamCounters rq q v f; h.takes i → h.confResident = false → num v 0 1 ≤ 23 → num v 1 1 ≤ 1 →
    num v 2 2 ≤ 32767 →
    answers i h fun o a b => b = leList 8 (h.streamCounts (num v 0 1) (num v 1 1) (num v 2 2)) ∧ a = o) ∧
  (∀ (t : Trav), let i : Instr := .legCounters rq q v f; h.takes i → h.confResident = false →
    sget h.trv.live (itemKey (num v 0 2) (num v 2 8)) = some t → t.legs.length ≤ 64 →
    answers i h fun o a b => b = legBytes t.legs.length t.counts ∧ a = o) ∧
  (∀ (x : Ring), let i : Instr := .myRingCounters rq q v f; h.takes i → h.ring? (leN v) = some x →
    x.ctx = rqCtx rq →
    answers i h fun o a b => b = leList 8 x.counts ∧ a = o) ∧
  (let i : Instr := .myCoreCounters rq q v f; h.takes i → leN v < 32 → (h.coreAt (leN v)).ctx = rqCtx rq →
    answers i h fun o a b => b = (leList 8 ((List.range 6).map fun k => h.telemetry 2 (key (0x9800 + leN v) (k +
      1)))) ∧ a = o)

/-- Segment map, remote lines, retired pages, key rotation, rings and contexts: what their commands set, close and
answer (R119, R138, R142, R143, R144, R171, R187, R302, R329, R330, R331). -/
def Obligations.GridStackAndRingCommands : Prop :=
  ∀ (h : Mach) (rq : Rq) (q : Nat) (v : Bytes) (f : Verif),
  (let i : Instr := .rlcFlush rq q v f; h.takes i →
    answers i h fun o a b => b = [] ∧ a = o.setDie { o.die with rlc := a.die.rlc, dir := a.die.dir } ∧
      (a.die.rlc.all fun e => (match e.2 with | .fill _ _ => true | .shared _ _ => false)) = true ∧ (a.die.dir.all
      fun e => (match e.2 with | .held _ => false | .inval _ _ => true)) = true) ∧
  (∀ (e : SegEnt), let i : Instr := .segmapWrite rq q v f; h.takes i → v.length = 18 →
    h.segJudge (num v 0 2) (num v 2 16) = .inr (some e) →
    (match sget h.grid.seg (num v 0 2) with | some o => h.itemsLeft o.ctx (h.rng.items.map Item.key) | none => false)
      = false →
    answers i h fun o a b => b = [0] ∧ a = o.putSlot (num v 0 2) (some e) ∧ sget a.grid.seg (num v 0 2) = some e) ∧
  (let i : Instr := .segmapRead rq q v f; h.takes i → 0 < num v 2 2 → num v 2 2 ≤ 256 →
    num v 0 2 + num v 2 2 ≤ 65536 →
    answers i h fun o a b => b = ((List.range (num v 2 2)).flatMap fun i =>
      (match sget h.grid.seg (num v 0 2 + i) with | some e => leB 16 e.bits | none => List.replicate 16 0)) ∧ a = o) ∧
  (let i : Instr := .segmapClearContext rq q v f; h.takes i →
    (h.segsOf (leN v)).any (fun x => h.holdsRing x.2) = false → h.rng.items.any (fun i => i.ctx = leN v) = false →
    answers i h fun o a b => b = [] ∧ a = (o.segsOf (leN v)).foldl (fun m x => m.putSlot x.1 none) o) ∧
  (let i : Instr := .stackRetireList rq q v f; h.takes i → leN v < 6 → (h.stackAt (leN v)).retired.length ≤ 4096 →
    answers i h fun o a b => b = ((h.stackAt (leN v)).retired.flatMap fun r => leB 1 r.chan ++ leB 1 r.state ++ leB
      2 r.reserve ++ leB 4 r.page) ∧ a = o) ∧
  (let i : Instr := .rekeyQuery rq q v f; h.takes i → leN v < 4096 → let k := h.keysOf (leN v);
    answers i h fun o a b => b = leB 1 (match k.rot with | .steady => 0 | .sweeping => 1 | .erasing => 2) ++ leB 1
      k.write ++ leB 8 k.sweptAll ++ leB 8 k.toSweep ∧ a = o) ∧
  (∀ (x : Ring), let i : Instr := .ringQuery rq q v f; h.takes i → h.ring? (leN v) = some x →
    answers i h fun o a b => b = leB 1 (if x.closed then 2 else 1) ++ leB 8 x.produce ++ leB 8 x.consumed ++ leB 8
      x.taken ++ leB 8 x.ansLow ++ leB 8 (x.lost.getD (2 ^ 64 - 1)) ∧ a = o) ∧
  (∀ (x : Marks), let i : Instr := .ringLastMarks rq q v f; h.takes i → sget h.rng.marks (leN v) = some x →
    answers i h fun o a b => b = x.bytes ∧ a = o) ∧
  (∀ (x : Ring), let i : Instr := .ringDelete rq q v f; h.takes i → h.ring? (leN v) = some x →
    h.itemsOf (leN v) = [] → h.rng.recWait.any (fun y => y.ring = leN v) = false →
    answers i h fun o a b => b = [] ∧ a = (o.setRng { o.rng with rings := sdel (sput o.rng.rings (leN v) { x with closed := true }) (leN v) }).unhold
      fun y => y.kind = 4 && y.object = leN v) ∧
  (∀ (x : Ring) (c : Ctx), let i : Instr := .ringReopen rq q v f; h.takes i → h.ring? (leN v) = some x →
    h.ctx? x.ctx = some c → x.closed → c.st = .live →
    (x.ty = 1 → (h.siteAt x.target).state = 5 ∧ (h.siteAt x.target).readmitting = false ∧ (h.siteAt
      x.target).fencing = none) →
    (x.ty ≠ 2 ∨ ((h.coreAt (ringCore (leN v) x)).state < 3 ∧ (h.coreAt (ringCore (leN v) x)).fencing = none)) →
    answers i h fun o a b => b = [] ∧ a = o.setRing (leN v) { x with closed := false, lost := none })

/-- RING_CREATE makes an ACTIVE ring with its counters at START, contexts are made LIVE, queried and destroyed (R290,
R291, R293, R296, R298, R299, R300, R301). -/
def Obligations.RingsAndContextsAreMadeAndEnded : Prop :=
  ∀ (h : Mach) (rq : Rq) (q : Nat) (v : Bytes) (f : Verif),
  (∀ (y : Ctx), let i : Instr := .ringCreate rq q v f; h.takes i → let w := leN v; let r := fld w 113 15;
    let c := fld w 128 12; let dl := fld w 104 5; let desc := fld w 174 34 * 64; let cpl := fld w 140 34 * 64;
    let start := fld w 208 48; h.ctx? c = some y → y.st = .live → c ≠ 0 → fld w 110 2 = 0 → fld w 88 4 = 0 →
    bitOf w 109 = false → fld w 0 72 = 0 → 4 ≤ dl → dl ≤ 16 → start % (2 * 2 ^ dl) = 0 → fld w 100 4 = 2 →
    fld w 92 8 < 32 → h.subInPlat y.part 2 (fld w 92 8) → h.ringInPlat y.part r → h.ring? r = none →
    h.areaGood (ringFloor r) c desc (64 * 2 ^ dl) → h.areaGood (ringFloor r) c cpl (32 * 2 ^ dl) →
    answers i h fun _ a b => b = [] ∧ sget a.rng.rings r = some { ctx := c, ty := 0, depthLog2 := dl, descAddr := desc, cplAddr := cpl, start, high := bitOf w 112, subKind := 2, submitter := fld w 92 8, target := 0, vector := fld w 72 16, produce := start, consumed := start, taken := start, ansLow := start }
      ∧ a.rng.items = h.rng.items ∧ a.rng.ctxs = h.rng.ctxs ∧ a.grid.seg = h.grid.seg ∧ a.mem.cells = (h.writeMem
      h.fb.epoch (ringFloor r) c cpl (List.replicate (32 * 2 ^ dl) 0)).1.mem.cells) ∧
  (let i : Instr := .contextCreate rq q v f; h.takes i → num v 13 3 = 0 → num v 3 1 = 0 → num v 12 1 = 0 →
    0 < num v 0 2 → num v 0 2 < 4096 → h.ctx? (num v 0 2) = none → num v 2 1 < 4 → h.partHolds (num v 2 1) →
    answers i h fun _ a b => b = [] ∧ a.rng = { h.rng with ctxs := sput h.rng.ctxs (num v 0 2) { part := num v 2 1, evAddr := num v 4 8 } }
      ∧ (a.keysOf (num v 0 2)).slot0 = some (beN (drawn h.sec.draws 64)) ∧ a.sec.draws = h.sec.draws + 2 ∧ a.grid =
      h.grid) ∧
  (∀ (x : Ctx), let i : Instr := .contextQuery rq q v f; h.takes i → leN v < 4096 → h.ctx? (leN v) = some x →
    answers i h fun o a b => b = (leB 1 (match x.st with | .live => 1 | .destroying => 2) ++ leB 1 x.part ++ leB 1
      x.conf.toNat ++ leB 2 (h.rng.rings.countP fun r => r.2.ctx = leN v) ++ leB 4 (h.rng.items.countP fun i =>
      i.ctx = leN v)) ∧ a = o) ∧
  (∀ (x : Ctx), let i : Instr := .contextDestroy rq q v f; h.takes i → h.ctx? (leN v) = some x → x.st = .live →
    h.rng.items.any (fun i => i.ctx = leN v) = false → leN v ≠ 0 →
    awaits i h ((.ctxDestroy (leN v))) fun _ a => a.rng = { h.rng with ctxs := sput h.rng.ctxs (leN v) { x with st := .destroying }, rings := smap (fun r => if r.ctx = leN v then { r with closed := true } else r) h.rng.rings }
      ∧ a.grid = h.grid)

/-- Site, core and host port fences wait for their drain; cores start and stop; a far test answers its errors; a
retrain and a broadcast wait (R346, R360, R408, R410, R443, R444, R446, R454, R466, R470, R491, R498). -/
def Obligations.UnitsAndPortsByCommand : Prop :=
  ∀ (h : Mach) (rq : Rq) (q : Nat) (v : Bytes) (f : Verif),
  (∀ (j : Nat), let i : Instr := .siteFence j rq q v f; h.takes i → j < 4 → h.site.dev.length = 4 →
    (h.siteAt j).fencing = none → (h.siteAt j).state ≠ 0 → (h.siteAt j).state ≠ 6 → (h.siteAt j).state ≠ 7 →
    awaits i h ((.siteFence j)) fun _ a => (a.siteAt j).fencing = some 2 ∧ a.rng = h.rng ∧ a.grid = h.grid) ∧
  (∀ (j : Nat), let i : Instr := .siteReadmitNow j rq q v f; h.takes i → j < 4 → h.site.dev.length = 4 →
    (h.siteAt j).fencing = none → (h.siteAt j).readmitting = false → h.floorLost (j / 2) = false →
    h.floorGone (j / 2) = false → h.pwr.closure = none →
    ((h.siteAt j).state = 6 ∨ (h.siteAt j).state = 7 ∨ (h.siteAt j).state = 1) →
    awaits i h ((.siteReadmit j)) fun _ a => (a.siteAt j).state = 2 ∧ (a.siteAt j).readmitting = true ∧ (a.siteAt
      j).railsOn = true ∧ a.rng = h.rng) ∧
  (∀ (j : Nat) (y : Ctx), let i : Instr := .hostCoreStart j rq q v f; h.takes i → j < 32 → h.core.dev.length = 32 →
    (h.coreAt j).state ≠ 4 → h.coreBusy j = false → h.coreCauseHolds j = false → h.age.retire.contains j = false →
    h.ctx? (num v 0 2) = some y → num v 0 2 ≠ 0 → y.st = .live → bitOf (h.plat y.part 6) j → num v 2 2 = 0 →
    answers i h fun _ a b => b = [] ∧ a.coreAt j = { state := 1, ctx := num v 0 2, entry := num v 4 8, pc := num v 4 8, cause := (h.coreAt j).cause }
      ∧ a.rng = h.rng ∧ a.grid = h.grid ∧ a.out.head? = some (.coreSignal j sigStart (num v 4 8))) ∧
  (∀ (j : Nat), let i : Instr := .hostCoreStop j rq q v f; h.takes i → j < 32 → h.core.dev.length = 32 →
    (h.coreAt j).state ≠ 4 → h.coreBusy j = false → h.coreCauseHolds j = false → h.age.retire.contains j = false →
    answers i h fun _ a b => b = [] ∧ a.coreAt j = { state := 0, cause := (h.coreAt j).cause } ∧ a.rng = h.rng ∧
      a.grid = h.grid ∧ a.out.head? = some (.coreSignal j sigHalt 0)) ∧
  (∀ (j : Nat), let i : Instr := .hostCoreFence j rq q v f; h.takes i → j < 32 → h.core.dev.length = 32 →
    (h.coreAt j).state < 3 → (h.coreAt j).fencing = none →
    awaits i h ((.coreFence j)) fun _ a => (a.coreAt j).fencing = some 2 ∧ (a.coreAt j).state = 2 ∧ a.rng = h.rng) ∧
  (∀ (j : Nat), let i : Instr := .hpFence j rq q v f; h.takes i → j < 2 → h.hp.dev.length = 2 →
    (h.hpAt j).fencing = none → (h.hpAt j).stopped = false →
    awaits i h ((.hpFence j)) fun _ a => (a.hpAt j).fencing = some 2 ∧ (a.hpAt j).stopped = true ∧ a.rng = h.rng) ∧
  (∀ (j : Nat), let i : Instr := .farTest j rq q v f; h.takes i → j < 2 → num v 0 8 % 4096 = 0 →
    num v 8 8 % 4096 = 0 → (h.hpAt j).moves = [] → (h.hpAt j).role = 2 → (h.hpAt j).far = 2 →
    num v 0 8 + num v 8 8 ≤ (h.hpAt j).capacity →
    answers i h fun o a b => b = leB 8 (nth 0 f.meas 0) ∧ a = o.emit (.far j (num v 0 8) [])) ∧
  (let i : Instr := .linkRetrain rq q v f; h.takes i → leN v < 24 → h.lnk.dev.length = 24 →
    (h.portAt (leN v)).state = 1 → (h.portAt (leN v)).partner = none → h.itemsOnPort (leN v) = [] →
    h.portMayTrain (leN v) →
    awaits i h ((.linkRetrain (leN v))) fun _ a => (a.portAt (leN v)).state = 2 ∧ (a.portAt (leN v)).recWidth = 0 ∧
      (a.portAt (leN v)).cause = 14 ∧ a.rng = h.rng) ∧
  (∀ (image : Bytes), let i : Instr := .fwBcast rq q v f; h.takes i → num v 2 6 = 0 → num v 20 12 = 0 →
    num v 16 4 ≤ 2 ^ 26 - 0x01E40000 → h.trv.bcast = none → h.member = 0 → num v 32 16 ≠ 0 → h.calm →
    ((h.opens rq).itemRead (ringPort 0) h.fb.epoch (num v 0 2) (num v 8 8) (num v 16 4)).2 = .ok image →
    awaits i h (.fwBcast) fun _ a => a.trv.bcast = some { rq, id := h.trv.bcastId, mask := num v 32 16 } ∧
      a.trv.bcastId = (h.trv.bcastId + 1) % 2 ^ 32 ∧ a.rng = h.rng)

/-- Security commands: version fuses, report, key requests and their release, rotation, erasure, leases and debug
unlock (R508, R519, R521, R523, R525, R538, R540, R541, R546, R547, R550). -/
def Obligations.TrustCommands : Prop :=
  ∀ (rq : Rq) (q : Nat) (v : Bytes) (f : Verif),
  (∀ s : State, (let i : Instr := .secVersionAdvance rq q v f; s.hw.takes i → s.fuses.svn < s.hw.sec.version →
    s.hw.sec.version ≤ 64 →
    answersAt i s fun o a b => b = [] ∧ a = o.setSec { o.sec with burn := o.sec.version }) ∧
   (let i : Instr := .attestReport rq q v f; s.hw.takes i → s.hw.floorLost 0 = false →
    answersAt i s fun o a b => b = s.hw.report s.fuses 0 v 0 [] ∧ a = o)) ∧
  (∀ (h : Mach), let i : Instr := .keyRequest rq q v f; h.takes i → num v 2 1 = 2 → num v 3 1 ≤ 72 →
    h.ctxLive (num v 0 2) → h.floorLost 0 = false → h.sec.reqs.length < 64 →
    h.sec.reqs.any (fun r => r.ctx = num v 0 2 && r.kind = 2) = false →
    answers i h fun _ a b => num b 8 4 = h.sec.reqId % 2 ^ 32 ∧ a.sec = { h.sec with draws := h.sec.draws + 1, reqId := (h.sec.reqId + 1) % 2 ^ 32, reqs := h.sec.reqs ++ [{ id := h.sec.reqId, ctx := num v 0 2, kind := 2, lease := if h.hasLicence licIsland then num v 3 1 else 0, draw := h.sec.draws, time := h.clk.us }] }
      ∧ a.rng = h.rng ∧ a.grid = h.grid) ∧
  (∀ (s : State) (r : KeyReq), let i : Instr := .keyInstall rq q v f; s.hw.takes i → releaseGood v → num v 5 1 = 2 →
    f.chain → f.sig → leN (s.hw.runVal kBrokerRootDigest) ≠ 0 →
    s.hw.sec.reqs.find? (fun r => r.id = num v 8 4 && r.ctx = num v 6 2 && r.kind = 2) = some r →
    releaseOpens s.fuses r v → s.hw.floorLost 0 = false → (s.hw.keysOf (num v 6 2)).rot = .steady →
    s.hw.hasLicence licIsland = false →
    answersAt i s fun _ a b => b = [] ∧ (a.ctxKeys (num v 6 2)).ckpt = some (releasedKey s.fuses r v) ∧ (a.ctxKeys
      (num v 6 2)).root = (s.hw.ctxKeys (num v 6 2)).root ∧ a.sec.reqs = s.hw.sec.reqs.filter (· ≠ r) ∧ a.sec.leases
      = s.hw.sec.leases) ∧
  (∀ h : Mach, (∀ (k : StkKeys), let i : Instr := .keyRotate rq q v f; h.takes i → h.ctxLive (leN v) →
    h.confCtx (leN v) = false → h.floorLost 0 = false → h.keysOf (leN v) = k → k.rot = .steady → k.write < 2 →
    answers i h fun _ a b => b = [] ∧ (a.keysOf (leN v)).write = 1 - k.write ∧ (a.keysOf (leN v)).rot = .sweeping ∧
      (a.keysOf (leN v)).swept = [] ∧ (if k.write = 0 then (a.keysOf (leN v)).slot1 else (a.keysOf (leN v)).slot0) =
      some (beN (drawn h.sec.draws 64)) ∧ a.sec.draws = h.sec.draws + 2) ∧
   (∀ (x : Nat), let i : Instr := .keyErase rq q v f; h.takes i → h.floorLost 0 = false →
    (h.ctxKeys (leN v)).ckpt = some x →
    answers i h fun _ a b => b = [] ∧ (a.ctxKeys (leN v)).ckpt = none ∧ (a.ctxKeys (leN v)).root = (h.ctxKeys (leN
      v)).root ∧ a.sec.leases = h.sec.leases) ∧
   (let i : Instr := .keyQuery rq q v f; h.takes i → leN v < 4096 → let k := h.ctxKeys (leN v);
    let has := fun (i : Nat) => (h.sec.leases.any fun l => l.ctx = leN v && l.kind = i).toNat;
    answers i h fun o a b => b = leB 1 k.root.isSome.toNat ++ leB 1 k.ckpt.isSome.toNat ++ leB 1
      (match (h.keysOf (leN v)).rot with | .steady => 0 | .sweeping => 1 | .erasing => 2) ++ leB 1 (has 1 + 2 * has
      2) ∧ a = o)) ∧
  (∀ (s : State) (l : Lease) (x : Ctx), let i : Instr := .leaseUnseal rq q v f; s.hw.takes i → num v 2 1 = 2 →
    s.hw.sec.leases.find? (fun l => l.ctx = num v 0 2 && l.kind = 2) = some l → s.hw.leaseOpens s.fuses l →
    s.hw.sec.unlocked = false → l.measure = s.hw.leaseMeasure l.part →
    (bitList 4 (s.hw.plat l.part 1)).all (fun t => (s.hw.siteAt t).state = 5) = true → s.hw.hasLicence licIsland →
    l.aonId = s.hw.sec.aonId → s.hw.sec.island < l.expiry → s.hw.ctx? (num v 0 2) = some x → x.st = .live →
    x.part = l.part → s.hw.floorLost 0 = false → (s.hw.keysOf (num v 0 2)).rot = .steady →
    answersAt i s fun _ a b => b = [] ∧ (a.ctxKeys (num v 0 2)).ckpt = some (s.hw.leaseKey s.fuses l) ∧ a.sec.leases
      = s.hw.sec.leases) ∧
  (∀ h : Mach, (let i : Instr := .leaseRevoke rq q v f; h.takes i → num v 2 1 ≤ 2 → (num v 0 2 ≤ 4095 ∨ num v 0 2 = 0xFFFF) →
    answers i h fun _ a b => b = [] ∧ a.sec.leases = h.sec.leases.filter (fun l => !((num v 0 2 = 0xFFFF || l.ctx =
      num v 0 2) && (num v 2 1 = 0 || l.kind = num v 2 1))) ∧ a.sec.keys = h.sec.keys ∧ a.rng.rings = h.rng.rings) ∧
   (let i : Instr := .leaseList rq q v f; h.takes i → h.sec.leases.length ≤ 64 →
    answers i h fun o a b => b = (h.sec.leases.flatMap fun l => leB 2 l.ctx ++ leB 1 l.kind ++ leB 1 l.part ++ leB 4
      l.id ++ leB 4 (l.expiry - h.sec.island)) ∧ a = o) ∧
   (let i : Instr := .debugChallenge rq q v f; h.takes i →
    answers i h fun o a b => b = leB 32 (Config.drbg h.sec.draws).toNat ∧ a = o.setSec { o.sec with draws := o.sec.draws + 1, challenge := some o.sec.draws })) ∧
  (∀ (s : State) (c : Nat), let i : Instr := .debugUnlock rq q v f; s.hw.takes i → bitOf s.fuses.debug 0 → f.chain →
    f.sig → s.hw.sec.challenge = some c → s.hw.confResident = false →
    answersAt i s fun _ a b => b = [] ∧ a.sec.unlocked = true ∧ a.debugState = 23 ∧ a.rng = s.hw.rng ∧ a.grid =
      s.hw.grid)

/-- Power states, calibration, firmware, survey log, cadastre, margin plan and ledger by command (R574, R578, R592,
R597, R623, R630, R631, R637, R661, R671, R672, R673). -/
def Obligations.PowerSurveyAndLedgerCommands : Prop :=
  ∀ (rq : Rq) (q : Nat) (v : Bytes) (f : Verif),
  (∀ h : Mach, (let i : Instr := .pwrRequest rq q v f; h.takes i → leN v = 0 → h.clk.loss.contains true = false → h.clk.pwr = 0 →
    answers i h fun o a b => b = [] ∧ a = o) ∧
   (let i : Instr := .pwrRequest rq q v f; h.takes i → leN v = 1 → 1 ≤ h.cfg kPwrDeepest → h.idle → h.clk.pwr = 0 →
    answers i h fun _ a b => b = [] ∧ a.clk.pwr = 1 ∧ nth 0 a.clk.entries 0 = (nth 0 h.clk.entries 0 + 1) % 2 ^ 64 ∧
      a.rng = h.rng ∧ a.grid.seg = h.grid.seg ∧ a.mem = h.mem) ∧
   (let i : Instr := .pwrOff rq q v f; h.takes i → h.pwr.closure = none → h.pwr.off = false → h.clk.pwr = 0 →
    21 ≤ h.cad.step →
    awaits i h (.pwrOff) fun _ a => a.pwr.closure = some ⟨2, h.clk.us⟩ ∧ a.rng.items = []) ∧
   (let i : Instr := .thermRecalNow rq q v f; h.takes i → h.pwr.heat.length = 2 →
    (∀ x : Nat, x < 2 → h.floorGone x = false ∧ h.floorLost x = false ∧ (h.heatAt x).failed = false ∧ (calOf
      (f.meas.drop (266 * x))).1 = true) →
    answers i h fun _ a b => b = [] ∧ (∀ x : Nat, x < 2 → (a.heatAt x).drift = 0 ∧ (a.heatAt x).bench = (calOf
      (f.meas.drop (266 * x))).2.1) ∧ a.rng.items = h.rng.items)) ∧
  (∀ (s : State), let i : Instr := .fwUpdate rq q v f; s.hw.takes i → num v 0 4 = 0 → num v 4 4 ≤ 16777216 →
    1024 ≤ (v.drop 8).length → (v.drop 8).length < num v 4 4 → headerGood s.fuses f →
    answersAt i s fun o a b => b = [] ∧ a = o.setCad { o.cad with image := v.drop 8 ++ o.cad.image.drop (v.drop 8).length, imageGood := false, update := some ⟨num v 4 4, v.drop 8⟩ }) ∧
  (∀ h : Mach, (let i : Instr := .surveyLogRead rq q v f; h.takes i → num v 0 4 ≠ 0 → 1 ≤ num v 6 2 → num v 6 2 ≤ 2047 →
    let l := h.cad.log.reverse.filter fun r => r.survey = num v 0 4;
    answers i h fun o a b => b = ((l.drop (num v 4 2)).take (num v 6 2)).flatMap LogRec.bytes ∧ a = o) ∧
   (let i : Instr := .cadRead rq q v f; h.takes i → leN v = 0 →
    answers i h fun o a b => b = h.cad.cur.bytes ++ h.physStates ∧ a = o) ∧
   (∀ (j : Nat), let i : Instr := .cadRemapUnit rq q v f; h.takes i → let u := (⟨num v 0 1, num v 1 2⟩ : UnitRef);
    num v 3 1 = 0 → u.isCad → u.copies → h.moving u.floor = false → h.cad.moves.any (fun x => x.unit = u) = false →
    h.cad.queued.any (fun x => x.1 = u) = false → h.cad.cur.physOf u ≠ 0xFF → h.freeSpare u.kind u.parent = some j →
    awaits i h ((.cadRemap u.kind u.num)) fun _ a => a.cad.moves = h.cad.moves ++ [{ unit := u, from_ := h.cad.cur.physOf u, spare := j, stage := 1, final := 3 }]
      ∧ a.cad.cur = h.cad.cur ∧ a.rng = h.rng) ∧
   (let i : Instr := .marginReplanNow rq q v f; h.takes i →
    answers i h fun o a b => b = [] ∧ a = o.replan false) ∧
   (let i : Instr := .marginPlanRead rq q v f; h.takes i → leN v < 2 →
    answers i h fun o a b => b = (((List.range 5).flatMap fun d => leB 1 (nth 0 h.age.offsets (5 * leN v + d))) ++
      ((List.range 3).flatMap fun i => leB 1 (h.stackAt (3 * leN v + i)).weak) ++ (List.range 64).flatMap fun i =>
      leB 1 (min 255 ((h.monNeed (leN v) i).getD 0))) ∧ a = o) ∧
   (let i : Instr := .ledgerRead rq q v f; h.takes i → 1 ≤ num v 4 2 → num v 4 2 ≤ 2047 → num v 6 2 = 0 →
    let l := h.flt.hist.reverse.filter fun y => y.lseq ≥ num v 0 4 && (y.flushed || h.flt.degraded);
    answers i h fun o a b => b = (l.take (num v 4 2)).flatMap Hist.bytes ∧ a = o) ∧
   (let i : Instr := .ledgerStandingRead rq q v f; h.takes i → 1 ≤ num v 4 4 → num v 4 4 ≤ 4094 →
    answers i h fun o a b => b = ((h.flt.standing.drop (num v 0 4)).take (num v 4 4)).flatMap Standing.bytes ∧ a = o) ∧
   (let i : Instr := .ledgerAck rq q v f; h.takes i →
    answers i h fun _ a b => b = [] ∧ a.flt = { h.flt with acked := max h.flt.acked (min (leN v) h.flt.lseq) } ∧
      h.flt.acked ≤ a.flt.acked ∧ a.rng = h.rng ∧ a.grid = h.grid ∧ a.mem = h.mem) ∧
   (let i : Instr := .holdingsRead rq q v f; h.takes i → num v 0 1 < 2 → num v 2 2 = 0 →
    let l := (h.holdingsOn (num v 0 1)).filter fun y => y.party.kind = num v 1 1 && (num v 4 4 = 0xFFFFFFFF ||
      y.party.num = num v 4 4);
    l.length ≤ 4094 →
    answers i h fun o a b => b = (l.take 4096).flatMap Holding.bytes ∧ a = o))

/-- A good client gets the lowest free session, HELLO, PING, SUBSCRIBE and UNSUBSCRIBE are answered, and BYE or 300 s
of silence close it (R72, R73, R74, R75, R80, R556, R700). -/
def Obligations.SessionsOpenSpeakAndEnd : Prop :=
  (∀ h : Mach, (∀ (p root leaf n : Nat) (f : Verif), p < 2 → h.freeSession = some n → h.bookServes →
    bitOf (h.cfg kMgmtEnable) p → h.floorLost p = false → h.floorGone p = false → h.pwr.closure = none → f.chain →
    f.sig → h.clientGood root leaf →
    runs (.tlsConnect p root leaf f) h fun m => m = (h.setSec { h.sec with clients := sput h.sec.clients n (root, leaf) }).setFb { h.fb with sessions := sput h.fb.sessions n { port := p } }
      ∧ n < 8 ∧ shas h.fb.sessions n = false) ∧
   (∀ (p root leaf : Nat) (f : Verif), p < 2 → h.freeSession = none →
    runs (.tlsConnect p root leaf f) h fun m => m = h.emit .refusedTls)) ∧
  (∀ (s : State) (n : Nat) (f : Frame) (x : Session), n < 8 → f.ty = 1 → s.hw.bookServes →
    sget s.hw.fb.sessions n = some x → x.hello = false → sget s.hw.fb.chans n = none →
    frameBad (.session n) false f = false →
    completes (.hello n f) s fun m => m = (s.hw.setFb { s.hw.fb with sessions := sput s.hw.fb.sessions n { x with hello := true } }).emit
      (.reply (.session n) 0x81 .done f.reqId (leB 8 s.fuses.serial ++ leB 2 0x0100 ++ leB 1 n ++ leB 4 65520))) ∧
  (∀ h : Mach, (∀ (n : Nat) (f : Frame), n < 8 → f.ty = 7 → h.hears (.session n) f →
    runs (.ping n f) h fun m => m = h.emit (.reply (.session n) 0x87 .done f.reqId [])) ∧
   (∀ (n : Nat) (f : Frame) (x : Session), n < 8 → f.ty = 5 → h.hears (.session n) f →
    sget h.fb.sessions n = some x → let names := namedOf (num f.payload 2 2) (f.payload.drop 4);
    Nat.land (num f.payload 0 2) 0xF001 = 0 → names.length ≤ 64 →
    names.all (fun e => e.2 = 0 && (match entryAt e.1 with | some r => r.reads 6 | none => false)) = true →
    runs (.subscribe n f) h fun m => (sget m.fb.sessions n).map (fun y => (y.mask, y.ents)) = some (num f.payload 0
      2, names.map (·.1)) ∧ (∀ j, j ≠ n → sget m.fb.sessions j = sget h.fb.sessions j) ∧ m.fb.cur = h.fb.cur ∧ m.rng
      = h.rng ∧ m.out = .reply (.session n) 0x85 .done f.reqId [] :: h.out) ∧
   (∀ (n : Nat) (f : Frame) (x : Session), n < 8 → f.ty = 6 → h.hears (.session n) f →
    sget h.fb.sessions n = some x →
    runs (.unsubscribe n f) h fun m => m = (h.setFb { h.fb with sessions := sput h.fb.sessions n { x with mask := 0, ents := [], seen := [] } }).emit
      (.reply (.session n) 0x86 .done f.reqId []))) ∧
  (∀ s : State, (∀ (n : Nat) (f : Frame), n < 8 → f.ty = 8 → s.hw.hears (.session n) f → s.hw.ownsDraft (.session n) = false →
    completes (.bye n f) s fun m => m = ((((s.hw.emit (.reply (.session n) 0x88 .done f.reqId [])).setFb { s.hw.fb with sessions := sdel s.hw.fb.sessions n, chans := sdel s.hw.fb.chans n }).setSec { s.hw.sec with clients := sdel s.hw.sec.clients n }).emit
      (.closed n)).noteAll s.fuses) ∧
   (∀ (n secs : Nat), n < 8 → secs ≥ 300 → shas s.hw.fb.sessions n → s.hw.ownsDraft (.session n) = false →
    completes (.sessionIdleTimeout n secs) s fun m => m = (((s.hw.setFb { s.hw.fb with sessions := sdel s.hw.fb.sessions n, chans := sdel s.hw.fb.chans n }).setSec { s.hw.sec with clients := sdel s.hw.sec.clients n }).emit
      (.closed n)).noteAll s.fuses))

/-- READ and DESCRIBE of any requester answer every record in order and change nothing; a direct, draft or stored
WRITE lands in its layer alone (R34, R35, R39, R50, R53, R69, R76, R77, R78, R697, R699). -/
def Obligations.ReadsAnswerAndWritesLand : Prop :=
  (∀ s : State, (∀ (rq : Rq) (f : Frame), f.ty = 2 → s.hw.hears rq f → let o := s.hw.opens rq; let l := o.answersTo s.fuses rq f;
    fits rq l →
    completes (.fbRead rq f) s fun m => m = o.sendReply rq 2 .done f.reqId (l.flatMap opBytes)) ∧
   (∀ (rq : Rq) (f : Frame), f.ty = 4 → s.hw.hears rq f → let o := s.hw.opens rq; let l := o.answersTo s.fuses rq f;
    fits rq l →
    completes (.describe rq f) s fun m => m = o.sendReply rq 4 .done f.reqId (l.flatMap opBytes))) ∧
  (∀ h : Mach, (∀ (rq : Rq) (f : Frame) (r : OpRec) (e : EntryRow), h.takesWrite rq f r e → r.target = 0 → e.wr = 1 →
    opKey r ≠ kMyEventClasses →
    lands (.writeDirect rq f) rq f r h fun a => a.fb.cur = { h.fb.cur with ovr := sput h.fb.cur.ovr (opKey r) r.value }
      ∧ a.fb.old = h.fb.old.map (fun x => (x.1, { x.2 with ovr := sput x.2.ovr (opKey r) r.value })) ∧ a.fb.pend =
      h.fb.pend ∧ a.fb.draft = h.fb.draft ∧ a.fb.baseline = h.fb.baseline ∧ a.rng.rings = h.rng.rings ∧ a.rng.items
      = (h.opens rq).rng.items) ∧
   (∀ (rq : Rq) (f : Frame) (r : OpRec) (e : EntryRow), h.takesWrite rq f r e → r.target = 0 → e.wr = 3 →
    lands (.writeDirect rq f) rq f r h fun a => a.fb.pend = sput h.fb.pend (opKey r) r.value ∧ a.fb.cur = h.fb.cur ∧
      a.fb.coldRun = h.fb.coldRun ∧ a.fb.draft = h.fb.draft ∧ a.rng = (h.opens rq).rng ∧ a.grid = h.grid) ∧
   (∀ (rq : Rq) (f : Frame) (r : OpRec) (e : EntryRow) (c : Ctx), h.takesWrite rq f r e → r.target = 0 →
    opKey r = kMyEventClasses → h.ctx? (rqCtx rq) = some c →
    lands (.writeDirect rq f) rq f r h fun a => (a.ctx? (rqCtx rq)).map (·.evClasses) = some (leN r.value) ∧
      a.rng.rings = h.rng.rings ∧ a.fb.cur = h.fb.cur ∧ a.fb.draft = h.fb.draft) ∧
   (∀ (rq : Rq) (f : Frame) (r : OpRec) (e : EntryRow) (d : Draft), h.takesWrite rq f r e → r.target = 1 →
    h.fb.draft = some d →
    lands (.writeDraft rq f) rq f r h fun a => a.fb.draft = some { d with ents := sput d.ents (opKey r) r.value } ∧
      a.fb.cur = h.fb.cur ∧ a.fb.pend = h.fb.pend ∧ a.fb.baseline = h.fb.baseline ∧ a.rng = (h.opens rq).rng ∧
      a.grid = h.grid) ∧
   (∀ (rq : Rq) (f : Frame) (r : OpRec) (e : EntryRow), h.takesWrite rq f r e → r.target = 0x10 →
    h.cad.badLayers.contains 8 = false →
    lands (.writeStoredLayer rq f) rq f r h fun a => a.fb.baseline = sput h.fb.baseline (opKey r) r.value ∧
      a.fb.sheets = h.fb.sheets ∧ a.fb.cur = h.fb.cur ∧ a.fb.pend = h.fb.pend ∧ a.fb.draft = h.fb.draft ∧
      a.rng.rings = h.rng.rings ∧ a.rng.items = (h.opens rq).rng.items) ∧
   (∀ (rq : Rq) (f : Frame) (r : OpRec) (e : EntryRow) (j : Nat), h.takesWrite rq f r e → j < 8 →
    r.target = 0x20 + j → h.cad.badLayers.contains j = false →
    let l := if r.value = [] then sdel (h.sheet j) (opKey r) else sput (h.sheet j) (opKey r) r.value;
    lands (.writeStoredLayer rq f) rq f r h fun a => a.fb.sheets = sput h.fb.sheets j l ∧ a.fb.baseline =
      h.fb.baseline ∧ a.fb.cur = h.fb.cur ∧ a.fb.pend = h.fb.pend ∧ a.fb.draft = h.fb.draft ∧ a.rng.rings =
      h.rng.rings ∧ a.rng.items = (h.opens rq).rng.items))

/-- A waiting commit switches the epoch or times out, an idle draft goes, the surveyor commits its moves, and counters
latch (R28, R54, R56, R60, R61, R62, R65, R85, R552, R698). -/
def Obligations.DraftsCommitsAndLatchesByTime : Prop :=
  ∀ (h : Mach),
  (∀ (c : CmdReq) (d : Draft), h.fb.committing = some c.rq → c.key = kCommit → h.fb.draft = some d → h.commitFree →
    h.clk.pwr = 0 → h.newSheet d.ents = none → h.onlyWaits c .commit →
    concludes (.commitSwitch) h c .done fun a b => b = leB 4 a.fb.epoch ∧ a.fb.epoch = h.fb.epoch % 0xFFFFFFFF + 1 ∧
      a.fb.cur = { h.fb.cur with ovr := layOver h.fb.cur.ovr (notCold d.ents) } ∧ a.fb.draft = none ∧
      a.fb.committing = none ∧ a.fb.lastStatus = .done ∧ a.fb.pend = layOver h.fb.pend (onlyCold d.ents) ∧
      a.rng.items = h.rng.items) ∧
  (∀ (c : CmdReq) (ms : Nat) (d : Draft), h.fb.committing = some c.rq → c.key = kCommit → h.fb.draft = some d →
    d.orphan = false → h.commitFree = false → ms ≥ h.cfg kCommitTimeout → h.onlyWaits c .commit →
    concludes (.commitTimeoutExpired ms) h c .fbEpochFull fun a b => b = [] ∧ a.fb.draft = some { d with held := false }
      ∧ a.fb.committing = none ∧ a.fb.lastStatus = .fbEpochFull ∧ a.fb.epoch = h.fb.epoch ∧ a.fb.cur = h.fb.cur) ∧
  (∀ (ms : Nat) (d : Draft), h.fb.draft = some d → d.held = false → ms ≥ h.cfg kDraftIdleTimeout →
    runs (.draftIdleTimeout ms) h fun m => m.fb.draft = none ∧ m.fb.cur = h.fb.cur ∧ m.rng = h.rng ∧ m.grid = h.grid
      ∧ m.mem = h.mem) ∧
  (h.surveyorHas → h.fb.old = none → h.fb.chans = [] →
    runs (.surveyorCommit) h fun m => m.fb.epoch = h.fb.epoch % 0xFFFFFFFF + 1 ∧ m.fb.cur = h.fb.cur ∧
      m.fb.survWaiting = false ∧ m.cad.cur = (h.cad.moves.filter fun x => x.stage = 2).foldl (fun b x => b.place
      x.unit x.spare) h.cad.cur ∧ m.fb.lastStatus = h.fb.lastStatus ∧ m.rng = h.rng) ∧
  (runs (.counterLatch) h fun m => m.lat.time = h.clk.us / 100000 * 100000 ∧ (∀ k, 0x9000 ≤ k / 256 → k / 256 <
      0xA000 → sget m.lat.ctr k = sget h.fb.ctr k) ∧ m.lat.sensors = h.pwr.heat.map (·.sensors) ∧ m.lat.rings = smap
      Ring.counts h.rng.rings ∧ m.fb = h.fb ∧ m.rng = h.rng ∧ m.sec = { h.sec with coarse := h.sec.coarse && h.confResident })

/-- Requests by a core's, host port's or ring item's frame are answered, and mailbox replies land with MBX_GO at 2
(R42, R43, R319, R320, R459, R476, R488). -/
def Obligations.MailboxesAndRequestItemsAnswer : Prop :=
  (∀ (s : State) (c : Nat) (f : Verif), c < 32 → let fr := frameOf (s.hw.coreAt c).mbxReq f;
    s.hw.hears (.core c) fr → (fr.ty = 2 ∨ fr.ty = 4) → let o := s.hw.opens (.core c);
    let l := o.answersTo s.fuses (.core c) fr; fits (.core c) l →
    completes (.coreMbxGo c f) s fun m => m = o.putChan (.core c) { reply := some (replyBytes fr.ty .done fr.reqId (l.flatMap opBytes)) }) ∧
  (∀ h : Mach, (∀ (c : Nat) (b : Bytes), c < 32 → h.core.dev.length = 32 → (h.chanOf (.core c)).reply = some b →
    runs (.mbxReplyReady (.core c)) h fun m => m.coreAt c = { h.coreAt c with mbxReply := b, mbxGo := 2 }.interrupt
      4 ∧ m.rng = h.rng ∧ m.grid = h.grid ∧ m.fb.cur = h.fb.cur) ∧
   (∀ (n : Nat) (b : Bytes), n < 2 → h.hp.dev.length = 2 → (h.chanOf (.hostPort n)).reply = some b →
    runs (.mbxReplyReady (.hostPort n)) h fun m => m.hpAt n = { h.hpAt n with mbxReply := b, mbxGo := 2 } ∧ m.rng =
      h.rng ∧ m.grid = h.grid ∧ m.fb.cur = h.fb.cur)) ∧
  (∀ (s : State) (n : Nat) (f : Verif), n < 2 → s.hw.hpTarget n = s.hw.ownMember →
    let fr := frameOf (s.hw.hpAt n).mbxReq f; s.hw.hears (.hostPort n) fr → (fr.ty = 2 ∨ fr.ty = 4) →
    let o := s.hw.opens (.hostPort n); let l := o.answersTo s.fuses (.hostPort n) fr; fits (.hostPort n) l →
    completes (.hpMbxGo n f) s fun m => m = o.putChan (.hostPort n) { reply := some (replyBytes fr.ty .done fr.reqId (l.flatMap opBytes)) }) ∧
  (∀ (h : Mach) (n : Nat) (f : Verif), n < 2 → h.hp.dev.length = 2 → h.hpTarget n ≠ h.ownMember → h.hpServes n →
    h.clk.pwr = 0 → (h.hpAt n).mbxGo ≠ 1 →
    runs (.hpMbxGo n f) h fun m => (m.hpAt n).mbxGo = 1 ∧ m.trv.waits = h.trv.waits ++ [⟨(h.trv.reqId + 1) % 65536, h.hpTarget n, 0, n, 0⟩]
      ∧ m.trv.reqId = (h.trv.reqId + 1) % 65536 ∧ m.rng = h.rng) ∧
  (∀ (s : State) (ring : Nat) (f : Verif) (i : Item) (b : Bytes), ring < 32768 →
    s.hw.nextRing (ringFloor ring) ≠ some ring → (sortItems (s.hw.itemsOf ring)).head? = some i → i.kind = kindFb →
    i.ring = ring → s.hw.item? i.key = some i →
    let g := s.hw.itemRead (ringPort (ringFloor ring)) i.epoch i.ctx (fbAddr i.desc) (fbLen i.desc); g.2 = .ok b →
    let rq := (.item ring i.seq i.ctx : Rq); let fr := frameOf b f; s.hw.asks rq → g.1.hears rq fr →
    fbLen i.desc = 16 + fr.length → (fr.ty = 2 ∨ fr.ty = 4) → let o := g.1.opens rq;
    completes (.fbRequest ring f) s fun m => m = o.sendReply rq fr.ty .done fr.reqId ((o.answersTo s.fuses rq
      fr).flatMap opBytes))

/-- Segment map records apply or time out, contexts end FREE, fences complete and a closure switches off, each
answering who waited (R79, R143, R144, R296, R444, R466, R498, R592, R664). -/
def Obligations.WaitingActionsEndAndAnswer : Prop :=
  ∀ (h : Mach),
  (∀ (c : CmdReq) (w : SegWait) (e : SegEnt), h.segWaiting c.rq = some w → c.key = kSegmapWrite →
    h.grid.segWait = [w] → w.rq = c.rq → w.clearAll = false → w.rest = [] → h.fb.role = 0 → h.calm →
    h.itemsLeft w.ctx w.items = false → (sget h.grid.seg w.slot).all (fun o => !(h.itemsLeft o.ctx w.items)) = true
      →
    (h.segTake w).segJudge w.slot (match w.ent with | some e => e.bits | none => 0) = .inr (some e) →
    h.onlyWaits c .segmap →
    concludes (.segmapRecordDrained c.rq) h c .done fun a b => b = statusBytes (.done :: w.answered) ∧ sget
      a.grid.seg w.slot = some e ∧ a.grid.segWait = [] ∧ a.rng = h.rng) ∧
  (∀ (c : CmdReq) (us : Nat) (w : SegWait), h.segWaiting c.rq = some w → c.key = kSegmapWrite →
    h.grid.segWait = [w] → w.rq = c.rq → w.clearAll = false → w.rest = [] → h.fb.role = 0 →
    us > 1000 * h.cfg kSegmapDrainTimeout → h.onlyWaits c .segmap →
    concludes (.segmapDrainTimeout c.rq us) h c .done fun a b => b = statusBytes (.rejectBusy :: w.answered) ∧
      a.grid.seg = h.grid.seg ∧ a.grid.segWait = [] ∧ a.rng = h.rng) ∧
  (∀ (c : Nat) (x : Ctx), c < 4096 → h.ctx? c = some x → x.st = .destroying →
    h.rng.items.any (fun i => i.ctx = c) = false → h.fb.chans = [] → (skeys h.rng.ctxs).Pairwise (· < ·) →
    (h.core.dev.any fun y => y.ctx = c) = false →
    runs (.contextDestroyFinish c) h fun m => m.ctx? c = none ∧ (∀ d, d ≠ c → (m.ctx? d).map (·.st) = (h.ctx? d).map
      (·.st)) ∧ m.fb.cur = h.fb.cur) ∧
  (∀ (t : Nat) (f : Fence), t < 4 → h.site.dev.length = 4 →
    h.flt.fencing.find? (fun f => f.party = ⟨1, t⟩) = some f → h.fb.chans = [] → h.fenceHeld (siteOrigin t) = false
      →
    runs (.partyFenceDrained 1 t) h fun m => (m.siteAt t).fencing = none ∧ (m.siteAt t).state = (if f.cause = 7 then
      7 else 6) ∧ (m.siteAt t).cause = f.cause ∧ (m.siteAt t).srstReleased = false ∧ (m.flt.fencing.all fun g =>
      g.party ≠ ⟨1, t⟩) = true) ∧
  (∀ (c : Nat) (f : Fence), c < 32 → h.core.dev.length = 32 →
    h.flt.fencing.find? (fun f => f.party = ⟨2, c⟩) = some f → h.fb.chans = [] →
    (h.fenceHeld fun o => match o with | .core d _ => d = c | _ => false) = false →
    runs (.partyFenceDrained 2 c) h fun m => (m.coreAt c).fencing = none ∧ (m.coreAt c).state = (if shas
      m.cad.cur.gone (UnitRef.code ⟨0x09, c⟩) then 4 else 3) ∧ (m.coreAt c).cause = f.cause ∧ (m.coreAt c).work = []
      ∧ (m.flt.fencing.all fun g => g.party ≠ ⟨2, c⟩) = true) ∧
  (∀ (n : Nat) (f : Fence), n < 2 → h.hp.dev.length = 2 → h.flt.fencing.find? (fun f => f.party = ⟨5, n⟩) = some f →
    h.fb.chans = [] → (h.fenceHeld fun o => match o with | .bar2 k _ => k = n | _ => false) = false →
    runs (.partyFenceDrained 5 n) h fun m => (m.hpAt n).fencing = none ∧ (m.hpAt n).cause = f.cause ∧ (m.hpAt
      n).sessions = [] ∧ (m.hpAt n).mbxGo = 0 ∧ (m.flt.fencing.all fun g => g.party ≠ ⟨5, n⟩) = true) ∧
  (∀ (c : CmdReq) (us at_ : Nat), h.pwr.closure = some ⟨2, at_⟩ → c.key = kPwrOff → h.onlyWaits c .pwrOff →
    runs (.closureComplete us) h fun m => m = ((h.putChan c.rq {}).replies c .done []).closureEnds us ∧
      m.pwr.closure = none ∧ m.pwr.off = true ∧ m.pwr.floorOn = [false, false])

/-- Link frames advance their port in order; VC 2 messages reach mailboxes, rings, memory and the transfers and
broadcasts that wait (R338, R339, R405, R406, R408, R409, R410, R488, R489). -/
def Obligations.LinkFramesAndGroupMessages : Prop :=
  ∀ (h : Mach),
  (∀ (p : Nat) (f : LinkFrame) (v : Verif), p < 24 → h.lnk.dev.length = 24 → (h.portAt p).state = 5 →
    (h.portAt p).sealKey = none → (f.crc = frameCrc f false ∧ f.lost = 0 ∧ f.kind = 2 ∧ f.vc ≤ 2 ∧ f.bytes ≤ 256) →
    f.seq = ((h.portAt p).rxSeq + 1) % 4096 → f.nak = false → f.credit = 0 →
    ((h.portAt p).waitOut = [] ∧ (h.portAt p).waitMsg = [] ∧ (h.portAt p).owed = [0, 0, 0]) → h.trv.selfVc2 = [] →
    runs (.linkFrameReceive p f v) h fun m => (m.portAt p).rxSeq = f.seq ∧ (m.portAt p).replay = acked (h.portAt
      p).replay f.ack ∧ (m.portAt p).state = 5 ∧ (m.portAt p).discard = false ∧ m.rng = h.rng ∧ m.trv = h.trv ∧
      m.out = h.out) ∧
  (∀ (p : Nat) (f : LinkFrame) (v : Verif), p < 24 → h.lnk.dev.length = 24 → (h.portAt p).state = 5 →
    (h.portAt p).sealKey = none → h.clk.pwr = 0 → let f' := { f with kind := 0, vc := 2 };
    (f.crc = frameCrc f' false ∧ f.lost = 0 ∧ f.bytes ≤ 256) → f.seq = ((h.portAt p).rxSeq + 1) % 4096 →
    f.nak = false → f.credit = 0 →
    ((h.portAt p).waitOut = [] ∧ (h.portAt p).waitMsg = [] ∧ (h.portAt p).owed = [0, 0, 0]) → h.trv.selfVc2 = [] →
    h.member ≠ 0xFF → f.stream = vc2Tag h.member 0 → h.member < 128 → let b := padTo 256 f.payload; num b 8 4 = 0 →
    num b 4 4 > 240 →
    runs (.vc2FrameReceive p f v) h fun m => sget m.trv.parts (num b 0 1 * 2 ^ 24 + num b 2 2) = some ((b.drop
      16).take 240) ∧ (m.portAt p).rxSeq = f.seq ∧ m.rng = h.rng ∧ m.fb.cur = h.fb.cur) ∧
  (∀ (src req : Nat) (b : Bytes) (f : Verif) (w : GroupWait), h.member = 0 → h.waitOf src req 0 = some w →
    runs (.vc2Mailbox src req b f) h fun m => m = (h.setTrv { h.trv with waits := h.trv.waits.erase w }).putChan
      (.hostPort w.chan) { h.chanOf (.hostPort w.chan) with reply := some b }) ∧
  (∀ (src req : Nat) (b : Bytes), h.member = 0 → num b 0 1 = 1 → num b 8 2 < 2032 →
    runs (.vc2Doorbell src req b) h fun m => m = h.emit (.msix h.groupPort (num b 8 2))) ∧
  (∀ (src req : Nat) (b : Bytes), h.member ≠ 0xFF → num b 0 1 = 0 → h.clk.pwr = 0 →
    runs (.vc2Doorbell src req b) h fun m => m = h.doorbellFrom 0 5 0 (num b 8 8)) ∧
  (∀ (src req st : Nat) (b : Bytes), h.member ≠ 0xFF → h.waitOf src req 1 = none → num b 2 6 = 0 →
    h.hostMay (num b 0 2) → let w := h.itemWrite (.bar2 0 0) h.fb.epoch (num b 0 2) (num b 8 8) (b.drop 16);
    w.2 = none →
    runs (.vc2WriteData src req st b) h fun m => m = w.1.sendVc2 src 2 req 0 []) ∧
  (∀ (src req st : Nat) (b d : Bytes), h.member ≠ 0xFF → h.waitOf src req 2 = none → num b 2 6 = 0 →
    h.hostMay (num b 0 2) → let g := h.itemRead (.bar2 0 0) h.fb.epoch (num b 0 2) (num b 8 8) (num b 16 4);
    g.2 = .ok d →
    runs (.vc2ReadData src req st b) h fun m => m = g.1.sendVc2 src 3 req 0 d) ∧
  (∀ (src req st : Nat) (b : Bytes) (w : GroupWait), h.waitOf src req 1 = some w →
    (h.xferAt (w.chan / 16) (w.chan % 16)).busy → (h.xferAt (w.chan / 16) (w.chan % 16)).fail = none → st = 0 →
    w.what = 1 → h.trv.waits = [w] → w.chan / 16 < h.hp.dev.length →
    w.chan % 16 < (h.hpAt (w.chan / 16)).xfer.length →
    runs (.groupTransferReply src req st false b) h fun m => (m.xferAt (w.chan / 16) (w.chan % 16)).busy = false ∧
      (m.xferAt (w.chan / 16) (w.chan % 16)).status = 0 ∧ (m.xferAt (w.chan / 16) (w.chan % 16)).lines = w.bytes /
      256 ∧ m.trv.waits = [] ∧ m.rng = h.rng) ∧
  (∀ (n k ms : Nat) (w : GroupWait), (n < 2 ∧ k < 16) → h.hp.dev.length = 2 → (h.hpAt n).xfer.length = 16 →
    ms ≥ h.cfg kTravPatienceMax → h.trv.waits = [w] → (w.what = 1 ∨ w.what = 2) → w.chan = waitChan n k →
    (h.xferAt n k).busy → (h.xferAt n k).fail = none →
    runs (.groupTransferTimeout n k ms) h fun m => (m.xferAt n k).busy = false ∧ (m.xferAt n k).status =
      Status.failPatience.code ∧ m.trv.waits = [] ∧ m.rng = h.rng ∧ m.out.head? = some (.msix n (2032 + k))) ∧
  (∀ (r : RxImage), h.trv.rxImage = some r → r.data.length = r.len → r.len ≤ pendRegion → digest r.data = r.digest →
    runs (.fwImageReceived false) h fun m => m.trv.rxImage = none ∧ m.trv.pendTile = r.data ∧ m.trv.pendId = r.id ∧
      m.measAt 10 = padTo 48 r.digest) ∧
  (∀ (member st id : Nat) (b : Bcast), h.trv.bcast = some b → b.id = id → bitOf b.mask member →
    shas b.answers member = false → (bitList 128 b.mask).all (shas (sput b.answers member st)) = false →
    runs (.fwBcastAnswer member st id) h fun m => m = h.setTrv { h.trv with bcast := some { b with answers := sput b.answers member st } }) ∧
  (∀ (c : CmdReq) (ms : Nat) (x : Bcast), h.trv.bcast = some x → x.rq = c.rq → c.key = kFwBcast →
    ms ≥ h.cfg kTravPatienceMax → h.onlyWaits c .fwBcast →
    concludes (.fwBcastTimeout ms) h c .done fun a b => b = x.bytes ∧ a.trv.bcast = none)

/-- Each of the 23 atomic operations, issued by a tile, core, host port, context or neighbour, completes: its answer,
its new target bytes and no other byte (R274, R275, R276, R277, R278, R279, R280, R283, R284, R287, R702). -/
def Obligations.AtomicsReadModifyWriteTheirTarget : Prop :=
  atomicCompletes Instr.anchInitFixed 0x10 ∧ atomicCompletes Instr.anchInitAuto 0x11 ∧ atomicCompletes
  Instr.anchEmax 0x12 ∧ atomicCompletes Instr.anchAdd 0x13 ∧ atomicCompletes Instr.anchAddRaw 0x14 ∧ atomicCompletes
  Instr.anchRead 0x15 ∧ atomicCompletes Instr.anchReadRaw 0x16 ∧ atomicCompletes Instr.anchFetchClear 0x17 ∧
  atomicCompletes Instr.faddFp32 0x20 ∧ atomicCompletes Instr.faddBf16 0x21 ∧ atomicCompletes Instr.faddFp16 0x22 ∧
  atomicCompletes Instr.iadd 0x30 ∧ atomicCompletes Instr.iand 0x31 ∧ atomicCompletes Instr.ior 0x32 ∧
  atomicCompletes Instr.ixor 0x33 ∧ atomicCompletes Instr.smin 0x34 ∧ atomicCompletes Instr.smax 0x35 ∧
  atomicCompletes Instr.umin 0x36 ∧ atomicCompletes Instr.umax 0x37 ∧ atomicCompletes Instr.swap 0x38 ∧
  atomicCompletes Instr.cas 0x39 ∧ atomicCompletes Instr.lock 0x3A ∧ atomicCompletes Instr.unlock 0x3B

/-- A target updated by one kind of order-free atomic holds the same bytes whatever the arrival order, and partial
sums merge exactly (R263, R264, R265, R275, R276, R277, R287). -/
def Obligations.AtomicTargetsDoNotDependOnArrivalOrder : Prop :=
  (∀ (w : AtomWord) (p : Party) (ovf flush : Bool) (old : Bytes) (xs ys : List Bytes),
    w.atop ∈ [0x12, 0x13, 0x14, 0x30, 0x31, 0x32, 0x33, 0x34, 0x35, 0x36, 0x37] → old.length = w.bytes → List.Perm xs ys →
    (let upd := fun (b operand : Bytes) =>
      (match atomEffect w p ovf flush b operand with | some r => r.1 | none => b);
    xs.foldl upd old = ys.foldl upd old)) ∧
  (∀ (c : Machine.Cell) (xs ys : List Addend), c.auto = false →
    (let sum := fun (c : Machine.Cell) (l : List Addend) => l.foldl (fun c x => (c.add x).1) c;
    ((sum c xs).addRaw (sum { anchor := c.anchor } ys)).1 = sum c (xs ++ ys)))

/-- An IADD that a core or a host port issues by its registers leaves the old word in ATOM_RESULTS and DONE in ATOM_GO
(R283, R458, R480). -/
def Obligations.CoresAndHostsReadTheirAtomicsBack : Prop :=
  ∀ (h : Mach),
  (∀ (a : AtomArgs) (n : Nat) (q : Piece), a.party = ⟨2, n⟩ → (a.size = true ∧ a.fetch = true) →
    h.atomReady a 0x30 q → (∀ i < 8, paMedium (q.pa + i) = 0) →
    let old := (List.range 8).map fun i => h.rdByte (h.coreAt n).ctx (q.pa + i);
    runs (.iadd a false) h fun m => (m.coreAt n).atomGo = 0 ∧ (m.coreAt n).atomRes = padTo 256 old ∧ m.onlyBytes h
      q.pa (leB 8 ((leN old + num a.operand 0 8) % 2 ^ 64))) ∧
  (∀ (a : AtomArgs) (n : Nat) (q : Piece), a.party = ⟨5, n⟩ → (a.size = true ∧ a.fetch = true) →
    h.atomReady a 0x30 q → (∀ i < 8, paMedium (q.pa + i) = 0) →
    let old := (List.range 8).map fun i => h.rdByte (h.hpAt n).apCtx (q.pa + i);
    runs (.iadd a false) h fun m => (m.hpAt n).atomGo = 0 ∧ (m.hpAt n).atomRes = padTo 256 old ∧ m.onlyBytes h q.pa
      (leB 8 ((leN old + num a.operand 0 8) % 2 ^ 64))) ∧
  (∀ (a : AtomArgs) (n : Nat) (wait : Bool), AtomArgs.ok a → n < h.hp.dev.length → a.party = ⟨5, n⟩ → h.hpServes n →
    h.clk.pwr = 0 → h.hpAtomOpen n →
    let x := { h.hpAt n with atomAddr := a.va, atomWord := AtomArgs.word a 0x30, atomOps := padTo 256 a.operand };
    runs (.iadd a wait) h fun m => m = h.setHpAt n { x with atomWait := x.atomWait ++ [(x.atomAddr, x.atomWord, x.atomOps)] })

/-- GRID_READ and GRID_WRITE complete at once where nothing is in their way: the read delivers its bytes, the write
stores its bytes and nothing else (R16, R88, R129, R140, R145). -/
def Obligations.GridAccessOfOwnBufferCompletes : Prop :=
  ∀ (h : Mach),
  (∀ (fl port tag ctx va len since way : Nat) (d : Bytes), fl < 2 → port < 48 → lineAccess ctx va len →
    let o : Origin := .port fl port tag; h.readsNow o ctx va len way = some d →
    runs (.gridRead fl port tag ctx va len since way .clean false) h fun m => m.out.head? = some (.readData o .done
      d) ∧ m.mem = h.mem ∧ m.die.dir = h.die.dir ∧ m.stk.poison = h.stk.poison) ∧
  (∀ (fl port tag ctx va : Nat) (data : Bytes) (rel : Bool), fl < 2 → port < 48 → lineAccess ctx va data.length →
    let o : Origin := .port fl port tag; let pas := h.writesNow o ctx va data rel; pas ≠ [] →
    runs (.gridWrite fl port tag ctx va data rel .clean false) h fun m => m.out.head? = some (.writeAck o .done) ∧
      m.wrote h ctx pas data)

/-- Waiting transactions age at their limits; FILL, DATA, INV and INV_ACK move a remote line as Tables 3.1 and 3.2 say
(R91, R92, R93, R94, R124, R154). -/
def Obligations.WaitsAgeAndLinesCrossTheBridge : Prop :=
  ∀ (h : Mach),
  (∀ (target i ns : Nat) (x : Txn), target < 320 → ns ≥ h.cfg kGridAgePromote →
    (sgetD [] h.grid.wait target)[i]? = some x → h.grid.relWait = [] →
    let m1 := Mach.takeIn 64 (h.setGrid { h.grid with wait := smod [] h.grid.wait target fun q => setAt q i { x with aged := true } })
      target;
    m1.nextTxn target = none → h.rng.recWait = [] →
    runs (.agePromote target i ns) h fun m => m = m1) ∧
  (∀ (target i ns : Nat), target < 320 → ns < h.cfg kGridAgePromote →
    runs (.agePromote target i ns) h fun m => m = h) ∧
  (∀ (chan i ns : Nat) (x : Txn), chan < 192 → ns ≥ h.cfg kStackAgeLimit →
    (sgetD [] h.grid.wait (128 + chan))[i]? = some x → h.grid.relWait = [] →
    let m1 := Mach.takeIn 64 (h.setGrid { h.grid with wait := smod [] h.grid.wait (128 + chan) fun q => setAt q i { x with aged := true } })
      (128 + chan);
    m1.nextTxn (128 + chan) = none → h.rng.recWait = [] →
    runs (.stackAgePromote chan i ns) h fun m => m = m1) ∧
  (∀ (ctx epoch pa way : Nat) (d : Bytes), ctx < 4096 → pa < 2 ^ 47 → way < 16 → h.bridgeFree (paFloor pa) →
    let line := pa / 256 * 256; h.sound line 256 → sget (h.dropVictim pa way).die.dir line = none →
    h.lineFor epoch ctx line = .ok d →
    runs (.fill ⟨ctx, epoch⟩ pa way .clean) h fun m => m.out.head? = some (.bridge (paFloor pa) bData (pa / 256) 0
      d) ∧ sget m.die.dir line = some (.held way) ∧ m.mem = h.mem ∧ m.stk.poison = h.stk.poison) ∧
  (∀ (fl pa w f p tag off len : Nat) (a : Nat) (data : Bytes), fl < 2 → pa < 2 ^ 47 →
    h.rlcFind fl pa = some (w, .fill a [(.port f p tag, off, len)]) → shas h.die.dir a →
    sgetD [] h.grid.wait (Place.ofPa pa).target = [] → h.grid.relWait = [] → h.rng.recWait = [] →
    runs (.dataMsg fl pa 0 data) h fun m => m.out = .readData (.port f p tag) .done (((padTo 256 data).drop
      off).take len) :: h.out ∧ sget m.die.rlc (rlcKey fl pa w) = some (.shared a (padTo 256 data)) ∧ m.mem = h.mem) ∧
  (∀ (fl pa w : Nat) (a : Nat) (d : Bytes), fl < 2 → pa < 2 ^ 47 → h.bridgeFree fl →
    h.rlcFind fl pa = some (w, .shared a d) →
    runs (.invMsg fl pa) h fun m => m.out = .bridge fl bInvAck (pa / 256) 0 [] :: h.out ∧ m.die.rlc = sdel h.die.rlc
      (rlcKey fl pa w) ∧ m.die.dir = h.die.dir ∧ m.mem = h.mem) ∧
  (∀ (fl pa : Nat), fl < 2 → pa < 2 ^ 47 → fl ≠ paFloor pa → sget h.die.dir (pa / 256 * 256) = some (.inval [] []) →
    h.grid.relWait = [] → h.rng.recWait = [] → sgetD 0 h.die.ackEarly (pa / 256 * 256) = 0 →
    runs (.invAck fl pa) h fun m => m = h.setDie { h.die with dir := sdel h.die.dir (pa / 256 * 256) }) ∧
  (∀ (fl pa f p tag c : Nat), fl < 2 → pa < 2 ^ 47 → fl ≠ paFloor pa →
    sget h.die.dir (pa / 256 * 256) = some (.inval [⟨.port f p tag, c, none⟩] []) → h.grid.relWait = [] →
    h.rng.recWait = [] → sgetD 0 h.die.ackEarly (pa / 256 * 256) = 0 →
    runs (.invAck fl pa) h fun m => m.out = .writeAck (.port f p tag) .done :: h.out ∧ m.die.dir = sdel h.die.dir
      (pa / 256 * 256) ∧ m.grid.openWr = h.grid.openWr.erase (.port f p tag, c, pa / 256 * 256) ∧ m.mem = h.mem)

/-- Buffer scrub counts or poisons what it finds, a slice over its limit moves to a spare, and key rotations and
channel copies step on (R134, R136, R137, R186, R187, R193, R635). -/
def Obligations.ScrubsRetirementsAndRotations : Prop :=
  ∀ (h : Mach),
  (∀ (slice line : Nat), let pa := Place.pa ⟨slice / 64, 0, 0, slice % 64, line⟩ 0; slice < 128 → line < 32768 →
    h.sound pa 256 →
    runs (.bufScrub slice line .clean) h fun m => m = h) ∧
  (∀ (slice line j : Nat), let pa := Place.pa ⟨slice / 64, 0, 0, slice % 64, line⟩ 0; slice < 128 → line < 32768 →
    j < 32 → h.mem.errs = [] → h.poisoned (pa + 8 * j) 8 = false →
    runs (.bufScrub slice line ⟨List.replicate j 0 ++ [1]⟩) h fun m => m.mem = h.mem ∧ m.fb.ctr = (h.bump
      kBufCeCount).fb.ctr ∧ m.out = h.out) ∧
  (∀ (slice line j : Nat), let pa := Place.pa ⟨slice / 64, 0, 0, slice % 64, line⟩ 0; slice < 128 → line < 32768 →
    j < 32 → h.mem.errs = [] → h.poisoned (pa + 8 * j) 8 = false → h.segAt pa = none →
    runs (.bufScrub slice line ⟨List.replicate j 0 ++ [2]⟩) h fun m => shas m.mem.poison pa = true ∧ m.flt.lseq =
      (h.flt.lseq + 1) % 2 ^ 32 ∧ m.mem.cells = h.mem.cells) ∧
  (∀ (slice i : Nat), slice < 128 → h.sliceCe slice > h.cfg kBufCeRetireLimit → h.spareFor ⟨4, slice⟩ = some i →
    h.cad.cur.physOf ⟨4, slice⟩ ≠ 255 → h.moving (slice / 64) = false →
    runs (.sliceCeRetire slice) h fun m => m.cad.moves = h.cad.moves ++ [{ unit := ⟨4, slice⟩, from_ := h.cad.cur.physOf ⟨4, slice⟩, spare := i, stage := 1, final := 3 }]
      ∧ m.physState 4 (slice / 64) i = 4 ∧ m.flt.lseq = (h.flt.lseq + 1) % 2 ^ 32) ∧
  (∀ (slice : Nat), slice < 128 → h.sliceCe slice ≤ h.cfg kBufCeRetireLimit →
    runs (.sliceCeRetire slice) h fun m => m = h) ∧
  (∀ (ctx : Nat), ctx < 4096 → (h.keysOf ctx).rot = .sweeping → h.stk.dev.any Stack.shut = false →
    runs (.rekeySweepDone ctx) h fun m => (m.keysOf ctx).rot = .erasing ∧ (m.keysOf ctx).older = (h.rng.items.filter
      fun i => i.ctx = ctx).map Item.key ∧ (m.keysOf ctx).write = (h.keysOf ctx).write ∧ m.rng = h.rng) ∧
  (∀ (ctx : Nat), ctx < 4096 → (h.keysOf ctx).rot = .erasing →
    h.rng.items.any (fun i => (h.keysOf ctx).older.contains i.key) = false →
    runs (.oldKeyErase ctx) h fun m => (m.keysOf ctx).rot = .steady ∧ (m.keysOf ctx).slot (1 - (h.keysOf ctx).write)
      = none ∧ (m.keysOf ctx).write = (h.keysOf ctx).write ∧ m.rng.items = h.rng.items) ∧
  (∀ (chan : Nat), chan < 192 → (h.stackAt (chan / 32)).shut = false → h.grid.wait = [] → h.grid.relWait = [] →
    h.trv.live = [] → h.rng.recWait = [] →
    runs (.channelCopyDone chan) h fun m => m = h.setCad { h.cad with moves := h.cad.moves.map fun x => if x.unit = ⟨3, chan⟩ && x.stage = 1 then { x with stage := 2 } else x })

/-- Write drains, refreshes, row activations, patrol and the throttle cap change exactly their channel's records
(R156, R158, R166, R169, R175, R179). -/
def Obligations.ChannelControllersKeepTheirQueues : Prop :=
  ∀ (h : Mach),
  (∀ (chan : Nat), chan < 192 → h.gridFree chan → h.grid.wait = [] → h.grid.relWait = [] →
    (sgetD [] h.stk.writeQ chan).length ≤ 64 → h.rng.recWait = [] → (skeys h.stk.writeQ).Pairwise (· < ·) →
    runs (.writeDrain chan) h fun m => m.stk.draining = sdel h.stk.draining chan ∧ (sgetD [] h.stk.writeQ chan ≠ []
      → m.stk.writeQ = sdel h.stk.writeQ chan) ∧ m.mem = h.mem ∧ m.out = h.out) ∧
  (∀ (chan : Nat), chan < 192 → h.gridFree chan → h.readWaits chan → 48 ≤ (sgetD [] h.stk.writeQ chan).length →
    (sgetD [] h.stk.writeQ chan).length ≤ 64 → h.grid.relWait = [] → h.rng.recWait = [] →
    sgetD 0 h.stk.agedW chan = 0 → let d := Mach.drainSome 64 h chan 16;
    let m1 := d.setStk { d.stk with draining := sdel d.stk.draining chan }; m1.nextTxn (128 + chan) = none →
    runs (.writeDrain chan) h fun m => m = m1 ∧ (sgetD [] m.stk.writeQ chan).length = 16) ∧
  (∀ (pa n : Nat), 2 ^ 46 ≤ pa → pa < 2 ^ 47 → let x := sgetD 0 h.stk.acts (rowKey pa) + n; 0 < n →
    h.count (key (0x9200 + paChan pa) 4) < 2 ^ 64 →
    runs (.rowNeighbourRefresh pa n) h fun m => (x % 4096 ≠ 0 → sget m.stk.acts (rowKey pa) = some (x % 4096)) ∧ (x
      % 4096 = 0 → m.stk.acts = sdel h.stk.acts (rowKey pa)) ∧ m.count (key (0x9200 + paChan pa) 4) = (h.count (key
      (0x9200 + paChan pa) 4) + 2 * (x / 4096)) % 2 ^ 64 ∧ m.mem = h.mem ∧ m.out = h.out) ∧
  (∀ (chan bank rows : Nat), chan < 192 → bank < 64 → (h.stackAt (chan / 32)).selfRefresh = false →
    sgetD 0 h.stk.deferred (chan * 64 + bank) < 8 →
    runs (.bankRefresh chan bank rows true) h fun m => m = h.setStk { h.stk with deferred := sput h.stk.deferred (chan * 64 + bank) (sgetD 0 h.stk.deferred (chan * 64 + bank) + 1) }) ∧
  (∀ (chan bank rows : Nat) (busy : Bool), chan < 192 → bank < 64 → (h.stackAt (chan / 32)).selfRefresh = false →
    let d := sgetD 0 h.stk.deferred (chan * 64 + bank); (busy = false ∨ 8 ≤ d) →
    runs (.bankRefresh chan bank rows busy) h fun m => m.stk.deferred = sdel h.stk.deferred (chan * 64 + bank) ∧
      m.fb.ctr = (h.bump (key (0x9200 + chan) 4) (rows + d * rows)).fb.ctr ∧ m.mem = h.mem ∧ m.out = h.out) ∧
  (∀ (st c : Nat), let chan := 32 * st + c; st < 6 → c < 32 → (h.stackAt st).selfRefresh = false →
    (h.stackAt st).shut = false → h.atCap chan = false → let i := sgetD 0 h.stk.patrol chan;
    let pa := Place.pa ⟨st / 3, 1, st, c, i / 4⟩ (i % 4 * 64); h.errsAt pa = 0 →
    runs (.stackPatrol st c .clean) h fun m => sget m.stk.patrol chan = some ((i + 1) % (3 * 2 ^ 24)) ∧ m.mem =
      h.mem ∧ m.out = h.out ∧ m.stk.poison = h.stk.poison) ∧
  (∀ (pa : Nat), 2 ^ 46 ≤ pa → pa < 2 ^ 47 → sgetD [] h.grid.wait (128 + paChan pa) = [] → h.grid.relWait = [] →
    h.rng.recWait = [] → h.trv.live = [] → sgetD 0 h.stk.agedW (paChan pa) = 0 →
    runs (.rowCopyDone pa) h fun m => m = h.endCopy pa) ∧
  (∀ (chan : Nat), chan < 192 → h.stackCap (chan / 32) < 100 → sgetD 0 h.stk.window chan ≥ h.windowCap (chan / 32) →
    shas h.stk.capped chan = false →
    runs (.stackCapReached chan) h fun m => shas m.stk.capped chan = true ∧ m.fb.ctr = (h.bump (key (0x9200 + chan)
      6)).fb.ctr ∧ m.mem = h.mem ∧ m.out = h.out)

/-- A master that reaches its budget is lowered, and every window starts with its bytes at 0 (R179, R200, R202, R204,
R205, R206). -/
def Obligations.RegulatorsLowerAndStartAgain : Prop :=
  ∀ (h : Mach),
  (∀ (f medium j : Nat), f < 2 → medium < 2 → j < 9 → let k := 9 * (2 * f + medium) + j;
    let x := sgetD {} h.reg.masters k; h.reg.enable → x.budget ≤ x.bytes → x.lowered = false →
    runs (.masterBudgetReached f medium j) h fun m => sgetD {} m.reg.masters k = { x with lowered := true } ∧ (∀ i,
      i ≠ k → sget m.reg.masters i = sget h.reg.masters i) ∧ m.fb.ctr = (h.bump (key (0x9300 + k) 2)).fb.ctr ∧ m.mem
      = h.mem ∧ m.out = h.out) ∧
  (∀ (bufDemand stackDemand waited : Nat), h.grid.wait = [] → h.grid.relWait = [] → h.rng.recWait = [] →
    runs (.regWindowStart bufDemand stackDemand waited) h fun m => m.stk.capped = [] ∧ (m.reg.enable = true ↔ h.cfg
      kRegEnable = 1) ∧ ∀ k < 36, (sgetD {} m.reg.masters k).bytes = 0 ∧ (sgetD {} m.reg.masters k).lowered = false)

/-- Taking a descriptor accepts one item under the current epoch and hands it to the block its kind names (R244, R249,
R251, R307, R308, R310, R311, R426, R460, R497, R703, R704). -/
def Obligations.ItemsAreTakenInTurnAndAccepted : Prop :=
  ∀ (h : Mach),
  (∀ (ring d : Nat) (x : Ring), h.givesDesc ring x d → descKind d = kindSweep →
    runs (.sweep ring) h fun m => m.rng.items = h.rng.items ++ [h.itemOf ring x d false] ∧ sget m.rng.rings ring =
      some x.took ∧ m.swp.queue = smod [] h.swp.queue (swpStack kindSweep d) (· ++ [itemKey ring x.taken]) ∧ m.mem =
      h.mem) ∧
  (∀ (ring d : Nat) (x : Ring), h.givesDesc ring x d → descKind d = kindMerge →
    runs (.sweepMerge ring) h fun m => m.rng.items = h.rng.items ++ [h.itemOf ring x d false] ∧ sget m.rng.rings
      ring = some x.took ∧ m.swp.queue = smod [] h.swp.queue (swpStack kindMerge d) (· ++ [itemKey ring x.taken]) ∧
      m.mem = h.mem) ∧
  (∀ (ring d : Nat) (x : Ring), h.givesDesc ring x d → (descKind d = kindSession ∧ bitOf d 499 = true) →
    (h.stackAt (swpStack kindSession d)).shut = false →
    h.swp.sess.find? (fun y => y.opening = some (itemKey ring x.taken)) = none →
    (h.runsOn (swpStack kindSession d) (swpFirst kindSession d) (swpCount kindSession d)).any (fun r => shas
      h.swp.runs r) = true →
    runs (.sweepSessionOpen ring) h fun m => m.swp.sess = h.swp.sess ++ [⟨swpStack kindSession d, swpFirst kindSession d, swpCount kindSession d, x.ctx, some (itemKey ring x.taken), h.runsOn (swpStack kindSession d) (swpFirst kindSession d) (swpCount kindSession d), false, []⟩]
      ∧ m.rng.items = h.rng.items ++ [h.itemOf ring x d true] ∧ sget m.rng.rings ring = some x.took) ∧
  (∀ (ring d : Nat) (x : Ring), h.givesDesc ring x d → (descKind d = kindSession ∧ bitOf d 499 = false) →
    runs (.sweepSessionClose ring) h fun m => m.rng.items = h.rng.items ∧ (∃ y, sget m.rng.rings ring = some y ∧
      y.taken = x.taken + 1 ∧ y.cAccepted = (x.cAccepted + 1) % 2 ^ 64)) ∧
  (∀ (ring d : Nat) (x : Ring), h.givesDesc ring x d → descKind d = kindNop →
    runs (.descriptorTake ring) h fun m => m.rng.items = h.rng.items ∧ (∃ y, sget m.rng.rings ring = some y ∧
      y.taken = x.taken + 1 ∧ y.cAccepted = (x.cAccepted + 1) % 2 ^ 64)) ∧
  (∀ (ring d b : Nat) (x : Ring), h.givesDesc ring x d → descKind d = kindSite → h.siteTakes x.target →
    (h.siteAt x.target).lowestUp = some b → ((h.siteAt x.target).bond b).replay.length < 64 →
    runs (.siteWork ring) h fun m => m.out.head? = some (h.flitOut x.target b ((h.siteAt x.target).bond b).rxSeq 0
      0x24 [] (leB 48 (d / 2 ^ 128) ++ leB 8 x.taken ++ leB 2 ring ++ leB 4 h.fb.epoch ++ leB 1 kindSite ++ leB 1
      0)) ∧ m.item? (itemKey ring x.taken) = some (h.itemOf ring x d true) ∧ sget m.rng.rings ring = some x.took) ∧
  (∀ (ring d sl : Nat) (x : Ring), h.givesDesc ring x d → descKind d = kindCore → h.coreTakes (ringCore ring x) →
    (h.coreAt (ringCore ring x)).freeSlot = some sl → ringCore ring x < h.core.dev.length → h.clk.pwr = 0 →
    runs (.coreWork ring) h fun m => (m.coreAt (ringCore ring x)).work = (h.coreAt (ringCore ring x)).work ++ [⟨sl, itemKey ring x.taken, leB 48 (d / 2 ^ 128) ++ leB 8 x.taken ++ leB 2 ring ++ leB 4 h.fb.epoch ++ leB 1 kindCore ++ leB 1 1, false⟩]
      ∧ bitOf (m.coreAt (ringCore ring x)).intPending 0 = true ∧ m.item? (itemKey ring x.taken) = some (h.itemOf
      ring x d true) ∧ sget m.rng.rings ring = some x.took) ∧
  (∀ (ring d : Nat) (x : Ring), h.givesDesc ring x d → descKind d = kindSave →
    let key := (sgetD {} h.sec.keys x.ctx).ckpt; (ckptSeal d && key.isNone) = false →
    (h.hpAt (ckptPort d)).moves.length < 4 → (h.hpAt (ckptPort d)).far = 2 → ckptPort d < h.hp.dev.length →
    runs (.checkpointSave ring) h fun m => sget (m.hpAt (ckptPort d)).moves (itemKey ring x.taken) = some
      (h.sec.draws, if ckptSeal d then key else none) ∧ m.sec.draws = h.sec.draws + 1 ∧ m.item? (itemKey ring
      x.taken) = some (h.itemOf ring x d true) ∧ sget m.rng.rings ring = some x.took) ∧
  (∀ (ring d : Nat) (x : Ring), h.givesDesc ring x d → descKind d = kindLoad →
    let key := (sgetD {} h.sec.keys x.ctx).ckpt; (ckptSeal d && key.isNone) = false →
    (h.hpAt (ckptPort d)).moves.length < 4 → (h.hpAt (ckptPort d)).far = 2 → ckptPort d < h.hp.dev.length →
    runs (.checkpointLoad ring) h fun m => sget (m.hpAt (ckptPort d)).moves (itemKey ring x.taken) = some
      (h.sec.draws, if ckptSeal d then key else none) ∧ m.sec.draws = h.sec.draws + 1 ∧ m.item? (itemKey ring
      x.taken) = some (h.itemOf ring x d true) ∧ sget m.rng.rings ring = some x.took)

/-- A queued sweep item starts on its stack, ends with its record, and an engine's fault brings in the spare (R237,
R244, R249, R251, R253, R254, R635). -/
def Obligations.SweepItemsRunAndEnd : Prop :=
  ∀ (h : Mach),
  (∀ (stack k : Nat) (i : Item), stack < 6 → (h.stackAt stack).selfRefresh = false →
    ((List.range 6).any fun t => (h.stackAt t).shut) = false → h.calm →
    h.swpNext stack [] (sgetD [] h.swp.queue stack) = some k → h.item? k = some i → i.skip = false →
    (i.kind = kindSweep ∨ i.kind = kindMerge) →
    h.engineGone i.epoch stack (swpFirst i.kind i.desc) (swpCount i.kind i.desc) = none →
    runs (.sweepDispatch stack) h fun m => shas m.swp.runs k = true ∧ sgetD [] m.swp.queue stack = (sgetD []
      h.swp.queue stack).filter (· ≠ k) ∧ m.item? k = some { i with started := true } ∧ m.swp.sess = h.swp.sess) ∧
  (∀ (ring seq : Nat) (i : Item) (r : SwpRun), ring < 32768 → seq < 2 ^ 48 → h.item? (itemKey ring seq) = some i →
    sget h.swp.runs (itemKey ring seq) = some r →
    runs (.sweepCombine ring seq) h fun m => m.item? (itemKey ring seq) = none) ∧
  (∀ (ring seq : Nat) (i : Item) (x : SwpSess), ring < 32768 → seq < 2 ^ 48 → h.item? (itemKey ring seq) = some i →
    h.swp.sess.find? (fun y => y.opening = some (itemKey ring seq)) = some x →
    x.waitFor.any (fun r => shas h.swp.runs r) = false → (i.order || i.skip) = false →
    sget h.swp.runs (itemKey ring seq) = none →
    runs (.sessionOpenDone ring seq) h fun m => m.item? (itemKey ring seq) = none ∧ m.swp.sess = h.swp.sess.map (fun
      y => if y.opening = some (itemKey ring seq) then { y with opening := none } else y)) ∧
  (∀ (i us : Nat) (x : SwpSess), h.swp.sess[i]? = some x → x.expiring = false → x.opening = none → x.freed = [] →
    us ≥ 1000 * h.cfg kSweepSessionLimit → h.swp.runs = [] →
    runs (.sweepSessionExpire i us) h fun m => m.swp.sess.length < h.swp.sess.length ∧ m.fb = (h.bump
      (kSweepSessionsExpired + 256 * x.stack)).fb ∧ m.mem = h.mem ∧ m.out = h.out) ∧
  (∀ (stack e i : Nat), stack < 6 → e < 16 → let u := (⟨5, stack * 16 + e⟩ : UnitRef); h.cad.cur.physOf u ≠ 255 →
    h.swp.runs = [] → h.spareFor u = some i →
    runs (.engineFault stack e) h fun m => m.cad.cur = h.cad.cur.place u i ∧ m.flt.lseq = (h.flt.lseq + 1) % 2 ^ 32
      ∧ m.cad.moves = h.cad.moves ∧ m.swp = h.swp)

/-- A doorbell of the ring's own submitter advances PRODUCE or CONSUMED and nothing else; any other is dropped and
counted (R303, R304, R305, R313). -/
def Obligations.DoorbellsAdvanceTheirRing : Prop :=
  ∀ (h : Mach),
  (∀ (kind num word : Nat) (x : Ring) (c : Ctx), let r := fld (word % 2 ^ 63) 48 15;
    let seq := fld (word % 2 ^ 63) 0 48; h.clk.pwr = 0 → h.ring? r = some x → x.subKind = kind → x.submitter = num →
    x.closed = false → h.ctx? x.ctx = some c → c.st = .live → seq > x.produce →
    runs (.doorbellProduce kind num word) h fun m => m = h.setRing r { x with produce := seq }) ∧
  (∀ (kind num word : Nat) (x : Ring) (c : Ctx), let r := fld (word % 2 ^ 63) 48 15;
    let seq := fld (word % 2 ^ 63) 0 48; h.clk.pwr = 0 → h.ring? r = some x → x.subKind = kind → x.submitter = num →
    x.closed = false → h.ctx? x.ctx = some c → c.st = .live → min seq x.taken > x.consumed →
    runs (.doorbellConsume kind num word) h fun m => m = h.setRing r { x with consumed := min seq x.taken }) ∧
  (∀ (kind num word : Nat), h.clk.pwr = 0 → h.ring? (fld (word % 2 ^ 63) 48 15) = none →
    runs (.doorbellProduce kind num word) h fun m => m = h.setCount kRingDoorbellDrops (h.count kRingDoorbellDrops +
      1)) ∧
  (∀ (ring seq : Nat) (i : Item), ring < 32768 → seq < 2 ^ 48 → h.item? (itemKey ring seq) = some i →
    i.started = false → h.itemFree i → i.skip = false → i.kind = kindNop →
    runs (.orderedItemStart ring seq) h fun m => m.item? (itemKey ring seq) = none)

/-- A flit in sequence from an admitted tile is taken, its credits kept, and its message performed with one credit
returned (R140, R420, R421, R424, R426, R429, R430, R431, R437). -/
def Obligations.SiteFlitsOfAnAdmittedTileAct : Prop :=
  ∀ (h : Mach),
  (∀ (t b since way : Nat) (f : Flit) (d : Bytes), h.siteHears t b (flitOwn f 1) 5 → h.siteAsks t b f.ctx f.tag →
    h.readsNow (.site t b f.tag) f.ctx f.addr f.len way = some d →
    runs (.siteRead t b f .clean since way false) h fun m => (∃ l, m.out = h.flitOut t b f.seq 1 0x21 [f.tag, 0, 0, 0, d.length]
      d :: l ++ h.flitOut t b f.seq 0 0 [0, 0, 0, 1] [] :: h.out) ∧ m.mem = h.mem) ∧
  (∀ (t b : Nat) (f : Flit), h.siteHears t b (flitOwn f 2) 5 → h.siteAsks t b f.ctx f.tag →
    let d := (f.data.drop (f.addr % 256)).take f.len;
    let pas := h.writesNow (.site t b f.tag) f.ctx f.addr d f.release; pas ≠ [] →
    runs (.siteWrite t b f .clean false) h fun m => (∃ l, m.out = h.flitOut t b f.seq 1 0x22 [f.tag] [] :: l ++
      h.flitOut t b f.seq 0 0 [0, 0, 1, 1] [] :: h.out) ∧ m.wrote h f.ctx pas d) ∧
  (∀ (t b : Nat) (f : Flit) (x : Ring) (c : Ctx), h.siteHears t b (flitOwn f 4) 5 → let word := num f.data 0 8;
    let r := fld word 48 15; ringFloor r = t / 2 → h.ring? r = some x → x.subKind = 1 → x.submitter = t →
    x.closed = false → h.ctx? x.ctx = some c → c.st = .live → bitOf word 63 = false → fld word 0 48 > x.produce →
    runs (.siteDoorbell t b f) h fun m => m.rng = { h.rng with rings := sput h.rng.rings r { x with produce := fld word 0 48 } }
      ∧ m.mem = h.mem) ∧
  (∀ (t b : Nat) (f : Flit) (i : Item) (x : Ring), h.siteHears t b (flitOwn f 5) 5 →
    let k := itemKey (num f.data 0 2) (num f.data 2 8); h.item? k = some i → i.kind = 0x40 → i.started →
    h.ring? (num f.data 0 2) = some x → x.ty = 1 → x.target = t →
    runs (.workDone t b f) h fun m => m.item? k = none) ∧
  (∀ (t b : Nat) (f : Flit), h.siteHears t b (flitOwn f 6) 5 → h.cfg (kSiteVcoreMin + 256 * t) ≤ f.operand →
    f.operand ≤ h.cfg (kSiteVcoreMax + 256 * t) → f.operand % 5 = 0 → (h.siteAt t).vset = none →
    f.operand ≤ (h.siteAt t).ceiling →
    runs (.vset t b f) h fun m => (m.siteAt t).vset = some (f.operand, 0, f.tag) ∧ m.mem = h.mem ∧ m.rng = h.rng) ∧
  (∀ (t b : Nat) (f : Flit), h.siteHears t b (flitOwn f 0) 5 → let y := ((h.siteAt t).bond b).credited f;
    runs (.nullFlit t b f) h fun m => m.siteAt t = (h.siteAt t).setBond b { y with rxSeq := f.seq, discard := false, nakSent := 0, naks := if f.ack = y.nakSeq then y.naks else 0, replay := acked y.replay f.ack }
      ∧ m.out = h.out ∧ m.mem = h.mem) ∧
  (∀ (t b : Nat) (f : Flit), h.siteHears t b (flitOwn f 7) 4 → (h.siteAt t).fwLoad = some (num f.data 0 4) →
    num f.data 4 1 = 0 →
    runs (.fwStatus t b f) h fun m => (m.siteAt t).fwOk = true ∧ (m.siteAt t).fwLoad = none ∧ (m.siteAt t).challenge
      = some (1, h.sec.draws) ∧ m.sec.draws = h.sec.draws + 1 ∧ m.fb.evseq = (h.fb.evseq + 1) % 2 ^ 32)

/-- A corrupt flit, a NAK and the end of retraining act on one bond module; LN_N moves exactly its load-notice state
and counters (R417, R431, R432, R437, R438, R590). -/
def Obligations.BondModulesReplayAndLoadNoticesCount : Prop :=
  ∀ (h : Mach),
  (∀ (t b : Nat), let y := (h.siteAt t).bond b; t < 4 → b < 16 → t < h.site.dev.length → bitOf (h.siteAt t).up b →
    ((h.siteAt t).bond b).retraining = false → ((h.siteAt t).bond b).nakSent < 7 →
    runs (.siteFlitCorrupt t b) h fun m => m.siteAt t = (h.siteAt t).setBond b { y with discard := true, nakSent := y.nakSent + 1 }
      ∧ m.out = .flit t b (flitWire (y.shown ⟨(y.txSeq + 127) % 128, 0, [], []⟩ true)) :: h.out ∧ m.fb = h.fb ∧
      m.mem = h.mem) ∧
  (∀ (t b seq : Nat), t < 4 → b < 16 → seq < 128 → t < h.site.dev.length → bitOf (h.siteAt t).up b →
    ((h.siteAt t).bond b).retraining = false → let y := (h.siteAt t).bond b;
    let n := if y.nakSeq = seq && y.naks > 0 then y.naks + 1 else 1; n < 8 →
    runs (.siteNakReceive t b seq) h fun m => m.siteAt t = (h.siteAt t).setBond b { y with naks := n, nakSeq := seq, replay := acked y.replay seq }
      ∧ m.out = ((acked y.replay seq).map fun x => .flit t b (flitWire (y.shown x))).reverse ++ h.out ∧ m.mem =
      h.mem) ∧
  (∀ (t b rsp work : Nat) (test : BondTest), let y := (h.siteAt t).bond b; t < 4 → b < 16 → t < h.site.dev.length →
    y.retraining → y.waitOut = [] → bondTestOk test →
    runs (.bondRetrain t b test rsp work) h fun m => m.siteAt t = { (h.siteAt t).setBond b { y with retraining := false, discard := false, naks := 0, nakSent := 0 } with repair := setAt (h.siteAt t).repair (h.bondPhys t b) test }
      ∧ m.out = (y.replay.map fun x => .flit t b (flitWire (y.shown x))).reverse ++ h.out ∧ m.mem = h.mem) ∧
  (∀ (t mv a tag : Nat), t < 4 → t < h.site.dev.length → (h.siteAt t).vset = some (mv, a, tag) →
    runs (.vsetSettled t) h fun m => (m.siteAt t).vset = none ∧ (m.siteAt t).vcore = mv ∧ m.mem = h.mem ∧ m.rng =
      h.rng) ∧
  (∀ (t : Nat), t < 4 → t < h.site.dev.length → (h.siteAt t).railsOn → (h.siteAt t).lnLow = false →
    runs (.lnNAssert t) h fun m => m.siteAt t = { h.siteAt t with lnLow := true, lnIgnored := false } ∧ m.fb =
      (h.bump (kSiteLnCount + 256 * t)).fb ∧ m.out = h.out ∧ m.mem = h.mem) ∧
  (∀ (t : Nat), t < 4 → t < h.site.dev.length →
    runs (.lnNRelease t) h fun m => m.siteAt t = { h.siteAt t with lnLow := false, lnIgnored := false } ∧ m.fb =
      h.fb ∧ m.out = h.out ∧ m.mem = h.mem) ∧
  (∀ (t ns : Nat), t < 4 → t < h.site.dev.length → (h.siteAt t).lnLow → (h.siteAt t).lnIgnored = false → ns > 2000 →
    runs (.lnNOverlong t ns) h fun m => m.siteAt t = { h.siteAt t with lnIgnored := true } ∧ m.fb = (h.bump
      (kSiteLnOverlong + 256 * t)).fb ∧ m.out = h.out ∧ m.mem = h.mem)

/-- Each limit of a site starts its fence with the cause the rule gives (R425, R427, R434, R435, R443, R444, R512). -/
def Obligations.SitesFenceOnTheirLimits : Prop :=
  ∀ (h : Mach),
  (∀ (t rise : Nat), h.siteServes t → (h.siteAt t).sbOut = none → rise ≥ h.cfg kSiteProtoErrLimit →
    h.count (kSiteProtoErrs + 256 * t) ≥ rise →
    runs (.protoErrLimit t rise) h fun m => m.siteFences h t 4) ∧
  (∀ (t ring seq us : Nat) (i : Item) (x : Ring), h.siteServes t → (h.siteAt t).sbOut = none → ring < 32768 →
    seq < 2 ^ 48 → h.item? (itemKey ring seq) = some i → h.ring? i.ring = some x → x.target = t → i.kind = 0x40 →
    i.started → us ≥ 1000 * h.cfgItem i kSiteWorkTimeout →
    runs (.siteWorkTimeout ring seq us) h fun m => m.siteFences h t 3) ∧
  (∀ (t : Nat) (msg : SbMsg), h.siteServes t → (h.siteAt t).sbOut = none → h.sbHears t 9 msg 5 →
    runs (.sbFenceReq t msg) h fun m => m.siteFences h t 5) ∧
  (∀ (t us : Nat), h.siteServes t → (h.siteAt t).sbOut = none → (h.siteAt t).srstReleased → (h.siteAt t).hello →
    us ≥ 10000 →
    runs (.sidebandLost t us) h fun m => m.siteFences h t 6) ∧
  (∀ (t us : Nat), h.siteServes t → (h.siteAt t).sbOut = none → (h.siteAt t).challenge.isSome → us ≥ 1000000 →
    runs (.evidenceTimeout t us) h fun m => m.siteFences h t 13) ∧
  (∀ (t us : Nat), t < 4 → t < h.site.dev.length → (h.siteAt t).state = 2 → (h.siteAt t).srstReleased →
    (h.siteAt t).hello = false → (h.siteAt t).fencing = none → us ≥ 1000 * h.cfg kSiteHelloTimeout →
    h.grid.wait = [] → h.grid.relWait = [] → h.ringsTo 1 (siteRing t) = [] →
    runs (.helloTimeout t us) h fun m => (m.siteAt t).state = 6 ∧ (m.siteAt t).cause = 6 ∧ (m.siteAt t).fencing =
      none ∧ (m.siteAt t).srstReleased = false)

/-- HELLO trains the module, ACCEPT brings a CHALLENGE, good EVIDENCE brings ADMIT, and an ACK ends what was
outstanding (R433, R439, R440, R441, R446, R510, R512). -/
def Obligations.TilesAreAdmittedStepByStep : Prop :=
  (∀ h : Mach, (∀ (t rate ph : Nat) (msg : SbMsg) (tests : List (List BondTest)) (rsp work : List Nat), h.sbHears t 1 msg 2 →
    num msg.payload 3 1 = 0 →
    h.pickRate t (([4, 2, 1].map fun r => (r, trainedOf (nth [] tests (rateAt r)))).filter fun r => r.1 ≤ min (h.cfg
      kSiteRateMax) (num msg.payload 1 1)) = some (rate, ph) →
    (h.trainMask t ph).2 = (none, []) →
    runs (.sbHello t msg tests rsp work) h fun m => (m.siteAt t).hello = true ∧ (m.siteAt t).tileId = padTo 30
      msg.payload ∧ (m.siteAt t).rate = rate ∧ (m.siteAt t).up = (h.trainMask t ph).1 ∧ (m.siteAt t).state = 2) ∧
   (∀ (t : Nat) (msg : SbMsg), h.sbHears t 3 msg 2 → (h.siteAt t).rate ≠ 0 →
    num msg.payload 0 1 = (h.siteAt t).rate → num msg.payload 1 2 = (h.siteAt t).up →
    runs (.sbAccept t msg) h fun m => (m.siteAt t).state = 3 ∧ (m.siteAt t).challenge = some (0, h.sec.draws) ∧
      m.sec.draws = h.sec.draws + 1 ∧ m.mem = h.mem ∧ m.rng = h.rng)) ∧
  (∀ (s : State) (t d : Nat) (msg : SbMsg), s.hw.sbHears t 5 msg 3 → (s.hw.siteAt t).challenge = some (0, d) →
    num msg.payload 0 1 = 0 → evidenceGood msg.payload msg.verif 0 → num (s.hw.siteAt t).tileId 2 1 = 0 →
    orderPartner s.fuses.order = 0 →
    completes (.sbEvidence t msg) s fun m => (m.siteAt t).state = 4 ∧ (m.siteAt t).evidence = some (evidenceOf
      msg.payload msg.verif true) ∧ (m.siteAt t).challenge = none ∧ m.rng.items = s.hw.rng.items) ∧
  (∀ h : Mach, (∀ (t st : Nat) (msg : SbMsg), h.sbHears t 0x0A msg st → msg.payload = [] → (h.siteAt t).sbOut = some msg.seq →
    (h.siteAt t).sbWait = [] →
    runs (.sbAck t msg) h fun m => (m.siteAt t).sbOut = none ∧ m.out = h.out ∧ m.mem = h.mem ∧ m.fb = h.fb) ∧
   (∀ (t us : Nat), t < 4 → h.siteServes t → (h.siteAt t).sbOut = none → h.cfg kTileRecheckPeriod ≠ 0 →
    us ≥ 1000000 * h.cfg kTileRecheckPeriod →
    runs (.tileRecheck t us) h fun m => (m.siteAt t).challenge = some (1, h.sec.draws) ∧ m.sec.draws = h.sec.draws +
      1 ∧ (m.siteAt t).state = 5 ∧ m.out = .sideband t (sbBytes 4 (h.siteAt t).sbSeq (leB 1 1 ++ leB 32 (Config.drbg
      h.sec.draws).toNat)) :: h.out) ∧
   (∀ (t : Nat), t < 4 → t < h.site.dev.length → (h.siteAt t).state = 6 → (h.siteAt t).fencing = none →
    h.cfg kSiteReadmit = 1 → h.siteCauseEnded t →
    runs (.siteReadmitAuto t) h fun m => (m.siteAt t).state = 2 ∧ (m.siteAt t).readmitting = true ∧ (m.siteAt
      t).srstReleased = true ∧ m.out = .pin 1 t true :: h.out ∧ m.mem = h.mem ∧ m.rng = h.rng))

/-- A running core's work, notice, draw, entropy, interrupt and register commands answer its load and change its own
registers (R455, R456, R460, R462, R463, R464, R465). -/
def Obligations.RunningCoresServeTheirLocalPages : Prop :=
  ∀ (h : Mach),
  (∀ (c : Nat) (w : WorkEnt), c < 32 → h.coreRuns c → (h.coreAt c).work.find? (fun w => !w.popped) = some w →
    runs (.workPop c) h fun m => m = (h.setCoreAt c { h.coreAt c with work := (h.coreAt c).work.map fun y => if y = w then { y with popped := true } else y }).emit
      (.coreSignal c 0x010 (2 ^ 63 + w.slot))) ∧
  (∀ (c : Nat), c < 32 → h.coreRuns c → (h.coreAt c).work.all (fun w => w.popped) = true →
    runs (.workPop c) h fun m => m = h.emit (.coreSignal c 0x010 0)) ∧
  (∀ (c v : Nat) (r : List (Nat × Bool)) (b : Bool), c < 32 → h.coreRuns c → (h.coreAt c).notices = (v, b) :: r →
    runs (.noticePop c) h fun m => m = (h.setCoreAt c { h.coreAt c with notices := r, noticeLost := false }).emit
      (.coreSignal c 0x040 (2 ^ 63 + (if (h.coreAt c).noticeLost then 2 ^ 62 else 0) + v))) ∧
  (∀ (c : Nat), c < 32 → h.coreRuns c →
    runs (.draw c) h fun m => m = (h.setCoreAt c { h.coreAt c with drawIndex := ((h.coreAt c).drawIndex + 1) % 2 ^ 64 }).emit
      (.coreSignal c 0x098 (drawSplit (h.coreAt c).drawSeed (h.coreAt c).drawIndex))) ∧
  (∀ (c : Nat), c < 32 → h.coreRuns c → h.entropyUsed (c / 16) < 1000000 →
    runs (.entropy c) h fun m => m.sec.draws = h.sec.draws + 1 ∧ m.out = .coreSignal c 0x0A0 ((Config.drbg
      h.sec.draws).toNat % 2 ^ 64) :: h.out ∧ m.core.dev = h.core.dev ∧ m.mem = h.mem ∧ m.fb = h.fb) ∧
  (∀ (c : Nat), c < 32 → h.coreRuns c → h.entropyUsed (c / 16) ≥ 1000000 →
    runs (.entropy c) h fun m => m = h.setCore { h.core with stalled := h.core.stalled ++ [c] }) ∧
  (∀ (c mask : Nat), c < 32 → c < h.core.dev.length → h.coreRuns c →
    runs (.intPendingClear c mask) h fun m => (m.coreAt c) = { h.coreAt c with intPending := (m.coreAt c).intPending }
      ∧ (∀ b < 64, bitOf (m.coreAt c).intPending b = (bitOf (h.coreAt c).intPending b && !bitOf mask b)) ∧ m.out =
      h.out ∧ m.mem = h.mem) ∧
  (∀ (c v : Nat), c < 32 → v < 2 ^ 64 → h.coreRuns c →
    runs (.registerWrite 2 c 0x050 v) h fun m => m = h.setCoreAt c { h.coreAt c with cacheAddr := v }) ∧
  (∀ (c v : Nat), c < 32 → v < 2 ^ 64 → h.coreRuns c →
    runs (.registerWrite 2 c 0x088 v) h fun m => m = h.setCoreAt c { h.coreAt c with drawSeed := v }) ∧
  (∀ (c v : Nat), c < 32 → v < 2 ^ 64 → h.coreRuns c →
    runs (.registerWrite 2 c 0x0B8 v) h fun m => m = h.setCoreAt c { h.coreAt c with intEnable := v }) ∧
  (∀ (c word : Nat) (x : Ring) (y : Ctx), let r := fld word 48 15; let seq := fld word 0 48; c < 32 →
    word < 2 ^ 63 → h.coreRuns c → h.clk.pwr = 0 → h.storesOpen (isCore c) = false → (h.coreAt c).heldBells = [] →
    ringFloor r = c / 16 → h.ring? r = some x → x.subKind = 2 → x.submitter = c → x.closed = false →
    h.ctx? x.ctx = some y → y.st = .live → seq > x.produce →
    runs (.coreDoorbellWrite c word) h fun m => m = h.setRing r { x with produce := seq }) ∧
  (∀ (c val k : Nat), let d := (padTo 16 (h.coreAt c).workDone).take 16 ++ leB 8 val; c < 32 →
    k = itemKey (num d 0 2) (num d 2 8) → h.coreRuns c → (h.coreAt c).fencing = none →
    (h.coreAt c).work.any (fun w => w.item = k) = true → (num d 11 1 = 0 ∧ num d 18 6 = 0) →
    runs (.coreWorkDone c val) h fun m => m.item? k = none)

/-- Cache operations act on the lines they name, cached and uncached windows read and write, and cores are fenced on
their limits (R451, R452, R453, R457, R461, R466, R467). -/
def Obligations.CoreCachesWindowsAndFences : Prop :=
  ∀ (h : Mach),
  (∀ (c lines : Nat), c < 32 → c < h.core.dev.length → 1 ≤ lines → lines ≤ 65536 → h.coreRuns c →
    h.core.cache.Pairwise (fun a b => a.1 < b.1) → let line := (h.coreAt c).cacheAddr / 256 * 256;
    (h.coreAt c).cacheOp = none →
    runs (.cacheClean c lines) h fun m => (∀ i < lines, ∀ l, m.cached (c / 16) (h.coreAt c).ctx (line + 256 * i) =
      some l → l.dirty = false) ∧ (m.coreAt c).cacheOp = some (1, lines)) ∧
  (∀ (c lines : Nat), c < 32 → c < h.core.dev.length → 1 ≤ lines → lines ≤ 65536 → h.coreRuns c →
    h.core.cache.Pairwise (fun a b => a.1 < b.1) → let line := (h.coreAt c).cacheAddr / 256 * 256;
    (h.coreAt c).cacheOp = none →
    runs (.cacheInvalidate c lines) h fun m => (∀ i < lines, m.cached (c / 16) (h.coreAt c).ctx (line + 256 * i) =
      none) ∧ m.mem = h.mem ∧ m.out = h.out ∧ m.coreAt c = { h.coreAt c with cacheOp := some (2, lines) }) ∧
  (∀ (c lines : Nat), c < 32 → c < h.core.dev.length → 1 ≤ lines → lines ≤ 65536 → h.coreRuns c →
    h.core.cache.Pairwise (fun a b => a.1 < b.1) → let line := (h.coreAt c).cacheAddr / 256 * 256;
    (h.coreAt c).cacheOp = none →
    runs (.cacheCleanInvalidate c lines) h fun m => (∀ i < lines, m.cached (c / 16) (h.coreAt c).ctx (line + 256 *
      i) = none) ∧ (m.coreAt c).cacheOp = some (3, lines)) ∧
  (∀ (c : Nat), c < 32 → (h.coreAt c).cacheWait = [] →
    runs (.cacheOpDone c) h fun m => m = h.setCoreAt c { h.coreAt c with cacheOp := none }) ∧
  (∀ (c va len : Nat) (l : CacheLine), let ctx := (h.coreAt c).ctx; c < 32 → lineAccess ctx va len → h.coreRuns c →
    h.clk.pwr = 0 → ctx ≠ 0 →
    (match h.resolve (c / 16) ctx va len .rd with | .ok _ => true | .error _ => false) = true →
    h.cached (c / 16) ctx (va / 256 * 256) = some l →
    runs (.coreSegmentAccess c va len none [] .clean false) h fun m => m.out = .readData (.core c 0) .done
      ((l.data.drop (va % 256)).take len) :: h.out ∧ m.mem = h.mem ∧ m.fb = h.fb) ∧
  (∀ (c va : Nat) (b : Bytes) (l : CacheLine), let ctx := (h.coreAt c).ctx; c < 32 → lineAccess ctx va b.length →
    h.coreRuns c → h.clk.pwr = 0 → ctx ≠ 0 →
    (match h.resolve (c / 16) ctx va b.length .wr with | .ok _ => true | .error _ => false) = true →
    h.cached (c / 16) ctx (va / 256 * 256) = some l →
    runs (.coreSegmentAccess c va b.length (some b) [] .clean false) h fun m => m.cached (c / 16) ctx (va / 256 *
      256) = some { l with data := l.data.take (va % 256) ++ b ++ l.data.drop (va % 256 + b.length), dirty := true, core := c }
      ∧ m.mem = h.mem ∧ m.fb = h.fb ∧ m.out = h.out) ∧
  (∀ (c va len : Nat) (d : Bytes), let ctx := (h.coreAt c).ctx; c < 32 → lineAccess ctx va len → h.coreRuns c →
    h.clk.pwr = 0 → ctx ≠ 0 → h.readsNow (.core c 0) ctx va len = some d →
    runs (.coreSegmentAccess c (2 ^ 40 + va) len none [] .clean false) h fun m => m.out.head? = some (.readData
      (.core c 0) .done d) ∧ m.mem = h.mem ∧ m.core = h.core) ∧
  (∀ (c va : Nat) (b : Bytes), let ctx := (h.coreAt c).ctx; c < 32 → lineAccess ctx va b.length → h.coreRuns c →
    h.clk.pwr = 0 → ctx ≠ 0 → let pas := h.writesNow (.core c 0) ctx va b; pas ≠ [] →
    runs (.coreSegmentAccess c (2 ^ 40 + va) b.length (some b) [] .clean false) h fun m => m.out.head? = some
      (.writeAck (.core c 0) .done) ∧ m.wrote h ctx pas b ∧ m.core = h.core) ∧
  (∀ (c : Nat), c < 32 → h.coreRuns c →
    runs (.coreSegmentAccess c (2 ^ 47 + 0x0A8) 8 none [] .clean false) h fun m => m = h.emit (.coreSignal c 0x0A8
      h.clk.us)) ∧
  (∀ (ring seq us c : Nat) (i : Item), ring < 32768 → seq < 2 ^ 48 → c < h.core.dev.length →
    indexOf? (fun (x : Core) => x.work.any fun w => w.item = itemKey ring seq) h.core.dev = some c →
    h.item? (itemKey ring seq) = some i → us ≥ 1000 * h.cfgItem i kHostWorkTimeout → (h.coreAt c).fencing = none →
    (h.coreAt c).state < 3 →
    runs (.hostWorkTimeout ring seq us) h fun m => m.coreAt c = { h.coreAt c with fencing := some 3, state := 2 } ∧
      m.core.cache = h.core.cache.filter (fun l => l.2.core ≠ c) ∧ m.flt.fencing = h.flt.fencing ++ [⟨⟨2, c⟩, 3, false⟩]
      ∧ m.mem = h.mem ∧ m.rng = h.rng ∧ m.out = h.out) ∧
  (∀ (c : Nat), c < 32 → c < h.core.dev.length → (h.coreAt c).state < 3 → (h.coreAt c).fencing = none →
    h.cad.cur.physOf ⟨0x09, c⟩ ≠ 0xFF → h.spareFor ⟨0x09, c⟩ = none →
    runs (.coreCacheUe c) h fun m => (m.coreAt c).fencing = some 4 ∧ (m.coreAt c).state = 2 ∧ m.cad.cur.physOf ⟨0x09, c⟩
      = 0xFF ∧ m.flt.fencing = h.flt.fencing ++ [⟨⟨2, c⟩, 4, false⟩] ∧ m.rng.items = h.rng.items)

/-- An endpoint port in service rings doorbells, reads and writes module memory through BAR2 and runs its transfer
channels (R474, R475, R477, R479, R481, R482). -/
def Obligations.EndpointPortsServeTheirWindows : Prop :=
  ∀ (h : Mach),
  (∀ (n word : Nat) (x : Ring) (y : Ctx), let r := fld word 48 15; let seq := fld word 0 48; word < 2 ^ 63 →
    h.hpHears n → h.hpTarget n = h.ownMember → h.storesOpen (isHp n) = false → (h.hpAt n).heldBells = [] →
    ringFloor r = n → h.ring? r = some x → x.subKind = 5 → x.submitter = n → x.closed = false →
    h.ctx? x.ctx = some y → y.st = .live → seq > x.produce →
    runs (.hpDoorbellWrite n word) h fun m => m = h.setRing r { x with produce := seq }) ∧
  (∀ (n tag off len since way : Nat) (d : Bytes), let x := h.hpAt n; let va := x.apBase + off; off < 2 ^ 32 →
    h.hpHears n → h.bar2Refused n va len .rd = false → lineAccess x.apCtx va len →
    h.readsNow (.bar2 n tag) x.apCtx va len way = some d →
    runs (.bar2Read n tag off len .clean since way false) h fun m => m.out.head? = some (.readData (.bar2 n tag)
      .done d) ∧ m.mem = h.mem ∧ m.rng = h.rng ∧ m.hp = h.hp) ∧
  (∀ (n tag off : Nat) (data : Bytes), let x := h.hpAt n; let va := x.apBase + off; off < 2 ^ 32 → h.hpHears n →
    h.bar2Refused n va data.length .wr = false → lineAccess x.apCtx va data.length →
    let pas := h.writesNow (.bar2 n tag) x.apCtx va data; pas ≠ [] →
    runs (.bar2Write n tag off data .clean false) h fun m => m.out.head? = some (.writeAck (.bar2 n tag) .done) ∧
      m.wrote h x.apCtx pas data) ∧
  (∀ (n k v : Nat), k < 16 → v < 2 ^ 64 → h.hpHears n →
    runs (.registerWrite 5 n (0x1000 + 32 * k) v) h fun m => m = h.setXfer n k { h.xferAt n k with hostAddr := v }) ∧
  (∀ (n k ctl : Nat) (data recs : Bytes), let c := (ctl % 2 ^ 30 + ctl / 2 ^ 31 * 2 ^ 31) % 2 ^ 31;
    h.xferGoes n k c →
    runs (.xferToModule n k ctl data recs) h fun m => (m.xferAt n k).busy = true ∧ (m.xferAt n k).ctl = c ∧
      ((m.xferAt n k).fail = none → (m.xferAt n k).lines = (h.xferAt n k).length / 256) ∧ m.rng.items = h.rng.items) ∧
  (∀ (n k ctl : Nat), let c := (ctl % 2 ^ 30 + 2 ^ 30) % 2 ^ 31; h.xferGoes n k c →
    runs (.xferToHost n k ctl) h fun m => (m.xferAt n k).busy = true ∧ (m.xferAt n k).ctl = c ∧ ((m.xferAt n k).fail
      = none → (m.xferAt n k).lines = (h.xferAt n k).length / 256 ∧ m.mem = h.mem) ∧ m.rng.items = h.rng.items) ∧
  (∀ (n k : Nat), n < 2 → k < 16 → (h.xferAt n k).busy →
    h.trv.waits.any (fun w => (w.what = 1 || w.what = 2) && w.chan = waitChan n k) = false →
    let st := match (h.xferAt n k).fail with | some f => f | none => Status.done;
    runs (.xferEnd n k) h fun m => m = (h.setXfer n k { h.xferAt n k with busy := false, status := st.code, fail := none }).emit
      (.msix n (2032 + k)))

/-- SPDM sessions open and bind transfer channels, and host and far-tier ports follow their links (R474, R484, R485,
R490, R495, R496, R498, R499, R537, R695). -/
def Obligations.HostSessionsBindAndPortsFollowTheirLinks : Prop :=
  (∀ (h : Mach) (n sess : Nat), let x := h.hpAt n; h.hpSpdm n → x.sessions.length < 4 →
    runs (.spdmRequest n 0xE4 sess) h fun m => m = (h.setHpAt n { x with sessions := x.sessions ++ [{ id := x.nextSession }], nextSession := x.nextSession + 1 }).emit
      (.spdm n 0x64 (leB 4 x.nextSession))) ∧
  (∀ s : State, (∀ (n sess k ctx root : Nat) (y : Spdm), let x := s.hw.hpAt n; k < 16 → k < x.xfer.length → s.hw.hpSpdm n →
    x.sessions.find? (fun s => s.id = sess) = some y → (sgetD {} s.hw.sec.keys ctx).root = some root →
    s.hw.hpCtx n ctx → (s.hw.xferAt n k).busy = false →
    completes (.xferBind n sess k ctx (bindAuth s.fuses root n k ctx sess (y.binds + 1))) s fun m => m.xferAt n k = { s.hw.xferAt n k with bound := some (ctx, sess, y.binds + 1), seqIn := 0, seqOut := 0 }
      ∧ m.out = .spdm n 0x7E (leB 1 0) :: s.hw.out ∧ (⟨n, 8, ⟨5, n⟩, ctx, s.hw.clk.us / 1000 % 2 ^ 32, n * 256 + k⟩
      : Holding) ∈ m.flt.holdings ∧ (m.hpAt n).sessions = x.sessions.map (fun t => if t.id = sess then { t with binds := y.binds + 1 }
      else t)) ∧
   (∀ (n sess k : Nat) (b : Nat × Nat × Nat), let x := s.hw.hpAt n; k < x.xfer.length → s.hw.hpSpdm n →
    x.sessions.any (fun s => s.id = sess) = true → (s.hw.xferAt n k).bound = some b → b.2.1 = sess →
    completes (.xferUnbind n sess k) s fun m => m.xferAt n k = { s.hw.xferAt n k with bound := none, seqIn := 0, seqOut := 0 }
      ∧ m.out = .spdm n 0x7E (leB 1 0) :: s.hw.out ∧ m.mem = s.hw.mem)) ∧
  (∀ h : Mach, (∀ (n sess us : Nat), n < 2 → n < h.hp.dev.length → us ≥ 60000000 →
    runs (.spdmHeartbeatExpire n sess us) h fun m => (m.hpAt n).sessions = (h.hpAt n).sessions.filter (fun x => x.id
      ≠ sess) ∧ (∀ k < 16, ∀ b, (m.xferAt n k).bound = some b → b.2.1 ≠ sess) ∧ m.out = h.out ∧ m.mem = h.mem) ∧
   (∀ (n : Nat), h.hpHears n →
    runs (.hpLinkDown n) h fun m => (m.hpAt n).link = 0 ∧ m.hpFences h n 4) ∧
   (∀ (n : Nat), h.hpHears n →
    runs (.hpPerst n) h fun m => (m.hpAt n).link = 0 ∧ m.hpFences h n 4) ∧
   (∀ (n : Nat), h.hpHears n →
    runs (.functionLevelReset n) h fun m => (m.hpAt n).link = 2 ∧ m.hpFences h n 5) ∧
   (∀ (n width rate : Nat) (flit : Bool), n < 2 → (h.hpAt n).role = 1 → (h.hpAt n).fencing = none →
    h.floorLost n = false → h.floorGone n = false → h.pwr.closure = none → nth false h.clk.loss n = false →
    runs (.hpLinkUp n width rate flit) h fun m => m = h.setHpAt n { h.hpAt n with link := 2, width, rate, flit, stopped := false }) ∧
   (∀ (n cap : Nat) (device : Bytes), n < 2 → (h.hpAt n).role = 2 → h.floorLost n = false → h.floorGone n = false →
    runs (.farDeviceAttach n 0 cap device) h fun m => m = h.setHpAt n { h.hpAt n with far := 2, link := 2, capacity := min cap (2 ^ 41), device := padTo 16 device }) ∧
   (∀ (n : Nat), n < 2 → n < h.hp.dev.length → (h.hpAt n).role = 2 → (h.hpAt n).moves = [] →
    runs (.farDeviceDown n) h fun m => m = h.setHpAt n { h.hpAt n with far := 3, link := 0 }) ∧
   (∀ (ring seq : Nat) (hd b : Bytes) (hp bp : Bool) (i : Item) (d : Nat) (key : Option Nat), ring < 32768 →
    seq < 2 ^ 48 → h.item? (itemKey ring seq) = some i →
    sget (h.hpAt (ckptPort i.desc)).moves (itemKey ring seq) = some (d, key) →
    runs (.checkpointMoveDone ring seq hd b hp bp) h fun m => m.item? (itemKey ring seq) = none))

/-- A link port trains, passes its gate and discovery, replays on a NAK, spares a lane, and goes DOWN where no partner
appears (R339, R340, R341, R342, R345, R347, R363, R365). -/
def Obligations.LinkPortsTrainAndReplay : Prop :=
  (∀ (h : Mach) (p tx rx : Nat) (q : LinkPeer), let x := h.portAt p;
    let w := widthOf (min (if x.recWidth = 0 then 8 else x.recWidth) (min (popcount 9 tx) (popcount 9 rx)));
    h.clk.pwr = 0 → h.portIs p 2 → h.protectOf p = 0 → w ≠ 0 → h.minWidth p ≤ w → h.cad.step = 21 →
    runs (.linkTraining p tx rx 0 q) h fun m => m.portAt p = { state := 3, cause := x.cause, recWidth := w, credit := [640, 640, 256], protect := 0, sealKey := none, skipped := x.skipped, width := w, txGood := tx, rxGood := rx, txMap := laneMap w tx, rxMap := laneMap w rx }
      ∧ m.rng = h.rng ∧ m.mem = h.mem ∧ m.out = h.out) ∧
  (∀ s : State, (∀ (p : Nat) (errs : List Nat) (bits : Nat), let x := s.hw.portAt p; s.hw.portIs p 3 → x.gated = false →
    19 ≤ s.hw.cad.step → s.hw.portMay p 1 → (List.range 18).all (fun l => nth 0 errs l * 1000000 ≤ bits) = true →
    (x.txMap ++ x.rxMap.map (· + 9)).all (· < 18) →
    completes (.linkBerGate p errs bits 0) s fun m => (m.portAt p).state = 4 ∧ (m.portAt p).width = x.width ∧ m.out
      = s.hw.msgOut p 1 ([s.fuses.serial] ++ s.hw.dims.map (· - 1) ++ [0, s.hw.fb.licences, x.protect, s.hw.sec.fwVersion])
      :: s.hw.out ∧ m.rng = s.hw.rng) ∧
   (∀ (p : Nat) (g : LinkMsg), let x := s.hw.portAt p;
    let y :=
      ({ station := g.sender, port := g.senderPort, serial := fld g.body 128 64, dims := [fld g.body 123 5 + 1, fld g.body 118 5 + 1, fld g.body 114 4 + 1], licences := fld g.body 104 8, protect := fld g.body 96 8 }
      : Partner);
    s.hw.portIs p 4 → LinkMsg.bad { g with ty := 1 } = false → s.hw.cfg kStationAddr ≠ 0xFFFF →
    s.hw.miswired s.fuses.serial p y = none →
    completes (.discover p g) s fun m => m.portAt p = { x with partner := some y, state := 5 } ∧ m.rng.items =
      s.hw.rng.items)) ∧
  (∀ h : Mach, (∀ (p ack : Nat), let x := h.portAt p; ack < 4096 → h.portIs p 5 → x.naks < 7 →
    runs (.linkNakReceive p ack) h fun m => (m.portAt p).naks = (if x.nakSeq = ack ∧ x.naks > 0 then x.naks + 1 else
      1) ∧ (m.portAt p).nakSeq = ack ∧ (m.portAt p).replay = acked x.replay ack ∧ (x.sealKey = none → m.out =
      ((framesAfter x.replay ack).map fun f => .link p (x.shown f)).reverse ++ h.out) ∧ m.rng = h.rng) ∧
   (∀ (p : Nat) (g : LinkRetrain), let x := h.portAt p; h.portIs p 6 → x.disc = false → g.oks.head? = some true →
    x.width ≥ 1 → (x.waitMsg = [] ∧ x.waitOut = [] ∧ x.owed = [0, 0, 0]) → h.trv.live = [] →
    runs (.linkNakRetrain p g) h fun m => (m.portAt p).state = 5 ∧ (m.portAt p).naks = 0 ∧ (m.portAt p).replay =
      x.replay ∧ (x.sealKey = none → m.out = (x.replay.map fun f => .link p (x.shown f)).reverse ++ h.out) ∧ m.rng =
      h.rng) ∧
   (∀ (p lane errs bits i : Nat), let x := h.portAt p; lane < 9 → h.portIs p 5 →
    indexOf? (· = lane) x.txMap = some i → errs * 10 ^ h.cfg kLinkLaneBerLimit > bits →
    (bitOf x.txGood 8 = true ∧ x.txMap.contains 8 = false) →
    runs (.linkBerWindow p 0 lane errs bits) h fun m => m.portAt p = { x with txMap := setAt x.txMap i 8, txGood := putBit x.txGood lane false }
      ∧ m.rng.items = h.rng.items) ∧
   (∀ (p ms : Nat), let x := h.portAt p; h.portIs p 2 → ms ≥ h.cfg kLinkTrainTimeout → x.partner = none →
    h.itemsOnPort p = [] →
    runs (.partnerDetectTimeout p ms) h fun m => m.portAt p = { recWidth := x.recWidth, state := 1, cause := 2, skipped := x.skipped }
      ∧ m.rng.items = h.rng.items) ∧
   (∀ (p ms : Nat), let x := h.portAt p; h.portIs p 1 → h.cad.step = 21 → h.portMayTrain p →
    ms ≥ h.cfg kLinkRetryPeriod →
    runs (.linkRetry p ms) h fun m => m = h.setPort p { recWidth := x.recWidth, cause := x.cause, state := 2, skipped := x.skipped }))

/-- THROTTLE, SLEEP_NOTICE and DOWN_NOTICE are noted at their ports, a step in force is repeated on every UP port and
forgotten after 30 ms (R358, R359, R360, R361, R705). -/
def Obligations.NeighbourMessagesChangeTheirPort : Prop :=
  ∀ (h : Mach),
  (∀ (p : Nat) (g : LinkMsg), let x := h.portAt p;
    let z := (⟨fld g.body 184 8, fld g.body 176 8, fld g.body 168 8, fld g.body 160 8, h.clk.us⟩ : NbrZone); p < 24
      →
    p < h.lnk.dev.length → (x.state = 4 ∨ x.state = 5) → LinkMsg.bad { g with ty := 2 } = false → z.step ≠ 0 →
    runs (.throttle p g) h fun m => m.portAt p = { x with zones := x.zones.filter (fun w => !(w.kind = z.kind && w.zone = z.zone)) ++ [z] }
      ∧ m.rng.items = h.rng.items) ∧
  (∀ (kind zone us : Nat), let z := h.zoneStep kind zone; let held := (h.clk.us - z.2.2) / 1000 % 2 ^ 32;
    (if kind = 1 then zone < 6 else kind = 2 && zone < 2) = true → us ≥ 10000 → z.1 ≠ 0 →
    h.upPorts.all (fun p => h.portMay p 1) = true →
    runs (.throttleRepeat kind zone us) h fun m => (∀ p ∈ h.upPorts, h.msgOut p 2 [kind, zone, z.1, z.2.1, held] ∈
      m.out) ∧ m.rng = h.rng ∧ m.mem = h.mem) ∧
  (∀ (p kind zone us : Nat) (z : NbrZone), let x := h.portAt p; p < 24 → p < h.lnk.dev.length →
    x.zones.find? (fun w => w.kind = kind && w.zone = zone) = some z → us ≥ 30000 →
    runs (.throttleExpire p kind zone us) h fun m => m.portAt p = { x with zones := x.zones.erase z } ∧ m.rng.items
      = h.rng.items) ∧
  (∀ (p : Nat) (g : LinkMsg), let x := h.portAt p; p < 24 → (x.state = 4 ∨ x.state = 5) →
    LinkMsg.bad { g with ty := 3 } = false →
    runs (.sleepNotice p g) h fun m => m = h.setPort p { x with sleep := some (fld g.body 184 8, fld g.body 152 32) }) ∧
  (∀ (p q : Nat) (g : LinkMsg) (y : Partner), let x := h.portAt p; p < 24 → q < h.lnk.dev.length →
    (x.state = 4 ∨ x.state = 5) → LinkMsg.bad { g with ty := 4 } = false → (h.portAt q).partner = some y →
    (h.portAt q).state ≠ 1 → y.station = g.sender → bitOf (fld g.body 160 24) y.port →
    runs (.downNotice p g) h fun m => m.portAt q = { h.portAt q with down := some (fld g.body 184 8) } ∧ m.rng =
      h.rng ∧ m.out = h.out)

/-- Legs of a live traverse item start in order, send their stream frame by frame and take the frames of the stream
they claim (R374, R383, R384, R385, R388, R389, R391, R392, R706). -/
def Obligations.TraverseLegsMoveTheirStreams : Prop :=
  ∀ (h : Mach),
  (∀ (ring seq : Nat) (it : Item) (t : Trav), let k := itemKey ring seq; let l := t.leg t.started; ring < 32768 →
    seq < 2 ^ 48 → h.item? k = some it → it.key = k → it.started → sget h.trv.live k = some t →
    t.started < t.legs.length → (l.wait = 0 ∨ (sget t.runs (l.wait - 1)).map (·.done) = some true) →
    (svals t.runs).countP (fun r => !r.done) < 64 →
    ((l.op = 4 || (l.op = 1 && l.convert)) && t.anchorOf l = 0x8000) = false →
    h.trv.held.any (fun x => x.port = l.port && x.tag = l.stream) = false →
    runs (.legStart ring seq) h fun m => sget m.trv.live k = some { t with started := t.started + 1, runs := sput t.runs t.started { since := h.clk.us, anchor := t.anchorOf l } }
      ∧ m.rng = h.rng ∧ m.mem = h.mem ∧ m.out = h.out) ∧
  (∀ (ring seq i fl : Nat) (it : Item) (t : Trav) (l : Leg) (r : LegRun) (b : Bytes),
    h.legRuns ring seq i 1 it t l r →
    (if r.frames = 0 then (h.sendStream it l r.anchor).2 = .ok (b, fl) else b = r.buf) → r.put + 256 < b.length →
    h.maySend l →
    runs (.send ring seq i) h fun m => (m.legRun? ring seq i).map (fun q => (q.put, q.frames, q.buf, q.full)) = some
      (r.put + 256, r.frames + 1, b, false) ∧ m.out.head? = some (h.frameOut l.outPort l.outVc [l.streamOut, 256]
      ((b.drop r.put).take 256)) ∧ m.mem = h.mem) ∧
  (∀ (ring seq i : Nat) (it : Item) (t : Trav) (l : Leg) (r : LegRun) (b : Bytes), h.legRuns ring seq i 5 it t l r →
    (r.frames = 0 ∧ r.put = 0) → (h.legRead it l.outPort l.addr (l.count * fmtBytes l.fmt)).2 = .ok b → h.maySend l
      →
    t.goesOn i r →
    runs (.emaxSend ring seq i) h fun m => (m.legRun? ring seq i).map (fun q => (q.put, q.done)) = some (2, true) ∧
      m.out.head? = some (h.frameOut l.outPort l.outVc [l.streamOut, 2] (leB 2 (maxExp (elements l.fmt l.count b))))
      ∧ m.mem = h.mem) ∧
  (∀ (ring seq i : Nat) (it : Item) (t : Trav) (l : Leg) (r : LegRun) (b : Bytes), h.legRuns ring seq i 9 it t l r →
    (if r.frames = 0 then (h.legRead it l.outPort l.addr (272 * l.count)).2 = .ok b else b = r.buf) →
    r.put + 256 < b.length → h.maySend l →
    runs (.atomicSend ring seq i) h fun m => (m.legRun? ring seq i).map (fun q => (q.put, q.frames, q.buf, q.full))
      = some (r.put + 256, r.frames + 1, b, false) ∧ m.out.head? = some (h.frameOut l.outPort l.outVc [l.streamOut, 256]
      ((b.drop r.put).take 256)) ∧ m.mem = h.mem) ∧
  (∀ (ring seq i : Nat) (f : Bytes) (it : Item) (t : Trav) (l : Leg) (r : LegRun),
    let q :=
      ({ ({ r with got := r.got + 256, frames := r.frames + 1 }.advanced h.clk.us) with full := false, put := r.got + 256 }
      : LegRun);
    let w := ((h.legTook l 256).setRun (itemKey ring seq) i q).legWrite it l.port (l.dst + r.got) f;
    h.legHears ring seq i 2 it t l r → f.length = 256 → r.got + 256 < l.total → w.2 = none →
    runs (.recv ring seq i f) h fun m => (m.legRun? ring seq i).map (fun q => (q.got, q.full)) = some (r.got + 256,
      false) ∧ m.mem = w.1.mem ∧ m.rng.items = h.rng.items) ∧
  (∀ (ring seq i : Nat) (f : Bytes) (it : Item) (t : Trav) (l : Leg) (r : LegRun), let g := h.legTook l 256;
    let q :=
      ({ ({ r with got := r.got + 256, frames := r.frames + 1 }.advanced h.clk.us) with full := false, put := r.got + 256 }
      : LegRun);
    let w := ((g.sendFrame l.outPort l.outVc l.streamOut f).setRun (itemKey ring seq) i q).legWrite it l.port (l.dst
      + r.got) f;
    h.legHears ring seq i 3 it t l r → f.length = 256 → r.got + 256 < l.total → (l.copy = false ∨ w.2 = none) →
    h.maySend l → g.maySend l →
    runs (.forward ring seq i f) h fun m => (m.legRun? ring seq i).map (fun q => (q.got, q.full)) = some (r.got +
      256, false) ∧ g.frameOut l.outPort l.outVc [l.streamOut, 256] f ∈ m.out ∧ m.mem = (if l.copy then w.1 else
      h).mem ∧ m.rng.items = h.rng.items) ∧
  (∀ (ring seq i : Nat) (f c : Bytes) (it : Item) (t : Trav) (l : Leg) (r : LegRun), let g := h.legTook l 256;
    let d := ((addPacked l.count (r.buf ++ f) c).take (r.got + 256)).drop r.put; h.legHears ring seq i 4 it t l r →
    f.length = 256 → r.got + 256 < l.total → (r.frames ≠ 0 ∨ (num f 0 2 = r.anchor ∧ num f 8 4 = l.count)) →
    (if r.frames = 0 then (g.localStream it l r.anchor).2 = .ok c else c = r.rsp) →
    (l.mode ≠ 0 ∨ (h.maySend l = true ∧ g.maySend l = true)) →
    runs (.reduceRecv ring seq i f) h fun m => (m.legRun? ring seq i).map (fun q => (q.got, q.buf, q.rsp, q.put)) =
      some (r.got + 256, r.buf ++ f, c, if l.mode = 0 then r.got + 256 else r.put) ∧ (l.mode = 0 → m.out.head? =
      some (g.frameOut l.outPort l.outVc [l.streamOut, d.length] d)) ∧ m.mem = h.mem ∧ m.rng.items = h.rng.items) ∧
  (∀ (ring seq i x : Nat) (f b : Bytes) (it : Item) (t : Trav) (l : Leg) (r : LegRun), let g := h.legTook l 2;
    let e := expMax (num f 0 2) x; h.legHears ring seq i 6 it t l r →
    (if l.convert then (g.legRead it l.port l.addr (l.count * fmtBytes l.fmt)).2 = .ok b ∧ x = maxExp (elements
      l.fmt l.count b) else x = 0x8000) →
    f.length = 2 → r.got = 0 → (l.mode = 1 ∨ (h.maySend l = true ∧ g.maySend l = true)) → l.ancSrc ≤ t.slots.length
      →
    t.goesOn i r →
    runs (.emaxRecv ring seq i f) h fun m => (m.legRun? ring seq i).map (·.done) = some true ∧ (l.mode ≠ 1 →
      m.out.head? = some (g.frameOut l.outPort l.outVc [l.streamOut, 2] (leB 2 e))) ∧ (l.mode ≠ 0 → l.ancSrc ≠ 0 →
      (sget m.trv.live (itemKey ring seq)).map (fun y => nth 0 y.slots (l.ancSrc - 1)) = some (expSlot e)) ∧ m.mem =
      h.mem ∧ m.rng.items = h.rng.items) ∧
  (∀ (ring seq i : Nat) (f : Bytes) (it : Item) (t : Trav) (l : Leg) (r : LegRun),
    h.legHears ring seq i 10 it t l r → h.portIs l.port 5 → (h.portAt l.port).room → f.length = 256 →
    r.got + 256 < l.total → (r.buf = [] ∧ r.rsp = [] ∧ r.recs < l.count) →
    runs (.atomicRecv ring seq i f) h fun m => (m.legRun? ring seq i).map (fun q => (q.got, q.buf, q.recs)) = some
      (r.got + 256, f, r.recs) ∧ m.out = h.frameOut l.port 32 [0, 0, l.vc, 1] [] :: h.out ∧ m.mem = h.mem ∧
      m.rng.items = h.rng.items) ∧
  (∀ (ring seq i : Nat) (it : Item) (t : Trav) (l : Leg) (r : LegRun), h.legRuns ring seq i 7 it t l r →
    h.portIs l.port 5 → h.portMay l.port 1 → t.goesOn i r →
    runs (.grant ring seq i) h fun m => (m.legRun? ring seq i).map (·.done) = some true ∧ m.out = h.msgOut l.port 5 [1, l.stream, l.count, 0, 0, 0]
      :: h.out ∧ m.mem = h.mem ∧ m.rng.items = h.rng.items) ∧
  (∀ (ring seq i : Nat) (it : Item) (t : Trav) (l : Leg) (r : LegRun), h.legRuns ring seq i 8 it t l r →
    sgetD 0 t.credits (l.outPort * 32768 + l.streamOut) ≥ l.count → t.goesOn i r →
    runs (.waitCredit ring seq i) h fun m => (m.legRun? ring seq i).map (·.done) = some true ∧ m.out = h.out ∧ m.mem
      = h.mem ∧ m.rng.items = h.rng.items)

/-- A TRAVERSE claims its streams and starts its first leg; CREDIT, HOLD and FAIL notices are counted, noted or end
their item; a leg's patience ends its item (R371, R374, R377, R378, R384, R393, R394, R395, R398, R399). -/
def Obligations.TraversesHoldNoticeAndEnd : Prop :=
  ∀ (h : Mach),
  (∀ (ring d : Nat) (x : Ring), let k := itemKey ring x.taken;
    let legs := (h.readLegs (ringFloor ring) x.ctx d).filterMap id; let l := Leg.ofNat (nth 0 legs 0);
    h.givesDesc ring x d → descKind d = kindTraverse → h.die.rlc = [] → l.ancSrc = 0 → h.trv.fails = [] →
    h.trv.held = [] →
    runs (.traverse ring) h fun m => (∃ t, sget m.trv.live k = some t ∧ t.legs = legs ∧ t.claims =
      legs.zipIdx.flatMap (fun y => (Leg.ofNat y.1).claims y.2) ∧ t.started = 1 ∧ t.runs = [(0, { since := h.clk.us, anchor := l.anchor })])
      ∧ m.rng.items = h.rng.items ++ [h.itemOf ring x d true] ∧ m.mem = h.mem) ∧
  (∀ (p i k : Nat) (g : LinkMsg) (t : Trav), let tag := fld g.body 168 15; let b := g.body % 2 ^ 184 + 2 ^ 184;
    h.portIs p 5 → LinkMsg.bad { g with ty := 5, body := b } = false → h.claimOf p true tag = some (k, i) →
    sget h.trv.live k = some t → t.runs = [] → h.trv.live.length = 1 →
    runs (.creditNotice p g) h fun m => sget m.trv.live k = some { t with credits := smod 0 t.credits (p * 32768 + tag) (· + fld g.body 136 32) }
      ∧ m.out = h.out ∧ m.rng = h.rng) ∧
  (∀ (p : Nat) (g : LinkMsg), let b := g.body % 2 ^ 184 + 2 * 2 ^ 184; h.portIs p 5 →
    LinkMsg.bad { g with ty := 5, body := b } = false →
    runs (.holdNotice p g) h fun m => m = h.setTrv { h.trv with holds := sput h.trv.holds (p * 32768 + fld g.body 168 15) h.clk.us }) ∧
  (∀ (p i k : Nat) (g : LinkMsg) (t : Trav) (it : Item), let b := g.body % 2 ^ 184 + 3 * 2 ^ 184; h.portIs p 5 →
    LinkMsg.bad { g with ty := 5, body := b } = false → h.claimOf p false (fld g.body 168 15) = some (k, i) →
    sget h.trv.live k = some t → h.item? k = some it →
    runs (.failNotice p g) h fun m => m.item? k = none ∧ ((skeys h.trv.live).Pairwise (· < ·) → sget m.trv.live k =
      none)) ∧
  (∀ (p : Nat) (g : LinkMsg), let b := g.body % 2 ^ 184 + 3 * 2 ^ 184; let tag := fld g.body 168 15; h.portIs p 5 →
    LinkMsg.bad { g with ty := 5, body := b } = false → h.claimOf p false tag = none → h.claimOf p true tag = none →
    runs (.failNotice p g) h fun m => m = (h.setTrv { h.trv with fails := h.trv.fails ++ [⟨p, tag, fld g.body 120 16, fld g.body 112 8, fld g.body 104 8, h.clk.us⟩] }).heldNotices
      p) ∧
  (∀ (p tag us : Nat), p < 24 → tag < 32768 → us ≥ 1000 * h.cfg kTravHoldLimit →
    runs (.failNoticeForget p tag us) h fun m => m = (h.setTrv { h.trv with fails := h.trv.fails.filter fun f => !(f.port = p && f.tag = tag) }).heldNotices
      p) ∧
  (∀ (ring seq us : Nat) (t : Trav) (i : Nat) (r : LegRun), let k := itemKey ring seq; ring < 32768 → seq < 2 ^ 48 →
    us ≥ 10000 → sget h.trv.live k = some t → sget t.runs i = some r → r.done = false → h.throttled →
    t.claims.all (fun c => h.portIs c.port 5 && h.portMay c.port t.claims.length) = true →
    runs (.holdNoticeSend ring seq us none) h fun m => (∀ c ∈ t.claims, ∃ sq ch, .link c.port
      (({ h.portAt c.port with chainTx := ch } : Port).shown ⟨sq, 16, [0, 32], msgBytes (h.cfg kStationAddr) c.port 5 [2, c.tag, 0, 0, 0, 0]⟩)
      ∈ m.out) ∧ m.rng = h.rng ∧ m.mem = h.mem) ∧
  (∀ (ring seq i us : Nat) (t : Trav) (r : LegRun) (it : Item), let k := itemKey ring seq; ring < 32768 →
    seq < 2 ^ 48 → h.item? k = some it → sget h.trv.live k = some t → sget t.runs i = some r → r.done = false →
    us ≥ 1000 * h.cfgItem it kTravPatience → us ≥ 1000 * h.cfgItem it kTravPatienceMax →
    runs (.legPatienceExpire ring seq i us none) h fun m => m.item? k = none ∧ m.trv.live = sdel h.trv.live k) ∧
  (∀ (p tag us : Nat), p < 24 → tag < 32768 → us ≥ 1000 * h.cfg kTravHoldLimit → h.claimOf p false tag = none →
    runs (.unclaimedHoldExpire p tag us) h fun m => m.trv.held = h.trv.held.filter (fun x => !(x.port = p && x.tag =
      tag)) ∧ m.rng = h.rng ∧ m.mem = h.mem)

/-- Bridge flits in order free what they acknowledge, a NAK replays the rest, bad lanes move to spares, and each floor
watches the other (R97, R98, R99, R100, R102, R104, R113). -/
def Obligations.BridgeFlitsLanesAndSideband : Prop :=
  ∀ (h : Mach),
  (∀ (f head : Nat) (body : Bytes),
    let y : Die := { h.die with rxSeq := setAt h.die.rxSeq f ((fld head 116 12 + 1) % 4096), rxDiscard := setAt h.die.rxDiscard f false };
    f < 2 → head < 2 ^ 128 → h.bridgeOpen → flitCrc head (body.take 256) (num body 264 8) → headBad head = false →
    fld head 116 12 = nth 0 h.die.rxSeq f →
    runs (.bridgeFlitReceive f head body) h fun m => m.die.rxSeq = y.rxSeq ∧ m.die.rxDiscard = y.rxDiscard ∧ m.mem =
      h.mem ∧ (bitOf head 103 = false ∧ (nth [] h.die.waitTx f).isEmpty → m = h.setDie { y with replay := setAt h.die.replay f (acked (nth [] h.die.replay f) (fld head 104 12)), naks := if fld head 104 12 = nth 0 h.die.nakSeq f then h.die.naks else setAt h.die.naks f 0 })) ∧
  (∀ (f ack : Nat),
    let n := if nth 0 h.die.nakSeq f = ack ∧ nth 0 h.die.naks f > 0 then nth 0 h.die.naks f + 1 else 1;
    let left := acked (nth [] h.die.replay f) ack; f < 2 → ack < 4096 → h.bridgeOpen → f < h.die.replay.length →
    nth [] h.die.waitTx f = [] → n < 8 →
    runs (.bridgeNakReceive f ack) h fun m => m.die = { h.die with naks := setAt h.die.naks f n, nakSeq := setAt h.die.nakSeq f ack, replay := setAt h.die.replay f left }
      ∧ m.out = (left.map fun x => .bridge f x.code (nth 0 x.fields 0) (nth 0 x.fields 1) x.data).reverse ++ h.out ∧
      m.mem = h.mem ∧ m.rng = h.rng) ∧
  (h.die.retraining → h.die.bridgeDown = false →
    (∀ d : Nat, d < 2 → nth 0 h.die.width d = h.laneWidth d ∧ h.laneWidth d ≠ 0 ∧ nth [] h.die.waitTx d = []) →
    (∀ d : Nat, d < 2 → ∀ l : Nat, l < 64 → shas h.die.badLanes (128 * d + sgetD l h.die.laneMap (128 * d + l)) =
      false) →
    runs (.bridgeRetrain true []) h fun m => m.die = { h.die with retraining := false, naks := [0, 0], rxDiscard := [false, false] }
      ∧ m.out = ([0, 1].flatMap fun f => (nth [] h.die.replay f).map fun x => Emit.bridge f x.code (nth 0 x.fields
      0) (nth 0 x.fields 1) x.data).reverse ++ h.out ∧ m.mem = h.mem ∧ m.rng = h.rng) ∧
  (∀ (d lane n us l : Nat), let old := sgetD lane h.die.laneMap (128 * d + lane); d < 2 → lane < 64 → us ≤ 1000 →
    n ≥ h.cfg kBridgeLaneErrLimit → h.bridgeOpen → h.spareLane d = some l →
    runs (.bridgeLaneSpare d lane n us) h fun m => m.die.laneMap = sput h.die.laneMap (128 * d + lane) l ∧
      m.die.badLanes = sput h.die.badLanes (128 * d + old) () ∧ m.die.width = h.die.width ∧ m.rng.items =
      h.rng.items) ∧
  (∀ (f : Nat), f < 2 → h.die.lost = none → (h.floorGone 0 = false ∧ h.floorGone 1 = false) →
    nth false h.clk.loss (1 - f) = false →
    runs (.sidebandStateMessage f 1) h fun m => m.die.lost = some f ∧ m.die.state = (if f = 1 then 1 else 2) ∧
      m.die.bridgeFenced = true ∧ m.die.sideMsg = setAt h.die.sideMsg f 1) ∧
  (∀ (us : Nat), us ≥ 5 → h.die.lost = none →
    runs (.sidebandSilent us) h fun m => m.die = { h.die with sideMsg := setAt h.die.sideMsg 0 5, f1Stopped := true }
      ∧ bitOf m.flt.alert 4 = true ∧ m.rng = h.rng ∧ m.mem = h.mem) ∧
  (∀ (ms : Nat), h.die.lost = some 0 → ms ≥ h.cfg kF0ReturnTimeout →
    runs (.f0ReturnTimeout ms) h fun m => bitOf m.flt.alert 5 = true ∧ m.die = h.die ∧ m.rng = h.rng ∧ m.mem = h.mem)

/-- PLLs lock and unlock, domains switch, the reference is lost and returns, and an idle module sleeps and wakes
(R561, R562, R563, R565, R567, R568, R571, R572, R573, R574, R578). -/
def Obligations.ClocksLockAndSleepStatesAreEntered : Prop :=
  ∀ (h : Mach),
  (∀ (f n : Nat), f < 2 → n ≥ 8 → bitOf (nth 0 h.clk.locked f) 18 = false → h.clk.state ≠ 2 →
    runs (.pllLock f 18 n) h fun m => m.clk = { h.clk with locked := setAt h.clk.locked f (putBit (nth 0 h.clk.locked f) 18 true) }
      ∧ m.rng.items = h.rng.items) ∧
  (∀ (f b n : Nat), f < 2 → n ≥ 2 → 3 ≤ b → b ≤ 5 → bitOf (nth 0 h.clk.locked f) b → h.clk.state ≠ 2 →
    runs (.pllUnlock f b n) h fun m => m.clk = { h.clk with locked := setAt h.clk.locked f (putBit (nth 0 h.clk.locked f) b false), relock := h.clk.relock ++ [3 * f + b - 3] }
      ∧ m.rng.items = h.rng.items) ∧
  (∀ (st us : Nat), st < 6 → us ≥ 10000 → h.clk.relock.contains st →
    runs (.mpllRelockTimeout st us) h fun m => m.clk.relock = h.clk.relock.filter (· ≠ st) ∧ ∀ i ∈ h.rng.items,
      h.needsStack i st = true → m.item? i.key = none) ∧
  (∀ (f mhz : Nat), let other := 1 - nth 0 h.clk.cpll f; f < 2 → nth none h.clk.coreTo f = some mhz →
    bitOf (nth 0 h.clk.locked f) (1 + other) → h.clk.pwr < 2 → nth false h.clk.loss f = false →
    (f < h.clk.coreTo.length ∧ f < h.clk.coreMhz.length ∧ f < h.clk.cpll.length) →
    runs (.domainSwitch f 1) h fun m => nth 0 m.clk.cpll f = other ∧ nth 0 m.clk.coreMhz f = mhz ∧ m.rng.items =
      h.rng.items ∧ m.count (kDomainSwitches + 256 * f) = (h.count (kDomainSwitches + 256 * f) + 1) % 2 ^ (8 * lenOf
      (kDomainSwitches + 256 * f))) ∧
  (h.pwr.off = false → h.clk.state = 0 → 5 ≤ h.cad.step →
    runs (.referenceLoss) h fun m => m.clk.state = 2 ∧ m.clk.loss = [true, true] ∧ m.rng.items = []) ∧
  (h.clk.state = 2 → 5 ≤ h.cad.step →
    runs (.referenceReturn) h fun m => m.clk = { h.clk with state := 1 } ∧ m.rng.items = h.rng.items) ∧
  (∀ (us : Nat), h.clk.state = 1 → us ≥ h.settleUs → h.pwr.off = false → 5 ≤ h.cad.step → h.calm →
    runs (.settleDelayExpire us) h fun m => m.clk.state = 0 ∧ m.clk.loss = [false, false] ∧ m.clk.locked = [2 ^ 22 - 1, 2 ^ 22 - 1]
      ∧ m.clk.pwr = 0 ∧ m.die.rlc = [] ∧ m.die.dir = [] ∧ m.rng.items = h.rng.items) ∧
  (∀ (us : Nat), let st := h.idleState us; us ≥ 1 → st > h.clk.pwr → h.idle →
    runs (.powerIdleTimeout us) h fun m => m.clk.pwr = st ∧ m.clk.entries = setAt h.clk.entries (st - 1) ((nth 0
      h.clk.entries (st - 1) + 1) % 2 ^ 64) ∧ m.rng.items = []) ∧
  (∀ (ms : Nat), h.cfg kPwrWakeTimer ≠ 0 → ms ≥ h.cfg kPwrWakeTimer → h.clk.pwr ≠ 0 → h.pwr.off = false →
    runs (.pwrWakeTimer ms) h fun m => m.clk.pwr = 0 ∧ m.clk.wake = 8 ∧ ((List.range 6).all fun st => (h.stackAt
      st).shut || !(m.stackAt st).selfRefresh) = true ∧ m.rng.items = h.rng.items)

/-- Power pins declare closures that end every item, supply losses stop the module, and site supplies are held,
released and counted (R543, R588, R589, R591, R592, R593, R684, R685, R686). -/
def Obligations.PowerPinsAndSiteSupplies : Prop :=
  ∀ (h : Mach),
  (∀ (ns : Nat), ns ≥ 1000 → h.pwr.closure = none → h.pwr.off = false → h.pwr.reset = none → h.cad.step = 21 →
    h.cad.halted = false →
    runs (.pfwNFall ns) h fun m => m.pwr.closure.map (·.by_) = some 1 ∧ m.pwr.pfwLow = true ∧ m.rng.items = [] ∧
      bitOf m.flt.alert 3 = true) ∧
  (h.pwr.closure = none → h.pwr.off = false → h.pwr.reset = none → h.cad.step = 21 → h.cad.halted = false →
    runs (.porstNFall) h fun m => m.pwr.closure.map (·.by_) = some 3 ∧ m.pwr.porstLow = true ∧ m.rng.items = [] ∧
      bitOf m.flt.alert 3 = true) ∧
  (h.pwr.closure = none → h.pwr.off = false → h.pwr.reset = none → h.pwr.porstLow = false → h.cad.step = 21 →
    h.cad.halted = false →
    runs (.wrstNFall) h fun m => m.pwr.closure.map (·.by_) = some 4 ∧ m.pwr.wrstLow = true ∧ m.rng.items = [] ∧
      bitOf m.flt.alert 3 = true) ∧
  (runs (.pfwNRise) h fun m => m = h.setPwr { h.pwr with pfwLow := false }) ∧
  (runs (.railsInRange) h fun m => m = h.setPwr { h.pwr with railsOk := true }) ∧
  (∀ (mv : Nat), mv < 2100 → h.pwr.off = false →
    runs (.pvinLowStop mv) h fun m => m.pwr.off = true ∧ m.pwr.railsOk = false ∧ m.pwr.floorOn = [false, false] ∧
      m.rng.items = [] ∧ m.fb.sessions = [] ∧ m.fb.draft = none ∧ m.flt.hist = h.flt.hist.filter (·.flushed) ∧
      m.sec.leases = h.sec.leases) ∧
  (∀ (mv : Nat), mv < 1620 →
    runs (.v1p8AonLoss mv) h fun m => m.sec.aonUp = false ∧ m.pwr.driven = false ∧ m.sec.leases = [] ∧ m.rng.rings = []
      ∧ m.rng.items = [] ∧ m.flt.holdings = [] ∧ m.pwr.off = true) ∧
  (h.sec.aonUp = false →
    runs (.v1p8AonRise) h fun m => m = h.setSec { h.sec with draws := h.sec.draws + 1, aonUp := true, island := 0, aonId := (Config.drbg h.sec.draws).toNat % 2 ^ 64, leases := [] }) ∧
  (∀ (t w : Nat), let x := h.siteAt t; t < 4 → t < h.site.dev.length → w > h.cfg (kSitePowerLimit + 256 * t) →
    x.held = false → x.railsOn →
    runs (.sitePowerOver t w) h fun m => m.siteAt t = { x with power := w, powerCap := true, ceiling := x.vcore, held := true }
      ∧ m.rng.items = h.rng.items) ∧
  (∀ (t w ms : Nat), let x := h.siteAt t; t < 4 → t < h.site.dev.length → ms ≥ 10 →
    100 * w < 95 * h.cfg (kSitePowerLimit + 256 * t) → h.zoneHolds t = false → x.held →
    runs (.siteCeilingRelease t w ms) h fun m => m.siteAt t = { x with power := w, powerCap := false, ceiling := 950, held := false }
      ∧ m.rng.items = h.rng.items) ∧
  (∀ (t ma ns : Nat), let k := kSiteIlimEvents + 256 * t; t < 4 → ma > 550000 → ns ≥ 1000 →
    runs (.vcoreCurrentLimit t ma ns) h fun m => m.count k = (h.count k + 1) % 2 ^ (8 * lenOf k) ∧ m.site = h.site ∧
      m.rng.items = h.rng.items) ∧
  (∀ (t mv : Nat), let x := h.siteAt t; let k := kSiteDroopEvents + 256 * t; t < 4 → t < h.pwr.droopAt.length →
    mv > 30 → x.lnLow = false → nth none h.pwr.droopAt t = none →
    runs (.droopEvent t mv) h fun m => m.count k = (h.count k + 1) % 2 ^ (8 * lenOf k) ∧ nth none m.pwr.droopAt t =
      some h.clk.us ∧ m.rng.items = h.rng.items)

/-- Zone samples and stack reports set temperatures and levels, benchmarks give drift, and margins follow monitors and
eyes (R176, R177, R178, R597, R601, R602, R605, R641, R643, R645, R648, R649). -/
def Obligations.ReadingsSetLevelsAndMargins : Prop :=
  ∀ (h : Mach),
  (∀ (t : Nat) (reads : List Int) (r : Int), let f := t / 2;
    let g := (h.heatAt f).sample (256 + t % 2 * 4) (reads.take 4) [] []; let x := h.siteAt t;
    let l := nextLevel (h.thresholds false) x.level r; t < 4 → t < h.site.dev.length → (h.heatAt f).stopped = false
      →
    nth false h.clk.loss f = false → (h.floorLost f = false ∧ h.floorGone f = false) →
    g.largest (256 + t % 2 * 4) 4 = some r → l < 4 →
    runs (.zoneSample 2 t reads [] []) h fun m => (m.siteAt t).level = l ∧ (m.siteAt t).temp = r ∧ m.rng.items =
      h.rng.items) ∧
  (∀ (f : Nat) (reads : List Int) (r : Int), let y := h.heatAt f; let g := y.sample 0 (reads.take 256) [] [];
    let l := nextLevel (h.thresholds false) y.level r; f < 2 → f < h.pwr.heat.length → y.stopped = false →
    nth false h.clk.loss f = false → (h.floorLost f = false ∧ h.floorGone f = false) → g.largest 0 256 = some r →
    l < 4 →
    runs (.zoneSample 1 f reads [] []) h fun m => (m.heatAt f).level = l ∧ (m.heatAt f).temp = r ∧ m.rng.items =
      h.rng.items) ∧
  (∀ (st seq crc : Nat) (words : List Nat) (t : Int), let x := h.stackAt st;
    let l := nextLevel (h.thresholds true) x.level t; st < 6 → seq < 2 ^ 16 → words.all (· < 2 ^ 16) →
    st < h.stk.dev.length → reportGood seq words crc → hottest words = some t → x.shut = false → l < 4 →
    runs (.stackTempReport st seq words crc) h fun m => (m.stackAt st).temp = t ∧ (m.stackAt st).level = l ∧
      (m.stackAt st).repSeq = seq ∧ (m.stackAt st).missed = 0 ∧ (m.stackAt st).missStep = false ∧ m.rng.items =
      h.rng.items) ∧
  (∀ (st : Nat), let x := h.stackAt st; st < 6 → st < h.stk.dev.length → nth false h.clk.loss (st / 3) = false →
    runs (.stackReportMissed st) h fun m => (m.stackAt st).missed = x.missed + 1 ∧ (m.stackAt st).missStep =
      (x.missStep || decide (x.missed + 1 ≥ 3)) ∧ (m.stackAt st).temp = x.temp ∧ m.rng.items = h.rng.items) ∧
  (∀ (st us : Nat), st < 6 → st < h.stk.dev.length → us ≥ 100000 → (h.stackAt st).silent = false →
    nth false h.clk.loss (st / 3) = false →
    runs (.stackReportTimeout st us) h fun m => (m.stackAt st).silent = true ∧ (m.stackAt st).level = 4) ∧
  (∀ (f : Nat) (bench : Int) (near : List (Nat × Int)), let y := h.heatAt f;
    let mean := if near = [] then 0 else (near.map fun x => x.2 + (nth {} y.sensors x.1).off - bench).foldl (· + ·)
      0 / (near.length : Int);
    f < 2 → f < h.pwr.heat.length → y.failed = false → (-640 ≤ bench ∧ bench ≤ 2400) →
    (-80 ≤ mean - y.drift ∧ mean - y.drift ≤ 80) →
    runs (.benchmarkRecal f bench near) h fun m => m.heatAt f = { y with bench, benchOdd := 0, drift := mean } ∧
      m.rng.items = h.rng.items) ∧
  (∀ (f : Nat) (bench : Int), let y := h.heatAt f; f < 2 → y.stopped →
    bench < (nth (0, 0) (h.thresholds false) 3).1 - 128 →
    runs (.floorThermalReturn f bench) h fun m => (m.heatAt f).stopped = false ∧ (m.heatAt f).bench = bench ∧
      (m.heatAt f).temp = bench ∧ (m.heatAt f).level = nextLevel (h.thresholds false) (min y.level 3) bench ∧
      m.pwr.floorOn = setAt h.pwr.floorOn f true ∧ m.out.head? = some (.island f 1) ∧ m.rng.items = h.rng.items ∧
      m.mem = h.mem) ∧
  (∀ (f i : Nat) (reads : List Int) (bad : List Nat), f < 2 → i < 64 → reads.length = 64 →
    ((h.heatAt f).level < 2 ∧ (h.heatAt f).stopped = false) → (h.floorLost f = false ∧ h.floorGone f = false) →
    runs (.monitorSample f reads bad) h fun m => sget m.age.slack (64 * f + i) = some (nth 0 reads i) ∧ shas
      m.age.invalid (64 * f + i) = (bad.contains i || nth 0 reads i = 0) ∧ m.mem = h.mem ∧ m.rng = h.rng ∧
      m.age.offsets = h.age.offsets) ∧
  (∀ (kind n lane w ht : Nat), let k := runKey ⟨kind, n⟩ lane; w ≥ h.eyeFloor kind →
    runs (.eyeMeasure [(kind, n, lane, w, ht)]) h fun m => m = h.setAge { h.age with eyes := sput h.age.eyes k ((sgetD {} h.age.eyes k).take (h.clk.us / dayUs) w ht false) }) ∧
  (∀ (kind n lane phase ref req : Nat), let k := runKey ⟨kind, n⟩ lane; h.isCanary ⟨kind, n⟩ lane →
    h.age.runs.contains k = false → h.clk.pwr = 0 → h.clk.loss.contains true = false → h.pwr.closure = none →
    h.pwr.off = false →
    runs (.levelRun kind n lane phase ref req false) h fun m => m = h.setAge { h.age with runs := h.age.runs ++ [k] }) ∧
  (∀ (kind n lane phase ref req : Nat), let k := runKey ⟨kind, n⟩ lane; h.isCanary ⟨kind, n⟩ lane →
    h.age.runs.contains k →
    runs (.levelRun kind n lane phase ref req true) h fun m => m = h.setAge { h.age with runs := h.age.runs.filter (· ≠ k), levels := sput h.age.levels k (phase, ref), levelReq := if kind = 2 && [1, 2, 4, 8].contains req then setAt h.age.levelReq n req else h.age.levelReq }) ∧
  (∀ (secs f d : Nat), let old := nth 0 h.age.offsets (5 * f + d); let want := min (h.domainNeed f d) (h.vmax d);
    secs ≥ h.cfg kMarginReplanPeriod → (f < 2 ∧ d < 5) → 5 * f + d < h.age.offsets.length →
    (h.floorLost f = false ∧ h.floorGone f = false) →
    runs (.marginReplan secs) h fun m => nth 0 m.age.offsets (5 * f + d) = (if want ≥ old then want else max want
      (old - 5)) ∧ m.rng.items = h.rng.items)

/-- A rising PORST_N begins a survey at step 01, steps end in order, and firmware sources are tried until one image is
accepted (R610, R611, R613, R619, R620, R621, R622, R680, R685, R690). -/
def Obligations.SurveysStartAndStep : Prop :=
  (∀ h : Mach, (∀ (hp bs rs ts : Nat) (flash : List Nat), h.sec.aonUp → h.pwr.wrstLow = false → h.pwr.closure = none →
    h.pwr.reset = none → h.cad.step = 0 → h.clk.state ≠ 2 →
    runs (.surveyStart true hp bs rs ts flash) h fun m => m.cad.step = 1 ∧ m.cad.bootsrc = bs % 4 ∧ m.clk.refset =
      rs % 4 ∧ m.rng.items = [] ∧ m.fb.epoch = 0 ∧ m.fb.sessions = [] ∧ m.clk.state = 0 ∧ m.pwr.porstLow = false) ∧
   (∀ (us : Nat) (flash : List Nat), h.pwr.closure.map (·.by_) = some 3 → h.pwr.porstLow →
    runs (.resetClosureEnd us flash) h fun m => m.pwr.closure = none ∧ m.pwr.reset = some 3 ∧ m.cad.closureRec =
      some us) ∧
   (∀ (g : Found) (total : Nat), h.cad.step = 1 → h.cad.halted = false → h.pwr.closure = none → h.pwr.off = false →
    h.pwr.reset = none → h.clk.state = 0 → h.pwr.pfwLow = false → g.us ≥ h.settleUs →
    runs (.surveyStepEnd g total) h fun m => m.cad.step = 2 ∧ m.cad.stepAt = h.clk.us ∧ m.rng = h.rng ∧ m.mem =
      h.mem ∧ m.pwr.driven = true ∧ m.out = (if h.pwr.driven then h.out else .pin 3 0 (!h.pwr.trip) :: .pin 0 0
      (decide (h.alertCauses = 0)) :: h.out)) ∧
   (∀ (g : Found) (total : Nat), h.cad.step = 20 → h.cad.halted = false → h.pwr.closure = none → h.pwr.off = false →
    h.pwr.reset = none → h.clk.state = 0 → h.cad.repairing = false →
    runs (.surveyStepEnd g total) h fun m => m.cad.step = 21 ∧ m.fb.epoch = 1 ∧ m.fb.old = none ∧ m.cad.fails = 0) ∧
   (∀ (ms src : Nat), h.cad.source = some src → h.cad.step = 4 → h.cad.halted = false → src ≠ 0 → src < 4 →
    ms ≥ h.cfg kFwSourceTimeout →
    runs (.fwSourceTimeout ms) h fun m => m.cad.tried = putBit h.cad.tried src true ∧ m.cad.source ≠ some src ∧
      m.cad.step = 4 ∧ m.rng = h.rng ∧ m.mem = h.mem) ∧
   (∀ (ms : Nat), h.cad.source = none → h.cad.step = 4 → h.cad.halted = false → ms ≥ 10000 →
    runs (.fwSourceRetry ms) h fun m => m.cad = { h.cad with tried := 0, source := (h.setCad { h.cad with tried := 0 }).nextSource }
      ∧ bitOf m.flt.alert 0 = true ∧ m.rng = h.rng)) ∧
  (∀ (s : State) (n : Nat) (image : Bytes) (f : Verif) (bad : List Nat), n < 2 → (s.hw.hpAt n).role = 1 →
    s.hw.cad.step = 4 → s.hw.cad.halted = false → s.hw.cad.source = some 2 → imageGood s.fuses image f →
    completes (.fwReady n 1 image f bad) s fun m => m.cad.step = 5 ∧ m.cad.running = image ∧ m.cad.used = 2 ∧
      m.sec.version = nth 0 f.meas 1 ∧ m.rng.items = s.hw.rng.items) ∧
  (∀ (h : Mach), h.cad.repairing →
    runs (.flashRepairDone) h fun m => m = h.setCad { h.cad with repairing := false, image := h.cad.running, imageGood := true })

/-- A failed unit moves or is withdrawn, moves end and queue, a lost floor comes back and is committed, and a survey
goes on to it (R114, R118, R611, R619, R620, R621, R622, R635, R636, R637, R660, R669). -/
def Obligations.UnitsMoveAndDiesReturn : Prop :=
  (∀ h : Mach, (∀ (sl i : Nat), let u := (⟨4, sl⟩ : UnitRef); sl < 128 →
    (h.cad.moves.any (fun x => x.unit = u) = false ∧ h.cad.queued.any (fun q => q.1 = u) = false) →
    h.cad.cur.physOf u ≠ 0xFF → h.spareFor u = some i → h.moving u.floor = false →
    runs (.unitFail 4 sl 3 true false) h fun m => m.cad.moves = h.cad.moves ++ [{ unit := u, from_ := h.cad.cur.physOf u, spare := i, stage := 1, final := 2 }]
      ∧ m.cad.cur = h.cad.cur ∧ m.rng.items = h.rng.items) ∧
   (∀ (sl : Nat), let u := (⟨4, sl⟩ : UnitRef); sl < 128 →
    (h.cad.moves.any (fun x => x.unit = u) = false ∧ h.cad.queued.any (fun q => q.1 = u) = false) →
    h.cad.cur.physOf u ≠ 0xFF → h.spareFor u = none → h.calm →
    runs (.unitFail 4 sl 3 true false) h fun m => m.cad.cur.physOf u = 0xFF ∧ ∀ i ∈ h.rng.items, h.needsUnit i u =
      true → m.item? i.key = none) ∧
   (∀ (sl : Nat) (x : Move), sl < 128 → h.floorLost (sl / 64) = false → h.cad.moves = [x] →
    (x.unit = ⟨4, sl⟩ ∧ x.stage = 1) → h.calm → h.trv.live = [] →
    runs (.sliceCopyDone sl) h fun m => m.cad.moves = [{ x with stage := 2 }] ∧ m.cad.cur = h.cad.cur ∧ m.rng =
      h.rng) ∧
   (∀ (kind n : Nat) (x : Move), UnitRef.isCad ⟨kind, n⟩ →
    h.cad.moves.find? (fun x => x.unit = ⟨kind, n⟩ && x.stage = 3) = some x →
    h.fb.old.any (fun o => o.1 = x.until_) = false →
    runs (.moveRetire kind n) h fun m => m.cad.moves = h.cad.moves.filter (· ≠ x) ∧ m.cad.cur = h.cad.cur ∧
      m.rng.items = h.rng.items ∧ m.physState kind x.unit.parent x.from_ = x.final) ∧
   (∀ (f st i : Nat) (u : UnitRef), f < 2 → h.cad.queued = [(u, st)] → (u.kind = 4 ∧ u.floor = f) →
    h.moving f = false → h.cad.cur.physOf u ≠ 0xFF → h.physState 4 u.parent (h.cad.cur.physOf u) ≠ 2 →
    h.spareFor u = some i →
    runs (.moveStartQueued f) h fun m => m.cad.queued = [] ∧ m.cad.moves = h.cad.moves ++ [{ unit := u, from_ := h.cad.cur.physOf u, spare := i, stage := 1, final := st }]
      ∧ m.rng = h.rng)) ∧
  (∀ (s : State) (g : Found), s.hw.die.lost = some 1 → nth false s.hw.pwr.floorOn 1 →
    (s.hw.heatAt 1).stopped = false → s.hw.pwr.closure = none → g.ok → bitOf (nth 0 g.nums 0) 0 →
    s.hw.clk.state = 0 → s.fuses.pair0 = s.fuses.pair1 →
    ((s.hw.lockOutcome s.fuses 1 (nth 0 g.nums 0)).trainBridge (s.hw.badLanesOf g.units g.eyes)).die.width.contains
      0 = false →
    completes (.dieReadmit 1 false g) s fun m => m.die.state = 3 ∧ m.die.lost = some 1 ∧ m.die.bridgeFenced = true ∧
      m.die.resync = []) ∧
  (∀ h : Mach, (∀ (f : Nat), h.die.lost = some f → h.die.state = 3 → h.fb.old = none →
    [2 * f, 2 * f + 1].any (fun t => 2 ≤ (h.siteAt t).state && (h.siteAt t).state ≤ 4) = false →
    runs (.readmitCommit) h fun m => m.die.lost = none ∧ m.die.state = 0 ∧ m.die.bridgeFenced = false ∧ m.fb.role =
      0 ∧ m.fb.epoch = h.fb.epoch % 0xFFFFFFFF + 1 ∧ m.rng.items = h.rng.items) ∧
   (∀ (f : Nat), f < 2 → h.die.lost = none → (h.floorGone 0 = false ∧ h.floorGone 1 = false) →
    nth false h.clk.loss (1 - f) = false →
    runs (.surveyorLockstepFault f) h fun m => m.die.lost = some f ∧ m.die.sideMsg = setAt h.die.sideMsg f 1 ∧
      Emit.island f 1 ∈ m.out) ∧
   (h.flt.degraded = false → h.flt.hist.all (fun x => x.flushed) = false →
    runs (.ledgerFlush true) h fun m => m = h.setFlt { h.flt with hist := h.flt.hist.map fun x => { x with flushed := true } }) ∧
   (∀ (hp bs rs ts : Nat) (flash : List Nat), h.sec.aonUp → h.pwr.porstLow = false → h.pwr.closure = none →
    h.pwr.reset = some 4 →
    runs (.surveyStart false hp bs rs ts flash) h fun m => m.cad.step = 1 ∧ m.rng.items = [] ∧ m.fb.epoch = 0 ∧
      m.fb.sessions = [] ∧ m.cad.bootsrc = h.cad.bootsrc ∧ m.pwr.wrstLow = false) ∧
   (∀ (us : Nat) (flash : List Nat), h.pwr.closure.map (·.by_) = some 4 → h.pwr.wrstLow →
    runs (.resetClosureEnd us flash) h fun m => m.pwr.closure = none ∧ m.pwr.reset = some 4 ∧ m.cad.closureRec =
      some us) ∧
   (∀ (g : Found) (total : Nat), h.cad.step = 11 → h.cad.warm → h.cad.halted = false → h.pwr.closure = none →
    h.pwr.off = false → h.pwr.reset = none → h.clk.state = 0 →
    runs (.surveyStepEnd g total) h fun m => m.cad.step = 12 ∧ m.cad.stepAt = h.clk.us ∧ m.cad.cur = h.cad.cur ∧
      m.rng = h.rng ∧ m.mem = h.mem ∧ m.out = h.out) ∧
   (∀ (ms : Nat), h.cad.source = some 2 → h.cad.step = 4 → h.cad.halted = false → ms ≥ h.cfg kFwSourceTimeout →
    runs (.fwSourceTimeout ms) h fun m => m.cad.step = 4 ∧ bitOf m.cad.tried 2 = true ∧ m.cad.source ≠ some 2 ∧
      m.out = h.out) ∧
   (∀ (ms : Nat), h.cad.source = none → h.cad.step = 4 → h.cad.halted = false → h.cad.firstSource = none →
    h.cad.bootsrc = 0 → ms ≥ 10000 →
    runs (.fwSourceRetry ms) h fun m => m.cad.source = some 0 ∧ m.cad.tried = 0 ∧ m.cad.step = 4 ∧ m.mem = h.mem) ∧
   (∀ (n v : Nat) (image : Bytes) (f : Verif) (bad : List Nat), n < 2 → (h.hpAt n).role = 1 → h.cad.step ≠ 4 →
    runs (.fwReady n v image f bad) h fun m => m = h.setHpAt n { h.hpAt n with bar4 := image }) ∧
   (h.cad.repairing →
    runs (.flashRepairDone) h fun m => m.cad.repairing = false ∧ m.cad.image = h.cad.running ∧ m.rng = h.rng ∧ m.mem
      = h.mem))

/-- Measurements are answered, key requests and leases expire, and the TAP and consoles serve as DEBUG_STATE allows
(R484, R521, R526, R543, R547, R548, R549, R691, R692). -/
def Obligations.SecurityControllerRows : Prop :=
  (∀ (h : Mach) (n idx : Nat) (nonce : Bytes), h.hpSpdm n → 1 ≤ idx → idx ≤ 14 →
    runs (.getMeasurements n idx nonce) h fun m => m = h.emit (.spdm n 0x60 (leB 1 idx ++ h.measAt idx))) ∧
  (∀ (s : State) (n : Nat) (nonce : Bytes), s.hw.hpSpdm n →
    completes (.getMeasurements n 0x40 nonce) s fun m => m = s.hw.emit (.spdm n 0x60 (s.hw.report s.fuses 0 nonce 0 []))) ∧
  (∀ h : Mach, (∀ (id ms : Nat) (r : KeyReq), h.sec.reqs.find? (fun r => r.id = id) = some r → ms ≥ h.cfg kKeyRequestTtl →
    runs (.keyRequestExpire id ms) h fun m => m.sec = { h.sec with reqs := h.sec.reqs.filter (· ≠ r) } ∧ m.count
      kKeyReleaseFails = (h.count kKeyReleaseFails + 1) % 2 ^ (8 * lenOf kKeyReleaseFails) ∧ m.grid = h.grid ∧
      m.rng.rings = h.rng.rings) ∧
   (∀ (secs : Nat),
    runs (.leaseExpiry secs) h fun m => m.sec = { h.sec with island := max h.sec.island secs, leases := h.sec.leases.filter fun l => max h.sec.island secs < l.expiry }
      ∧ m.grid = h.grid ∧ m.reg = h.reg ∧ m.rng.rings = h.rng.rings) ∧
   (∀ (code : Nat),
    runs (.jtagInstruction code) h fun m => m = (h.setSec { h.sec with tap := m.sec.tap }).emit (.debug 2 (if
      m.sec.tap = 1 then 0x257609A7 else m.sec.tap)) ∧ m.sec.tap = (if code ≤ 1 ∨ bitOf h.debugState 0 = true then
      code else 0)) ∧
   (∀ (c code : Nat), c < 2 →
    runs (.consoleInput c code) h fun m => m = (if bitOf h.debugState (1 + c) then h.emit (.debug (3 + c) code) else
      h)))

/-- The machine right after reset meets the invariant, and its memory is in canonical form (R501, R508). SVN_FUSES 0
is the model's choice (log 3). -/
def Obligations.ResetMeetsTheInvariant : Prop :=
  State.reset.inv ∧ Memory.wf State.reset.hw.mem.cells = true

/-- After reset every Field Book entry has the table's value, no ring, item or segment exists, no layer applies, and
no request is served (R34, R59, R613, 02_field_book.md). Entries without a default hold what log 3 names. -/
def Obligations.ResetLeavesTheTablesValues : Prop :=
  State.reset.pending = [] ∧ State.reset.hw.fb.epoch = 0 ∧ State.reset.hw.fb.draft = none ∧
  (∀ k, State.reset.hw.runVal k = dfltVal k) ∧ (∀ k, State.reset.hw.count k = leN (dfltVal k)) ∧ State.reset.hw.rng.rings = [] ∧
  State.reset.hw.rng.items = [] ∧ State.reset.hw.grid.seg = [] ∧ State.reset.hw.mem.cells = [] ∧
  (∀ r, State.reset.hw.ring? r = none) ∧ (∀ c va, State.reset.hw.findSeg c va = none) ∧
  State.reset.hw.bookServes = false ∧ State.reset.hw.fb.sessions = [] ∧ State.reset.hw.sec.meas = [] ∧ State.reset.hw.sec.measGen = 1

/-- Any list of operation records, spelt in bytes and read again, is the same list (R75, 02_field_book.md). -/
def Obligations.FieldBookRecordsDecodeBack : Prop :=
  ∀ (ops : List OpRec) (n : Nat), ops.length ≤ n →
    (∀ r ∈ ops, r.index < 2 ^ 16 ∧ r.sub < 256 ∧ r.target < 256 ∧ r.ty < 256 ∧ r.status < 256 ∧ r.value.length < 2 ^ 16) →
    opsOf n (ops.flatMap opBytes) = some ops

/-- The 128 bits of a valid segment map entry read back as that entry, its reserved bits zero (R138, R139,
04_grid.md). -/
def Obligations.SegmentMapEntriesDecodeBack : Prop :=
  ∀ e : SegEnt, e.ctx < 2 ^ 12 → e.vaBase < 2 ^ 19 → e.size < 16 → e.policy < 8 → e.medium < 2 → e.home < 2 → e.stack < 4 →
    e.unit < 64 → e.unitOff < 2 ^ 24 →
    SegEnt.ofBits e.bits = e ∧ bitOf e.bits 127 = true ∧ fld e.bits 64 11 = 0 ∧ fld e.bits 0 40 = 0 ∧ e.bits < 2 ^ 128

/-- No action of a CMD entry and no refusal of a write answers DONE_FLAGGED or a fail-class code (R10). -/
def Obligations.FieldBookStatusesAreOfTheirClasses : Prop :=
  (∀ (m : Mach) (z : Fuses) (rq : Rq) (k : Nat) (v : Bytes) (f : Verif), ((m.act z rq k v f).st).inReplies = true) ∧
  (∀ (m : Mach) (rq : Rq) (e : EntryRow) (r : OpRec) (st : Status), m.writeRefused rq e r = some st → st.inReplies = true)

/-- A commit of an empty draft closes it, answers DONE with the current epoch, and creates no epoch (R57). -/
def Obligations.CommitOfAnEmptyDraftClosesIt : Prop :=
  (∀ (m : Mach) (rq : Rq) (d : Draft), m.fb.draft = some d → d.owner = draftOwner rq → d.held = false → d.ents = [] →
    let r := m.commit rq
    r.st = .done ∧ r.val = leB 4 m.fb.epoch ∧ r.wait = none ∧ r.m.fb.draft = none ∧ r.m.fb.epoch = m.fb.epoch ∧
    r.m.fb.old = m.fb.old ∧ r.m.fb.cur = m.fb.cur ∧ r.m.cad = m.cad) ∧
  (∀ (h : Mach) (rq : Rq) (q : Nat) (v : Bytes) (f : Verif) (d : Draft), let i : Instr := .commit rq q v f; h.takes i →
    h.fb.draft = some d → d.owner = draftOwner rq → d.held = false → d.ents = [] →
    answers i h fun _ a b => b = leB 4 h.fb.epoch ∧ a.fb.draft = none ∧ a.fb.epoch = h.fb.epoch ∧ a.fb.old = h.fb.old ∧
      a.fb.cur = h.fb.cur ∧ a.cad = h.cad)

/-- A commit's epoch is the next number, 1 after 0xFFFFFFFF, never 0; survey step 20 creates epoch 1 (R59). -/
def Obligations.EpochNumbersCountUpAndSkipZero : Prop :=
  (∀ (m : Mach) (bank : Bank) (cad : CadBank) (n b : Nat), m.fb.epoch < 0xFFFFFFFF →
    (m.switchEpoch bank cad n b).fb.epoch = m.fb.epoch + 1) ∧
  (∀ (m : Mach) (bank : Bank) (cad : CadBank) (n b : Nat), m.fb.epoch = 0xFFFFFFFF →
    (m.switchEpoch bank cad n b).fb.epoch = 1) ∧
  (∀ (m : Mach) (bank : Bank) (cad : CadBank) (n b : Nat), (m.switchEpoch bank cad n b).fb.epoch ≠ 0) ∧
  (∀ (m : Mach) (d : Draft), (m.commitApply d).fb.epoch = m.fb.epoch % 0xFFFFFFFF + 1) ∧
  (∀ (m : Mach) (n : Nat), m.fb.old = none → (m.surveyorCommit n).fb.epoch = m.fb.epoch % 0xFFFFFFFF + 1) ∧
  (∀ m : Mach, m.applyLayers.fb.epoch = 1)

/-- The even 4 KiB granules of a SPLIT segment are homed on F0, the odd ones on F1 (R87). -/
def Obligations.SplitGranulesAlternateFloors : Prop :=
  ∀ (e : SegEnt) (va f n : Nat), e.policy = 3 → e.va ≤ va → (va - e.va) / 4096 = n →
    (n % 2 = 0 → (e.place (va - e.va) f).floor = 0) ∧ (n % 2 = 1 → (e.place (va - e.va) f).floor = 1)

/-- A master that is not demanding has its guarantee as its budget, and no master's budget is below its guarantee
(R203). -/
def Obligations.AnIdleMasterKeepsItsGuarantee : Prop :=
  ∀ (m : Mach) (f medium demand j : Nat) (other : List Nat), j < 9 →
    let gb := nth (0, 0) (m.regBudgets f medium demand other).1 j
    let x := sgetD {} (m.regStart f medium demand other).reg.masters (9 * (2 * f + medium) + j)
    (bitOf demand j = false → gb.2 = gb.1) ∧ gb.1 ≤ gb.2 ∧ x.guar = gb.1 ∧ x.budget = gb.2 ∧ x.bytes = 0 ∧ x.lowered = false

/-- A lower PRODUCE or CONSUME changes nothing; a CONSUME above TAKEN makes CONSUMED TAKEN (R305). -/
def Obligations.DoorbellsBelowAndAboveAreClamped : Prop :=
  (∀ (s : State) (kind num word : Nat) (x : Ring),
    let r := fld (word % 2 ^ 63) 48 15
    let seq := fld (word % 2 ^ 63) 0 48
    s.hw.clk.pwr = 0 → s.hw.ring? r = some x → x.subKind = kind → x.submitter = num → seq < x.produce →
    completes (.doorbellProduce kind num word) s fun m => m = s.hw) ∧
  (∀ (s : State) (kind num word : Nat) (x : Ring),
    let r := fld (word % 2 ^ 63) 48 15
    let seq := fld (word % 2 ^ 63) 0 48
    s.hw.clk.pwr = 0 → s.hw.ring? r = some x → x.subKind = kind → x.submitter = num → seq < x.consumed →
    completes (.doorbellConsume kind num word) s fun m => m = s.hw) ∧
  (∀ (s : State) (kind num word : Nat) (x : Ring) (c : Ctx),
    let r := fld (word % 2 ^ 63) 48 15
    let seq := fld (word % 2 ^ 63) 0 48
    s.hw.clk.pwr = 0 → s.hw.ring? r = some x → x.subKind = kind → x.submitter = num → x.closed = false →
    s.hw.ctx? x.ctx = some c → c.st = .live → x.taken < seq → x.consumed < x.taken →
    completes (.doorbellConsume kind num word) s fun m => m = s.hw.setRing r { x with consumed := x.taken })

/-- SEC_VERSION_ADVANCE burns SVN_FUSES up to the running version, or answers REJECT_RANGE and burns nothing (R508).
-/
def Obligations.SecVersionAdvanceBurnsItsFuses : Prop :=
  (∀ (s : State) (rq : Rq) (q : Nat) (v : Bytes) (f : Verif), let i : Instr := .secVersionAdvance rq q v f; s.hw.takes i →
    s.fuses.svn < s.hw.sec.version → s.hw.sec.version ≤ 64 →
    (∃ t, exec i s = .next t ∧ t.fuses = { s.fuses with svn := s.hw.sec.version }) ∧
    answersAt i s fun o a b => b = [] ∧ a = o.setSec { o.sec with burn := s.hw.sec.version }) ∧
  (∀ (s : State) (rq : Rq) (q : Nat) (v : Bytes) (f : Verif), let i : Instr := .secVersionAdvance rq q v f; s.inv → s.hw.takes i →
    s.hw.sec.version ≤ s.fuses.svn ∨ 64 < s.hw.sec.version →
    ∃ t, exec i s = .next t ∧ t.fuses = s.fuses ∧
      t.hw = ((s.hw.opens rq).noteAll s.fuses).replies ⟨rq, kSecVersionAdvance, q, v, f⟩ .rejectRange [])

/-- GRID_READ, GRID_WRITE and AGE_PROMOTE keep memory in its canonical form (R129, R133, 04_grid.md). The form is the
model's (log 4). -/
def Obligations.GridCommandsKeepMemoryCanonical : Prop :=
  ∀ s : State, Memory.wf s.hw.mem.cells = true →
    (∀ (fl port tag ctx va len since way : Nat) (ecc : Ecc) (wait : Bool) (t : State),
      exec (.gridRead fl port tag ctx va len since way ecc wait) s = .next t → Memory.wf t.hw.mem.cells = true) ∧
    (∀ (fl port tag ctx va : Nat) (data : Bytes) (rel : Bool) (ecc : Ecc) (wait : Bool) (t : State),
      exec (.gridWrite fl port tag ctx va data rel ecc wait) s = .next t → Memory.wf t.hw.mem.cells = true) ∧
    (∀ (target i ns : Nat) (t : State),
      exec (.agePromote target i ns) s = .next t → Memory.wf t.hw.mem.cells = true)

end
end

