-- ==== Sys2Proof/Decode.lean ====
section
/-! DEFINITION. The commands that words of the opcode table spell. -/
namespace Sys2Proof

/-- The command that `nbits` bits `w` spell by the table's bits: the table gives no row any bits, since the block's commands come by
its protocols and pins, and so no word spells one. -/
def decodeTableWord (_nbits _w : Nat) : Option Instr := none

end Sys2Proof
end

