-- ==== Sys2Proof/Laws/Maps.lean ====
section
/-! SUPPORT. Sparse maps: a read after a write, other keys, and the rising order of the keys; lists changed in one place. -/
namespace Sys2Proof.Machine

variable {α : Type}

/-- A map holds the value written last. -/
@[simp] theorem sget_sput_self (s : SMap α) (k : Nat) (x : α) : sget (sput s k x) k = some x := by
  induction s with
  | nil => simp [sput, sget]
  | cons p r ih =>
    obtain ⟨j, y⟩ := p
    unfold sput
    split_ifs with h1 h2
    · simp [sget]
    · simp [sget]
    · simp [sget, Ne.symm h2, ih]

/-- A write leaves every other key alone. -/
theorem sget_sput_ne (s : SMap α) {k j : Nat} (x : α) (h : j ≠ k) : sget (sput s k x) j = sget s j := by
  induction s with
  | nil => simp [sput, sget, Ne.symm h]
  | cons p r ih =>
    obtain ⟨i, y⟩ := p
    unfold sput
    split_ifs with h1 h2
    · simp [sget, Ne.symm h]
    · subst h2; simp [sget, Ne.symm h]
    · by_cases hi : i = j
      · simp [sget, hi]
      · simp [sget, hi, ih]

theorem sget_sput (s : SMap α) (k j : Nat) (x : α) : sget (sput s k x) j = if j = k then some x else sget s j := by
  by_cases h : j = k
  · subst h; simp
  · simp [h, sget_sput_ne s x h]

@[simp] theorem sgetD_sput_self (d : α) (s : SMap α) (k : Nat) (x : α) : sgetD d (sput s k x) k = x := by
  simp [sgetD]

theorem sgetD_sput (d : α) (s : SMap α) (k j : Nat) (x : α) :
    sgetD d (sput s k x) j = if j = k then x else sgetD d s j := by
  unfold sgetD; rw [sget_sput]; split_ifs <;> rfl

@[simp] theorem shas_sput_self (s : SMap α) (k : Nat) (x : α) : shas (sput s k x) k = true := by simp [shas]

/-- A removal leaves every other key alone. -/
theorem sget_sdel_ne (s : SMap α) {k j : Nat} (h : j ≠ k) : sget (sdel s k) j = sget s j := by
  induction s with
  | nil => rfl
  | cons p r ih =>
    obtain ⟨i, y⟩ := p
    unfold sdel
    split_ifs with h1
    · subst h1; simp [sget, Ne.symm h]
    · by_cases hi : i = j
      · simp [sget, hi]
      · simp [sget, hi, ih]

/-- Keys strictly rising: the canonical form of every sparse map. -/
def rising (s : SMap α) : Prop := (skeys s).Pairwise (· < ·)

theorem sget_none_of_lt {s : SMap α} {k : Nat} (h : ∀ p ∈ s, k < p.1) : sget s k = none := by
  induction s with
  | nil => rfl
  | cons p r ih =>
    obtain ⟨j, y⟩ := p
    have hj : k < j := h (j, y) (by simp)
    have : sget r k = none := ih fun q hq => h q (by simp [hq])
    simp [sget, Nat.ne_of_gt hj, this]

/-- A key removed from a rising map is gone. -/
theorem sget_sdel_self {s : SMap α} (h : rising s) (k : Nat) : sget (sdel s k) k = none := by
  induction s with
  | nil => rfl
  | cons p r ih =>
    obtain ⟨j, y⟩ := p
    simp only [rising, skeys, List.map_cons, List.pairwise_cons, List.mem_map] at h
    unfold sdel
    split_ifs with h1
    · subst h1
      exact sget_none_of_lt fun q hq => h.1 q.1 ⟨q, hq, rfl⟩
    · simp only [sget, h1, if_false]
      exact ih h.2

theorem sget_sdel {s : SMap α} (h : rising s) (k j : Nat) : sget (sdel s k) j = if j = k then none else sget s j := by
  by_cases e : j = k
  · subst e; simp [sget_sdel_self h]
  · simp [e, sget_sdel_ne s e]

/-! Lists changed in one place. -/

@[simp] theorem setAt_length (l : List α) (i : Nat) (x : α) : (setAt l i x).length = l.length := by
  induction l generalizing i with
  | nil => rfl
  | cons y r ih => cases i <;> simp [setAt, ih]

theorem nth_setAt_self (d : α) {l : List α} {i : Nat} (h : i < l.length) (x : α) : nth d (setAt l i x) i = x := by
  induction l generalizing i with
  | nil => simp at h
  | cons y r ih =>
    cases i with
    | zero => rfl
    | succ n => exact ih (by simpa using h)

theorem nth_setAt_ne (d : α) (l : List α) {i j : Nat} (h : j ≠ i) (x : α) : nth d (setAt l i x) j = nth d l j := by
  induction l generalizing i j with
  | nil => rfl
  | cons y r ih =>
    cases i with
    | zero => cases j with
      | zero => exact absurd rfl h
      | succ m => rfl
    | succ n => cases j with
      | zero => rfl
      | succ m => exact ih (by simpa using h)

/-- A field that an update of one element keeps is kept at every index. -/
theorem nth_setAt_keep {β : Type} (d : α) (l : List α) (i j : Nat) (x : α) (f : α → β) (h : f x = f (nth d l i)) :
    f (nth d (setAt l i x) j) = f (nth d l j) := by
  by_cases e : j = i
  · subst e
    by_cases hl : j < l.length
    · rw [nth_setAt_self d hl, h]
    · have : setAt l j x = l := by
        clear h
        induction l generalizing j with
        | nil => rfl
        | cons y r ih => cases j with
          | zero => simp at hl
          | succ n => simp only [setAt]; rw [ih n (by simpa using hl)]
      rw [this]
  · rw [nth_setAt_ne d l e]

end Sys2Proof.Machine
end

