-- ==== Sys2Proof/Laws/Memory.lean ====
section
/-! SUPPORT. Memory: its canonical form under every operation, a byte read after a write, and what a run of bytes written by
a context leaves alone. -/
namespace Sys2Proof.Machine

/-- The canonical form, said of all entries at once. -/
theorem Memory.wf_iff (c : List Host.Cell) :
    Memory.wf c = true ↔ (∀ p ∈ c, Memory.dflt p.1 ≠ some p.2) ∧ rising c := by
  induction c with
  | nil => simp [Memory.wf, rising, skeys]
  | cons p r ih =>
    obtain ⟨a, b⟩ := p
    cases r with
    | nil => simp [Memory.wf, rising, skeys]
    | cons q r =>
      obtain ⟨a', b'⟩ := q
      simp only [Memory.wf, Bool.and_eq_true, decide_eq_true_eq, ih, rising, skeys, List.map_cons, List.pairwise_cons,
        List.mem_cons, List.mem_map, forall_eq_or_imp]
      constructor
      · rintro ⟨⟨h1, h2⟩, ⟨h3, h4⟩, h5, h6⟩
        refine ⟨⟨h1, h3, h4⟩, ⟨h2, ?_⟩, h5, h6⟩
        rintro x ⟨y, hy, rfl⟩
        exact lt_trans h2 (h5 y.1 ⟨y, hy, rfl⟩)
      · rintro ⟨⟨h1, h3, h4⟩, ⟨h2, _⟩, h5, h6⟩
        exact ⟨⟨h1, h2⟩, ⟨h3, h4⟩, h5, h6⟩

theorem mem_sput {α : Type} {s : SMap α} {k : Nat} {x : α} {p : Nat × α} (h : p ∈ sput s k x) : p = (k, x) ∨ p ∈ s := by
  induction s with
  | nil => simpa [sput] using h
  | cons q r ih =>
    obtain ⟨j, y⟩ := q
    unfold sput at h
    split_ifs at h with h1 h2
    · rcases List.mem_cons.1 h with h | h
      · exact .inl h
      · exact .inr h
    · rcases List.mem_cons.1 h with h | h
      · exact .inl h
      · exact .inr (by simp [h])
    · rcases List.mem_cons.1 h with h | h
      · exact .inr (by simp [h])
      · rcases ih h with h | h
        · exact .inl h
        · exact .inr (by simp [h])

theorem mem_sdel {α : Type} {s : SMap α} {k : Nat} {p : Nat × α} (h : p ∈ sdel s k) : p ∈ s := by
  induction s with
  | nil => simp [sdel] at h
  | cons q r ih =>
    obtain ⟨j, y⟩ := q
    unfold sdel at h
    split_ifs at h
    · simp [h]
    · rcases List.mem_cons.1 h with h | h
      · simp [h]
      · simp [ih h]

/-- A write keeps the keys rising. -/
theorem rising_sput {α : Type} {s : SMap α} (h : rising s) (k : Nat) (x : α) : rising (sput s k x) := by
  induction s with
  | nil => simp [sput, rising, skeys]
  | cons q r ih =>
    obtain ⟨j, y⟩ := q
    simp only [rising, skeys, List.map_cons, List.pairwise_cons, List.mem_map] at h
    unfold sput
    split_ifs with h1 h2
    · simp only [rising, skeys, List.map_cons, List.pairwise_cons, List.mem_cons, List.mem_map]
      refine ⟨?_, h.1, h.2⟩
      rintro z (rfl | ⟨w, hw, rfl⟩)
      · exact h1
      · exact lt_trans h1 (h.1 w.1 ⟨w, hw, rfl⟩)
    · subst h2
      simp only [rising, skeys, List.map_cons, List.pairwise_cons, List.mem_map]
      exact h
    · simp only [rising, skeys, List.map_cons, List.pairwise_cons, List.mem_map]
      refine ⟨?_, ih h.2⟩
      rintro z ⟨w, hw, rfl⟩
      rcases mem_sput hw with rfl | hw
      · show j < k; omega
      · exact h.1 w.1 ⟨w, hw, rfl⟩

/-- A removal keeps the keys rising. -/
theorem rising_sdel {α : Type} {s : SMap α} (h : rising s) (k : Nat) : rising (sdel s k) := by
  induction s with
  | nil => exact h
  | cons q r ih =>
    obtain ⟨j, y⟩ := q
    simp only [rising, skeys, List.map_cons, List.pairwise_cons, List.mem_map] at h
    unfold sdel
    split_ifs
    · exact h.2
    · simp only [rising, skeys, List.map_cons, List.pairwise_cons, List.mem_map]
      refine ⟨?_, ih h.2⟩
      rintro z ⟨w, hw, rfl⟩
      exact h.1 w.1 ⟨w, mem_sdel hw, rfl⟩

/-- A byte written keeps the canonical form. -/
theorem Memory.wf_put {c : List Host.Cell} (h : Memory.wf c = true) (a : Nat) (b : Byte) :
    Memory.wf (Memory.put c a b) = true := by
  rw [Memory.wf_iff] at *
  unfold Memory.put
  split_ifs with e
  · exact ⟨fun p hp => h.1 p (mem_sdel hp), rising_sdel h.2 a⟩
  · refine ⟨fun p hp => ?_, rising_sput h.2 a b⟩
    rcases mem_sput hp with rfl | hp
    · exact e
    · exact h.1 p hp

/-- A run written keeps the canonical form. -/
theorem Memory.wf_putRun {c : List Host.Cell} (h : Memory.wf c = true) (a : Nat) (d : Bytes) :
    Memory.wf (Memory.putRun c a d) = true := by
  induction d generalizing c a with
  | nil => exact h
  | cons b r ih => exact ih (Memory.wf_put h a b) (a + 1)

/-- Reset's memory has the canonical form. -/
theorem Memory.wf_reset : Memory.wf State.reset.hw.mem.cells = true := rfl

/-- What address `a` reads as in a list of cells. -/
theorem Memory.dflt_buffer {a : Nat} (h : paMedium a = 0) : Memory.dflt a = some 0 := by
  unfold Memory.dflt; rw [if_pos h]

/-- A buffer byte reads as it was last written, and every other address as before. -/
theorem Memory.sgetD_put {c : List Host.Cell} (h : Memory.wf c = true) (a j : Nat) (b : Byte) (ha : paMedium a = 0) :
    sgetD 0 (Memory.put c a b) j = if j = a then b else sgetD 0 c j := by
  unfold Memory.put
  rw [Memory.dflt_buffer ha]
  by_cases e : b = 0
  · subst e
    simp only [if_pos]
    unfold sgetD
    rw [sget_sdel ((Memory.wf_iff c).1 h).2]
    by_cases e : j = a <;> simp [e]
  · have : ¬ (some (0 : Byte) = some b) := fun h => e (Option.some.inj h).symm
    simp only [this, if_false]
    exact sgetD_sput 0 c a j b

/-- After a run written to the buffer each of its bytes reads as given, and every other address as before. -/
theorem Memory.sgetD_putRun {c : List Host.Cell} (h : Memory.wf c = true) (a j : Nat) (d : Bytes)
    (hm : ∀ i < d.length, paMedium (a + i) = 0) :
    sgetD 0 (Memory.putRun c a d) j = if a ≤ j ∧ j < a + d.length then nth 0 d (j - a) else sgetD 0 c j := by
  induction d generalizing c a with
  | nil => simp [Memory.putRun]
  | cons b r ih =>
    unfold Memory.putRun
    have h0 : paMedium a = 0 := hm 0 (by simp)
    rw [ih (Memory.wf_put h a b) (a + 1) (fun i hi => by
      have := hm (i + 1) (by simpa using hi)
      rwa [show a + 1 + i = a + (i + 1) by omega])]
    rw [Memory.sgetD_put h a j b h0]
    by_cases h1 : j = a
    · subst h1
      simp [nth]
    · by_cases h2 : a + 1 ≤ j ∧ j < a + 1 + r.length
      · have h3 : a ≤ j ∧ j < a + (b :: r).length := by simp; omega
        rw [if_pos h2, if_pos h3]
        obtain ⟨n, hn⟩ : ∃ n, j - a = n + 1 := ⟨j - a - 1, by omega⟩
        rw [hn, show j - (a + 1) = n by omega]
        rfl
      · have h3 : ¬ (a ≤ j ∧ j < a + (b :: r).length) := by simp; omega
        rw [if_neg h2, if_neg h3, if_neg h1]

/-! What a read depends on: memory, the stacks, the other die's standing and the cadastre. -/

theorem Mach.sectorEnc_congr {a b : Mach} (h2 : a.stk = b.stk) (s : Nat) : a.sectorEnc s = b.sectorEnc s := by
  unfold Mach.sectorEnc Mach.stepsOf; rw [h2]

theorem Mach.cipher_congr {a b : Mach} (h1 : a.mem = b.mem) (h2 : a.stk = b.stk) (s : Nat) : a.cipher s = b.cipher s := by
  unfold Mach.cipher Mach.plain Mach.freshOf; rw [Mach.sectorEnc_congr h2, h1, h2]

theorem Mach.rdByte_congr {a b : Mach} (h1 : a.mem = b.mem) (h2 : a.stk = b.stk) (c pa : Nat) : a.rdByte c pa = b.rdByte c pa := by
  unfold Mach.rdByte Mach.readKey Mach.keysOf
  simp only [Mach.sectorEnc_congr h2, Mach.cipher_congr h1 h2, h1, h2]

theorem Mach.placeFails_congr {a b : Mach} (h2 : a.stk = b.stk) (h3 : a.die = b.die) (h4 : a.cad = b.cad) (e c : Nat) (p : Place) :
    a.placeFails e c p = b.placeFails e c p := by
  unfold Mach.placeFails Mach.floorLost Mach.unitGone Mach.cadOf Mach.pageLost Mach.stackAt Mach.floorGone Mach.keysOf; rw [h2, h3, h4]

theorem Mach.poisoned_congr {a b : Mach} (h1 : a.mem = b.mem) (h2 : a.stk = b.stk) (pa n : Nat) : a.poisoned pa n = b.poisoned pa n := by
  unfold Mach.poisoned; rw [h1, h2]

theorem Mach.grainsBad_congr {a b : Mach} (h1 : a.mem = b.mem) (h2 : a.stk = b.stk) (l : List Nat) : a.grainsBad l = b.grainsBad l := by
  unfold Mach.grainsBad Mach.errsAt; rw [h1, h2]

theorem Mach.rlcHit_congr {a b : Mach} (h3 : a.die = b.die) (h5 : a.fb = b.fb) (e f pa n : Nat) :
    a.rlcHit e f pa n = b.rlcHit e f pa n := by
  unfold Mach.rlcHit Mach.rlcFind Mach.cfgE Mach.bankOf; rw [h3, h5]

/-- A piece reads alike where memory, the stacks, the dies, the cadastre and the Field Book agree. -/
theorem Mach.readPiece_congr {a b : Mach} (h1 : a.mem = b.mem) (h2 : a.stk = b.stk) (h3 : a.die = b.die) (h4 : a.cad = b.cad)
    (h5 : a.fb = b.fb) (e c f : Nat) (p : Piece) : a.readPiece e c f p = b.readPiece e c f p := by
  unfold Mach.readPiece Mach.mirrorFloor Mach.floorLost
  simp only [Mach.placeFails_congr h2 h3 h4, Mach.poisoned_congr h1 h2, Mach.rdByte_congr h1 h2, Mach.grainsBad_congr h1 h2,
    Mach.rlcHit_congr h3 h5, h3]

/-! What a write of memory changes. -/

/-- Everything but memory, the stacks' arrays, merge windows, the remote line caches with their directories, and the bridge's
traffic is as before. -/
def Mach.sameButMem (a b : Mach) : Prop :=
  (a.fb = b.fb ∧ a.reg = b.reg ∧ a.rng = b.rng ∧ a.cad = b.cad ∧ a.site = b.site ∧ a.core = b.core ∧ a.clk = b.clk ∧
    a.flt = b.flt ∧ a.swp = b.swp ∧ a.lnk = b.lnk ∧ a.trv = b.trv ∧ a.hp = b.hp ∧ a.sec = b.sec ∧ a.pwr = b.pwr ∧ a.age = b.age ∧
    a.lat = b.lat) ∧
  { a.grid with merge := b.grid.merge } = b.grid ∧ a.stk.keys = b.stk.keys ∧ a.stk.dev = b.stk.dev ∧
  a.die.lost = b.die.lost ∧ a.die.state = b.die.state ∧ a.die.withdrawn = b.die.withdrawn ∧ a.die.width = b.die.width

theorem Mach.sameButMem.refl (a : Mach) : a.sameButMem a :=
  ⟨⟨rfl, rfl, rfl, rfl, rfl, rfl, rfl, rfl, rfl, rfl, rfl, rfl, rfl, rfl, rfl, rfl⟩, rfl, rfl, rfl, rfl, rfl, rfl, rfl⟩

theorem Mach.sameButMem.trans {a b c : Mach} (h : a.sameButMem b) (k : b.sameButMem c) : a.sameButMem c := by
  obtain ⟨⟨h1, h2, h3, h4, h5, h6, h7, h8, h9, h10, h11, h12, h13, h14, h15, h16⟩, g, h17, h18, h19, h20, h21, h22⟩ := h
  obtain ⟨k0, l, k17, k18, k19, k20, k21, k22⟩ := k
  refine ⟨?_, ?_, h17.trans k17, h18.trans k18, h19.trans k19, h20.trans k20, h21.trans k21, h22.trans k22⟩
  · rw [h1, h2, h3, h4, h5, h6, h7, h8, h9, h10, h11, h12, h13, h14, h15, h16]; exact k0
  · rw [← l, ← g]

/-- A fold of operations that each leave the rest alone does so too. -/
theorem Mach.sameButMem.fold {α : Type} {f : Mach → α → Mach} (h : ∀ m x, (f m x).sameButMem m) (l : List α) (m : Mach) :
    (l.foldl f m).sameButMem m := by
  induction l generalizing m with
  | nil => exact .refl m
  | cons x r ih => exact (ih _).trans (h m x)

theorem Mach.emit_sameButMem (m : Mach) (e : Emit) : (m.emit e).sameButMem m := .refl m

theorem Mach.putBridge_same (m : Mach) (f c l a : Nat) (d : Bytes) : (m.putBridge f c l a d).sameButMem m := by
  unfold Mach.putBridge
  dsimp only
  split_ifs
  · exact .refl m
  · exact .refl m
  · exact .refl m

theorem Mach.promote_frame (m : Mach) (c p : Nat) : (m.promote c p).sameButMem m := by
  unfold Mach.promote
  dsimp only
  split
  · exact .refl m
  · exact .refl m

theorem Mach.wrLine_frame (m : Mach) (c pa : Nat) (d : Bytes) : (m.wrLine c pa d).sameButMem m := by
  unfold Mach.wrLine
  split
  · exact .refl m
  · dsimp only
    split
    · exact .refl m
    · split
      · exact .refl m
      · exact Mach.sameButMem.trans (Mach.sameButMem.refl (m.promote c (paPage pa))) (Mach.promote_frame m c _)

theorem Mach.clearPoison_frame (m : Mach) (pa n : Nat) : (m.clearPoison pa n).sameButMem m := by
  unfold Mach.clearPoison; split <;> [split; skip] <;> exact .refl m

theorem Mach.closeMerge_frame (m : Mach) (pa : Nat) : (m.closeMerge pa).sameButMem m := .refl m

theorem Mach.rlcInvalidate_frame (m : Mach) (f pa : Nat) : (m.rlcInvalidate f pa).sameButMem m := by
  unfold Mach.rlcInvalidate; split <;> exact .refl m

theorem Mach.dropRemote_frame (m : Mach) (f pa : Nat) : (m.dropRemote f pa).sameButMem m := by
  unfold Mach.dropRemote
  dsimp only
  split
  · exact .refl m
  · split
    · exact (Mach.putBridge_same _ _ _ _ _ _).trans
        ((Mach.putBridge_same _ _ _ _ _ _).trans (Mach.rlcInvalidate_frame m (1 - paFloor pa) pa))
    · exact Mach.rlcInvalidate_frame m (1 - paFloor pa) pa
  · exact Mach.rlcInvalidate_frame _ _ _

theorem Mach.crossWrite_frame (m : Mach) (f pa c : Nat) (d : Bytes) : (m.crossWrite f pa c d).sameButMem m := by
  unfold Mach.crossWrite
  split
  · exact .refl m
  · exact (Mach.putBridge_same _ _ _ _ _ _).trans (Mach.rlcInvalidate_frame _ _ _)

theorem Mach.putPiece_frame (m : Mach) (e c : Nat) (p : Piece) (d : Bytes) : (m.putPiece e c p d).1.sameButMem m := by
  unfold Mach.putPiece
  dsimp only
  split
  · exact .refl m
  · have k := Mach.sameButMem.fold (f := fun m pl =>
        ((m.wrLine c (pl.pa (p.va % 256)) d).clearPoison (pl.pa (p.va % 256)) d.length).closeMerge (pl.pa (p.va % 256)))
      (fun m pl => (Mach.closeMerge_frame _ _).trans ((Mach.clearPoison_frame _ _ _).trans (Mach.wrLine_frame m _ _ _)))
      (m.writeCopies p) m
    split
    · exact Mach.sameButMem.trans (Mach.sameButMem.refl _) k
    · exact k

theorem Mach.writePiece_frame (m : Mach) (e c f : Nat) (p : Piece) (d : Bytes) :
    (m.writePiece e c f p d).1.sameButMem m := by
  unfold Mach.writePiece
  dsimp only
  split
  · exact Mach.putPiece_frame _ _ _ _ _
  · exact (Mach.dropRemote_frame _ _ _).trans ((Mach.crossWrite_frame _ _ _ _ _).trans (Mach.putPiece_frame _ _ _ _ _))

theorem Mach.writePieces_frame (e c fl : Nat) (ps : List (Nat × Nat)) (m : Mach) (d : Bytes) (f : Option Fail) :
    (m.writePieces e c fl ps d f).1.sameButMem m := by
  induction ps generalizing m d f with
  | nil => exact .refl m
  | cons p r ih =>
    unfold Mach.writePieces
    dsimp only
    refine (ih _ _ _).trans ?_
    split
    · exact .refl m
    · exact .refl m
    · exact Mach.writePiece_frame _ _ _ _ _ _

/-- Bytes written by a context change memory, its tags, generations, poison, remote copies and bridge traffic, and nothing else. -/
theorem Mach.writeMem_frame (m : Mach) (e fl c va : Nat) (d : Bytes) : (m.writeMem e fl c va d).1.sameButMem m :=
  Mach.writePieces_frame _ _ _ _ _ _ _

/-! Every operation on memory keeps the canonical form. -/

theorem Mach.promote_cells (m : Mach) (c p : Nat) : (m.promote c p).mem = m.mem := by
  unfold Mach.promote
  dsimp only
  split <;> rfl

theorem Mach.clearPoison_cells (m : Mach) (pa n : Nat) : (m.clearPoison pa n).mem.cells = m.mem.cells := by
  unfold Mach.clearPoison; split <;> [split; skip] <;> rfl

theorem Mach.rlcInvalidate_mem (m : Mach) (f pa : Nat) : (m.rlcInvalidate f pa).mem = m.mem := by
  unfold Mach.rlcInvalidate; split <;> rfl

theorem Mach.putBridge_mem (m : Mach) (f c l a : Nat) (d : Bytes) : (m.putBridge f c l a d).mem = m.mem := by
  unfold Mach.putBridge; dsimp only; split_ifs <;> rfl

theorem Mach.dropRemote_mem (m : Mach) (f pa : Nat) : (m.dropRemote f pa).mem = m.mem := by
  unfold Mach.dropRemote
  dsimp only
  split
  · rfl
  · split
    · rw [Mach.putBridge_mem, Mach.putBridge_mem]; exact Mach.rlcInvalidate_mem _ _ _
    · exact Mach.rlcInvalidate_mem _ _ _
  · exact Mach.rlcInvalidate_mem _ _ _

theorem Mach.crossWrite_mem (m : Mach) (f pa c : Nat) (d : Bytes) : (m.crossWrite f pa c d).mem = m.mem := by
  unfold Mach.crossWrite
  split
  · rfl
  · rw [Mach.putBridge_mem, Mach.rlcInvalidate_mem]

theorem Mach.addPoison_cells (m : Mach) (pa : Nat) : (m.addPoison pa).mem.cells = m.mem.cells := by
  unfold Mach.addPoison; split <;> rfl

theorem Mach.wrLine_wf {m : Mach} (h : Memory.wf m.mem.cells = true) (c pa : Nat) (d : Bytes) :
    Memory.wf (m.wrLine c pa d).mem.cells = true := by
  have fold (f : Nat → Bytes) (q : Nat → Prop) [DecidablePred q] (l : List Nat) (c0 : List Host.Cell)
      (h0 : Memory.wf c0 = true) :
      Memory.wf (l.foldl (fun c s => if q s then c else Memory.putRun c (s * 64) (f s)) c0) = true := by
    induction l generalizing c0 with
    | nil => exact h0
    | cons x r ih =>
      apply ih
      dsimp only
      split_ifs
      · exact h0
      · exact Memory.wf_putRun h0 _ _
  unfold Mach.wrLine
  split
  · exact Memory.wf_putRun h _ _
  · dsimp only
    split
    · exact h
    · split
      · exact Memory.wf_putRun (fold _ _ _ _ h) _ _
      · exact Memory.wf_putRun (fold _ _ _ _ (by rw [Mach.promote_cells]; exact h)) _ _

theorem Mach.putPiece_wf {m : Mach} (h : Memory.wf m.mem.cells = true) (e c : Nat) (p : Piece) (d : Bytes) :
    Memory.wf (m.putPiece e c p d).1.mem.cells = true := by
  have k (pa : Place → Nat) (l : List Place) (m : Mach) (h : Memory.wf m.mem.cells = true) :
      Memory.wf (l.foldl (fun m pl => ((m.wrLine c (pa pl) d).clearPoison (pa pl) d.length).closeMerge (pa pl)) m).mem.cells =
        true := by
    induction l generalizing m with
    | nil => exact h
    | cons x r ih =>
      apply ih
      show Memory.wf (Mach.clearPoison _ _ _).mem.cells = true
      rw [Mach.clearPoison_cells]
      exact Mach.wrLine_wf h _ _ _
  unfold Mach.putPiece
  dsimp only
  split
  · exact h
  · split <;> exact k _ _ _ h

theorem Mach.writePiece_wf {m : Mach} (h : Memory.wf m.mem.cells = true) (e c f : Nat) (p : Piece) (d : Bytes) :
    Memory.wf (m.writePiece e c f p d).1.mem.cells = true := by
  unfold Mach.writePiece
  dsimp only
  split
  · exact Mach.putPiece_wf h _ _ _ _
  · rw [Mach.dropRemote_mem, Mach.crossWrite_mem]; exact Mach.putPiece_wf h _ _ _ _

theorem Mach.writePieces_wf (e c fl : Nat) (ps : List (Nat × Nat)) {m : Mach} (d : Bytes) (f : Option Fail)
    (h : Memory.wf m.mem.cells = true) : Memory.wf (m.writePieces e c fl ps d f).1.mem.cells = true := by
  induction ps generalizing m d f with
  | nil => exact h
  | cons p r ih =>
    unfold Mach.writePieces
    dsimp only
    apply ih
    split
    · exact h
    · exact h
    · exact Mach.writePiece_wf h _ _ _ _ _

/-- Bytes written by a context keep memory's canonical form. -/
theorem Mach.writeMem_wf {m : Mach} (h : Memory.wf m.mem.cells = true) (e fl c va : Nat) (d : Bytes) :
    Memory.wf (m.writeMem e fl c va d).1.mem.cells = true := Mach.writePieces_wf _ _ _ _ _ _ h

end Sys2Proof.Machine
end

