-- ==== Sys2Proof/Laws/Cells.lean ====
section
/-! SUPPORT. Memory's canonical form where a whole footprint, channel or line changes at once. -/
namespace Sys2Proof.Machine

/-- Cells struck out keep the canonical form. -/
theorem Memory.wf_filter {c : List Host.Cell} (h : Memory.wf c = true) (p : Host.Cell → Bool) :
    Memory.wf (c.filter p) = true := by
  rw [Memory.wf_iff] at *
  refine ⟨fun x hx => h.1 x (List.mem_filter.1 hx).1, ?_⟩
  exact List.Pairwise.sublist (List.Sublist.map _ (List.filter_sublist)) h.2

theorem Mach.zeroFoot_wf {m : Mach} (h : Memory.wf m.mem.cells = true) (e : SegEnt) :
    Memory.wf (m.zeroFoot e).mem.cells = true := by
  unfold Mach.zeroFoot
  split
  · exact h
  · exact Memory.wf_filter h _

theorem Mach.loseLine_wf {m : Mach} (h : Memory.wf m.mem.cells = true) (pa : Nat) :
    Memory.wf (m.loseLine pa).mem.cells = true := by
  unfold Mach.loseLine
  rw [Mach.addPoison_cells]
  generalize List.map _ _ = d
  exact Memory.wf_putRun h pa d

theorem Mach.loseContents_wf {m : Mach} (h : Memory.wf m.mem.cells = true) (u : UnitRef) :
    Memory.wf (m.loseContents u).mem.cells = true := by
  have k (l : List Nat) (f : Nat → Nat) (m : Mach) (h : Memory.wf m.mem.cells = true) :
      Memory.wf (l.foldl (fun m i => m.addPoison (f i)) m).mem.cells = true := by
    induction l generalizing m with
    | nil => exact h
    | cons a l ih => exact ih _ (by rw [Mach.addPoison_cells]; exact h)
  unfold Mach.loseContents
  split
  · generalize List.range _ = l
    exact k l _ _ h
  · exact Memory.wf_filter h _

/-- Pieces that take free values leave everything but memory, tags, generations and directories alone. -/
theorem Mach.spoilPieces_frame (e c fl : Nat) (ps : List (Nat × Nat)) (m : Mach) (d : Bytes) :
    (m.spoilPieces e c fl ps d).sameButMem m := by
  induction ps generalizing m d with
  | nil => exact .refl m
  | cons p r ih =>
    unfold Mach.spoilPieces
    dsimp only
    refine (ih _ _).trans ?_
    split
    · split_ifs
      · exact Mach.writePiece_frame _ _ _ _ _ _
      all_goals exact Mach.sameButMem.fold (fun _ _ => Mach.wrLine_frame _ _ _ _) _ _
    · exact .refl m

/-- They keep memory's canonical form. -/
theorem Mach.spoilPieces_wf (e c fl : Nat) (ps : List (Nat × Nat)) {m : Mach} (d : Bytes)
    (h : Memory.wf m.mem.cells = true) : Memory.wf (m.spoilPieces e c fl ps d).mem.cells = true := by
  have k (f : Place → Nat) (b : Bytes) (l : List Place) (m : Mach) (h : Memory.wf m.mem.cells = true) :
      Memory.wf (l.foldl (fun (m : Mach) pl => m.wrLine c (f pl) b) m).mem.cells = true := by
    induction l generalizing m with
    | nil => exact h
    | cons x r ih => exact ih _ (Mach.wrLine_wf h _ _ _)
  induction ps generalizing m d with
  | nil => exact h
  | cons p r ih =>
    unfold Mach.spoilPieces
    dsimp only
    apply ih
    split
    · split_ifs
      · exact Mach.writePiece_wf h _ _ _ _ _
      all_goals exact k _ _ _ _ h
    · exact h

/-- What becomes of a failed item's destinations leaves everything but memory, tags, generations and directories alone, and poison
too. -/
theorem Mach.spoil_frame (m : Mach) (i : Item) : (m.spoil i).sameButMem m ∧ (m.spoil i).mem.poison = m.mem.poison ∧
    (m.spoil i).stk.poison = m.stk.poison := by
  refine ⟨?_, rfl, rfl⟩
  unfold Mach.spoil
  dsimp only
  exact Mach.sameButMem.fold (fun _ _ => Mach.spoilPieces_frame _ _ _ _ _ _) _ m

/-- It keeps memory's canonical form. -/
theorem Mach.spoil_wf {m : Mach} (h : Memory.wf m.mem.cells = true) (i : Item) :
    Memory.wf (m.spoil i).mem.cells = true := by
  have k (f : Nat × Nat → Bytes) (l : List (Nat × Nat)) (a : Mach) (h : Memory.wf a.mem.cells = true) :
      Memory.wf (l.foldl (fun w d => w.spoilPieces i.epoch i.ctx (ringFloor i.ring) (pieces d.1 (f d).length) (f d)) a).mem.cells
        = true := by
    induction l generalizing a with
    | nil => exact h
    | cons d l ih => exact ih _ (Mach.spoilPieces_wf _ _ _ _ _ h)
  unfold Mach.spoil
  dsimp only
  exact k _ _ m h

end Sys2Proof.Machine
end

