-- ==== Sys2Proof/Laws/State.lean ====
section
/-! SUPPORT. Updates of the state and of the module: the fields each leaves alone. The setters of State.lean carry `simps`, which
makes one lemma per field of each of them; here are the updates built over them, and what a command's outcome is. -/
namespace Sys2Proof.Machine

/-- An update of a field hides an earlier one. -/
@[simp] theorem State.setHw_setHw (s : State) (a b : Mach) : (s.setHw a).setHw b = s.setHw b := rfl
@[simp] theorem State.setPending_setHw (s : State) (q : List Instr) (a : Mach) :
    (s.setHw a).setPending q = (s.setPending q).setHw a := rfl
@[simp] theorem State.setHw_self (s : State) : s.setHw s.hw = s := rfl
@[simp] theorem State.setPending_self (s : State) : s.setPending s.pending = s := rfl
@[simp] theorem Mach.setFb_setFb (m : Mach) (a b : Fb) : (m.setFb a).setFb b = m.setFb b := rfl
@[simp] theorem Mach.setDie_setDie (m : Mach) (a b : Die) : (m.setDie a).setDie b = m.setDie b := rfl
@[simp] theorem Mach.setGrid_setGrid (m : Mach) (a b : Grid) : (m.setGrid a).setGrid b = m.setGrid b := rfl
@[simp] theorem Mach.setStk_setStk (m : Mach) (a b : Stk) : (m.setStk a).setStk b = m.setStk b := rfl
@[simp] theorem Mach.setSite_setSite (m : Mach) (a b : Sites) : (m.setSite a).setSite b = m.setSite b := rfl
@[simp] theorem Mach.setCore_setCore (m : Mach) (a b : Cores) : (m.setCore a).setCore b = m.setCore b := rfl
@[simp] theorem Mach.setOut_setOut (m : Mach) (a b : List Emit) : (m.setOut a).setOut b = m.setOut b := rfl

/-! Outcomes. -/

/-- What `runFz` answers keeps the queue and every fuse but SVN_FUSES. -/
theorem runFz_next {s t : State} {f : Fuses → Mach → Mach} (h : runFz s f = .next t) :
    t.hw = f s.fuses s.hw ∧ t.pending = s.pending ∧
      t.fuses = { s.fuses with svn := max s.fuses.svn (min 64 (f s.fuses s.hw).sec.burn) } := by
  cases h; exact ⟨rfl, rfl, rfl⟩

/-- A command of a unit that exists acts as `runFz`. -/
theorem runFzIf_true {ok : Bool} (h : ok = true) (s : State) (f : Fuses → Mach → Mach) : runFzIf ok s f = runFz s f := by
  simp [runFzIf, h]

/-- Where the unit does not exist the command ends in the one fault. -/
theorem runFzIf_false {ok : Bool} (h : ok = false) (s : State) (f : Fuses → Mach → Mach) :
    runFzIf ok s f = .fault .noSuchUnit := by simp [runFzIf, h]

/-- What `runFzIf` answers is what `runFz` answers, of a unit that exists. -/
theorem runFzIf_next {ok : Bool} {s t : State} {f : Fuses → Mach → Mach} (h : runFzIf ok s f = .next t) :
    ok = true ∧ runFz s f = .next t := by
  unfold runFzIf at h
  split at h
  · exact ⟨by assumption, h⟩
  · cases h

/-! Updates built over the setters. -/

/-- What is shown outside changes nothing inside. -/
@[simp] theorem Mach.emit_frame (m : Mach) (e : Emit) :
    (m.emit e).fb = m.fb ∧ (m.emit e).die = m.die ∧ (m.emit e).grid = m.grid ∧ (m.emit e).mem = m.mem ∧
    (m.emit e).stk = m.stk ∧ (m.emit e).reg = m.reg ∧ (m.emit e).rng = m.rng ∧ (m.emit e).cad = m.cad ∧
    (m.emit e).site = m.site ∧ (m.emit e).core = m.core ∧ (m.emit e).clk = m.clk ∧ (m.emit e).flt = m.flt ∧
    (m.emit e).swp = m.swp ∧ (m.emit e).lnk = m.lnk ∧ (m.emit e).trv = m.trv ∧ (m.emit e).hp = m.hp ∧
    (m.emit e).sec = m.sec ∧ (m.emit e).pwr = m.pwr ∧ (m.emit e).age = m.age ∧ (m.emit e).lat = m.lat ∧
    (m.emit e).out = e :: m.out := by
  simp [Mach.emit]

/-- A counter changes in the Field Book alone. -/
@[simp] theorem Mach.setCount_frame (m : Mach) (k v : Nat) :
    (m.setCount k v).die = m.die ∧ (m.setCount k v).grid = m.grid ∧ (m.setCount k v).mem = m.mem ∧
    (m.setCount k v).stk = m.stk ∧ (m.setCount k v).reg = m.reg ∧ (m.setCount k v).rng = m.rng ∧
    (m.setCount k v).cad = m.cad ∧ (m.setCount k v).site = m.site ∧ (m.setCount k v).core = m.core ∧
    (m.setCount k v).clk = m.clk ∧ (m.setCount k v).flt = m.flt ∧ (m.setCount k v).swp = m.swp ∧
    (m.setCount k v).lnk = m.lnk ∧ (m.setCount k v).trv = m.trv ∧ (m.setCount k v).hp = m.hp ∧
    (m.setCount k v).sec = m.sec ∧ (m.setCount k v).pwr = m.pwr ∧ (m.setCount k v).age = m.age ∧
    (m.setCount k v).lat = m.lat ∧ (m.setCount k v).out = m.out ∧
    (m.setCount k v).fb = { m.fb with ctr := sput m.fb.ctr k (v % 2 ^ (8 * lenOf k)) } := by
  simp [Mach.setCount]

@[simp] theorem Mach.bump_frame (m : Mach) (k n : Nat) :
    (m.bump k n).die = m.die ∧ (m.bump k n).grid = m.grid ∧ (m.bump k n).mem = m.mem ∧ (m.bump k n).stk = m.stk ∧
    (m.bump k n).reg = m.reg ∧ (m.bump k n).rng = m.rng ∧ (m.bump k n).cad = m.cad ∧ (m.bump k n).site = m.site ∧
    (m.bump k n).core = m.core ∧ (m.bump k n).clk = m.clk ∧ (m.bump k n).flt = m.flt ∧ (m.bump k n).swp = m.swp ∧
    (m.bump k n).lnk = m.lnk ∧ (m.bump k n).trv = m.trv ∧ (m.bump k n).hp = m.hp ∧ (m.bump k n).sec = m.sec ∧
    (m.bump k n).pwr = m.pwr ∧ (m.bump k n).age = m.age ∧ (m.bump k n).lat = m.lat ∧ (m.bump k n).out = m.out ∧
    (m.bump k n).fb = { m.fb with ctr := sput m.fb.ctr k ((m.count k + n) % 2 ^ (8 * lenOf k)) } := by
  simp [Mach.bump]

@[simp] theorem Mach.setStack_frame (m : Mach) (s : Nat) (x : Stack) :
    (m.setStack s x).fb = m.fb ∧ (m.setStack s x).die = m.die ∧ (m.setStack s x).grid = m.grid ∧
    (m.setStack s x).mem = m.mem ∧ (m.setStack s x).reg = m.reg ∧ (m.setStack s x).rng = m.rng ∧
    (m.setStack s x).cad = m.cad ∧ (m.setStack s x).site = m.site ∧ (m.setStack s x).core = m.core ∧
    (m.setStack s x).clk = m.clk ∧ (m.setStack s x).flt = m.flt ∧ (m.setStack s x).swp = m.swp ∧
    (m.setStack s x).lnk = m.lnk ∧ (m.setStack s x).trv = m.trv ∧ (m.setStack s x).hp = m.hp ∧
    (m.setStack s x).sec = m.sec ∧ (m.setStack s x).pwr = m.pwr ∧ (m.setStack s x).age = m.age ∧
    (m.setStack s x).lat = m.lat ∧ (m.setStack s x).out = m.out ∧
    (m.setStack s x).stk = { m.stk with dev := setAt m.stk.dev s x } := by
  simp [Mach.setStack]

@[simp] theorem Mach.setSiteAt_frame (m : Mach) (t : Nat) (x : Site) :
    (m.setSiteAt t x).fb = m.fb ∧ (m.setSiteAt t x).die = m.die ∧ (m.setSiteAt t x).grid = m.grid ∧
    (m.setSiteAt t x).mem = m.mem ∧ (m.setSiteAt t x).stk = m.stk ∧ (m.setSiteAt t x).reg = m.reg ∧
    (m.setSiteAt t x).rng = m.rng ∧ (m.setSiteAt t x).cad = m.cad ∧ (m.setSiteAt t x).core = m.core ∧
    (m.setSiteAt t x).clk = m.clk ∧ (m.setSiteAt t x).flt = m.flt ∧ (m.setSiteAt t x).swp = m.swp ∧
    (m.setSiteAt t x).lnk = m.lnk ∧ (m.setSiteAt t x).trv = m.trv ∧ (m.setSiteAt t x).hp = m.hp ∧
    (m.setSiteAt t x).sec = m.sec ∧ (m.setSiteAt t x).pwr = m.pwr ∧ (m.setSiteAt t x).age = m.age ∧
    (m.setSiteAt t x).lat = m.lat ∧ (m.setSiteAt t x).out = m.out ∧
    (m.setSiteAt t x).site = { m.site with dev := setAt m.site.dev t x } := by
  simp [Mach.setSiteAt]

@[simp] theorem Mach.setCoreAt_frame (m : Mach) (c : Nat) (x : Core) :
    (m.setCoreAt c x).fb = m.fb ∧ (m.setCoreAt c x).die = m.die ∧ (m.setCoreAt c x).grid = m.grid ∧
    (m.setCoreAt c x).mem = m.mem ∧ (m.setCoreAt c x).stk = m.stk ∧ (m.setCoreAt c x).reg = m.reg ∧
    (m.setCoreAt c x).rng = m.rng ∧ (m.setCoreAt c x).cad = m.cad ∧ (m.setCoreAt c x).site = m.site ∧
    (m.setCoreAt c x).clk = m.clk ∧ (m.setCoreAt c x).flt = m.flt ∧ (m.setCoreAt c x).swp = m.swp ∧
    (m.setCoreAt c x).lnk = m.lnk ∧ (m.setCoreAt c x).trv = m.trv ∧ (m.setCoreAt c x).hp = m.hp ∧
    (m.setCoreAt c x).sec = m.sec ∧ (m.setCoreAt c x).pwr = m.pwr ∧ (m.setCoreAt c x).age = m.age ∧
    (m.setCoreAt c x).lat = m.lat ∧ (m.setCoreAt c x).out = m.out ∧
    (m.setCoreAt c x).core = { m.core with dev := setAt m.core.dev c x } := by
  simp [Mach.setCoreAt]

@[simp] theorem Mach.setPort_frame (m : Mach) (p : Nat) (x : Port) :
    (m.setPort p x).fb = m.fb ∧ (m.setPort p x).die = m.die ∧ (m.setPort p x).grid = m.grid ∧
    (m.setPort p x).mem = m.mem ∧ (m.setPort p x).stk = m.stk ∧ (m.setPort p x).reg = m.reg ∧
    (m.setPort p x).rng = m.rng ∧ (m.setPort p x).cad = m.cad ∧ (m.setPort p x).site = m.site ∧
    (m.setPort p x).core = m.core ∧ (m.setPort p x).clk = m.clk ∧ (m.setPort p x).flt = m.flt ∧
    (m.setPort p x).swp = m.swp ∧ (m.setPort p x).trv = m.trv ∧ (m.setPort p x).hp = m.hp ∧
    (m.setPort p x).sec = m.sec ∧ (m.setPort p x).pwr = m.pwr ∧ (m.setPort p x).age = m.age ∧
    (m.setPort p x).lat = m.lat ∧ (m.setPort p x).out = m.out ∧
    (m.setPort p x).lnk = { m.lnk with dev := setAt m.lnk.dev p x } := by
  simp [Mach.setPort]

@[simp] theorem Mach.interruptBound_frame (m : Mach) (c b : Nat) :
    (m.interruptBound c b).fb = m.fb ∧ (m.interruptBound c b).die = m.die ∧ (m.interruptBound c b).grid = m.grid ∧
    (m.interruptBound c b).mem = m.mem ∧ (m.interruptBound c b).stk = m.stk ∧ (m.interruptBound c b).reg = m.reg ∧
    (m.interruptBound c b).rng = m.rng ∧ (m.interruptBound c b).cad = m.cad ∧
    (m.interruptBound c b).site = m.site ∧ (m.interruptBound c b).clk = m.clk ∧
    (m.interruptBound c b).flt = m.flt ∧ (m.interruptBound c b).swp = m.swp ∧ (m.interruptBound c b).lnk = m.lnk ∧
    (m.interruptBound c b).trv = m.trv ∧ (m.interruptBound c b).hp = m.hp ∧ (m.interruptBound c b).sec = m.sec ∧
    (m.interruptBound c b).pwr = m.pwr ∧ (m.interruptBound c b).age = m.age ∧ (m.interruptBound c b).lat = m.lat ∧
    (m.interruptBound c b).out = m.out := by
  simp [Mach.interruptBound]

@[simp] theorem Mach.addStanding_frame (m : Mach) (x : Standing) :
    (m.addStanding x).fb = m.fb ∧ (m.addStanding x).die = m.die ∧ (m.addStanding x).grid = m.grid ∧
    (m.addStanding x).mem = m.mem ∧ (m.addStanding x).stk = m.stk ∧ (m.addStanding x).reg = m.reg ∧
    (m.addStanding x).rng = m.rng ∧ (m.addStanding x).cad = m.cad ∧ (m.addStanding x).site = m.site ∧
    (m.addStanding x).core = m.core ∧ (m.addStanding x).clk = m.clk ∧ (m.addStanding x).swp = m.swp ∧
    (m.addStanding x).lnk = m.lnk ∧ (m.addStanding x).trv = m.trv ∧ (m.addStanding x).hp = m.hp ∧
    (m.addStanding x).sec = m.sec ∧ (m.addStanding x).pwr = m.pwr ∧ (m.addStanding x).age = m.age ∧
    (m.addStanding x).lat = m.lat ∧ (m.addStanding x).out = m.out := by
  simp [Mach.addStanding]

/-- A holding is kept in the holdings alone. -/
@[simp] theorem Mach.hold_frame (m : Mach) (f k : Nat) (p : Party) (c b : Nat) :
    (m.hold f k p c b).fb = m.fb ∧ (m.hold f k p c b).die = m.die ∧ (m.hold f k p c b).grid = m.grid ∧
    (m.hold f k p c b).mem = m.mem ∧ (m.hold f k p c b).stk = m.stk ∧ (m.hold f k p c b).reg = m.reg ∧
    (m.hold f k p c b).rng = m.rng ∧ (m.hold f k p c b).cad = m.cad ∧ (m.hold f k p c b).site = m.site ∧
    (m.hold f k p c b).core = m.core ∧ (m.hold f k p c b).clk = m.clk ∧ (m.hold f k p c b).swp = m.swp ∧
    (m.hold f k p c b).lnk = m.lnk ∧ (m.hold f k p c b).trv = m.trv ∧ (m.hold f k p c b).hp = m.hp ∧
    (m.hold f k p c b).sec = m.sec ∧ (m.hold f k p c b).pwr = m.pwr ∧ (m.hold f k p c b).age = m.age ∧
    (m.hold f k p c b).lat = m.lat ∧ (m.hold f k p c b).out = m.out := by
  simp [Mach.hold]

@[simp] theorem Mach.unhold_frame (m : Mach) (p : Holding → Bool) :
    (m.unhold p).fb = m.fb ∧ (m.unhold p).die = m.die ∧ (m.unhold p).grid = m.grid ∧ (m.unhold p).mem = m.mem ∧
    (m.unhold p).stk = m.stk ∧ (m.unhold p).reg = m.reg ∧ (m.unhold p).rng = m.rng ∧ (m.unhold p).cad = m.cad ∧
    (m.unhold p).site = m.site ∧ (m.unhold p).core = m.core ∧ (m.unhold p).clk = m.clk ∧
    (m.unhold p).swp = m.swp ∧ (m.unhold p).lnk = m.lnk ∧ (m.unhold p).trv = m.trv ∧ (m.unhold p).hp = m.hp ∧
    (m.unhold p).sec = m.sec ∧ (m.unhold p).pwr = m.pwr ∧ (m.unhold p).age = m.age ∧ (m.unhold p).lat = m.lat ∧
    (m.unhold p).out = m.out := by
  simp [Mach.unhold]

@[simp] theorem Mach.unholdFirst_frame (m : Mach) (p : Holding → Bool) :
    (m.unholdFirst p).fb = m.fb ∧ (m.unholdFirst p).die = m.die ∧ (m.unholdFirst p).grid = m.grid ∧
    (m.unholdFirst p).mem = m.mem ∧ (m.unholdFirst p).stk = m.stk ∧ (m.unholdFirst p).reg = m.reg ∧
    (m.unholdFirst p).rng = m.rng ∧ (m.unholdFirst p).cad = m.cad ∧ (m.unholdFirst p).site = m.site ∧
    (m.unholdFirst p).core = m.core ∧ (m.unholdFirst p).clk = m.clk ∧ (m.unholdFirst p).swp = m.swp ∧
    (m.unholdFirst p).lnk = m.lnk ∧ (m.unholdFirst p).trv = m.trv ∧ (m.unholdFirst p).hp = m.hp ∧
    (m.unholdFirst p).sec = m.sec ∧ (m.unholdFirst p).pwr = m.pwr ∧ (m.unholdFirst p).age = m.age ∧
    (m.unholdFirst p).lat = m.lat ∧ (m.unholdFirst p).out = m.out := by
  unfold Mach.unholdFirst; split <;> simp

/-- ALERT_N is shown outside and nothing else moves. -/
@[simp] theorem Mach.driveAlert_frame (old m : Mach) :
    (Mach.driveAlert old m).fb = m.fb ∧ (Mach.driveAlert old m).die = m.die ∧
    (Mach.driveAlert old m).grid = m.grid ∧ (Mach.driveAlert old m).mem = m.mem ∧
    (Mach.driveAlert old m).stk = m.stk ∧ (Mach.driveAlert old m).reg = m.reg ∧
    (Mach.driveAlert old m).rng = m.rng ∧ (Mach.driveAlert old m).cad = m.cad ∧
    (Mach.driveAlert old m).site = m.site ∧ (Mach.driveAlert old m).core = m.core ∧
    (Mach.driveAlert old m).clk = m.clk ∧ (Mach.driveAlert old m).flt = m.flt ∧
    (Mach.driveAlert old m).swp = m.swp ∧ (Mach.driveAlert old m).lnk = m.lnk ∧
    (Mach.driveAlert old m).trv = m.trv ∧ (Mach.driveAlert old m).hp = m.hp ∧
    (Mach.driveAlert old m).sec = m.sec ∧ (Mach.driveAlert old m).pwr = m.pwr ∧
    (Mach.driveAlert old m).age = m.age ∧ (Mach.driveAlert old m).lat = m.lat := by
  unfold Mach.driveAlert; split <;> simp

/-- A history record is kept in the ledger alone, or counted as overwritten. -/
@[simp] theorem Mach.addHist_frame (m : Mach) (h : Hist) :
    (m.addHist h).die = m.die ∧ (m.addHist h).grid = m.grid ∧ (m.addHist h).mem = m.mem ∧
    (m.addHist h).stk = m.stk ∧ (m.addHist h).reg = m.reg ∧ (m.addHist h).rng = m.rng ∧
    (m.addHist h).cad = m.cad ∧ (m.addHist h).site = m.site ∧ (m.addHist h).core = m.core ∧
    (m.addHist h).clk = m.clk ∧ (m.addHist h).swp = m.swp ∧ (m.addHist h).lnk = m.lnk ∧
    (m.addHist h).trv = m.trv ∧ (m.addHist h).hp = m.hp ∧ (m.addHist h).sec = m.sec ∧ (m.addHist h).pwr = m.pwr ∧
    (m.addHist h).age = m.age ∧ (m.addHist h).lat = m.lat ∧ (m.addHist h).out = m.out ∧
    (m.addHist h).fb.evseq = m.fb.evseq ∧ (m.addHist h).fb.epoch = m.fb.epoch := by
  unfold Mach.addHist; dsimp only; split_ifs <;> simp

/-- A flit leaves on the bridge: its sequence, its replay entry and the output. -/
@[simp] theorem Mach.putBridge_frame (m : Mach) (f c l a : Nat) (d : Bytes) :
    (m.putBridge f c l a d).fb = m.fb ∧ (m.putBridge f c l a d).grid = m.grid ∧
    (m.putBridge f c l a d).mem = m.mem ∧ (m.putBridge f c l a d).stk = m.stk ∧
    (m.putBridge f c l a d).reg = m.reg ∧ (m.putBridge f c l a d).rng = m.rng ∧
    (m.putBridge f c l a d).cad = m.cad ∧ (m.putBridge f c l a d).site = m.site ∧
    (m.putBridge f c l a d).core = m.core ∧ (m.putBridge f c l a d).clk = m.clk ∧
    (m.putBridge f c l a d).flt = m.flt ∧ (m.putBridge f c l a d).swp = m.swp ∧
    (m.putBridge f c l a d).lnk = m.lnk ∧ (m.putBridge f c l a d).trv = m.trv ∧
    (m.putBridge f c l a d).hp = m.hp ∧ (m.putBridge f c l a d).sec = m.sec ∧
    (m.putBridge f c l a d).pwr = m.pwr ∧ (m.putBridge f c l a d).age = m.age ∧
    (m.putBridge f c l a d).lat = m.lat := by
  unfold Mach.putBridge; dsimp only; split_ifs <;> simp

/-- A flit leaves a bond module. -/
@[simp] theorem Mach.putFlit_frame (m : Mach) (t b op : Nat) (f : List Nat) (d : Bytes) :
    (m.putFlit t b op f d).die = m.die ∧ (m.putFlit t b op f d).grid = m.grid ∧
    (m.putFlit t b op f d).mem = m.mem ∧ (m.putFlit t b op f d).stk = m.stk ∧ (m.putFlit t b op f d).reg = m.reg ∧
    (m.putFlit t b op f d).rng = m.rng ∧ (m.putFlit t b op f d).cad = m.cad ∧
    (m.putFlit t b op f d).core = m.core ∧ (m.putFlit t b op f d).clk = m.clk ∧
    (m.putFlit t b op f d).flt = m.flt ∧ (m.putFlit t b op f d).swp = m.swp ∧ (m.putFlit t b op f d).lnk = m.lnk ∧
    (m.putFlit t b op f d).trv = m.trv ∧ (m.putFlit t b op f d).hp = m.hp ∧ (m.putFlit t b op f d).sec = m.sec ∧
    (m.putFlit t b op f d).pwr = m.pwr ∧ (m.putFlit t b op f d).age = m.age ∧ (m.putFlit t b op f d).lat = m.lat := by
  unfold Mach.putFlit Mach.showFlit; simp

@[simp] theorem Mach.sendFlit_frame (m : Mach) (t b op : Nat) (f : List Nat) (d : Bytes) :
    (m.sendFlit t b op f d).die = m.die ∧ (m.sendFlit t b op f d).grid = m.grid ∧
    (m.sendFlit t b op f d).mem = m.mem ∧ (m.sendFlit t b op f d).stk = m.stk ∧
    (m.sendFlit t b op f d).reg = m.reg ∧ (m.sendFlit t b op f d).rng = m.rng ∧
    (m.sendFlit t b op f d).cad = m.cad ∧ (m.sendFlit t b op f d).core = m.core ∧
    (m.sendFlit t b op f d).clk = m.clk ∧ (m.sendFlit t b op f d).flt = m.flt ∧
    (m.sendFlit t b op f d).swp = m.swp ∧ (m.sendFlit t b op f d).lnk = m.lnk ∧
    (m.sendFlit t b op f d).trv = m.trv ∧ (m.sendFlit t b op f d).hp = m.hp ∧
    (m.sendFlit t b op f d).sec = m.sec ∧ (m.sendFlit t b op f d).pwr = m.pwr ∧
    (m.sendFlit t b op f d).age = m.age ∧ (m.sendFlit t b op f d).lat = m.lat := by
  unfold Mach.sendFlit; dsimp only; split_ifs <;> simp

/-- What is shown on a port's lanes changes that port alone. -/
@[simp] theorem Mach.showFrame_frame (m : Mach) (p : Nat) (s : Sent) (n : Bool) :
    (m.showFrame p s n).fb = m.fb ∧ (m.showFrame p s n).die = m.die ∧ (m.showFrame p s n).grid = m.grid ∧
    (m.showFrame p s n).mem = m.mem ∧ (m.showFrame p s n).stk = m.stk ∧ (m.showFrame p s n).reg = m.reg ∧
    (m.showFrame p s n).rng = m.rng ∧ (m.showFrame p s n).cad = m.cad ∧ (m.showFrame p s n).site = m.site ∧
    (m.showFrame p s n).core = m.core ∧ (m.showFrame p s n).clk = m.clk ∧ (m.showFrame p s n).flt = m.flt ∧
    (m.showFrame p s n).swp = m.swp ∧ (m.showFrame p s n).trv = m.trv ∧ (m.showFrame p s n).hp = m.hp ∧
    (m.showFrame p s n).sec = m.sec ∧ (m.showFrame p s n).pwr = m.pwr ∧ (m.showFrame p s n).age = m.age ∧
    (m.showFrame p s n).lat = m.lat := by
  simp [Mach.showFrame]

/-- A frame leaves a link port. -/
@[simp] theorem Mach.putFrame_frame (m : Mach) (p c : Nat) (f : List Nat) (d : Bytes) :
    (m.putFrame p c f d).die = m.die ∧ (m.putFrame p c f d).grid = m.grid ∧ (m.putFrame p c f d).mem = m.mem ∧
    (m.putFrame p c f d).stk = m.stk ∧ (m.putFrame p c f d).reg = m.reg ∧ (m.putFrame p c f d).rng = m.rng ∧
    (m.putFrame p c f d).cad = m.cad ∧ (m.putFrame p c f d).site = m.site ∧ (m.putFrame p c f d).core = m.core ∧
    (m.putFrame p c f d).clk = m.clk ∧ (m.putFrame p c f d).flt = m.flt ∧ (m.putFrame p c f d).swp = m.swp ∧
    (m.putFrame p c f d).trv = m.trv ∧ (m.putFrame p c f d).hp = m.hp ∧ (m.putFrame p c f d).sec = m.sec ∧
    (m.putFrame p c f d).pwr = m.pwr ∧ (m.putFrame p c f d).age = m.age ∧ (m.putFrame p c f d).lat = m.lat := by
  unfold Mach.putFrame; dsimp only; split_ifs <;> simp

@[simp] theorem Mach.countStream_frame (m : Mach) (p d t b : Nat) :
    (m.countStream p d t b).fb = m.fb ∧ (m.countStream p d t b).die = m.die ∧
    (m.countStream p d t b).grid = m.grid ∧ (m.countStream p d t b).mem = m.mem ∧
    (m.countStream p d t b).stk = m.stk ∧ (m.countStream p d t b).reg = m.reg ∧
    (m.countStream p d t b).rng = m.rng ∧ (m.countStream p d t b).cad = m.cad ∧
    (m.countStream p d t b).site = m.site ∧ (m.countStream p d t b).core = m.core ∧
    (m.countStream p d t b).clk = m.clk ∧ (m.countStream p d t b).flt = m.flt ∧
    (m.countStream p d t b).swp = m.swp ∧ (m.countStream p d t b).lnk = m.lnk ∧
    (m.countStream p d t b).hp = m.hp ∧ (m.countStream p d t b).sec = m.sec ∧
    (m.countStream p d t b).pwr = m.pwr ∧ (m.countStream p d t b).age = m.age ∧
    (m.countStream p d t b).lat = m.lat ∧ (m.countStream p d t b).out = m.out := by
  unfold Mach.countStream; simp

@[simp] theorem Mach.sendFrame_frame (m : Mach) (p vc st : Nat) (d : Bytes) :
    (m.sendFrame p vc st d).die = m.die ∧ (m.sendFrame p vc st d).grid = m.grid ∧
    (m.sendFrame p vc st d).mem = m.mem ∧ (m.sendFrame p vc st d).stk = m.stk ∧
    (m.sendFrame p vc st d).reg = m.reg ∧ (m.sendFrame p vc st d).rng = m.rng ∧
    (m.sendFrame p vc st d).cad = m.cad ∧ (m.sendFrame p vc st d).site = m.site ∧
    (m.sendFrame p vc st d).core = m.core ∧ (m.sendFrame p vc st d).clk = m.clk ∧
    (m.sendFrame p vc st d).flt = m.flt ∧ (m.sendFrame p vc st d).swp = m.swp ∧
    (m.sendFrame p vc st d).hp = m.hp ∧ (m.sendFrame p vc st d).sec = m.sec ∧
    (m.sendFrame p vc st d).pwr = m.pwr ∧ (m.sendFrame p vc st d).age = m.age ∧
    (m.sendFrame p vc st d).lat = m.lat := by
  unfold Mach.sendFrame; dsimp only; split_ifs <;> simp

/-- A link message leaves a port, or waits for its training. -/
@[simp] theorem Mach.sendMsg_frame (m : Mach) (p ty : Nat) (b : List Nat) :
    (m.sendMsg p ty b).die = m.die ∧ (m.sendMsg p ty b).grid = m.grid ∧ (m.sendMsg p ty b).mem = m.mem ∧
    (m.sendMsg p ty b).stk = m.stk ∧ (m.sendMsg p ty b).reg = m.reg ∧ (m.sendMsg p ty b).rng = m.rng ∧
    (m.sendMsg p ty b).cad = m.cad ∧ (m.sendMsg p ty b).site = m.site ∧ (m.sendMsg p ty b).core = m.core ∧
    (m.sendMsg p ty b).clk = m.clk ∧ (m.sendMsg p ty b).flt = m.flt ∧ (m.sendMsg p ty b).swp = m.swp ∧
    (m.sendMsg p ty b).trv = m.trv ∧ (m.sendMsg p ty b).hp = m.hp ∧ (m.sendMsg p ty b).sec = m.sec ∧
    (m.sendMsg p ty b).pwr = m.pwr ∧ (m.sendMsg p ty b).age = m.age ∧ (m.sendMsg p ty b).lat = m.lat := by
  unfold Mach.sendMsg Mach.putMsg; dsimp only; split_ifs <;> simp

/-! Counters and configuration values are the Field Book's. -/

theorem Mach.count_congr {a b : Mach} (h : a.fb = b.fb) (k : Nat) : a.count k = b.count k := by unfold Mach.count; rw [h]
theorem Mach.cfg_congr {a b : Mach} (h : a.fb = b.fb) (k : Nat) : a.cfg k = b.cfg k := by
  unfold Mach.cfg Mach.runVal; rw [h]

/-- A counter that counts up reads one more modulo its width, and every other counter as before (R84). -/
theorem Mach.count_bump (m : Mach) (k n j : Nat) :
    (m.bump k n).count j = if j = k then (m.count k + n) % 2 ^ (8 * lenOf k) else m.count j := by
  simp only [Mach.count, Mach.bump_frame, sgetD_sput]

@[simp] theorem Mach.setDie_reads (m : Mach) (x : Die) (k : Nat) :
    (m.setDie x).count k = m.count k ∧ (m.setDie x).cfg k = m.cfg k ∧ (m.setDie x).runVal k = m.runVal k := ⟨rfl, rfl, rfl⟩
@[simp] theorem Mach.setGrid_reads (m : Mach) (x : Grid) (k : Nat) :
    (m.setGrid x).count k = m.count k ∧ (m.setGrid x).cfg k = m.cfg k ∧ (m.setGrid x).runVal k = m.runVal k := ⟨rfl, rfl, rfl⟩
@[simp] theorem Mach.setMem_reads (m : Mach) (x : Mem) (k : Nat) :
    (m.setMem x).count k = m.count k ∧ (m.setMem x).cfg k = m.cfg k ∧ (m.setMem x).runVal k = m.runVal k := ⟨rfl, rfl, rfl⟩
@[simp] theorem Mach.setStk_reads (m : Mach) (x : Stk) (k : Nat) :
    (m.setStk x).count k = m.count k ∧ (m.setStk x).cfg k = m.cfg k ∧ (m.setStk x).runVal k = m.runVal k := ⟨rfl, rfl, rfl⟩
@[simp] theorem Mach.setReg_reads (m : Mach) (x : Reg) (k : Nat) :
    (m.setReg x).count k = m.count k ∧ (m.setReg x).cfg k = m.cfg k ∧ (m.setReg x).runVal k = m.runVal k := ⟨rfl, rfl, rfl⟩
@[simp] theorem Mach.setRng_reads (m : Mach) (x : Rings) (k : Nat) :
    (m.setRng x).count k = m.count k ∧ (m.setRng x).cfg k = m.cfg k ∧ (m.setRng x).runVal k = m.runVal k := ⟨rfl, rfl, rfl⟩
@[simp] theorem Mach.setCad_reads (m : Mach) (x : Cad) (k : Nat) :
    (m.setCad x).count k = m.count k ∧ (m.setCad x).cfg k = m.cfg k ∧ (m.setCad x).runVal k = m.runVal k := ⟨rfl, rfl, rfl⟩
@[simp] theorem Mach.setSite_reads (m : Mach) (x : Sites) (k : Nat) :
    (m.setSite x).count k = m.count k ∧ (m.setSite x).cfg k = m.cfg k ∧ (m.setSite x).runVal k = m.runVal k := ⟨rfl, rfl, rfl⟩
@[simp] theorem Mach.setCore_reads (m : Mach) (x : Cores) (k : Nat) :
    (m.setCore x).count k = m.count k ∧ (m.setCore x).cfg k = m.cfg k ∧ (m.setCore x).runVal k = m.runVal k := ⟨rfl, rfl, rfl⟩
@[simp] theorem Mach.setClk_reads (m : Mach) (x : Clk) (k : Nat) :
    (m.setClk x).count k = m.count k ∧ (m.setClk x).cfg k = m.cfg k ∧ (m.setClk x).runVal k = m.runVal k := ⟨rfl, rfl, rfl⟩
@[simp] theorem Mach.setFlt_reads (m : Mach) (x : Flt) (k : Nat) :
    (m.setFlt x).count k = m.count k ∧ (m.setFlt x).cfg k = m.cfg k ∧ (m.setFlt x).runVal k = m.runVal k := ⟨rfl, rfl, rfl⟩
@[simp] theorem Mach.setSwp_reads (m : Mach) (x : Swp) (k : Nat) :
    (m.setSwp x).count k = m.count k ∧ (m.setSwp x).cfg k = m.cfg k ∧ (m.setSwp x).runVal k = m.runVal k := ⟨rfl, rfl, rfl⟩
@[simp] theorem Mach.setLnk_reads (m : Mach) (x : Links) (k : Nat) :
    (m.setLnk x).count k = m.count k ∧ (m.setLnk x).cfg k = m.cfg k ∧ (m.setLnk x).runVal k = m.runVal k := ⟨rfl, rfl, rfl⟩
@[simp] theorem Mach.setTrv_reads (m : Mach) (x : Travs) (k : Nat) :
    (m.setTrv x).count k = m.count k ∧ (m.setTrv x).cfg k = m.cfg k ∧ (m.setTrv x).runVal k = m.runVal k := ⟨rfl, rfl, rfl⟩
@[simp] theorem Mach.setHp_reads (m : Mach) (x : Hps) (k : Nat) :
    (m.setHp x).count k = m.count k ∧ (m.setHp x).cfg k = m.cfg k ∧ (m.setHp x).runVal k = m.runVal k := ⟨rfl, rfl, rfl⟩
@[simp] theorem Mach.setSec_reads (m : Mach) (x : Sec) (k : Nat) :
    (m.setSec x).count k = m.count k ∧ (m.setSec x).cfg k = m.cfg k ∧ (m.setSec x).runVal k = m.runVal k := ⟨rfl, rfl, rfl⟩
@[simp] theorem Mach.setPwr_reads (m : Mach) (x : Pwr) (k : Nat) :
    (m.setPwr x).count k = m.count k ∧ (m.setPwr x).cfg k = m.cfg k ∧ (m.setPwr x).runVal k = m.runVal k := ⟨rfl, rfl, rfl⟩
@[simp] theorem Mach.setAge_reads (m : Mach) (x : Age) (k : Nat) :
    (m.setAge x).count k = m.count k ∧ (m.setAge x).cfg k = m.cfg k ∧ (m.setAge x).runVal k = m.runVal k := ⟨rfl, rfl, rfl⟩
@[simp] theorem Mach.setLat_reads (m : Mach) (x : Latch) (k : Nat) :
    (m.setLat x).count k = m.count k ∧ (m.setLat x).cfg k = m.cfg k ∧ (m.setLat x).runVal k = m.runVal k := ⟨rfl, rfl, rfl⟩
@[simp] theorem Mach.setOut_reads (m : Mach) (x : List Emit) (k : Nat) :
    (m.setOut x).count k = m.count k ∧ (m.setOut x).cfg k = m.cfg k ∧ (m.setOut x).runVal k = m.runVal k := ⟨rfl, rfl, rfl⟩

end Sys2Proof.Machine
end

