-- ==== Sys2Proof/Laws/Events.lean ====
section
/-! SUPPORT. Event records and the ledger: what making one leaves alone. -/
namespace Sys2Proof.Machine

/-- A translation changes the cache of its interface and the counter of misses. -/
theorem Mach.xlate_frame (m : Mach) (o : Origin) (c va : Nat) :
    ∃ ctr tc, (m.xlate o c va).1 = (m.setFb { m.fb with ctr }).setGrid { m.grid with tcache := tc } := by
  unfold Mach.xlate
  split
  · exact ⟨_, _, rfl⟩
  · dsimp only
    split_ifs
    · exact ⟨m.fb.ctr, _, rfl⟩
    · exact ⟨_, _, rfl⟩

/-- A record written at the surveyor's port is a write of memory beside the counters and the port's translation cache. -/
theorem Mach.recordWrite_frame (m : Mach) (e fl c va : Nat) (d : Bytes) :
    ∃ ctr tc, (m.recordWrite e fl c va d).1.sameButMem ((m.setFb { m.fb with ctr }).setGrid { m.grid with tcache := tc }) := by
  obtain ⟨ctr, tc, h⟩ := Mach.xlate_frame m (.port fl 47 0) c va
  unfold Mach.recordWrite
  dsimp only
  generalize m.xlate (.port fl 47 0) c va = x at h ⊢
  obtain ⟨w, y⟩ := x
  dsimp only at h
  subst h
  split
  · split_ifs
    · exact ⟨_, _, Mach.writeMem_frame _ _ _ _ _ _⟩
    · exact ⟨_, _, Mach.writeMem_frame _ _ _ _ _ _⟩
  · exact ⟨_, _, Mach.writeMem_frame _ _ _ _ _ _⟩

/-- A record in a context's event area leaves everything but memory, the context's counts, interrupts, and the counters and cache of
its translation alone. -/
theorem Mach.eventToArea_frame (m : Mach) (e : Event) :
    { (m.eventToArea e).fb with ctr := m.fb.ctr } = m.fb ∧
    (m.eventToArea e).grid.seg = m.grid.seg ∧ (m.eventToArea e).reg = m.reg ∧
    (m.eventToArea e).cad = m.cad ∧ (m.eventToArea e).site = m.site ∧ (m.eventToArea e).clk = m.clk ∧
    (m.eventToArea e).flt = m.flt ∧ (m.eventToArea e).swp = m.swp ∧ (m.eventToArea e).lnk = m.lnk ∧
    (m.eventToArea e).trv = m.trv ∧ (m.eventToArea e).hp = m.hp ∧ (m.eventToArea e).sec = m.sec ∧
    (m.eventToArea e).pwr = m.pwr ∧ (m.eventToArea e).age = m.age ∧ (m.eventToArea e).lat = m.lat ∧
    (m.eventToArea e).stk.keys = m.stk.keys ∧ (m.eventToArea e).stk.dev = m.stk.dev ∧
    (m.eventToArea e).die.lost = m.die.lost ∧ (m.eventToArea e).die.state = m.die.state ∧
    (m.eventToArea e).rng.rings = m.rng.rings ∧ (m.eventToArea e).rng.items = m.rng.items ∧
    (m.eventToArea e).rng.owed = m.rng.owed ∧ (m.eventToArea e).rng.marks = m.rng.marks := by
  unfold Mach.eventToArea
  split
  · simp
  · rename_i x _
    split
    · simp
    · dsimp only
      generalize (if m.floorLost 0 = true then 1 else 0) = fl
      obtain ⟨ctr, tc, h⟩ := Mach.recordWrite_frame m m.fb.epoch fl e.ctx (x.evAddr + 32 * (x.evCount % 2 ^ x.evLog2)) e.bytes
      generalize m.recordWrite m.fb.epoch fl e.ctx (x.evAddr + 32 * (x.evCount % 2 ^ x.evLog2)) e.bytes = r at h
      obtain ⟨⟨h1, h2, h3, h4, h5, h6, h7, h8, h9, h10, h11, h12, h13, h14, h15, h16⟩, g, h17, h18, h19, h20, h21, h22⟩ := h
      have g' := congrArg Grid.seg g
      simp only [Mach.setGrid_grid] at g'
      split_ifs <;> simp [h1, h2, h3, h4, h5, h7, h8, h9, h10, h11, h12, h13, h14, h15, h16, g', h17, h18, h19, h20]

/-- A record of no context, and one of a context whose area takes none of its class, changes nothing. -/
theorem Mach.eventToArea_none (m : Mach) (e : Event) (h : e.ctx = 0) : m.eventToArea e = m := by
  unfold Mach.eventToArea
  split
  · rfl
  · simp [h]

/-- An event record that names no context changes the Field Book alone: its events, console lines and queues. -/
theorem Mach.event_none (m : Mach) (c k v : Nat) (u : UnitRef) (d : Nat) :
    m.event c k v u 0 d = m.setFb (m.event c k v u 0 d).fb := by
  unfold Mach.event
  rw [Mach.eventToArea_none _ _ rfl]
  rfl

/-- What an event record leaves alone of the Field Book. -/
theorem Mach.event_fb (m : Mach) (c k v : Nat) (u : UnitRef) (x d : Nat) :
    { (m.event c k v u x d).fb with
      evseq := m.fb.evseq, events := m.fb.events, lines := m.fb.lines, sessions := m.fb.sessions, ctr := m.fb.ctr } = m.fb ∧
    (m.event c k v u x d).fb.evseq = (m.fb.evseq + 1) % 2 ^ 32 := by
  unfold Mach.event
  dsimp only
  generalize he : m.setFb _ = a
  have h := fun e => (Mach.eventToArea_frame a e).1
  refine ⟨?_, (congrArg Fb.evseq (h _)).trans (by subst he; rfl)⟩
  have h := h
  have k := fun e => congrArg (fun f : Fb => { f with evseq := m.fb.evseq, events := m.fb.events, lines := m.fb.lines, sessions := m.fb.sessions, ctr := m.fb.ctr }) (h e)
  refine (k _).trans ?_
  subst he
  rfl

@[simp] theorem Mach.event_epoch (m : Mach) (c k v : Nat) (u : UnitRef) (x d : Nat) :
    (m.event c k v u x d).fb.epoch = m.fb.epoch := by
  have h := congrArg Fb.epoch (Mach.event_fb m c k v u x d).1
  exact h

/-- An event record leaves everything but the Field Book's events and queues, memory, the context's counts and interrupts alone. -/
theorem Mach.event_frame (m : Mach) (c k v : Nat) (u : UnitRef) (x d : Nat) :
    (m.event c k v u x d).grid.seg = m.grid.seg ∧ (m.event c k v u x d).reg = m.reg ∧ (m.event c k v u x d).cad = m.cad ∧
    (m.event c k v u x d).site = m.site ∧ (m.event c k v u x d).clk = m.clk ∧ (m.event c k v u x d).flt = m.flt ∧
    (m.event c k v u x d).swp = m.swp ∧ (m.event c k v u x d).lnk = m.lnk ∧ (m.event c k v u x d).trv = m.trv ∧
    (m.event c k v u x d).hp = m.hp ∧ (m.event c k v u x d).sec = m.sec ∧ (m.event c k v u x d).pwr = m.pwr ∧
    (m.event c k v u x d).age = m.age ∧ (m.event c k v u x d).lat = m.lat ∧
    (m.event c k v u x d).stk.keys = m.stk.keys ∧ (m.event c k v u x d).stk.dev = m.stk.dev ∧
    (m.event c k v u x d).die.lost = m.die.lost ∧ (m.event c k v u x d).die.state = m.die.state ∧
    (m.event c k v u x d).rng.rings = m.rng.rings ∧ (m.event c k v u x d).rng.items = m.rng.items ∧
    (m.event c k v u x d).rng.owed = m.rng.owed ∧ (m.event c k v u x d).rng.marks = m.rng.marks := by
  unfold Mach.event
  have h := fun (a : Mach) e => (Mach.eventToArea_frame a e).2
  dsimp only
  exact ⟨(h _ _).1, (h _ _).2.1, (h _ _).2.2.1, (h _ _).2.2.2.1, (h _ _).2.2.2.2.1, (h _ _).2.2.2.2.2.1, (h _ _).2.2.2.2.2.2⟩

/-- A fault reported changes the ledger, ALERT_N and what an event record changes. -/
theorem Mach.ledger_frame (m : Mach) (c k o : Nat) (u : UnitRef) (s i x d p : Nat) :
    (m.ledger c k o u s i x d p).grid.seg = m.grid.seg ∧ (m.ledger c k o u s i x d p).reg = m.reg ∧
    (m.ledger c k o u s i x d p).cad = m.cad ∧ (m.ledger c k o u s i x d p).site = m.site ∧
    (m.ledger c k o u s i x d p).clk = m.clk ∧ (m.ledger c k o u s i x d p).swp = m.swp ∧
    (m.ledger c k o u s i x d p).lnk = m.lnk ∧ (m.ledger c k o u s i x d p).trv = m.trv ∧
    (m.ledger c k o u s i x d p).hp = m.hp ∧ (m.ledger c k o u s i x d p).sec = m.sec ∧
    (m.ledger c k o u s i x d p).pwr = m.pwr ∧ (m.ledger c k o u s i x d p).age = m.age ∧
    (m.ledger c k o u s i x d p).lat = m.lat ∧ (m.ledger c k o u s i x d p).stk.keys = m.stk.keys ∧
    (m.ledger c k o u s i x d p).stk.dev = m.stk.dev ∧ (m.ledger c k o u s i x d p).die.lost = m.die.lost ∧
    (m.ledger c k o u s i x d p).die.state = m.die.state ∧
    (m.ledger c k o u s i x d p).rng.rings = m.rng.rings ∧ (m.ledger c k o u s i x d p).rng.items = m.rng.items ∧
    (m.ledger c k o u s i x d p).rng.owed = m.rng.owed ∧ (m.ledger c k o u s i x d p).rng.marks = m.rng.marks ∧
    (m.ledger c k o u s i x d p).fb.evseq = (m.fb.evseq + 1) % 2 ^ 32 ∧
    (m.ledger c k o u s i x d p).fb.epoch = m.fb.epoch := by
  unfold Mach.ledger
  simp [Mach.event_frame, (Mach.event_fb _ _ _ _ _ _ _).2]

end Sys2Proof.Machine
end

