-- ==== Sys2Proof/Laws/Runs.lean ====
section
/-! SUPPORT. How a command is shown to run to its end. -/
namespace Sys2Proof.Machine

/-- A meaning that is a `runFz` completes with whatever its effect meets. -/
theorem completes_runFz {i : Instr} {s : State} {f : Fuses → Mach → Mach} {p : Mach → Prop} (h : exec i s = runFz s f)
    (hp : p (f s.fuses s.hw)) : completes i s p :=
  ⟨_, h, rfl, rfl, le_max_left _ _, hp⟩

/-- A meaning that is a `runFzIf` completes when its unit exists. -/
theorem completes_runFzIf {i : Instr} {s : State} {ok : Bool} {f : Fuses → Mach → Mach} {p : Mach → Prop}
    (h : exec i s = runFzIf ok s f) (hok : ok = true) (hp : p (f s.fuses s.hw)) : completes i s p :=
  completes_runFz (h.trans (runFzIf_true hok s f)) hp

/-- A meaning that is a `run` completes with whatever its effect meets. -/
theorem completes_run {i : Instr} {s : State} {f : Mach → Mach} {p : Mach → Prop} (h : exec i s = run s f)
    (hp : p (f s.hw)) : completes i s p := completes_runFz h hp

/-- A meaning that is a `runIf` completes when its unit exists. -/
theorem completes_runIf {i : Instr} {s : State} {ok : Bool} {f : Mach → Mach} {p : Mach → Prop}
    (h : exec i s = runIf ok s f) (hok : ok = true) (hp : p (f s.hw)) : completes i s p := completes_runFzIf h hok hp

end Sys2Proof.Machine
end

