-- ==== Sys2Proof/Tests/Slice0.lean ====
section
/-! SUPPORT. Tests: ill-formed commands that their checks refuse, small cases from the spec, and a state that meets the hypotheses of
each obligation. -/
section
open Sys2Proof Sys2Proof.Machine
set_option Elab.async false

/-- A frame, a flit, an atomic word and a link frame whose fields fit. -/
def tFrame : Frame := { ty := 0, length := 0, reqId := 0, payload := [] }
def tFlit : Flit := { op := 0 }
def tAtom : AtomArgs := { party := ⟨2, 0⟩, floor := 0, ctx := 0, va := 0 }
def tLinkFrame : LinkFrame := { seq := 0 }

/-- Each field of a frame, flit, atomic word or message that does not fit its bits is refused (Tables 2.7, 8.4, 10.3, 10.5, 12.2). -/
theorem test_fieldsFit : (
  [Frame.fits { tFrame with version := 256 }, Frame.fits { tFrame with ty := 256 }, Frame.fits { tFrame with flags := 256 }, Frame.fits { tFrame with status := 256 },
   Frame.fits { tFrame with length := 2 ^ 32 }, Frame.fits { tFrame with reqId := 2 ^ 32 }, Frame.fits { tFrame with rsvd := 2 ^ 32 }, Flit.fits { tFlit with op := 64 },
   Flit.fits { tFlit with rsvd := 2 }, Flit.fits { tFlit with ctx := 4096 }, Flit.fits { tFlit with tag := 65536 }, Flit.fits { tFlit with addr := 2 ^ 40 },
   Flit.fits { tFlit with len := 512 }, Flit.fits { tFlit with crClass := 8 }, Flit.fits { tFlit with crCount := 256 }, Flit.fits { tFlit with operand := 2 ^ 32 },
   Flit.fits { tFlit with data := List.replicate 257 0 }, AtomArgs.fits { tAtom with fmt := 16 }, AtomArgs.fits { tAtom with party := ⟨2, 32⟩ }, AtomArgs.fits { tAtom with ofmt := 4 },
   AtomArgs.fits { tAtom with cnt := 8 }, AtomArgs.fits { tAtom with rsvd := 8192 }, SbMsg.fits { version := 256 }, SbMsg.fits { seq := 65536 },
   LinkMsg.fits { version := 256 }, LinkMsg.fits { ty := 256 }, LinkMsg.fits { rsvd := 2 ^ 24 }] : List Bool).all (!·) = true := by
  decide +kernel

theorem test_fieldsFit_link : (
  [LinkMsg.fits { sender := 65536 }, LinkMsg.fits { senderPort := 256 }, LinkMsg.fits { body := 2 ^ 192 },
   LinkFrame.fits { tLinkFrame with seq := 4096 }, LinkFrame.fits { tLinkFrame with ack := 4096 }, LinkFrame.fits { tLinkFrame with kind := 8 }, LinkFrame.fits { tLinkFrame with vc := 4 },
   LinkFrame.fits { tLinkFrame with creditVc := 4 }, LinkFrame.fits { tLinkFrame with credit := 256 }, LinkFrame.fits { tLinkFrame with chainLo := 65536 },
   LinkFrame.fits { tLinkFrame with bytes := 512 }, LinkFrame.fits { tLinkFrame with stream := 32768 }, LinkFrame.fits { tLinkFrame with payload := List.replicate 257 0 },
   LinkFrame.fits { tLinkFrame with crc := 2 ^ 32 }, LinkFrame.fits { tLinkFrame with tag := 2 ^ 128 }, SbMsg.fits { crc := 2 ^ 32 }, SbMsg.fits { rsvd := 65536 },
   (Rq.session 8).fits, (Rq.hostPort 2).fits, (Rq.core 32).fits, (Rq.member 128).fits, (Rq.item 32768 0 0).fits,
   (Rq.item 0 (2 ^ 48) 0).fits, (Rq.item 0 0 4096).fits] : List Bool).all (!·) = true := by decide +kernel

/-- Each of these commands breaks one check of its well-formedness, and is refused by it (Table 0.2). -/
theorem test_illFormed_1 : (
  [.tlsConnect 2 0 0 {}, .tlsConnect 0 (2 ^ 384) 0 {}, .tlsConnect 0 0 (2 ^ 384) {}, .hello 8 tFrame,
   .hello 0 { tFrame with version := 256 }, .fbRead (.session 8) tFrame,
   .fbRead (.session 0) { tFrame with version := 256 }, .describe (.session 8) tFrame,
   .describe (.session 0) { tFrame with version := 256 }, .writeDirect (.session 8) tFrame,
   .writeDirect (.session 0) { tFrame with version := 256 }, .writeDraft (.session 8) tFrame,
   .writeDraft (.session 0) { tFrame with version := 256 }, .writeStoredLayer (.session 8) tFrame,
   .writeStoredLayer (.session 0) { tFrame with version := 256 }, .subscribe 8 tFrame,
   .subscribe 0 { tFrame with version := 256 }, .unsubscribe 8 tFrame, .unsubscribe 0 { tFrame with version := 256 },
   .ping 8 tFrame, .ping 0 { tFrame with version := 256 }, .bye 8 tFrame, .bye 0 { tFrame with version := 256 },
   .sessionIdleTimeout 8 0, .draftOpen (.session 0) (2 ^ 32) [] {}, .draftOpen (.session 8) 0 [] {},
   .draftDiscard (.session 0) (2 ^ 32) [] {}, .draftDiscard (.session 8) 0 [] {},
   .commit (.session 0) (2 ^ 32) [] {}, .commit (.session 8) 0 [] {}, .licenceInstall (.session 0) (2 ^ 32) [] {},
   .licenceInstall (.session 8) 0 [] {}, .licenceRemove (.session 0) (2 ^ 32) [] {},
   .licenceRemove (.session 8) 0 [] {}, .saveRunning (.session 0) (2 ^ 32) [] {}, .saveRunning (.session 8) 0 [] {}] : List Instr).all (fun i => !i.wellFormed) = true := by decide +kernel

/-- Each of these commands breaks one check of its well-formedness, and is refused by it (Table 0.2). -/
theorem test_illFormed_2 : (
  [.sheetClear 8 (.session 0) 0 [] {}, .sheetClear 0 (.session 0) (2 ^ 32) [] {}, .sheetClear 0 (.session 8) 0 [] {},
   .counterClear (.session 0) (2 ^ 32) [] {}, .counterClear (.session 8) 0 [] {},
   .sensorRead (.session 0) (2 ^ 32) [] {}, .sensorRead (.session 8) 0 [] {},
   .eyeHistoryRead (.session 0) (2 ^ 32) [] {}, .eyeHistoryRead (.session 8) 0 [] {},
   .monitorSlackRead (.session 0) (2 ^ 32) [] {}, .monitorSlackRead (.session 8) 0 [] {},
   .ringCounters (.session 0) (2 ^ 32) [] {}, .ringCounters (.session 8) 0 [] {},
   .streamCounters (.session 0) (2 ^ 32) [] {}, .streamCounters (.session 8) 0 [] {},
   .legCounters (.session 0) (2 ^ 32) [] {}, .legCounters (.session 8) 0 [] {},
   .myRingCounters (.session 0) (2 ^ 32) [] {}, .myRingCounters (.session 8) 0 [] {},
   .myCoreCounters (.session 0) (2 ^ 32) [] {}, .myCoreCounters (.session 8) 0 [] {}, .sidebandStateMessage 2 0,
   .sidebandStateMessage 0 5, .dieReadmit 2 false {}, .bridgeFlitReceive 2 0 (List.replicate 272 0),
   .bridgeFlitReceive 0 (2 ^ 128) (List.replicate 272 0), .bridgeFlitReceive 0 0 [], .bridgeNakReceive 2 0,
   .bridgeNakReceive 0 4096, .bridgeLaneSpare 2 0 0 0, .bridgeLaneSpare 0 64 0 0,
   .fill { (⟨0, 0⟩ : FillReq) with ctx := 4096 } 0 0 Ecc.clean,
   .fill { (⟨0, 0⟩ : FillReq) with epoch := 2 ^ 32 } 0 0 Ecc.clean, .fill (⟨0, 0⟩ : FillReq) 0 16 Ecc.clean,
   .fill (⟨0, 0⟩ : FillReq) (2 ^ 47) 0 Ecc.clean, .dataMsg 2 0 0 []] : List Instr).all (fun i => !i.wellFormed) = true := by decide +kernel

/-- Each of these commands breaks one check of its well-formedness, and is refused by it (Table 0.2). -/
theorem test_illFormed_3 : (
  [.dataMsg 0 (2 ^ 47) 0 [], .invMsg 2 0, .invMsg 0 (2 ^ 47), .invAck 2 0, .invAck 0 (2 ^ 47),
   .rlcFlush (.session 0) (2 ^ 32) [] {}, .rlcFlush (.session 8) 0 [] {}, .gridRead 2 0 0 0 0 1 0 0 Ecc.clean false,
   .gridRead 0 48 0 0 0 1 0 0 Ecc.clean false, .gridRead 0 0 0 4096 0 1 0 0 Ecc.clean false,
   .gridRead 0 0 0 0 (2 ^ 40) 1 0 0 Ecc.clean false, .gridRead 0 0 0 0 0 0 0 0 Ecc.clean false,
   .gridWrite 2 0 0 0 0 [1] false Ecc.clean false, .gridWrite 0 48 0 0 0 [1] false Ecc.clean false,
   .gridWrite 0 0 0 4096 0 [1] false Ecc.clean false, .gridWrite 0 0 0 0 (2 ^ 40) [1] false Ecc.clean false,
   .gridWrite 0 0 0 0 0 [] false Ecc.clean false, .agePromote 320 0 0, .bufScrub 128 0 Ecc.clean,
   .bufScrub 0 32768 Ecc.clean, .sliceCeRetire 128, .segmapWrite (.session 0) (2 ^ 32) [] {},
   .segmapWrite (.session 8) 0 [] {}, .segmapRecordDrained (.session 8), .segmapDrainTimeout (.session 8) 0,
   .segmapRead (.session 0) (2 ^ 32) [] {}, .segmapRead (.session 8) 0 [] {},
   .segmapClearContext (.session 0) (2 ^ 32) [] {}, .segmapClearContext (.session 8) 0 [] {},
   .stackAgePromote 192 0 0, .writeDrain 192, .rowNeighbourRefresh 0 0, .rowNeighbourRefresh (2 ^ 47) 0,
   .bankRefresh 204 0 0 false, .bankRefresh 0 64 0 false, .stackPatrol 6 0 Ecc.clean] : List Instr).all (fun i => !i.wellFormed) = true := by decide +kernel

/-- Each of these commands breaks one check of its well-formedness, and is refused by it (Table 0.2). -/
theorem test_illFormed_4 : (
  [.stackPatrol 0 32 Ecc.clean, .rowCopyDone 0, .rowCopyDone (2 ^ 47), .stackTempReport 6 0 [] 0,
   .stackTempReport 0 (2 ^ 16) [] 0, .stackTempReport 0 0 [2 ^ 16] 0, .stackReportMissed 6, .stackReportTimeout 6 0,
   .stackCapReached 192, .rekeySweepDone 4096, .oldKeyErase 4096, .channelCopyDone 192,
   .stackRetireList (.session 0) (2 ^ 32) [] {}, .stackRetireList (.session 8) 0 [] {},
   .rekeyQuery (.session 0) (2 ^ 32) [] {}, .rekeyQuery (.session 8) 0 [] {}, .masterBudgetReached 2 0 0,
   .masterBudgetReached 0 2 0, .masterBudgetReached 0 0 9, .sweep 32768, .sweepMerge 32768, .sweepDispatch 6,
   .sweepCombine 32768 0, .sweepCombine 0 (2 ^ 48), .engineFault 6 0, .engineFault 0 16, .sweepSessionOpen 32768,
   .sessionOpenDone 32768 0, .sessionOpenDone 0 (2 ^ 48), .sweepSessionClose 32768, .doorbellProduce 0 0 (2 ^ 64),
   .doorbellConsume 0 0 (2 ^ 64), .descriptorTake 32768, .orderedItemStart 32768 0, .orderedItemStart 0 (2 ^ 48),
   .fbRequest 32768 {}] : List Instr).all (fun i => !i.wellFormed) = true := by decide +kernel

/-- Each of these commands breaks one check of its well-formedness, and is refused by it (Table 0.2). -/
theorem test_illFormed_5 : (
  [.ringCreate (.session 0) (2 ^ 32) [] {}, .ringCreate (.session 8) 0 [] {},
   .ringDelete (.session 0) (2 ^ 32) [] {}, .ringDelete (.session 8) 0 [] {},
   .ringReopen (.session 0) (2 ^ 32) [] {}, .ringReopen (.session 8) 0 [] {}, .ringQuery (.session 0) (2 ^ 32) [] {},
   .ringQuery (.session 8) 0 [] {}, .ringLastMarks (.session 0) (2 ^ 32) [] {}, .ringLastMarks (.session 8) 0 [] {},
   .contextCreate (.session 0) (2 ^ 32) [] {}, .contextCreate (.session 8) 0 [] {},
   .contextDestroy (.session 0) (2 ^ 32) [] {}, .contextDestroy (.session 8) 0 [] {}, .contextDestroyFinish 4096,
   .contextQuery (.session 0) (2 ^ 32) [] {}, .contextQuery (.session 8) 0 [] {}, .linkFrameReceive 24 tLinkFrame {},
   .linkFrameReceive 0 { tLinkFrame with seq := 4096 } {}, .linkNakReceive 24 0, .linkNakReceive 0 4096,
   .linkNakRetrain 24 { oks := [] }, .linkTraining 24 0 0 0 {}, .partnerDetectTimeout 24 0,
   .linkBerWindow 24 0 0 0 0, .linkBerWindow 0 2 0 0 0, .linkBerWindow 0 0 9 0 0, .linkBerGate 24 [] 0 0,
   .discover 24 {}, .discover 0 { version := 256 }, .throttle 24 {}, .throttle 0 { version := 256 },
   .throttleExpire 24 0 0 0, .sleepNotice 24 {}, .sleepNotice 0 { version := 256 }, .downNotice 24 {}] : List Instr).all (fun i => !i.wellFormed) = true := by decide +kernel

/-- Each of these commands breaks one check of its well-formedness, and is refused by it (Table 0.2). -/
theorem test_illFormed_6 : (
  [.downNotice 0 { version := 256 }, .linkRetry 24 0, .linkRetrain (.session 0) (2 ^ 32) [] {},
   .linkRetrain (.session 8) 0 [] {}, .traverse 32768, .legStart 32768 0, .legStart 0 (2 ^ 48), .send 32768 0 0,
   .send 0 (2 ^ 48) 0, .recv 32768 0 0 [], .recv 0 (2 ^ 48) 0 [], .forward 32768 0 0 [], .forward 0 (2 ^ 48) 0 [],
   .reduceRecv 32768 0 0 [], .reduceRecv 0 (2 ^ 48) 0 [], .emaxSend 32768 0 0, .emaxSend 0 (2 ^ 48) 0,
   .emaxRecv 32768 0 0 [], .emaxRecv 0 (2 ^ 48) 0 [], .grant 32768 0 0, .grant 0 (2 ^ 48) 0, .waitCredit 32768 0 0,
   .waitCredit 0 (2 ^ 48) 0, .atomicSend 32768 0 0, .atomicSend 0 (2 ^ 48) 0, .atomicRecv 32768 0 0 [],
   .atomicRecv 0 (2 ^ 48) 0 [], .unclaimedHoldExpire 24 0 0, .unclaimedHoldExpire 0 32768 0, .creditNotice 24 {},
   .creditNotice 0 { version := 256 }, .holdNotice 24 {}, .holdNotice 0 { version := 256 },
   .holdNoticeSend 32768 0 0 none, .holdNoticeSend 0 (2 ^ 48) 0 none, .failNotice 24 {}] : List Instr).all (fun i => !i.wellFormed) = true := by decide +kernel

/-- Each of these commands breaks one check of its well-formedness, and is refused by it (Table 0.2). -/
theorem test_illFormed_7 : (
  [.failNotice 0 { version := 256 }, .failNoticeForget 24 0 0, .failNoticeForget 0 32768 0,
   .legPatienceExpire 32768 0 0 0 none, .legPatienceExpire 0 (2 ^ 48) 0 0 none, .vc2FrameReceive 24 tLinkFrame {},
   .vc2FrameReceive 0 { tLinkFrame with seq := 4096 } {}, .vc2Mailbox 128 0 [] {}, .vc2Mailbox 0 65536 [] {},
   .vc2Doorbell 128 0 [], .vc2Doorbell 0 65536 [], .vc2WriteData 128 0 0 [], .vc2WriteData 0 65536 0 [],
   .vc2WriteData 0 0 256 [], .vc2ReadData 128 0 0 [], .vc2ReadData 0 65536 0 [], .vc2ReadData 0 0 256 [],
   .groupTransferReply 128 0 0 false [], .groupTransferReply 0 65536 0 false [],
   .groupTransferReply 0 0 256 false [], .groupTransferTimeout 2 0 0, .groupTransferTimeout 0 16 0,
   .fwBcast (.session 0) (2 ^ 32) [] {}, .fwBcast (.session 8) 0 [] {}, .fwBcastAnswer 128 0 0,
   .fwBcastAnswer 0 256 0, .fwBcastAnswer 0 0 (2 ^ 32), .siteRead 4 0 tFlit Ecc.clean 0 0 false,
   .siteRead 0 16 tFlit Ecc.clean 0 0 false, .siteRead 0 0 { tFlit with op := 64 } Ecc.clean 0 0 false,
   .siteWrite 4 0 tFlit Ecc.clean false, .siteWrite 0 16 tFlit Ecc.clean false,
   .siteWrite 0 0 { tFlit with op := 64 } Ecc.clean false, .siteDoorbell 4 0 tFlit, .siteDoorbell 0 16 tFlit,
   .siteDoorbell 0 0 { tFlit with op := 64 }] : List Instr).all (fun i => !i.wellFormed) = true := by decide +kernel

/-- Each of these commands breaks one check of its well-formedness, and is refused by it (Table 0.2). -/
theorem test_illFormed_8 : (
  [.workDone 4 0 tFlit, .workDone 0 16 tFlit, .workDone 0 0 { tFlit with op := 64 }, .siteWork 32768,
   .vset 4 0 tFlit, .vset 0 16 tFlit, .vset 0 0 { tFlit with op := 64 }, .vsetSettled 4, .fwStatus 4 0 tFlit,
   .fwStatus 0 16 tFlit, .fwStatus 0 0 { tFlit with op := 64 }, .nullFlit 4 0 tFlit, .nullFlit 0 16 tFlit,
   .nullFlit 0 0 { tFlit with op := 64 }, .siteFlitCorrupt 4 0, .siteFlitCorrupt 0 16, .siteNakReceive 4 0 0,
   .siteNakReceive 0 16 0, .siteNakReceive 0 0 128, .bondRetrain 4 0 {} 0 0, .bondRetrain 0 16 {} 0 0,
   .protoErrLimit 4 0, .siteWorkTimeout 32768 0 0, .siteWorkTimeout 0 (2 ^ 48) 0, .sbHello 4 {} [] [] [],
   .sbHello 0 { version := 256 } [] [] [], .sbAccept 4 {}, .sbAccept 0 { version := 256 }, .sbEvidence 4 {},
   .sbEvidence 0 { version := 256 }, .sbFenceReq 4 {}, .sbFenceReq 0 { version := 256 }, .sbAck 4 {},
   .sbAck 0 { version := 256 }, .sidebandLost 4 0, .helloTimeout 4 0] : List Instr).all (fun i => !i.wellFormed) = true := by decide +kernel

/-- Each of these commands breaks one check of its well-formedness, and is refused by it (Table 0.2). -/
theorem test_illFormed_9 : (
  [.evidenceTimeout 4 0, .lnNAssert 4, .lnNRelease 4, .lnNOverlong 4 0, .tileRecheck 4 0,
   .siteFence 4 (.session 0) 0 [] {}, .siteFence 0 (.session 0) (2 ^ 32) [] {}, .siteFence 0 (.session 8) 0 [] {},
   .siteReadmitNow 4 (.session 0) 0 [] {}, .siteReadmitNow 0 (.session 0) (2 ^ 32) [] {},
   .siteReadmitNow 0 (.session 8) 0 [] {}, .siteReadmitAuto 4, .hostCoreStart 32 (.session 0) 0 [] {},
   .hostCoreStart 0 (.session 0) (2 ^ 32) [] {}, .hostCoreStart 0 (.session 8) 0 [] {},
   .hostCoreStop 32 (.session 0) 0 [] {}, .hostCoreStop 0 (.session 0) (2 ^ 32) [] {},
   .hostCoreStop 0 (.session 8) 0 [] {}, .hostCoreFence 32 (.session 0) 0 [] {},
   .hostCoreFence 0 (.session 0) (2 ^ 32) [] {}, .hostCoreFence 0 (.session 8) 0 [] {}, .coreDoorbellWrite 32 0,
   .coreDoorbellWrite 0 (2 ^ 64), .coreWork 32768, .workPop 32, .coreWorkDone 32 0, .noticePop 32, .cacheClean 32 0,
   .cacheInvalidate 32 0, .cacheCleanInvalidate 32 0, .cacheOpDone 32, .draw 32, .entropy 32, .intPendingClear 32 0,
   .coreMbxGo 32 {}, .mbxReplyReady (.session 8)] : List Instr).all (fun i => !i.wellFormed) = true := by decide +kernel

/-- Each of these commands breaks one check of its well-formedness, and is refused by it (Table 0.2). -/
theorem test_illFormed_10 : (
  [.coreSegmentAccess 32 0 0 none [] Ecc.clean false, .hostWorkTimeout 32768 0 0, .hostWorkTimeout 0 (2 ^ 48) 0,
   .coreCacheUe 32, .hpDoorbellWrite 2 0, .hpDoorbellWrite 0 (2 ^ 64), .hpMbxGo 2 {}, .fwReady 2 0 [] {} [],
   .bar2Read 2 0 0 0 Ecc.clean 0 0 false, .bar2Read 0 0 (2 ^ 32) 0 Ecc.clean 0 0 false,
   .bar2Write 2 0 0 [] Ecc.clean false, .bar2Write 0 0 (2 ^ 32) [] Ecc.clean false, .xferToModule 2 0 0 [] [],
   .xferToModule 0 16 0 [] [], .xferToHost 2 0 0, .xferToHost 0 16 0, .xferEnd 2 0, .xferEnd 0 16,
   .spdmRequest 2 0 0, .spdmRequest 0 256 0, .getMeasurements 2 0 [], .xferBind 2 0 0 0 [], .xferUnbind 2 0 0,
   .hpLinkDown 2, .functionLevelReset 2, .hpPerst 2, .hpFence 2 (.session 0) 0 [] {},
   .hpFence 0 (.session 0) (2 ^ 32) [] {}, .hpFence 0 (.session 8) 0 [] {}, .farDeviceAttach 2 0 0 [],
   .farDeviceDown 2, .farTest 2 (.session 0) 0 [] {}, .farTest 0 (.session 0) (2 ^ 32) [] {},
   .farTest 0 (.session 8) 0 [] {}, .checkpointSave 32768, .checkpointLoad 32768] : List Instr).all (fun i => !i.wellFormed) = true := by decide +kernel

/-- Each of these commands breaks one check of its well-formedness, and is refused by it (Table 0.2). -/
theorem test_illFormed_11 : (
  [.checkpointMoveDone 32768 0 [] [] false false, .checkpointMoveDone 0 (2 ^ 48) [] [] false false,
   .anchInitFixed { tAtom with floor := 2 } false, .anchInitFixed { tAtom with va := 2 ^ 40 } false,
   .anchInitFixed { tAtom with ctx := 4096 } false, .anchInitFixed { tAtom with fmt := 16 } false,
   .anchInitAuto { tAtom with floor := 2 } false, .anchInitAuto { tAtom with va := 2 ^ 40 } false,
   .anchInitAuto { tAtom with ctx := 4096 } false, .anchInitAuto { tAtom with fmt := 16 } false,
   .anchEmax { tAtom with floor := 2 } false, .anchEmax { tAtom with va := 2 ^ 40 } false,
   .anchEmax { tAtom with ctx := 4096 } false, .anchEmax { tAtom with fmt := 16 } false,
   .anchAdd { tAtom with floor := 2 } false, .anchAdd { tAtom with va := 2 ^ 40 } false,
   .anchAdd { tAtom with ctx := 4096 } false, .anchAdd { tAtom with fmt := 16 } false,
   .anchAddRaw { tAtom with floor := 2 } false, .anchAddRaw { tAtom with va := 2 ^ 40 } false,
   .anchAddRaw { tAtom with ctx := 4096 } false, .anchAddRaw { tAtom with fmt := 16 } false,
   .anchRead { tAtom with floor := 2 } false, .anchRead { tAtom with va := 2 ^ 40 } false,
   .anchRead { tAtom with ctx := 4096 } false, .anchRead { tAtom with fmt := 16 } false,
   .anchReadRaw { tAtom with floor := 2 } false, .anchReadRaw { tAtom with va := 2 ^ 40 } false,
   .anchReadRaw { tAtom with ctx := 4096 } false, .anchReadRaw { tAtom with fmt := 16 } false,
   .anchFetchClear { tAtom with floor := 2 } false, .anchFetchClear { tAtom with va := 2 ^ 40 } false,
   .anchFetchClear { tAtom with ctx := 4096 } false, .anchFetchClear { tAtom with fmt := 16 } false,
   .faddFp32 { tAtom with floor := 2 } false, .faddFp32 { tAtom with va := 2 ^ 40 } false] : List Instr).all (fun i => !i.wellFormed) = true := by decide +kernel

/-- Each of these commands breaks one check of its well-formedness, and is refused by it (Table 0.2). -/
theorem test_illFormed_12 : (
  [.faddFp32 { tAtom with ctx := 4096 } false, .faddFp32 { tAtom with fmt := 16 } false,
   .faddBf16 { tAtom with floor := 2 } false, .faddBf16 { tAtom with va := 2 ^ 40 } false,
   .faddBf16 { tAtom with ctx := 4096 } false, .faddBf16 { tAtom with fmt := 16 } false,
   .faddFp16 { tAtom with floor := 2 } false, .faddFp16 { tAtom with va := 2 ^ 40 } false,
   .faddFp16 { tAtom with ctx := 4096 } false, .faddFp16 { tAtom with fmt := 16 } false,
   .iadd { tAtom with floor := 2 } false, .iadd { tAtom with va := 2 ^ 40 } false,
   .iadd { tAtom with ctx := 4096 } false, .iadd { tAtom with fmt := 16 } false,
   .iand { tAtom with floor := 2 } false, .iand { tAtom with va := 2 ^ 40 } false,
   .iand { tAtom with ctx := 4096 } false, .iand { tAtom with fmt := 16 } false,
   .ior { tAtom with floor := 2 } false, .ior { tAtom with va := 2 ^ 40 } false,
   .ior { tAtom with ctx := 4096 } false, .ior { tAtom with fmt := 16 } false, .ixor { tAtom with floor := 2 } false,
   .ixor { tAtom with va := 2 ^ 40 } false, .ixor { tAtom with ctx := 4096 } false,
   .ixor { tAtom with fmt := 16 } false, .smin { tAtom with floor := 2 } false,
   .smin { tAtom with va := 2 ^ 40 } false, .smin { tAtom with ctx := 4096 } false,
   .smin { tAtom with fmt := 16 } false, .smax { tAtom with floor := 2 } false,
   .smax { tAtom with va := 2 ^ 40 } false, .smax { tAtom with ctx := 4096 } false,
   .smax { tAtom with fmt := 16 } false, .umin { tAtom with floor := 2 } false,
   .umin { tAtom with va := 2 ^ 40 } false] : List Instr).all (fun i => !i.wellFormed) = true := by decide +kernel

/-- Each of these commands breaks one check of its well-formedness, and is refused by it (Table 0.2). -/
theorem test_illFormed_13 : (
  [.umin { tAtom with ctx := 4096 } false, .umin { tAtom with fmt := 16 } false,
   .umax { tAtom with floor := 2 } false, .umax { tAtom with va := 2 ^ 40 } false,
   .umax { tAtom with ctx := 4096 } false, .umax { tAtom with fmt := 16 } false,
   .swap { tAtom with floor := 2 } false, .swap { tAtom with va := 2 ^ 40 } false,
   .swap { tAtom with ctx := 4096 } false, .swap { tAtom with fmt := 16 } false,
   .cas { tAtom with floor := 2 } false, .cas { tAtom with va := 2 ^ 40 } false,
   .cas { tAtom with ctx := 4096 } false, .cas { tAtom with fmt := 16 } false, .lock { tAtom with floor := 2 } false,
   .lock { tAtom with va := 2 ^ 40 } false, .lock { tAtom with ctx := 4096 } false,
   .lock { tAtom with fmt := 16 } false, .unlock { tAtom with floor := 2 } false,
   .unlock { tAtom with va := 2 ^ 40 } false, .unlock { tAtom with ctx := 4096 } false,
   .unlock { tAtom with fmt := 16 } false, .secVersionAdvance (.session 0) (2 ^ 32) [] {},
   .secVersionAdvance (.session 8) 0 [] {}, .attestReport (.session 0) (2 ^ 32) [] {},
   .attestReport (.session 8) 0 [] {}, .keyRequest (.session 0) (2 ^ 32) [] {}, .keyRequest (.session 8) 0 [] {},
   .keyInstall (.session 0) (2 ^ 32) [] {}, .keyInstall (.session 8) 0 [] {}, .keyRotate (.session 0) (2 ^ 32) [] {},
   .keyRotate (.session 8) 0 [] {}, .keyErase (.session 0) (2 ^ 32) [] {}, .keyErase (.session 8) 0 [] {},
   .keyQuery (.session 0) (2 ^ 32) [] {}, .keyQuery (.session 8) 0 [] {}] : List Instr).all (fun i => !i.wellFormed) = true := by decide +kernel

/-- Each of these commands breaks one check of its well-formedness, and is refused by it (Table 0.2). -/
theorem test_illFormed_14 : (
  [.leaseUnseal (.session 0) (2 ^ 32) [] {}, .leaseUnseal (.session 8) 0 [] {},
   .leaseRevoke (.session 0) (2 ^ 32) [] {}, .leaseRevoke (.session 8) 0 [] {},
   .leaseList (.session 0) (2 ^ 32) [] {}, .leaseList (.session 8) 0 [] {},
   .debugChallenge (.session 0) (2 ^ 32) [] {}, .debugChallenge (.session 8) 0 [] {},
   .debugUnlock (.session 0) (2 ^ 32) [] {}, .debugUnlock (.session 8) 0 [] {}, .consoleInput 2 0, .pllLock 2 0 0,
   .pllLock 0 22 0, .pllUnlock 2 0 0, .pllUnlock 0 22 0, .domainSwitch 2 0, .domainSwitch 0 2,
   .pwrRequest (.session 0) (2 ^ 32) [] {}, .pwrRequest (.session 8) 0 [] {}, .pwrOff (.session 0) (2 ^ 32) [] {},
   .pwrOff (.session 8) 0 [] {}, .sitePowerOver 4 0, .siteCeilingRelease 4 0 0, .vcoreCurrentLimit 4 0 0,
   .droopEvent 4 0, .benchmarkRecal 2 0 [], .thermRecalNow (.session 0) (2 ^ 32) [] {},
   .thermRecalNow (.session 8) 0 [] {}, .floorThermalReturn 2 0, .fwUpdate (.session 0) (2 ^ 32) [] {},
   .fwUpdate (.session 8) 0 [] {}, .surveyLogRead (.session 0) (2 ^ 32) [] {}, .surveyLogRead (.session 8) 0 [] {},
   .cadRead (.session 0) (2 ^ 32) [] {}, .cadRead (.session 8) 0 [] {}, .cadRemapUnit (.session 0) (2 ^ 32) [] {}] : List Instr).all (fun i => !i.wellFormed) = true := by decide +kernel

/-- Each of these commands breaks one check of its well-formedness, and is refused by it (Table 0.2). -/
theorem test_illFormed_15 : (
  [.cadRemapUnit (.session 8) 0 [] {}, .unitFail 2 0 0 false false, .unitFail 4 128 0 false false,
   .unitFail 4 0 256 false false, .sliceCopyDone 128, .moveRetire 2 0, .moveStartQueued 2, .surveyorLockstepFault 2,
   .monitorSample 2 [] [], .marginReplanNow (.session 0) (2 ^ 32) [] {}, .marginReplanNow (.session 8) 0 [] {},
   .marginPlanRead (.session 0) (2 ^ 32) [] {}, .marginPlanRead (.session 8) 0 [] {},
   .ledgerRead (.session 0) (2 ^ 32) [] {}, .ledgerRead (.session 8) 0 [] {},
   .ledgerStandingRead (.session 0) (2 ^ 32) [] {}, .ledgerStandingRead (.session 8) 0 [] {},
   .ledgerAck (.session 0) (2 ^ 32) [] {}, .ledgerAck (.session 8) 0 [] {},
   .holdingsRead (.session 0) (2 ^ 32) [] {}, .holdingsRead (.session 8) 0 [] {}, .mpllRelockTimeout 6 0,
   .hpLinkUp 2 0 0 false, .spdmHeartbeatExpire 2 0 0, .gridRead 0 0 0 0 255 2 0 0 Ecc.clean false,
   .gridWrite 0 0 0 0 255 [1, 2] false Ecc.clean false, .throttleRepeat 1 6 0, .throttleRepeat 2 2 0,
   .throttleRepeat 3 0 0, .partyFenceDrained 1 4, .partyFenceDrained 2 32, .partyFenceDrained 5 2,
   .partyFenceDrained 3 0, .registerWrite 2 32 0 0, .registerWrite 5 2 0 0, .registerWrite 3 0 0 0] : List Instr).all (fun i => !i.wellFormed) = true := by decide +kernel

/-- Each of these commands breaks one check of its well-formedness, and is refused by it (Table 0.2). -/
theorem test_illFormed_16 : (
  [.zoneSample 1 2 [] [] [], .zoneSample 2 4 [] [] [], .zoneSample 3 0 [] [] []] : List Instr).all (fun i => !i.wellFormed) = true := by decide +kernel

/-- Each of these commands meets every check of its well-formedness. -/
theorem test_wellFormed_1 : (
  [.tlsConnect 0 0 0 {}, .hello 0 tFrame, .fbRead (.session 0) tFrame, .describe (.session 0) tFrame,
   .writeDirect (.session 0) tFrame, .writeDraft (.session 0) tFrame, .writeStoredLayer (.session 0) tFrame,
   .subscribe 0 tFrame, .unsubscribe 0 tFrame, .ping 0 tFrame, .bye 0 tFrame, .sessionIdleTimeout 0 0,
   .draftOpen (.session 0) 0 [] {}, .draftDiscard (.session 0) 0 [] {}, .commit (.session 0) 0 [] {},
   .licenceInstall (.session 0) 0 [] {}, .licenceRemove (.session 0) 0 [] {}, .saveRunning (.session 0) 0 [] {},
   .sheetClear 0 (.session 0) 0 [] {}, .counterClear (.session 0) 0 [] {}, .sensorRead (.session 0) 0 [] {},
   .eyeHistoryRead (.session 0) 0 [] {}, .monitorSlackRead (.session 0) 0 [] {}, .ringCounters (.session 0) 0 [] {},
   .streamCounters (.session 0) 0 [] {}, .legCounters (.session 0) 0 [] {}, .myRingCounters (.session 0) 0 [] {},
   .myCoreCounters (.session 0) 0 [] {}, .sidebandStateMessage 0 0, .dieReadmit 0 false {},
   .bridgeFlitReceive 0 0 (List.replicate 272 0), .bridgeNakReceive 0 0, .bridgeLaneSpare 0 0 0 0,
   .fill (⟨0, 0⟩ : FillReq) 0 0 Ecc.clean, .dataMsg 0 0 0 [], .invMsg 0 0] : List Instr).all (fun i => i.wellFormed) = true := by decide +kernel

/-- Each of these commands meets every check of its well-formedness. -/
theorem test_wellFormed_2 : (
  [.invAck 0 0, .rlcFlush (.session 0) 0 [] {}, .gridRead 0 0 0 0 0 1 0 0 Ecc.clean false,
   .gridWrite 0 0 0 0 0 [1] false Ecc.clean false, .agePromote 0 0 0, .bufScrub 0 0 Ecc.clean, .sliceCeRetire 0,
   .segmapWrite (.session 0) 0 [] {}, .segmapRecordDrained (.session 0), .segmapDrainTimeout (.session 0) 0,
   .segmapRead (.session 0) 0 [] {}, .segmapClearContext (.session 0) 0 [] {}, .stackAgePromote 0 0 0, .writeDrain 0,
   .rowNeighbourRefresh (2 ^ 46) 0, .bankRefresh 0 0 0 false, .stackPatrol 0 0 Ecc.clean, .rowCopyDone (2 ^ 46),
   .stackTempReport 0 0 [] 0, .stackReportMissed 0, .stackReportTimeout 0 0, .stackCapReached 0, .rekeySweepDone 0,
   .oldKeyErase 0, .channelCopyDone 0, .stackRetireList (.session 0) 0 [] {}, .rekeyQuery (.session 0) 0 [] {},
   .masterBudgetReached 0 0 0, .sweep 0, .sweepMerge 0, .sweepDispatch 0, .sweepCombine 0 0, .engineFault 0 0,
   .sweepSessionOpen 0, .sessionOpenDone 0 0, .sweepSessionClose 0] : List Instr).all (fun i => i.wellFormed) = true := by decide +kernel

/-- Each of these commands meets every check of its well-formedness. -/
theorem test_wellFormed_3 : (
  [.doorbellProduce 0 0 0, .doorbellConsume 0 0 0, .descriptorTake 0, .orderedItemStart 0 0, .fbRequest 0 {},
   .ringCreate (.session 0) 0 [] {}, .ringDelete (.session 0) 0 [] {}, .ringReopen (.session 0) 0 [] {},
   .ringQuery (.session 0) 0 [] {}, .ringLastMarks (.session 0) 0 [] {}, .contextCreate (.session 0) 0 [] {},
   .contextDestroy (.session 0) 0 [] {}, .contextDestroyFinish 0, .contextQuery (.session 0) 0 [] {},
   .linkFrameReceive 0 tLinkFrame {}, .linkNakReceive 0 0, .linkNakRetrain 0 { oks := [] }, .linkTraining 0 0 0 0 {},
   .partnerDetectTimeout 0 0, .linkBerWindow 0 0 0 0 0, .linkBerGate 0 [] 0 0, .discover 0 {}, .throttle 0 {},
   .throttleRepeat 1 0 0, .throttleExpire 0 0 0 0, .sleepNotice 0 {}, .downNotice 0 {}, .linkRetry 0 0,
   .linkRetrain (.session 0) 0 [] {}, .traverse 0, .legStart 0 0, .send 0 0 0, .recv 0 0 0 [], .forward 0 0 0 [],
   .reduceRecv 0 0 0 [], .emaxSend 0 0 0] : List Instr).all (fun i => i.wellFormed) = true := by decide +kernel

/-- Each of these commands meets every check of its well-formedness. -/
theorem test_wellFormed_4 : (
  [.emaxRecv 0 0 0 [], .grant 0 0 0, .waitCredit 0 0 0, .atomicSend 0 0 0, .atomicRecv 0 0 0 [],
   .unclaimedHoldExpire 0 0 0, .creditNotice 0 {}, .holdNotice 0 {}, .holdNoticeSend 0 0 0 none, .failNotice 0 {},
   .failNoticeForget 0 0 0, .legPatienceExpire 0 0 0 0 none, .vc2FrameReceive 0 tLinkFrame {}, .vc2Mailbox 0 0 [] {},
   .vc2Doorbell 0 0 [], .vc2WriteData 0 0 0 [], .vc2ReadData 0 0 0 [], .groupTransferReply 0 0 0 false [],
   .groupTransferTimeout 0 0 0, .fwBcast (.session 0) 0 [] {}, .fwBcastAnswer 0 0 0,
   .siteRead 0 0 tFlit Ecc.clean 0 0 false, .siteWrite 0 0 tFlit Ecc.clean false, .siteDoorbell 0 0 tFlit,
   .workDone 0 0 tFlit, .siteWork 0, .vset 0 0 tFlit, .vsetSettled 0, .fwStatus 0 0 tFlit, .nullFlit 0 0 tFlit,
   .siteFlitCorrupt 0 0, .siteNakReceive 0 0 0, .bondRetrain 0 0 {} 0 0, .protoErrLimit 0 0, .siteWorkTimeout 0 0 0,
   .sbHello 0 {} [] [] []] : List Instr).all (fun i => i.wellFormed) = true := by decide +kernel

/-- Each of these commands meets every check of its well-formedness. -/
theorem test_wellFormed_5 : (
  [.sbAccept 0 {}, .sbEvidence 0 {}, .sbFenceReq 0 {}, .sbAck 0 {}, .sidebandLost 0 0, .helloTimeout 0 0,
   .evidenceTimeout 0 0, .lnNAssert 0, .lnNRelease 0, .lnNOverlong 0 0, .tileRecheck 0 0,
   .siteFence 0 (.session 0) 0 [] {}, .siteReadmitNow 0 (.session 0) 0 [] {}, .siteReadmitAuto 0,
   .partyFenceDrained 1 0, .hostCoreStart 0 (.session 0) 0 [] {}, .hostCoreStop 0 (.session 0) 0 [] {},
   .hostCoreFence 0 (.session 0) 0 [] {}, .coreDoorbellWrite 0 0, .coreWork 0, .workPop 0, .coreWorkDone 0 0,
   .noticePop 0, .cacheClean 0 0, .cacheInvalidate 0 0, .cacheCleanInvalidate 0 0, .cacheOpDone 0, .draw 0,
   .entropy 0, .intPendingClear 0 0, .registerWrite 2 0 0 0, .coreMbxGo 0 {}, .mbxReplyReady (.session 0),
   .coreSegmentAccess 0 0 0 none [] Ecc.clean false, .hostWorkTimeout 0 0 0, .coreCacheUe 0] : List Instr).all (fun i => i.wellFormed) = true := by decide +kernel

/-- Each of these commands meets every check of its well-formedness. -/
theorem test_wellFormed_6 : (
  [.hpDoorbellWrite 0 0, .hpMbxGo 0 {}, .fwReady 0 0 [] {} [], .bar2Read 0 0 0 0 Ecc.clean 0 0 false,
   .bar2Write 0 0 0 [] Ecc.clean false, .xferToModule 0 0 0 [] [], .xferToHost 0 0 0, .xferEnd 0 0,
   .spdmRequest 0 0 0, .getMeasurements 0 0 [], .xferBind 0 0 0 0 [], .xferUnbind 0 0 0, .hpLinkDown 0,
   .functionLevelReset 0, .hpPerst 0, .hpFence 0 (.session 0) 0 [] {}, .farDeviceAttach 0 0 0 [], .farDeviceDown 0,
   .farTest 0 (.session 0) 0 [] {}, .checkpointSave 0, .checkpointLoad 0, .checkpointMoveDone 0 0 [] [] false false,
   .anchInitFixed tAtom false, .anchInitAuto tAtom false, .anchEmax tAtom false, .anchAdd tAtom false,
   .anchAddRaw tAtom false, .anchRead tAtom false, .anchReadRaw tAtom false, .anchFetchClear tAtom false,
   .faddFp32 tAtom false, .faddBf16 tAtom false, .faddFp16 tAtom false, .iadd tAtom false, .iand tAtom false,
   .ior tAtom false] : List Instr).all (fun i => i.wellFormed) = true := by decide +kernel

/-- Each of these commands meets every check of its well-formedness. -/
theorem test_wellFormed_7 : (
  [.ixor tAtom false, .smin tAtom false, .smax tAtom false, .umin tAtom false, .umax tAtom false, .swap tAtom false,
   .cas tAtom false, .lock tAtom false, .unlock tAtom false, .secVersionAdvance (.session 0) 0 [] {},
   .attestReport (.session 0) 0 [] {}, .keyRequest (.session 0) 0 [] {}, .keyInstall (.session 0) 0 [] {},
   .keyRotate (.session 0) 0 [] {}, .keyErase (.session 0) 0 [] {}, .keyQuery (.session 0) 0 [] {},
   .leaseUnseal (.session 0) 0 [] {}, .leaseRevoke (.session 0) 0 [] {}, .leaseList (.session 0) 0 [] {},
   .debugChallenge (.session 0) 0 [] {}, .debugUnlock (.session 0) 0 [] {}, .consoleInput 0 0, .pllLock 0 0 0,
   .pllUnlock 0 0 0, .domainSwitch 0 0, .pwrRequest (.session 0) 0 [] {}, .pwrOff (.session 0) 0 [] {},
   .sitePowerOver 0 0, .siteCeilingRelease 0 0 0, .vcoreCurrentLimit 0 0 0, .droopEvent 0 0, .benchmarkRecal 0 0 [],
   .thermRecalNow (.session 0) 0 [] {}, .zoneSample 1 0 [] [] [], .floorThermalReturn 0 0,
   .fwUpdate (.session 0) 0 [] {}] : List Instr).all (fun i => i.wellFormed) = true := by decide +kernel

/-- Each of these commands meets every check of its well-formedness. -/
theorem test_wellFormed_8 : (
  [.surveyLogRead (.session 0) 0 [] {}, .cadRead (.session 0) 0 [] {}, .cadRemapUnit (.session 0) 0 [] {},
   .unitFail 4 0 0 false false, .sliceCopyDone 0, .moveRetire 4 0, .moveStartQueued 0, .surveyorLockstepFault 0,
   .monitorSample 0 [] [], .marginReplanNow (.session 0) 0 [] {}, .marginPlanRead (.session 0) 0 [] {},
   .ledgerRead (.session 0) 0 [] {}, .ledgerStandingRead (.session 0) 0 [] {}, .ledgerAck (.session 0) 0 [] {},
   .holdingsRead (.session 0) 0 [] {}, .mpllRelockTimeout 0 0, .hpLinkUp 0 0 0 false, .spdmHeartbeatExpire 0 0 0] : List Instr).all (fun i => i.wellFormed) = true := by decide +kernel

set_option maxRecDepth 100000
/-- A module in service (survey step 21, epoch 1) with two contexts: 5 with a FINE buffer segment and 6 with a FINE stack segment,
both at segment address 0 of floor 0. -/
def wseg (ctx medium policy : Nat) : SegEnt :=
  { ctx, vaBase := 0, size := 0, policy, medium, home := 0, stack := 0, unit := 0, rd := true, wr := true, at' := true,
    noAlloc := false, unitOff := 0 }
/-- Every resource in partition 0, client root 5, and the station's address. -/
def wplat : SMap Bytes :=
  [(key 0x7010 1, leB 1 15), (key 0x7010 2, leB 1 63), (key 0x7010 3, leB 8 (2 ^ 64 - 1)), (key 0x7010 4, leB 8 (2 ^ 64 - 1)), (key 0x7010 5, leB 4 (2 ^ 24 - 1)), (key 0x7010 6, leB 4 (2 ^ 32 - 1)), (key 0x7010 7, leB 2 0 ++ leB 2 16384 ++ leB 2 16384 ++ leB 2 16384), (key 0x7010 8, leB 1 3)].foldl (fun m e => sput m e.1 e.2) [(kMgmtClientRoots, leB 48 5)]
def wst : State := State.reset.setHw { State.reset.hw with
  cad := { State.reset.hw.cad with step := 21 }
  fb := { State.reset.hw.fb with epoch := 1, cur := { ovr := wplat } }
  rng := { State.reset.hw.rng with ctxs := [(0, {}), (5, {}), (6, {})] }
  grid := { State.reset.hw.grid with seg := [(0, wseg 5 0 0), (1, wseg 6 1 0)] }
  stk := { State.reset.hw.stk with keys := [(6, { slot0 := some 7 })] } }
/-- A state with one part of its module changed. -/
def Sys2Proof.Machine.State.onFb (s : State) (f : Fb → Fb) : State := s.setHw (s.hw.setFb (f s.hw.fb))
def Sys2Proof.Machine.State.onDie (s : State) (f : Die → Die) : State := s.setHw (s.hw.setDie (f s.hw.die))
def Sys2Proof.Machine.State.onGrid (s : State) (f : Grid → Grid) : State := s.setHw (s.hw.setGrid (f s.hw.grid))
def Sys2Proof.Machine.State.onMem (s : State) (f : Mem → Mem) : State := s.setHw (s.hw.setMem (f s.hw.mem))
def Sys2Proof.Machine.State.onStk (s : State) (f : Stk → Stk) : State := s.setHw (s.hw.setStk (f s.hw.stk))
def Sys2Proof.Machine.State.onReg (s : State) (f : Reg → Reg) : State := s.setHw (s.hw.setReg (f s.hw.reg))
def Sys2Proof.Machine.State.onRng (s : State) (f : Rings → Rings) : State := s.setHw (s.hw.setRng (f s.hw.rng))
def Sys2Proof.Machine.State.onCad (s : State) (f : Cad → Cad) : State := s.setHw (s.hw.setCad (f s.hw.cad))
def Sys2Proof.Machine.State.onClk (s : State) (f : Clk → Clk) : State := s.setHw (s.hw.setClk (f s.hw.clk))
def Sys2Proof.Machine.State.onFlt (s : State) (f : Flt → Flt) : State := s.setHw (s.hw.setFlt (f s.hw.flt))
def Sys2Proof.Machine.State.onSwp (s : State) (f : Swp → Swp) : State := s.setHw (s.hw.setSwp (f s.hw.swp))
def Sys2Proof.Machine.State.onTrv (s : State) (f : Travs → Travs) : State := s.setHw (s.hw.setTrv (f s.hw.trv))
def Sys2Proof.Machine.State.onSec (s : State) (f : Sec → Sec) : State := s.setHw (s.hw.setSec (f s.hw.sec))
def Sys2Proof.Machine.State.onPwr (s : State) (f : Pwr → Pwr) : State := s.setHw (s.hw.setPwr (f s.hw.pwr))
def Sys2Proof.Machine.State.onAge (s : State) (f : Age → Age) : State := s.setHw (s.hw.setAge (f s.hw.age))
def Sys2Proof.Machine.State.onLat (s : State) (f : Latch → Latch) : State := s.setHw (s.hw.setLat (f s.hw.lat))
/-- A state with every site, core, link port or host port changed. -/
def Sys2Proof.Machine.State.onSites (s : State) (f : Site → Site) : State := s.setHw (s.hw.setSite { dev := s.hw.site.dev.map f })
def Sys2Proof.Machine.State.onCores (s : State) (f : Core → Core) : State := s.setHw (s.hw.setCore { s.hw.core with dev := s.hw.core.dev.map f })
def Sys2Proof.Machine.State.onPorts (s : State) (f : Port → Port) : State := s.setHw (s.hw.setLnk { dev := s.hw.lnk.dev.map f })
def Sys2Proof.Machine.State.onHps (s : State) (f : HostPort → HostPort) : State := s.setHw (s.hw.setHp { dev := s.hw.hp.dev.map f })
/-- Ring 0 of context 5, of type `ty` and target `tgt`. -/
def wringR (ty tgt : Nat) : Ring :=
  { ctx := 5, ty, depthLog2 := 4, descAddr := 0, cplAddr := 4096, start := 0, target := tgt, subKind := 2, produce := 1, consumed := 0,
    taken := 0, ansLow := 0 }
/-- `wst` with ring 0 of type `ty` and target `tgt` of context 5, one descriptor `d` waiting at segment address 0. -/
def wring (ty tgt d : Nat) : State :=
  (wst.onRng fun r => { r with rings := [(0, wringR ty tgt)] }).onMem fun m => { m with cells := Memory.putRun [] 0 (leB 64 d) }
/-- A site ready for work: admitted, module 0 up, one WORK credit. -/
def wsiteUp : Site := { state := 5, up := 1, bonds := [(0, { work := 1, rsp := 8, req := 8, wrq := 8 })] }
/-- Descriptors without a fault: a SWEEP of one head on engine 0 of S0, a SWEEP_MERGE, a session's open and close, and checkpoints. -/
def wsweepDesc : Nat := 0x3F800000 * 2 ^ 480 + 1 * 2 ^ 170 + 1 * 2 ^ 165 + kindSweep * 2 ^ 120
def wsweepMergeDesc : Nat := 1 * 2 ^ 432 + 1 * 2 ^ 427 + kindMerge * 2 ^ 120
def wsweepSessionOpenDesc : Nat := 4 * 2 ^ 500 + 2 ^ 499 + kindSession * 2 ^ 120
def wsweepSessionCloseDesc : Nat := 4 * 2 ^ 500 + kindSession * 2 ^ 120
def wcheckpointSaveDesc : Nat := kindSave * 2 ^ 120
def wcheckpointLoadDesc : Nat := kindLoad * 2 ^ 120
/-- Traverse legs: OP `op` with COUNT `n`, receiving and sending on stream 5 of port 4. -/
def wlegTag : Nat := 5 * 2 ^ 210 + 5 * 2 ^ 195
def wleg (op n : Nat) : Nat := op * 2 ^ 248 + 4 * 2 ^ 232 + 4 * 2 ^ 227 + wlegTag + n * 2 ^ 65
def wtravItem : Item :=
  { ring := 0, seq := 7, desc := 0, kind := kindTraverse, epoch := 1, ctx := 5, order := false, skip := false, notify := false,
    user := 0, started := true }
/-- A live traverse item with these legs, those of `runs` started. -/
def wtravLive (legs : List Nat) (runs : SMap LegRun) : Trav :=
  { legs, started := runs.length, runs
    claims := legs.zipIdx.flatMap fun x => (Leg.ofNat x.1).claims x.2 }
/-- `wst` with all ports UP and the item of `wtravLive` live under key 7. -/
def wtrav (legs : List Nat) (runs : SMap LegRun) : State :=
  (((wst.onRng fun r => { r with rings := [(0, wringR 0 0)], items := [wtravItem] }).onTrv fun t =>
    { t with live := if legs.isEmpty then [] else [(7, wtravLive legs runs)] }).onPorts fun x =>
    { x with state := 5, width := 8, credit := [640, 640, 256] })
/-- A TRAVERSE descriptor of one SEND leg at segment address 1024, from station 9, behind an older item of its ring. -/
def wtravDesc : Nat := 16 * 2 ^ 478 + 1 * 2 ^ 467 + 9 * 2 ^ 451 + kindTraverse * 2 ^ 120
def wtravSend : Nat := 2 ^ 248 + 4 * 2 ^ 227 + 5 * 2 ^ 195 + 600 * 2 ^ 65
def wtravRing : State :=
  let at' (a : Nat) : Nat := ((wseg 5 0 0).place a 0).pa (a % 256)
  ((((wst.onRng fun r => { r with rings := [(0, { wringR 0 0 with produce := 9, taken := 8 })], items := [wtravItem] }).onPorts fun x =>
    { x with state := 5, width := 8, credit := [640, 640, 256] }).onMem fun m =>
    { m with cells := Memory.putRun (Memory.putRun [] (at' 512) (leB 64 wtravDesc)) (at' 1024) (leB 32 wtravSend) }).onFb fun f =>
    { f with cur := { f.cur with ovr := sput f.cur.ovr kStationAddr (leB 2 9) }, coldRun := sput f.coldRun kStationAddr (leB 2 9) })
/-- `wst` with a session 2 that has said HELLO. -/
def wcmd : State := wst.onFb fun f => { f with sessions := [(2, { port := 0, hello := true })] }
/-- A state whose running value of entry `k` is `v`. -/
def Sys2Proof.Machine.State.withVal (s : State) (k : Nat) (v : Bytes) : State :=
  s.onFb fun f => { f with cur := { f.cur with ovr := sput f.cur.ovr k v }, coldRun := sput f.coldRun k v }
/-- `wst` with ring 0 and its item 7, an FB_REQUEST of context 5 with a reply buffer of 256 bytes at segment address 0. -/
def wfbItem : Item := { wtravItem with started := false, kind := kindFb, desc := kindFb * 2 ^ 120 + 256 * 2 ^ 410 }
def wcls : State := wst.onRng fun r => { r with rings := [(0, wringR 0 0)], items := [wfbItem] }
/-- Records that write a LIVE, a COLD and a sheet-able entry. -/
def wrecLive : OpRec := { index := 0x1F00, sub := 5, ty := 3, value := leB 4 60000 }
def wrecCold : OpRec := { index := 0x3460, sub := 1, ty := 8, value := [1] }
def wrecStored : OpRec := { index := 0x3400, sub := 2, target := 0x10, ty := 2, value := leB 2 100 }
/-- Request 9 of session 2 on entry `k`, and a state in which it waits. -/
def wpart (k : Nat) (v : Bytes) (w : Wait) : Partial :=
  { rq := .session 2, ty := 3, reqId := 9, verif := {}, done := [], cur := cmdRec k v, rest := [], wait := w }
def Sys2Proof.Machine.State.waiting (s : State) (k : Nat) (v : Bytes) (w : Wait) : State :=
  s.onFb fun f => { f with sessions := [(2, { port := 0, hello := true })], chans := [(2, { cur := some (wpart k v w) })] }
/-- A commit of session 2 that waits. -/
def wcommit : State := (wst.waiting kCommit (leB 4 1) .commit).onFb fun f =>
  { f with draft := some { owner := .session 2, ents := [(kDraftIdleTimeout, leB 4 60000)], held := true }, committing := some (.session 2) }
/-- A DESCRIBE of one entry, and its frame. -/
def wdescRec : OpRec := { index := 0x1F00, sub := 5 }
def wdescFrame : Frame := { ty := 4, reqId := 7, length := 8, payload := opBytes wdescRec }
/-- `wst` with ring 0 and an FB_REQUEST item whose frame, at segment address 1024, is that one. -/
def wfbItem2 : Item := { wfbItem with desc := kindFb * 2 ^ 120 + 256 * 2 ^ 410 + 24 * 2 ^ 427 + 16 * 2 ^ 478 }
def wfbRing : State := (wst.onRng fun r => { r with rings := [(0, { wringR 0 0 with produce := 0 })], items := [wfbItem2] }).onMem fun m =>
  { m with cells := Memory.putRun [] (((wseg 5 0 0).place 1024 0).pa 0) (frameBytes wdescFrame) }
/-- A segment map record that waits: slot 2 becomes a stack segment of context 6. -/
def wsegWait : SegWait :=
  { rq := .session 2, slot := 2, ent := some (wseg 6 1 0), ctx := 5, items := [], answered := [], rest := [], clearAll := false }
def wrecMine : OpRec := { index := kMyEventClasses / 256, sub := kMyEventClasses % 256, ty := 8, value := leB 2 6 }
def wcrc (f : LinkFrame) : LinkFrame := { f with crc := frameCrc f false }
/-- A flit of OP `op` with its CRC, in sequence. -/
def wflit (op : Nat) (f : Flit) : Flit := let f : Flit := { f with op, seq := 0 }; { f with crc := flitCheck f }
/-- A sideband message with its CRC, and an admitted site that hears. -/
def wsb (ty : Nat) (p : Bytes) : SbMsg := let x : SbMsg := { payload := p }; { x with crc := sbCrc ty x }
def wsiteIn (st : Nat) : State := wst.onSites fun _ => { wsiteUp with srstReleased := true, state := st }
/-- All cores run in context 5, with a line of the cache of F0 that holds address 256 of it. -/
def wcore : State := wst.onCores fun x => { x with state := 1, ctx := 5 }
def wcline (d : Bool) : CacheLine := { ctx := 5, va := 256, data := leB 256 9, dirty := d, core := 3 }
def wcache (d : Bool) : State := wcore.setHw (wcore.hw.setCore { wcore.hw.core with cache := [(cacheKey 0 5 256, wcline d)] })
/-- The words of a temperature report. -/
def wwords : List Nat := List.replicate 14 (2 ^ 15 + 800) ++ [2 ^ 15 + 800, 2 ^ 15 + 810]

/-- The five FP16 addends of the worked example of 08_anchored_sums.md. -/
def tAddends : List Addend := [0x4200, 0xBD80, 0x3900, 0x2C00, 0xB600].map (addendOf 2)

/-- Table 8.9: under the fixed anchor 125 the cell holds 6, COUNT 5 and UNDER, and reads 1.5 in FP32 with flag word 2. -/
theorem test_anchoredExample_fixed :
    let c := tAddends.foldl (fun (c : Cell) x => (c.add x).1) ({ anchor := 125 } : Cell)
    c.bytes = leB 32 (0x000000050002007D * 2 ^ 192 + 6) ∧ c.read fp32 false false = (0x3FC00000, 2) := by decide +kernel

/-- The same addends in the opposite order give the same cell. -/
theorem test_anchoredExample_order :
    tAddends.reverse.foldl (fun (c : Cell) x => (c.add x).1) ({ anchor := 125 } : Cell) = tAddends.foldl (fun (c : Cell) x => (c.add x).1) ({ anchor := 125 } : Cell) := by
  decide +kernel

/-- The auto anchor of the example: 1, and the exact sum 1.9375 in FP32 and FP16 without a flag. -/
theorem test_anchoredExample_auto :
    let e := tAddends.foldl (fun (c : Cell) x => (c.emax x).1) ({ anchor := 0x8000, flags := flAuto } : Cell)
    let c := tAddends.foldl (fun (c : Cell) x => (c.add x).1) e
    e.anchor = 1 ∧ c.value = 0x7C <<< 120 ∧ c.read fp32 false false = (0x3FF80000, 0) ∧ c.read fp16 false false = (0x3FC0, 0) := by
  decide +kernel

/-- The example after Table 4.8: a FINE buffer line lies on slice start line mod 64, so line 64 lies where line 0 does. -/
theorem test_fineSlices :
    ((wseg 5 0 0).place 0 0).unit = 0 ∧ ((wseg 5 0 0).place (256 * 65) 0).unit = 1 ∧ ((wseg 5 0 0).place (256 * 64) 0).line = 1 := by
  decide

/-- Table 2.15: epoch 42 follows epoch 41. -/
theorem test_epoch42 : ((wst.onFb fun f => { f with epoch := 41 }).hw.switchEpoch {} {} 0 1).fb.epoch = 42 := by decide +kernel

/-- R305: a doorbell that is lower than PRODUCE changes nothing of its ring. -/
theorem test_lowerProduce : ((wring 0 0 0).hw.ringBell 2 0 0).rng = (wring 0 0 0).hw.rng := by decide +kernel

/-- R87: granule 1 of a SPLIT segment is F1's, granule 2 F0's. -/
theorem test_splitGranules : ((wseg 5 0 3).place 4096 0).floor = 1 ∧ ((wseg 5 0 3).place 8192 0).floor = 0 := by decide

/-- The hypotheses of CmdFramesAnswerTheirEntry are met, by an action that ends at once and by one that waits. -/
theorem witness_CmdFramesAnswerTheirEntry : ∃ (s : State) (i : Instr) (c : CmdReq), asCmd i = some c ∧
    s.hw.takes i = true ∧
    (let a := (s.hw.opens c.rq).act s.fuses c.rq c.key c.value c.verif
     sget a.m.fb.chans (rqCode c.rq) = none ∧ (bounded c.rq = true → a.val.length ≤ 65512) ∧ a.wait = none) :=
  ⟨wcmd, .draftOpen (.session 2) 9 [1] {}, _, rfl, by decide +kernel⟩

theorem witness_CmdFramesAnswerTheirEntry_waits : ∃ (s : State) (i : Instr) (c : CmdReq), asCmd i = some c ∧
    s.hw.takes i = true ∧
    (let a := (s.hw.opens c.rq).act s.fuses c.rq c.key c.value c.verif
     sget a.m.fb.chans (rqCode c.rq) = none ∧ (bounded c.rq = true → a.val.length ≤ 65512) ∧
         a.wait = some (.ctxDestroy 5)) :=
  ⟨wcmd, .contextDestroy (.session 2) 9 [5, 0] {}, _, rfl, by decide +kernel⟩

/-- Its second part is met by a record of the wrong type, from a core. -/
theorem witness_CmdFramesAnswerTheirEntry_refused : ∃ (s : State) (i : Instr) (c : CmdReq) (e : EntryRow) (st : Status),
    asCmd i = some c ∧ s.hw.asks c.rq = true ∧ c.value.length ≤ 65512 ∧ entryAt c.key = some e ∧
    (let o := s.hw.opens c.rq
     o.cmdRefused c.rq e (cmdRec c.key c.value) (o.act s.fuses c.rq c.key c.value c.verif).st = some st) :=
  ⟨wcmd.onCores fun x => { x with state := 1 }, .draftOpen (.core 3) 9 [1, 1] {}, _,
      (entryAt kDraftOpen).get (by decide +kernel), .fbType,
    rfl, by decide +kernel⟩

/-- The hypotheses of DraftAndLayerCommands about draftOpen are met. -/
theorem witness_DraftAndLayerCommands_draftOpen : ∃ h : Mach, ∃ rq : Rq, ∃ q : Nat, ∃ v : Bytes, ∃ f : Verif,
    (let i : Instr := .draftOpen rq q v f; (h.takes i = true) ∧ (h.fb.draft = none)) :=
  ⟨wcmd.hw, .session 2, 9, [1], {}, by decide +kernel⟩

/-- The hypotheses of DraftAndLayerCommands about draftDiscard are met. -/
theorem witness_DraftAndLayerCommands_draftDiscard : ∃ h : Mach, ∃ rq : Rq, ∃ q : Nat, ∃ v : Bytes, ∃ f : Verif,
    ∃ d : Draft, (let i : Instr := .draftDiscard rq q v f; (h.takes i = true) ∧ (h.fb.draft = some d) ∧
    (d.owner = draftOwner rq) ∧ (d.held = false)) :=
  ⟨(wcmd.onFb fun f => { f with draft := some { owner := .session 2 } }).hw, .session 2, 9, [1], {},
      { owner := .session 2 }, by decide +kernel⟩

/-- The hypotheses of DraftAndLayerCommands about commitEmpty are met. -/
theorem witness_DraftAndLayerCommands_commitEmpty : ∃ h : Mach, ∃ rq : Rq, ∃ q : Nat, ∃ v : Bytes, ∃ f : Verif,
    ∃ d : Draft, (let i : Instr := .commit rq q v f; (h.takes i = true) ∧ (h.fb.draft = some d) ∧
    (d.owner = draftOwner rq) ∧ (d.held = false) ∧ (d.ents = [])) :=
  ⟨(wcmd.onFb fun f => { f with draft := some { owner := .session 2 } }).hw, .session 2, 9, leB 4 1, {},
      { owner := .session 2 }, by decide +kernel⟩

/-- The hypotheses of DraftAndLayerCommands about commitWaits are met. -/
theorem witness_DraftAndLayerCommands_commitWaits : ∃ h : Mach, ∃ rq : Rq, ∃ q : Nat, ∃ v : Bytes, ∃ f : Verif,
    ∃ d : Draft, (let i : Instr := .commit rq q v f; (h.takes i = true) ∧ (h.fb.draft = some d) ∧
    (d.owner = draftOwner rq) ∧ (d.held = false) ∧ (d.ents ≠ []) ∧
    (d.ents.all (fun p => (match entryRow p.1 with | some e => e.lic = 0 || h.hasLicence (e.lic - 1) | none => true)) = true) ∧
    (h.draftConflict d.ents = none)) :=
  ⟨(wcmd.onFb fun f => { f with draft := some { owner := .session 2, ents := [(kDraftIdleTimeout, leB 4 60000)] } }).hw,
      .session 2, 9, leB 4 1, {}, { owner := .session 2, ents := [(kDraftIdleTimeout, leB 4 60000)] },
      by decide +kernel⟩

/-- The hypotheses of DraftAndLayerCommands about licenceInstall are met. -/
theorem witness_DraftAndLayerCommands_licenceInstall : ∃ s : State, ∃ rq : Rq, ∃ q : Nat, ∃ v : Bytes, ∃ f : Verif,
    (let i : Instr := .licenceInstall rq q v f; (s.hw.takes i = true) ∧ (licenceShape s.fuses v = true) ∧
    (f.chain = true) ∧ (f.sig = true) ∧ (s.hw.fb.stored.length < 8)) :=
  ⟨wcmd, .session 2, 9, leB 4 0x4C4C5453 ++ [1, 1] ++ leB 2 1 ++ leB 8 0 ++ leB 4 7 ++ List.replicate 157 0, {},
      by decide +kernel⟩

/-- The hypotheses of DraftAndLayerCommands about licenceRemove are met. -/
theorem witness_DraftAndLayerCommands_licenceRemove : ∃ h : Mach, ∃ rq : Rq, ∃ q : Nat, ∃ v : Bytes, ∃ f : Verif,
    (let i : Instr := .licenceRemove rq q v f; (h.takes i = true)) :=
  ⟨wcmd.hw, .session 2, 9, [2], {}, by decide +kernel⟩

/-- The hypotheses of DraftAndLayerCommands about saveRunning are met. -/
theorem witness_DraftAndLayerCommands_saveRunning : ∃ h : Mach, ∃ rq : Rq, ∃ q : Nat, ∃ v : Bytes, ∃ f : Verif,
    (let i : Instr := .saveRunning rq q v f; (h.takes i = true)) :=
  ⟨wcmd.hw, .session 2, 9, [0x10], {}, by decide +kernel⟩

/-- The hypotheses of DraftAndLayerCommands about sheetClear are met. -/
theorem witness_DraftAndLayerCommands_sheetClear : ∃ h : Mach, ∃ rq : Rq, ∃ q : Nat, ∃ v : Bytes, ∃ f : Verif,
    ∃ j : Nat, (let i : Instr := .sheetClear j rq q v f; (h.takes i = true) ∧ (j < 8)) :=
  ⟨wcmd.hw, .session 2, 9, [1], {}, 3, by decide +kernel⟩

/-- The hypotheses of DraftAndLayerCommands about counterClear are met. -/
theorem witness_DraftAndLayerCommands_counterClear : ∃ h : Mach, ∃ rq : Rq, ∃ q : Nat, ∃ v : Bytes, ∃ f : Verif,
    (let i : Instr := .counterClear rq q v f; (h.takes i = true)) :=
  ⟨wcmd.hw, .session 2, 9, [1], {}, by decide +kernel⟩

/-- The hypotheses of CountersAreReadAsTheyAre about sensorRead are met. -/
theorem witness_CountersAreReadAsTheyAre_sensorRead : ∃ h : Mach, ∃ rq : Rq, ∃ q : Nat, ∃ v : Bytes, ∃ f : Verif,
    (let i : Instr := .sensorRead rq q v f; (h.takes i = true) ∧ (h.confResident = false) ∧ (leN v < 2)) :=
  ⟨wcmd.hw, .session 2, 9, [1], {}, by decide +kernel⟩

/-- The hypotheses of CountersAreReadAsTheyAre about eyeHistoryRead are met. -/
theorem witness_CountersAreReadAsTheyAre_eyeHistoryRead : ∃ h : Mach, ∃ rq : Rq, ∃ q : Nat, ∃ v : Bytes, ∃ f : Verif,
    (let i : Instr := .eyeHistoryRead rq q v f; (h.takes i = true) ∧ (h.confResident = false) ∧
    (num v 1 2 < eyeUnits (num v 0 1))) :=
  ⟨wcmd.hw, .session 2, 9, [8, 4, 0, 0], {}, by decide +kernel⟩

/-- The hypotheses of CountersAreReadAsTheyAre about monitorSlackRead are met. -/
theorem witness_CountersAreReadAsTheyAre_monitorSlackRead : ∃ h : Mach, ∃ rq : Rq, ∃ q : Nat, ∃ v : Bytes,
    ∃ f : Verif, (let i : Instr := .monitorSlackRead rq q v f; (h.takes i = true) ∧ (h.confResident = false) ∧
    (leN v < 2)) :=
  ⟨wcmd.hw, .session 2, 9, [1], {}, by decide +kernel⟩

/-- The hypotheses of CountersAreReadAsTheyAre about ringCounters are met. -/
theorem witness_CountersAreReadAsTheyAre_ringCounters : ∃ h : Mach, ∃ rq : Rq, ∃ q : Nat, ∃ v : Bytes, ∃ f : Verif,
    ∃ x : Ring, (let i : Instr := .ringCounters rq q v f; (h.takes i = true) ∧ (h.confResident = false) ∧
    (h.ring? (leN v) = some x)) :=
  ⟨(wcmd.onRng fun r => { r with rings := [(0, wringR 0 0)] }).hw, .session 2, 9, [0, 0], {}, wringR 0 0,
      by decide +kernel⟩

/-- The hypotheses of CountersAreReadAsTheyAre about streamCounters are met. -/
theorem witness_CountersAreReadAsTheyAre_streamCounters : ∃ h : Mach, ∃ rq : Rq, ∃ q : Nat, ∃ v : Bytes, ∃ f : Verif,
    (let i : Instr := .streamCounters rq q v f; (h.takes i = true) ∧ (h.confResident = false) ∧ (num v 0 1 ≤ 23) ∧
    (num v 1 1 ≤ 1) ∧ (num v 2 2 ≤ 32767)) :=
  ⟨wcmd.hw, .session 2, 9, [4, 0, 5, 0], {}, by decide +kernel⟩

/-- The hypotheses of CountersAreReadAsTheyAre about legCounters are met. -/
theorem witness_CountersAreReadAsTheyAre_legCounters : ∃ h : Mach, ∃ rq : Rq, ∃ q : Nat, ∃ v : Bytes, ∃ f : Verif,
    ∃ t : Trav, (let i : Instr := .legCounters rq q v f; (h.takes i = true) ∧ (h.confResident = false) ∧
    (sget h.trv.live (itemKey (num v 0 2) (num v 2 8)) = some t) ∧ (t.legs.length ≤ 64)) :=
  ⟨((wtrav [wleg 2 9] []).onFb fun f => { f with sessions := [(2, { port := 0, hello := true })] }).hw, .session 2, 9,
      [0, 0, 7, 0, 0, 0, 0, 0, 0, 0], {}, wtravLive [wleg 2 9] [], by decide +kernel⟩

/-- The hypotheses of CountersAreReadAsTheyAre about myRingCounters are met. -/
theorem witness_CountersAreReadAsTheyAre_myRingCounters : ∃ h : Mach, ∃ rq : Rq, ∃ q : Nat, ∃ v : Bytes, ∃ f : Verif,
    ∃ x : Ring, (let i : Instr := .myRingCounters rq q v f; (h.takes i = true) ∧ (h.ring? (leN v) = some x) ∧
    (x.ctx = rqCtx rq)) :=
  ⟨wcls.hw, .item 0 7 5, 9, [0, 0], {}, wringR 0 0, by decide +kernel⟩

/-- The hypotheses of CountersAreReadAsTheyAre about myCoreCounters are met. -/
theorem witness_CountersAreReadAsTheyAre_myCoreCounters : ∃ h : Mach, ∃ rq : Rq, ∃ q : Nat, ∃ v : Bytes, ∃ f : Verif,
    (let i : Instr := .myCoreCounters rq q v f; (h.takes i = true) ∧ (leN v < 32) ∧
    ((h.coreAt (leN v)).ctx = rqCtx rq)) :=
  ⟨(wcls.onCores fun x => { x with ctx := 5 }).hw, .item 0 7 5, 9, [3], {}, by decide +kernel⟩

/-- The hypotheses of GridStackAndRingCommands about rlcFlush are met. -/
theorem witness_GridStackAndRingCommands_rlcFlush : ∃ h : Mach, ∃ rq : Rq, ∃ q : Nat, ∃ v : Bytes, ∃ f : Verif,
    (let i : Instr := .rlcFlush rq q v f; (h.takes i = true)) :=
  ⟨wcmd.hw, .session 2, 9, [1], {}, by decide +kernel⟩

/-- The hypotheses of GridStackAndRingCommands about segmapWrite are met. -/
theorem witness_GridStackAndRingCommands_segmapWrite : ∃ h : Mach, ∃ rq : Rq, ∃ q : Nat, ∃ v : Bytes, ∃ f : Verif,
    ∃ e : SegEnt, (let i : Instr := .segmapWrite rq q v f; (h.takes i = true) ∧ (v.length = 18) ∧
    (h.segJudge (num v 0 2) (num v 2 16) = .inr (some e)) ∧
    ((match sget h.grid.seg (num v 0 2) with | some o => h.itemsLeft o.ctx (h.rng.items.map Item.key) | none => false) = false)) :=
  ⟨(wcmd.onGrid fun g => { g with seg := [] }).hw, .session 2, 9, [2, 0] ++ leB 16 (wseg 6 0 0).bits, {},
      SegEnt.ofBits (wseg 6 0 0).bits, by decide +kernel⟩

/-- The hypotheses of GridStackAndRingCommands about segmapRead are met. -/
theorem witness_GridStackAndRingCommands_segmapRead : ∃ h : Mach, ∃ rq : Rq, ∃ q : Nat, ∃ v : Bytes, ∃ f : Verif,
    (let i : Instr := .segmapRead rq q v f; (h.takes i = true) ∧ (0 < num v 2 2) ∧ (num v 2 2 ≤ 256) ∧
    (num v 0 2 + num v 2 2 ≤ 65536)) :=
  ⟨wcmd.hw, .session 2, 9, [0, 0, 3, 0], {}, by decide +kernel⟩

/-- The hypotheses of GridStackAndRingCommands about segmapClearContext are met. -/
theorem witness_GridStackAndRingCommands_segmapClearContext : ∃ h : Mach, ∃ rq : Rq, ∃ q : Nat, ∃ v : Bytes,
    ∃ f : Verif, (let i : Instr := .segmapClearContext rq q v f; (h.takes i = true) ∧
    ((h.segsOf (leN v)).any (fun x => h.holdsRing x.2) = false) ∧
    (h.rng.items.any (fun i => i.ctx = leN v) = false)) :=
  ⟨wcmd.hw, .session 2, 9, [5, 0], {}, by decide +kernel⟩

/-- The hypotheses of GridStackAndRingCommands about stackRetireList are met. -/
theorem witness_GridStackAndRingCommands_stackRetireList : ∃ h : Mach, ∃ rq : Rq, ∃ q : Nat, ∃ v : Bytes, ∃ f : Verif,
    (let i : Instr := .stackRetireList rq q v f; (h.takes i = true) ∧ (leN v < 6) ∧
    ((h.stackAt (leN v)).retired.length ≤ 4096)) :=
  ⟨wcmd.hw, .session 2, 9, [2], {}, by decide +kernel⟩

/-- The hypotheses of GridStackAndRingCommands about rekeyQuery are met. -/
theorem witness_GridStackAndRingCommands_rekeyQuery : ∃ h : Mach, ∃ rq : Rq, ∃ q : Nat, ∃ v : Bytes, ∃ f : Verif,
    (let i : Instr := .rekeyQuery rq q v f; (h.takes i = true) ∧ (leN v < 4096)) :=
  ⟨wcmd.hw, .session 2, 9, [6, 0], {}, by decide +kernel⟩

/-- The hypotheses of GridStackAndRingCommands about ringQuery are met. -/
theorem witness_GridStackAndRingCommands_ringQuery : ∃ h : Mach, ∃ rq : Rq, ∃ q : Nat, ∃ v : Bytes, ∃ f : Verif,
    ∃ x : Ring, (let i : Instr := .ringQuery rq q v f; (h.takes i = true) ∧ (h.ring? (leN v) = some x)) :=
  ⟨(wcmd.onRng fun r => { r with rings := [(0, wringR 0 0)] }).hw, .session 2, 9, [0, 0], {}, wringR 0 0,
      by decide +kernel⟩

/-- The hypotheses of GridStackAndRingCommands about ringLastMarks are met. -/
theorem witness_GridStackAndRingCommands_ringLastMarks : ∃ h : Mach, ∃ rq : Rq, ∃ q : Nat, ∃ v : Bytes, ∃ f : Verif,
    ∃ x : Marks, (let i : Instr := .ringLastMarks rq q v f; (h.takes i = true) ∧
    (sget h.rng.marks (leN v) = some x)) :=
  ⟨(wcmd.onRng fun r => { r with marks := [(0, ⟨1, 2, 3, 4, 5, 6⟩)] }).hw, .session 2, 9, [0, 0], {}, ⟨1, 2, 3, 4, 5,
      6⟩, by decide +kernel⟩

/-- The hypotheses of GridStackAndRingCommands about ringDelete are met. -/
theorem witness_GridStackAndRingCommands_ringDelete : ∃ h : Mach, ∃ rq : Rq, ∃ q : Nat, ∃ v : Bytes, ∃ f : Verif,
    ∃ x : Ring, (let i : Instr := .ringDelete rq q v f; (h.takes i = true) ∧ (h.ring? (leN v) = some x) ∧
    (h.itemsOf (leN v) = []) ∧ (h.rng.recWait.any (fun y => y.ring = leN v) = false)) :=
  ⟨(wcmd.onRng fun r => { r with rings := [(0, wringR 0 0)] }).hw, .session 2, 9, [0, 0], {}, wringR 0 0,
      by decide +kernel⟩

/-- The hypotheses of GridStackAndRingCommands about ringReopen are met. -/
theorem witness_GridStackAndRingCommands_ringReopen : ∃ h : Mach, ∃ rq : Rq, ∃ q : Nat, ∃ v : Bytes, ∃ f : Verif,
    ∃ x : Ring, ∃ c : Ctx, (let i : Instr := .ringReopen rq q v f; (h.takes i = true) ∧ (h.ring? (leN v) = some x) ∧
    (h.ctx? x.ctx = some c) ∧ (x.closed = true) ∧ (c.st = .live) ∧ (x.ty = 1 → (h.siteAt x.target).state = 5 ∧
    (h.siteAt x.target).readmitting = false ∧ (h.siteAt x.target).fencing = none) ∧
    (x.ty ≠ 2 ∨ ((h.coreAt (ringCore (leN v) x)).state < 3 ∧ (h.coreAt (ringCore (leN v) x)).fencing = none))) :=
  ⟨(wcmd.onRng fun r => { r with rings := [(0, { wringR 0 0 with closed := true })] }).hw, .session 2, 9, [0, 0], {},
      { wringR 0 0 with closed := true }, {}, by decide +kernel⟩

/-- The hypotheses of RingsAndContextsAreMadeAndEnded about ringCreate are met. -/
theorem witness_RingsAndContextsAreMadeAndEnded_ringCreate : ∃ h : Mach, ∃ rq : Rq, ∃ q : Nat, ∃ v : Bytes,
    ∃ f : Verif, ∃ y : Ctx, (let i : Instr := .ringCreate rq q v f; (h.takes i = true) ∧ (let w := leN v;
    (let r := fld w 113 15; (let c := fld w 128 12; (let dl := fld w 104 5; (let desc := fld w 174 34 * 64;
    (let cpl := fld w 140 34 * 64; (let start := fld w 208 48; (h.ctx? c = some y) ∧ (y.st = .live) ∧ (c ≠ 0) ∧
    (fld w 110 2 = 0) ∧ (fld w 88 4 = 0) ∧ (bitOf w 109 = false) ∧ (fld w 0 72 = 0) ∧ (4 ≤ dl) ∧ (dl ≤ 16) ∧
    (start % (2 * 2 ^ dl) = 0) ∧ (fld w 100 4 = 2) ∧ (fld w 92 8 < 32) ∧ (h.subInPlat y.part 2 (fld w 92 8) = true) ∧
    (h.ringInPlat y.part r = true) ∧ (h.ring? r = none) ∧ (h.areaGood (ringFloor r) c desc (64 * 2 ^ dl) = true) ∧
    (h.areaGood (ringFloor r) c cpl (32 * 2 ^ dl) = true))))))))) :=
  ⟨wcmd.hw, .session 2, 9, leB 32 (2 ^ 128 * 5 + 2 ^ 104 * 4 + 2 ^ 100 * 2 + 2 ^ 140 * 64 + 2 ^ 113 * 7), {}, {},
      by decide +kernel⟩

/-- The hypotheses of RingsAndContextsAreMadeAndEnded about contextCreate are met. -/
theorem witness_RingsAndContextsAreMadeAndEnded_contextCreate : ∃ h : Mach, ∃ rq : Rq, ∃ q : Nat, ∃ v : Bytes,
    ∃ f : Verif, (let i : Instr := .contextCreate rq q v f; (h.takes i = true) ∧ (num v 13 3 = 0) ∧ (num v 3 1 = 0) ∧
    (num v 12 1 = 0) ∧ (0 < num v 0 2) ∧ (num v 0 2 < 4096) ∧ (h.ctx? (num v 0 2) = none) ∧ (num v 2 1 < 4) ∧
    (h.partHolds (num v 2 1) = true)) :=
  ⟨wcmd.hw, .session 2, 9, [9, 0, 0, 0] ++ List.replicate 12 0, {}, by decide +kernel⟩

/-- The hypotheses of RingsAndContextsAreMadeAndEnded about contextQuery are met. -/
theorem witness_RingsAndContextsAreMadeAndEnded_contextQuery : ∃ h : Mach, ∃ rq : Rq, ∃ q : Nat, ∃ v : Bytes,
    ∃ f : Verif, ∃ x : Ctx, (let i : Instr := .contextQuery rq q v f; (h.takes i = true) ∧ (leN v < 4096) ∧
    (h.ctx? (leN v) = some x)) :=
  ⟨wcmd.hw, .session 2, 9, [5, 0], {}, {}, by decide +kernel⟩

/-- The hypotheses of RingsAndContextsAreMadeAndEnded about contextDestroy are met. -/
theorem witness_RingsAndContextsAreMadeAndEnded_contextDestroy : ∃ h : Mach, ∃ rq : Rq, ∃ q : Nat, ∃ v : Bytes,
    ∃ f : Verif, ∃ x : Ctx, (let i : Instr := .contextDestroy rq q v f; (h.takes i = true) ∧
    (h.ctx? (leN v) = some x) ∧ (x.st = .live) ∧ (h.rng.items.any (fun i => i.ctx = leN v) = false) ∧ (leN v ≠ 0)) :=
  ⟨wcmd.hw, .session 2, 9, [5, 0], {}, {}, by decide +kernel⟩

/-- The hypotheses of UnitsAndPortsByCommand about siteFence are met. -/
theorem witness_UnitsAndPortsByCommand_siteFence : ∃ h : Mach, ∃ rq : Rq, ∃ q : Nat, ∃ v : Bytes, ∃ f : Verif,
    ∃ j : Nat, (let i : Instr := .siteFence j rq q v f; (h.takes i = true) ∧ (j < 4) ∧ (h.site.dev.length = 4) ∧
    ((h.siteAt j).fencing = none) ∧ ((h.siteAt j).state ≠ 0) ∧ ((h.siteAt j).state ≠ 6) ∧ ((h.siteAt j).state ≠ 7)) :=
  ⟨(wcmd.onSites fun x => { x with state := 5 }).hw, .session 2, 9, [1], {}, 1, by decide +kernel⟩

/-- The hypotheses of UnitsAndPortsByCommand about siteReadmitNow are met. -/
theorem witness_UnitsAndPortsByCommand_siteReadmitNow : ∃ h : Mach, ∃ rq : Rq, ∃ q : Nat, ∃ v : Bytes, ∃ f : Verif,
    ∃ j : Nat, (let i : Instr := .siteReadmitNow j rq q v f; (h.takes i = true) ∧ (j < 4) ∧ (h.site.dev.length = 4) ∧
    ((h.siteAt j).fencing = none) ∧ ((h.siteAt j).readmitting = false) ∧ (h.floorLost (j / 2) = false) ∧
    (h.floorGone (j / 2) = false) ∧ (h.pwr.closure = none) ∧
    ((h.siteAt j).state = 6 ∨ (h.siteAt j).state = 7 ∨ (h.siteAt j).state = 1)) :=
  ⟨(wcmd.onSites fun x => { x with state := 6 }).hw, .session 2, 9, [1], {}, 1, by decide +kernel⟩

/-- The hypotheses of UnitsAndPortsByCommand about hostCoreStart are met. -/
theorem witness_UnitsAndPortsByCommand_hostCoreStart : ∃ h : Mach, ∃ rq : Rq, ∃ q : Nat, ∃ v : Bytes, ∃ f : Verif,
    ∃ j : Nat, ∃ y : Ctx, (let i : Instr := .hostCoreStart j rq q v f; (h.takes i = true) ∧ (j < 32) ∧
    (h.core.dev.length = 32) ∧ ((h.coreAt j).state ≠ 4) ∧ (h.coreBusy j = false) ∧ (h.coreCauseHolds j = false) ∧
    (h.age.retire.contains j = false) ∧ (h.ctx? (num v 0 2) = some y) ∧ (num v 0 2 ≠ 0) ∧ (y.st = .live) ∧
    (bitOf (h.plat y.part 6) j = true) ∧ (num v 2 2 = 0)) :=
  ⟨wcmd.hw, .session 2, 9, [5, 0, 0, 0] ++ leB 8 4096, {}, 3, {}, by decide +kernel⟩

/-- The hypotheses of UnitsAndPortsByCommand about hostCoreStop are met. -/
theorem witness_UnitsAndPortsByCommand_hostCoreStop : ∃ h : Mach, ∃ rq : Rq, ∃ q : Nat, ∃ v : Bytes, ∃ f : Verif,
    ∃ j : Nat, (let i : Instr := .hostCoreStop j rq q v f; (h.takes i = true) ∧ (j < 32) ∧ (h.core.dev.length = 32) ∧
    ((h.coreAt j).state ≠ 4) ∧ (h.coreBusy j = false) ∧ (h.coreCauseHolds j = false) ∧
    (h.age.retire.contains j = false)) :=
  ⟨(wcmd.onCores fun x => { x with state := 1, ctx := 5 }).hw, .session 2, 9, [1], {}, 3, by decide +kernel⟩

/-- The hypotheses of UnitsAndPortsByCommand about hostCoreFence are met. -/
theorem witness_UnitsAndPortsByCommand_hostCoreFence : ∃ h : Mach, ∃ rq : Rq, ∃ q : Nat, ∃ v : Bytes, ∃ f : Verif,
    ∃ j : Nat, (let i : Instr := .hostCoreFence j rq q v f; (h.takes i = true) ∧ (j < 32) ∧ (h.core.dev.length = 32) ∧
    ((h.coreAt j).state < 3) ∧ ((h.coreAt j).fencing = none)) :=
  ⟨(wcmd.onCores fun x => { x with state := 1, ctx := 5 }).hw, .session 2, 9, [1], {}, 3, by decide +kernel⟩

/-- The hypotheses of UnitsAndPortsByCommand about hpFence are met. -/
theorem witness_UnitsAndPortsByCommand_hpFence : ∃ h : Mach, ∃ rq : Rq, ∃ q : Nat, ∃ v : Bytes, ∃ f : Verif,
    ∃ j : Nat, (let i : Instr := .hpFence j rq q v f; (h.takes i = true) ∧ (j < 2) ∧ (h.hp.dev.length = 2) ∧
    ((h.hpAt j).fencing = none) ∧ ((h.hpAt j).stopped = false)) :=
  ⟨wcmd.hw, .session 2, 9, [1], {}, 1, by decide +kernel⟩

/-- The hypotheses of UnitsAndPortsByCommand about farTest are met. -/
theorem witness_UnitsAndPortsByCommand_farTest : ∃ h : Mach, ∃ rq : Rq, ∃ q : Nat, ∃ v : Bytes, ∃ f : Verif,
    ∃ j : Nat, (let i : Instr := .farTest j rq q v f; (h.takes i = true) ∧ (j < 2) ∧ (num v 0 8 % 4096 = 0) ∧
    (num v 8 8 % 4096 = 0) ∧ ((h.hpAt j).moves = []) ∧ ((h.hpAt j).role = 2) ∧ ((h.hpAt j).far = 2) ∧
    (num v 0 8 + num v 8 8 ≤ (h.hpAt j).capacity)) :=
  ⟨(wcmd.onHps fun x => { x with role := 2, far := 2, capacity := 2 ^ 30 }).hw, .session 2, 9,
      leB 8 4096 ++ leB 8 8192, { meas := [3] }, 1, by decide +kernel⟩

/-- The hypotheses of UnitsAndPortsByCommand about linkRetrain are met. -/
theorem witness_UnitsAndPortsByCommand_linkRetrain : ∃ h : Mach, ∃ rq : Rq, ∃ q : Nat, ∃ v : Bytes, ∃ f : Verif,
    (let i : Instr := .linkRetrain rq q v f; (h.takes i = true) ∧ (leN v < 24) ∧ (h.lnk.dev.length = 24) ∧
    ((h.portAt (leN v)).state = 1) ∧ ((h.portAt (leN v)).partner = none) ∧ (h.itemsOnPort (leN v) = []) ∧
    (h.portMayTrain (leN v) = true)) :=
  ⟨(wcmd.onPorts fun x => { x with state := 1, recWidth := 4 }).hw, .session 2, 9, [4], {}, by decide +kernel⟩

/-- The hypotheses of UnitsAndPortsByCommand about fwBcast are met. -/
theorem witness_UnitsAndPortsByCommand_fwBcast : ∃ h : Mach, ∃ rq : Rq, ∃ q : Nat, ∃ v : Bytes, ∃ f : Verif,
    ∃ image : Bytes, (let i : Instr := .fwBcast rq q v f; (h.takes i = true) ∧ (num v 2 6 = 0) ∧ (num v 20 12 = 0) ∧
    (num v 16 4 ≤ 2 ^ 26 - 0x01E40000) ∧ (h.trv.bcast = none) ∧ (h.member = 0) ∧ (num v 32 16 ≠ 0) ∧ (h.calm = true) ∧
    (((h.opens rq).itemRead (ringPort 0) h.fb.epoch (num v 0 2) (num v 8 8) (num v 16 4)).2 = .ok image)) :=
  ⟨(wcmd.withVal kGroupMember (leB 1 0)).hw, .session 2, 9,
      leB 2 5 ++ List.replicate 6 0 ++ leB 8 0 ++ leB 4 256 ++ List.replicate 12 0 ++ leB 16 6, {},
      List.replicate 256 0, by decide +kernel⟩

/-- `wcmd` licensed for the island, with a lease of context 5's checkpoint key sealed under any key. -/
def wunseal0 : State := (wcmd.onSites fun x => { x with state := 5 }).onFb fun f => { f with licences := 8 }
def wlease : Lease :=
  let l : Lease := ⟨2, 5, 0, 1, 9, wunseal0.hw.leaseMeasure 0, 0, 3, [1, 2], []⟩
  { l with tag := gcmTag (wunseal0.hw.sealKey wunseal0.fuses) 3 l.head [1, 2] }
def wunseal : State := wunseal0.onSec fun z => { z with leases := [wlease] }
/-- The hypotheses of TrustCommands about leaseUnseal are met. -/
theorem witness_TrustCommands_leaseUnseal : ∃ (s : State) (v : Bytes) (l : Lease) (x : Ctx),
    s.hw.takes (.leaseUnseal (.session 2) 9 v {}) = true ∧ num v 2 1 = 2 ∧
    s.hw.sec.leases.find? (fun l => l.ctx = num v 0 2 && l.kind = 2) = some l ∧ s.hw.leaseOpens s.fuses l = true ∧
    s.hw.sec.unlocked = false ∧ l.measure = s.hw.leaseMeasure l.part ∧
    (bitList 4 (s.hw.plat l.part 1)).all (fun t => (s.hw.siteAt t).state = 5) = true ∧
        s.hw.hasLicence licIsland = true ∧
    l.aonId = s.hw.sec.aonId ∧ s.hw.sec.island < l.expiry ∧ s.hw.ctx? (num v 0 2) = some x ∧ x.st = .live ∧
    x.part = l.part ∧ s.hw.floorLost 0 = false ∧ (s.hw.keysOf (num v 0 2)).rot = .steady :=
  ⟨wunseal, [5, 0, 2], wlease, {}, by decide +kernel, by decide +kernel, rfl, decide_eq_true rfl, rfl, rfl,
      by decide +kernel,
    by decide +kernel, rfl, by decide +kernel, by decide +kernel, rfl, rfl, by decide +kernel, by decide +kernel⟩
/-- A release of request 4 for context 5's checkpoint key, opened by whatever key its request derives. -/
def wreq : KeyReq := { id := 4, ctx := 5, kind := 2, lease := 0, draw := 1, time := 0 }
def whead : Bytes := leB 4 0x4C524B53 ++ [1, 2, 5, 0] ++ leB 4 4 ++ [0, 0, 1, 0] ++ List.replicate 112 0
def wrelease : Bytes :=
  let k := wrapKey wcmd.fuses wreq ((whead.drop 0x10).take 97)
  whead ++ List.replicate 32 7 ++ gcmTag k.1 k.2 whead (List.replicate 32 7) ++ List.replicate 97 0
def wkey : State := (wcmd.onSec fun z => { z with reqs := [wreq] }).onFb fun x =>
  { x with cur := { x.cur with ovr := sput x.cur.ovr kBrokerRootDigest (leB 48 9) } }
/-- The hypotheses of TrustCommands about keyInstall are met. -/
theorem witness_TrustCommands_keyInstall : ∃ (s : State) (v : Bytes) (r : KeyReq),
    s.hw.takes (.keyInstall (.session 2) 9 v { chain := true, sig := true }) = true ∧ releaseGood v = true ∧
        num v 5 1 = 2 ∧
    leN (s.hw.runVal kBrokerRootDigest) ≠ 0 ∧
    s.hw.sec.reqs.find? (fun r => r.id = num v 8 4 && r.ctx = num v 6 2 && r.kind = 2) = some r ∧
    releaseOpens s.fuses r v = true ∧ s.hw.floorLost 0 = false ∧ (s.hw.keysOf (num v 6 2)).rot = .steady ∧
    s.hw.hasLicence licIsland = false :=
  ⟨wkey, wrelease, wreq, by decide +kernel, by decide +kernel, by decide +kernel, by decide +kernel, by decide +kernel,
    decide_eq_true rfl, by decide +kernel, by decide +kernel, by decide +kernel⟩

/-- The hypotheses of TrustCommands about secVersionAdvance are met. -/
theorem witness_TrustCommands_secVersionAdvance : ∃ s : State, ∃ rq : Rq, ∃ q : Nat, ∃ v : Bytes, ∃ f : Verif,
    (let i : Instr := .secVersionAdvance rq q v f; (s.hw.takes i = true) ∧ (s.fuses.svn < s.hw.sec.version) ∧
    (s.hw.sec.version ≤ 64)) :=
  ⟨wcmd.onSec fun z => { z with version := 3 }, .session 2, 9, [1], {}, by decide +kernel⟩

/-- The hypotheses of TrustCommands about attestReport are met. -/
theorem witness_TrustCommands_attestReport : ∃ s : State, ∃ rq : Rq, ∃ q : Nat, ∃ v : Bytes, ∃ f : Verif,
    (let i : Instr := .attestReport rq q v f; (s.hw.takes i = true) ∧ (s.hw.floorLost 0 = false)) :=
  ⟨wcmd, .session 2, 9, List.replicate 32 7, {}, by decide +kernel⟩

/-- The hypotheses of TrustCommands about keyRequest are met. -/
theorem witness_TrustCommands_keyRequest : ∃ h : Mach, ∃ rq : Rq, ∃ q : Nat, ∃ v : Bytes, ∃ f : Verif,
    (let i : Instr := .keyRequest rq q v f; (h.takes i = true) ∧ (num v 2 1 = 2) ∧ (num v 3 1 ≤ 72) ∧
    (h.ctxLive (num v 0 2) = true) ∧ (h.floorLost 0 = false) ∧ (h.sec.reqs.length < 64) ∧
    (h.sec.reqs.any (fun r => r.ctx = num v 0 2 && r.kind = 2) = false)) :=
  ⟨wcmd.hw, .session 2, 9, [5, 0, 2, 0] ++ List.replicate 32 1, {}, by decide +kernel⟩

/-- The hypotheses of TrustCommands about keyRotate are met. -/
theorem witness_TrustCommands_keyRotate : ∃ h : Mach, ∃ rq : Rq, ∃ q : Nat, ∃ v : Bytes, ∃ f : Verif, ∃ k : StkKeys,
    (let i : Instr := .keyRotate rq q v f; (h.takes i = true) ∧ (h.ctxLive (leN v) = true) ∧
    (h.confCtx (leN v) = false) ∧ (h.floorLost 0 = false) ∧ (h.keysOf (leN v) = k) ∧ (k.rot = .steady) ∧
    (k.write < 2)) :=
  ⟨wcmd.hw, .session 2, 9, [6, 0], {}, { slot0 := some 7 }, by decide +kernel⟩

/-- The hypotheses of TrustCommands about keyErase are met. -/
theorem witness_TrustCommands_keyErase : ∃ h : Mach, ∃ rq : Rq, ∃ q : Nat, ∃ v : Bytes, ∃ f : Verif, ∃ x : Nat,
    (let i : Instr := .keyErase rq q v f; (h.takes i = true) ∧ (h.floorLost 0 = false) ∧
    ((h.ctxKeys (leN v)).ckpt = some x)) :=
  ⟨(wcmd.onSec fun z => { z with keys := [(5, { ckpt := some 3 })] }).hw, .session 2, 9, [5, 0], {}, 3,
      by decide +kernel⟩

/-- The hypotheses of TrustCommands about keyQuery are met. -/
theorem witness_TrustCommands_keyQuery : ∃ h : Mach, ∃ rq : Rq, ∃ q : Nat, ∃ v : Bytes, ∃ f : Verif,
    (let i : Instr := .keyQuery rq q v f; (h.takes i = true) ∧ (leN v < 4096)) :=
  ⟨wcmd.hw, .session 2, 9, [5, 0], {}, by decide +kernel⟩

/-- The hypotheses of TrustCommands about leaseRevoke are met. -/
theorem witness_TrustCommands_leaseRevoke : ∃ h : Mach, ∃ rq : Rq, ∃ q : Nat, ∃ v : Bytes, ∃ f : Verif,
    (let i : Instr := .leaseRevoke rq q v f; (h.takes i = true) ∧ (num v 2 1 ≤ 2) ∧
    (num v 0 2 ≤ 4095 ∨ num v 0 2 = 0xFFFF)) :=
  ⟨wcmd.hw, .session 2, 9, [5, 0, 0], {}, by decide +kernel⟩

/-- The hypotheses of TrustCommands about leaseList are met. -/
theorem witness_TrustCommands_leaseList : ∃ h : Mach, ∃ rq : Rq, ∃ q : Nat, ∃ v : Bytes, ∃ f : Verif,
    (let i : Instr := .leaseList rq q v f; (h.takes i = true) ∧ (h.sec.leases.length ≤ 64)) :=
  ⟨wcmd.hw, .session 2, 9, [0], {}, by decide +kernel⟩

/-- The hypotheses of TrustCommands about debugChallenge are met. -/
theorem witness_TrustCommands_debugChallenge : ∃ h : Mach, ∃ rq : Rq, ∃ q : Nat, ∃ v : Bytes, ∃ f : Verif,
    (let i : Instr := .debugChallenge rq q v f; (h.takes i = true)) :=
  ⟨wcmd.hw, .session 2, 9, [0], {}, by decide +kernel⟩

/-- The hypotheses of TrustCommands about debugUnlock are met. -/
theorem witness_TrustCommands_debugUnlock : ∃ s : State, ∃ rq : Rq, ∃ q : Nat, ∃ v : Bytes, ∃ f : Verif, ∃ c : Nat,
    (let i : Instr := .debugUnlock rq q v f; (s.hw.takes i = true) ∧ (bitOf s.fuses.debug 0 = true) ∧
    (f.chain = true) ∧ (f.sig = true) ∧ (s.hw.sec.challenge = some c) ∧ (s.hw.confResident = false)) :=
  ⟨(wcmd.onSec fun z => { z with challenge := some 0 }).setFuses { wcmd.fuses with debug := 1 }, .session 2, 9,
      List.replicate 200 0, {}, 0, by decide +kernel⟩

/-- The hypotheses of PowerSurveyAndLedgerCommands about pwrRequestActive are met. -/
theorem witness_PowerSurveyAndLedgerCommands_pwrRequestActive : ∃ h : Mach, ∃ rq : Rq, ∃ q : Nat, ∃ v : Bytes,
    ∃ f : Verif, (let i : Instr := .pwrRequest rq q v f; (h.takes i = true) ∧ (leN v = 0) ∧
    (h.clk.loss.contains true = false) ∧ (h.clk.pwr = 0)) :=
  ⟨wcmd.hw, .session 2, 9, [0], {}, by decide +kernel⟩

/-- The hypotheses of PowerSurveyAndLedgerCommands about pwrRequestLight are met. -/
theorem witness_PowerSurveyAndLedgerCommands_pwrRequestLight : ∃ h : Mach, ∃ rq : Rq, ∃ q : Nat, ∃ v : Bytes,
    ∃ f : Verif, (let i : Instr := .pwrRequest rq q v f; (h.takes i = true) ∧ (leN v = 1) ∧ (1 ≤ h.cfg kPwrDeepest) ∧
    (h.idle = true) ∧ (h.clk.pwr = 0)) :=
  ⟨wcmd.hw, .session 2, 9, [1], {}, by decide +kernel⟩

/-- The hypotheses of PowerSurveyAndLedgerCommands about pwrOff are met. -/
theorem witness_PowerSurveyAndLedgerCommands_pwrOff : ∃ h : Mach, ∃ rq : Rq, ∃ q : Nat, ∃ v : Bytes, ∃ f : Verif,
    (let i : Instr := .pwrOff rq q v f; (h.takes i = true) ∧ (h.pwr.closure = none) ∧ (h.pwr.off = false) ∧
    (h.clk.pwr = 0) ∧ (21 ≤ h.cad.step)) :=
  ⟨wcmd.hw, .session 2, 9, [1], {}, by decide +kernel⟩

/-- The hypotheses of PowerSurveyAndLedgerCommands about thermRecalNow are met. -/
theorem witness_PowerSurveyAndLedgerCommands_thermRecalNow : ∃ h : Mach, ∃ rq : Rq, ∃ q : Nat, ∃ v : Bytes,
    ∃ f : Verif, (let i : Instr := .thermRecalNow rq q v f; (h.takes i = true) ∧ (h.pwr.heat.length = 2) ∧ (∀ x : Nat,
    x < 2 → h.floorGone x = false ∧ h.floorLost x = false ∧ (h.heatAt x).failed = false ∧
    (calOf (f.meas.drop (266 * x))).1 = true)) :=
  ⟨wcmd.hw, .session 2, 9, [1], { meas := 1 :: List.replicate 265 40 ++ 1 :: List.replicate 265 50 }, by decide +kernel⟩

/-- The hypotheses of PowerSurveyAndLedgerCommands about fwUpdate are met. -/
theorem witness_PowerSurveyAndLedgerCommands_fwUpdate : ∃ s : State, ∃ rq : Rq, ∃ q : Nat, ∃ v : Bytes, ∃ f : Verif,
    (let i : Instr := .fwUpdate rq q v f; (s.hw.takes i = true) ∧ (num v 0 4 = 0) ∧ (num v 4 4 ≤ 16777216) ∧
    (1024 ≤ (v.drop 8).length) ∧ ((v.drop 8).length < num v 4 4) ∧ (headerGood s.fuses f = true)) :=
  ⟨wcmd, .session 2, 9, leB 4 0 ++ leB 4 2048 ++ List.replicate 1024 9, { meas := [1, 5, 6] }, by decide +kernel⟩

/-- The hypotheses of PowerSurveyAndLedgerCommands about surveyLogRead are met. -/
theorem witness_PowerSurveyAndLedgerCommands_surveyLogRead : ∃ h : Mach, ∃ rq : Rq, ∃ q : Nat, ∃ v : Bytes,
    ∃ f : Verif, (let i : Instr := .surveyLogRead rq q v f; (h.takes i = true) ∧ (num v 0 4 ≠ 0) ∧ (1 ≤ num v 6 2) ∧
    (num v 6 2 ≤ 2047)) :=
  ⟨wcmd.hw, .session 2, 9, leB 4 1 ++ leB 2 0 ++ leB 2 9, {}, by decide +kernel⟩

/-- The hypotheses of PowerSurveyAndLedgerCommands about cadRead are met. -/
theorem witness_PowerSurveyAndLedgerCommands_cadRead : ∃ h : Mach, ∃ rq : Rq, ∃ q : Nat, ∃ v : Bytes, ∃ f : Verif,
    (let i : Instr := .cadRead rq q v f; (h.takes i = true) ∧ (leN v = 0)) :=
  ⟨wcmd.hw, .session 2, 9, [0], {}, by decide +kernel⟩

/-- The hypotheses of PowerSurveyAndLedgerCommands about cadRemapUnit are met. -/
theorem witness_PowerSurveyAndLedgerCommands_cadRemapUnit : ∃ h : Mach, ∃ rq : Rq, ∃ q : Nat, ∃ v : Bytes,
    ∃ f : Verif, ∃ j : Nat, (let i : Instr := .cadRemapUnit rq q v f; (h.takes i = true) ∧ (let u := (⟨num v 0 1,
    num v 1 2⟩ : UnitRef); (num v 3 1 = 0) ∧ (u.isCad = true) ∧ (u.copies = true) ∧ (h.moving u.floor = false) ∧
    (h.cad.moves.any (fun x => x.unit = u) = false) ∧ (h.cad.queued.any (fun x => x.1 = u) = false) ∧
    (h.cad.cur.physOf u ≠ 0xFF) ∧ (h.freeSpare u.kind u.parent = some j))) :=
  ⟨wcmd.hw, .session 2, 9, [4, 3, 0, 0], {}, 64, by decide +kernel⟩

/-- The hypotheses of PowerSurveyAndLedgerCommands about marginReplanNow are met. -/
theorem witness_PowerSurveyAndLedgerCommands_marginReplanNow : ∃ h : Mach, ∃ rq : Rq, ∃ q : Nat, ∃ v : Bytes,
    ∃ f : Verif, (let i : Instr := .marginReplanNow rq q v f; (h.takes i = true)) :=
  ⟨wcmd.hw, .session 2, 9, [1], {}, by decide +kernel⟩

/-- The hypotheses of PowerSurveyAndLedgerCommands about marginPlanRead are met. -/
theorem witness_PowerSurveyAndLedgerCommands_marginPlanRead : ∃ h : Mach, ∃ rq : Rq, ∃ q : Nat, ∃ v : Bytes,
    ∃ f : Verif, (let i : Instr := .marginPlanRead rq q v f; (h.takes i = true) ∧ (leN v < 2)) :=
  ⟨wcmd.hw, .session 2, 9, [1], {}, by decide +kernel⟩

/-- The hypotheses of PowerSurveyAndLedgerCommands about ledgerRead are met. -/
theorem witness_PowerSurveyAndLedgerCommands_ledgerRead : ∃ h : Mach, ∃ rq : Rq, ∃ q : Nat, ∃ v : Bytes, ∃ f : Verif,
    (let i : Instr := .ledgerRead rq q v f; (h.takes i = true) ∧ (1 ≤ num v 4 2) ∧ (num v 4 2 ≤ 2047) ∧
    (num v 6 2 = 0)) :=
  ⟨wcmd.hw, .session 2, 9, leB 4 0 ++ leB 2 5 ++ leB 2 0, {}, by decide +kernel⟩

/-- The hypotheses of PowerSurveyAndLedgerCommands about ledgerStandingRead are met. -/
theorem witness_PowerSurveyAndLedgerCommands_ledgerStandingRead : ∃ h : Mach, ∃ rq : Rq, ∃ q : Nat, ∃ v : Bytes,
    ∃ f : Verif, (let i : Instr := .ledgerStandingRead rq q v f; (h.takes i = true) ∧ (1 ≤ num v 4 4) ∧
    (num v 4 4 ≤ 4094)) :=
  ⟨wcmd.hw, .session 2, 9, leB 4 0 ++ leB 4 5, {}, by decide +kernel⟩

/-- The hypotheses of PowerSurveyAndLedgerCommands about ledgerAck are met. -/
theorem witness_PowerSurveyAndLedgerCommands_ledgerAck : ∃ h : Mach, ∃ rq : Rq, ∃ q : Nat, ∃ v : Bytes, ∃ f : Verif,
    (let i : Instr := .ledgerAck rq q v f; (h.takes i = true)) :=
  ⟨wcmd.hw, .session 2, 9, leB 4 0, {}, by decide +kernel⟩

/-- The hypotheses of PowerSurveyAndLedgerCommands about holdingsRead are met. -/
theorem witness_PowerSurveyAndLedgerCommands_holdingsRead : ∃ h : Mach, ∃ rq : Rq, ∃ q : Nat, ∃ v : Bytes,
    ∃ f : Verif, (let i : Instr := .holdingsRead rq q v f; (h.takes i = true) ∧ (num v 0 1 < 2) ∧ (num v 2 2 = 0) ∧
    (let l := (h.holdingsOn (num v 0 1)).filter fun y => y.party.kind = num v 1 1 && (num v 4 4 = 0xFFFFFFFF || y.party.num = num v 4 4);
    (l.length ≤ 4094))) :=
  ⟨wcmd.hw, .session 2, 9, [0, 3, 0, 0, 255, 255, 255, 255], {}, by decide +kernel⟩

/-- The hypotheses of SessionsOpenSpeakAndEnd about tlsConnect are met. -/
theorem witness_SessionsOpenSpeakAndEnd_tlsConnect : ∃ h : Mach, ∃ p : Nat, ∃ root : Nat, ∃ leaf : Nat, ∃ n : Nat,
    ∃ f : Verif, (p < 2) ∧ (h.freeSession = some n) ∧ (h.bookServes = true) ∧ (bitOf (h.cfg kMgmtEnable) p = true) ∧
    (h.floorLost p = false) ∧ (h.floorGone p = false) ∧ (h.pwr.closure = none) ∧ (f.chain = true) ∧ (f.sig = true) ∧
    (h.clientGood root leaf = true) :=
  ⟨(wst.onDie fun d => { d with lost := none }).hw, 0, 5, 9, 0, {}, by decide +kernel⟩

/-- The hypotheses of SessionsOpenSpeakAndEnd about tlsConnectRefused are met. -/
theorem witness_SessionsOpenSpeakAndEnd_tlsConnectRefused : ∃ h : Mach, ∃ p : Nat, ∃ root : Nat, ∃ leaf : Nat,
    ∃ f : Verif, (p < 2) ∧ (h.freeSession = none) :=
  ⟨(wst.onFb fun f => { f with sessions := (List.range 8).map fun n => (n, { port := 0 }) }).hw, 0, 5, 9, {},
      by decide +kernel⟩

/-- The hypotheses of SessionsOpenSpeakAndEnd about hello are met. -/
theorem witness_SessionsOpenSpeakAndEnd_hello : ∃ s : State, ∃ n : Nat, ∃ f : Frame, ∃ x : Session, (n < 8) ∧
    (f.ty = 1) ∧ (s.hw.bookServes = true) ∧ (sget s.hw.fb.sessions n = some x) ∧ (x.hello = false) ∧
    (sget s.hw.fb.chans n = none) ∧ (frameBad (.session n) false f = false) :=
  ⟨wst.onFb fun f => { f with sessions := [(2, { port := 0 })] }, 2,
      { ty := 1, reqId := 7, length := 0, payload := [] }, { port := 0 }, by decide +kernel⟩

/-- The hypotheses of SessionsOpenSpeakAndEnd about ping are met. -/
theorem witness_SessionsOpenSpeakAndEnd_ping : ∃ h : Mach, ∃ n : Nat, ∃ f : Frame, (n < 8) ∧ (f.ty = 7) ∧
    (h.hears (.session n) f = true) :=
  ⟨wcmd.hw, 2, { ty := 7, reqId := 7, length := 0, payload := [] }, by decide +kernel⟩

/-- The hypotheses of SessionsOpenSpeakAndEnd about subscribe are met. -/
theorem witness_SessionsOpenSpeakAndEnd_subscribe : ∃ h : Mach, ∃ n : Nat, ∃ f : Frame, ∃ x : Session, (n < 8) ∧
    (f.ty = 5) ∧ (h.hears (.session n) f = true) ∧ (sget h.fb.sessions n = some x) ∧
    (let names := namedOf (num f.payload 2 2) (f.payload.drop 4); (Nat.land (num f.payload 0 2) 0xF001 = 0) ∧
    (names.length ≤ 64) ∧
    (names.all (fun e => e.2 = 0 && (match entryAt e.1 with | some r => r.reads 6 | none => false)) = true)) :=
  ⟨wcmd.hw, 2,
      { ty := 5, reqId := 7, length := 8, payload := [6, 0, 1, 0] ++ leB 2 (kCommitTimeout / 256) ++ leB 1 (kCommitTimeout % 256) ++ [0] },
      { port := 0, hello := true }, by decide +kernel⟩

/-- The hypotheses of SessionsOpenSpeakAndEnd about unsubscribe are met. -/
theorem witness_SessionsOpenSpeakAndEnd_unsubscribe : ∃ h : Mach, ∃ n : Nat, ∃ f : Frame, ∃ x : Session, (n < 8) ∧
    (f.ty = 6) ∧ (h.hears (.session n) f = true) ∧ (sget h.fb.sessions n = some x) :=
  ⟨wcmd.hw, 2, { ty := 6, reqId := 7, length := 0, payload := [] }, { port := 0, hello := true }, by decide +kernel⟩

/-- The hypotheses of SessionsOpenSpeakAndEnd about bye are met. -/
theorem witness_SessionsOpenSpeakAndEnd_bye : ∃ s : State, ∃ n : Nat, ∃ f : Frame, (n < 8) ∧ (f.ty = 8) ∧
    (s.hw.hears (.session n) f = true) ∧ (s.hw.ownsDraft (.session n) = false) :=
  ⟨wcmd, 2, { ty := 8, reqId := 7, length := 0, payload := [] }, by decide +kernel⟩

/-- The hypotheses of SessionsOpenSpeakAndEnd about sessionIdleTimeout are met. -/
theorem witness_SessionsOpenSpeakAndEnd_sessionIdleTimeout : ∃ s : State, ∃ n : Nat, ∃ secs : Nat, (n < 8) ∧
    (secs ≥ 300) ∧ (shas s.hw.fb.sessions n = true) ∧ (s.hw.ownsDraft (.session n) = false) :=
  ⟨wcmd, 2, 300, by decide +kernel⟩

/-- The hypotheses of ReadsAnswerAndWritesLand about fbRead are met. -/
theorem witness_ReadsAnswerAndWritesLand_fbRead : ∃ s : State, ∃ rq : Rq, ∃ f : Frame, (f.ty = 2) ∧
    (s.hw.hears rq f = true) ∧ (let o := s.hw.opens rq; (let l := o.answersTo s.fuses rq f; (fits rq l = true))) :=
  ⟨wcmd, .session 2,
      { ty := 2, reqId := 7, length := 16, payload := opBytes { index := kCommitTimeout / 256, sub := kCommitTimeout % 256 } ++ opBytes { index := 1, sub := 1 } },
      by decide +kernel⟩

/-- The hypotheses of ReadsAnswerAndWritesLand about describe are met. -/
theorem witness_ReadsAnswerAndWritesLand_describe : ∃ s : State, ∃ rq : Rq, ∃ f : Frame, (f.ty = 4) ∧
    (s.hw.hears rq f = true) ∧ (let o := s.hw.opens rq; (let l := o.answersTo s.fuses rq f; (fits rq l = true))) :=
  ⟨wcmd.onCores fun x => { x with state := 1 }, .core 3,
      { ty := 4, reqId := 7, length := 8, payload := opBytes { index := kCommitTimeout / 256, sub := kCommitTimeout % 256 } },
      by decide +kernel⟩

/-- The hypotheses of ReadsAnswerAndWritesLand about writeDirect are met. -/
theorem witness_ReadsAnswerAndWritesLand_writeDirect : ∃ h : Mach, ∃ rq : Rq, ∃ f : Frame, ∃ r : OpRec,
    ∃ e : EntryRow, (h.takesWrite rq f r e = true) ∧ (r.target = 0) ∧ (e.wr = 1) ∧ (opKey r ≠ kMyEventClasses) :=
  ⟨wcmd.hw, .session 2, { ty := 3, reqId := 7, length := 12, payload := opBytes wrecLive }, wrecLive,
      (entryAt (opKey wrecLive)).get (by decide +kernel), by decide +kernel⟩

/-- The hypotheses of ReadsAnswerAndWritesLand about writeDirectCold are met. -/
theorem witness_ReadsAnswerAndWritesLand_writeDirectCold : ∃ h : Mach, ∃ rq : Rq, ∃ f : Frame, ∃ r : OpRec,
    ∃ e : EntryRow, (h.takesWrite rq f r e = true) ∧ (r.target = 0) ∧ (e.wr = 3) :=
  ⟨wcmd.hw, .session 2, { ty := 3, reqId := 7, length := (opBytes wrecCold).length, payload := opBytes wrecCold },
      wrecCold, (entryAt (opKey wrecCold)).get (by decide +kernel), by decide +kernel⟩

/-- The hypotheses of ReadsAnswerAndWritesLand about writeDirectScoped are met. -/
theorem witness_ReadsAnswerAndWritesLand_writeDirectScoped : ∃ h : Mach, ∃ rq : Rq, ∃ f : Frame, ∃ r : OpRec,
    ∃ e : EntryRow, ∃ c : Ctx, (h.takesWrite rq f r e = true) ∧ (r.target = 0) ∧ (opKey r = kMyEventClasses) ∧
    (h.ctx? (rqCtx rq) = some c) :=
  ⟨wcls.hw, .item 0 7 5, { ty := 3, reqId := 7, length := (opBytes wrecMine).length, payload := opBytes wrecMine },
      wrecMine, (entryAt (opKey wrecMine)).get (by decide +kernel), {}, by decide +kernel⟩

/-- The hypotheses of ReadsAnswerAndWritesLand about writeDraft are met. -/
theorem witness_ReadsAnswerAndWritesLand_writeDraft : ∃ h : Mach, ∃ rq : Rq, ∃ f : Frame, ∃ r : OpRec, ∃ e : EntryRow,
    ∃ d : Draft, (h.takesWrite rq f r e = true) ∧ (r.target = 1) ∧ (h.fb.draft = some d) :=
  ⟨(wcmd.onFb fun f => { f with draft := some { owner := .session 2 } }).hw, .session 2,
      { ty := 3, reqId := 7, length := 12, payload := opBytes { wrecLive with target := 1 } },
      { wrecLive with target := 1 }, (entryAt (opKey wrecLive)).get (by decide +kernel), { owner := .session 2 },
      by decide +kernel⟩

/-- The hypotheses of ReadsAnswerAndWritesLand about writeStoredLayer are met. -/
theorem witness_ReadsAnswerAndWritesLand_writeStoredLayer : ∃ h : Mach, ∃ rq : Rq, ∃ f : Frame, ∃ r : OpRec,
    ∃ e : EntryRow, (h.takesWrite rq f r e = true) ∧ (r.target = 0x10) ∧ (h.cad.badLayers.contains 8 = false) :=
  ⟨wcmd.hw, .session 2, { ty := 3, reqId := 7, length := (opBytes wrecStored).length, payload := opBytes wrecStored },
      wrecStored, (entryAt (opKey wrecStored)).get (by decide +kernel), by decide +kernel⟩

/-- The hypotheses of ReadsAnswerAndWritesLand about writeStoredSheet are met. -/
theorem witness_ReadsAnswerAndWritesLand_writeStoredSheet : ∃ h : Mach, ∃ rq : Rq, ∃ f : Frame, ∃ r : OpRec,
    ∃ e : EntryRow, ∃ j : Nat, (h.takesWrite rq f r e = true) ∧ (j < 8) ∧ (r.target = 0x20 + j) ∧
    (h.cad.badLayers.contains j = false) :=
  ⟨wcmd.hw, .session 2,
      { ty := 3, reqId := 7, length := (opBytes { wrecStored with target := 0x27 }).length, payload := opBytes { wrecStored with target := 0x27 } },
      { wrecStored with target := 0x27 }, (entryAt (opKey wrecStored)).get (by decide +kernel), 7, by decide +kernel⟩

/-- The hypotheses of DraftsCommitsAndLatchesByTime about commitSwitch are met. -/
theorem witness_DraftsCommitsAndLatchesByTime_commitSwitch : ∃ h : Mach, ∃ c : CmdReq, ∃ d : Draft,
    (h.fb.committing = some c.rq) ∧ (c.key = kCommit) ∧ (h.fb.draft = some d) ∧ (h.commitFree = true) ∧
    (h.clk.pwr = 0) ∧ (h.newSheet d.ents = none) ∧ (h.onlyWaits c .commit = true) :=
  ⟨wcommit.hw, ⟨.session 2, kCommit, 9, leB 4 1, {}⟩,
      { owner := .session 2, ents := [(kDraftIdleTimeout, leB 4 60000)], held := true }, by decide +kernel⟩

/-- The hypotheses of DraftsCommitsAndLatchesByTime about commitTimeoutExpired are met. -/
theorem witness_DraftsCommitsAndLatchesByTime_commitTimeoutExpired : ∃ h : Mach, ∃ c : CmdReq, ∃ ms : Nat,
    ∃ d : Draft, (h.fb.committing = some c.rq) ∧ (c.key = kCommit) ∧ (h.fb.draft = some d) ∧ (d.orphan = false) ∧
    (h.commitFree = false) ∧ (ms ≥ h.cfg kCommitTimeout) ∧ (h.onlyWaits c .commit = true) :=
  ⟨(wcommit.onFb fun f => { f with survWaiting := true }).hw, ⟨.session 2, kCommit, 9, leB 4 1, {}⟩, 10 ^ 9,
      { owner := .session 2, ents := [(kDraftIdleTimeout, leB 4 60000)], held := true }, by decide +kernel⟩

/-- The hypotheses of DraftsCommitsAndLatchesByTime about draftIdleTimeout are met. -/
theorem witness_DraftsCommitsAndLatchesByTime_draftIdleTimeout : ∃ h : Mach, ∃ ms : Nat, ∃ d : Draft,
    (h.fb.draft = some d) ∧ (d.held = false) ∧ (ms ≥ h.cfg kDraftIdleTimeout) :=
  ⟨(wst.onFb fun f => { f with draft := some { owner := .session 2 } }).hw, 10 ^ 9, { owner := .session 2 },
      by decide +kernel⟩

/-- The hypotheses of DraftsCommitsAndLatchesByTime about surveyorCommit are met. -/
theorem witness_DraftsCommitsAndLatchesByTime_surveyorCommit : ∃ h : Mach, (h.surveyorHas = true) ∧
    (h.fb.old = none) ∧ (h.fb.chans = []) :=
  ⟨(wst.onCad fun c => { c with moves := [{ unit := ⟨4, 3⟩, from_ := 3, spare := 64, stage := 2, final := 3 }] }).hw,
      by decide +kernel⟩

/-- The hypotheses of MailboxesAndRequestItemsAnswer about coreMbxGo are met. -/
theorem witness_MailboxesAndRequestItemsAnswer_coreMbxGo : ∃ s : State, ∃ c : Nat, ∃ f : Verif, (c < 32) ∧
    (let fr := frameOf (s.hw.coreAt c).mbxReq f; (s.hw.hears (.core c) fr = true) ∧ (fr.ty = 2 ∨ fr.ty = 4) ∧
    (let o := s.hw.opens (.core c); (let l := o.answersTo s.fuses (.core c) fr; (fits (.core c) l = true)))) :=
  ⟨wcmd.onCores fun x => { x with state := 1, mbxReq := frameBytes wdescFrame }, 3, {}, by decide +kernel⟩

/-- The hypotheses of MailboxesAndRequestItemsAnswer about mbxReplyReady are met. -/
theorem witness_MailboxesAndRequestItemsAnswer_mbxReplyReady : ∃ h : Mach, ∃ c : Nat, ∃ b : Bytes, (c < 32) ∧
    (h.core.dev.length = 32) ∧ ((h.chanOf (.core c)).reply = some b) :=
  ⟨(wcmd.onFb fun f => { f with chans := [(35, { reply := some [1, 2] })] }).hw, 3, [1, 2], by decide +kernel⟩

/-- The hypotheses of MailboxesAndRequestItemsAnswer about mbxReplyReadyPort are met. -/
theorem witness_MailboxesAndRequestItemsAnswer_mbxReplyReadyPort : ∃ h : Mach, ∃ n : Nat, ∃ b : Bytes, (n < 2) ∧
    (h.hp.dev.length = 2) ∧ ((h.chanOf (.hostPort n)).reply = some b) :=
  ⟨(wcmd.onFb fun f => { f with chans := [(17, { reply := some [1, 2] })] }).hw, 1, [1, 2], by decide +kernel⟩

/-- The hypotheses of MailboxesAndRequestItemsAnswer about hpMbxGo are met. -/
theorem witness_MailboxesAndRequestItemsAnswer_hpMbxGo : ∃ s : State, ∃ n : Nat, ∃ f : Verif, (n < 2) ∧
    (s.hw.hpTarget n = s.hw.ownMember) ∧ (let fr := frameOf (s.hw.hpAt n).mbxReq f;
    (s.hw.hears (.hostPort n) fr = true) ∧ (fr.ty = 2 ∨ fr.ty = 4) ∧ (let o := s.hw.opens (.hostPort n);
    (let l := o.answersTo s.fuses (.hostPort n) fr; (fits (.hostPort n) l = true)))) :=
  ⟨wcmd.onHps fun x => { x with role := 1, link := 2, mbxReq := frameBytes wdescFrame }, 1, {}, by decide +kernel⟩

/-- The hypotheses of MailboxesAndRequestItemsAnswer about hpMbxGoMember are met. -/
theorem witness_MailboxesAndRequestItemsAnswer_hpMbxGoMember : ∃ h : Mach, ∃ n : Nat, ∃ f : Verif, (n < 2) ∧
    (h.hp.dev.length = 2) ∧ (h.hpTarget n ≠ h.ownMember) ∧ (h.hpServes n = true) ∧ (h.clk.pwr = 0) ∧
    ((h.hpAt n).mbxGo ≠ 1) :=
  ⟨((wcmd.withVal kGroupMember (leB 1 0)).onHps fun x => { x with role := 1, link := 2, mbxReq := frameBytes wdescFrame, target := some 3 }).hw,
      0, {}, by decide +kernel⟩

/-- The hypotheses of MailboxesAndRequestItemsAnswer about fbRequest are met. -/
theorem witness_MailboxesAndRequestItemsAnswer_fbRequest : ∃ s : State, ∃ ring : Nat, ∃ f : Verif, ∃ i : Item,
    ∃ b : Bytes, (ring < 32768) ∧ (s.hw.nextRing (ringFloor ring) ≠ some ring) ∧
    ((sortItems (s.hw.itemsOf ring)).head? = some i) ∧ (i.kind = kindFb) ∧ (i.ring = ring) ∧
    (s.hw.item? i.key = some i) ∧
    (let g := s.hw.itemRead (ringPort (ringFloor ring)) i.epoch i.ctx (fbAddr i.desc) (fbLen i.desc); (g.2 = .ok b) ∧
    (let rq := (.item ring i.seq i.ctx : Rq); (let fr := frameOf b f; (s.hw.asks rq = true) ∧
    (g.1.hears rq fr = true) ∧ (fbLen i.desc = 16 + fr.length) ∧ (fr.ty = 2 ∨ fr.ty = 4)))) :=
  ⟨wfbRing, 0, {}, wfbItem2, frameBytes wdescFrame, by decide +kernel⟩

/-- The hypotheses of WaitingActionsEndAndAnswer about segmapRecordDrained are met. -/
theorem witness_WaitingActionsEndAndAnswer_segmapRecordDrained : ∃ h : Mach, ∃ c : CmdReq, ∃ w : SegWait,
    ∃ e : SegEnt, (h.segWaiting c.rq = some w) ∧ (c.key = kSegmapWrite) ∧ (h.grid.segWait = [w]) ∧ (w.rq = c.rq) ∧
    (w.clearAll = false) ∧ (w.rest = []) ∧ (h.fb.role = 0) ∧ (h.calm = true) ∧ (h.itemsLeft w.ctx w.items = false) ∧
    ((sget h.grid.seg w.slot).all (fun o => !(h.itemsLeft o.ctx w.items)) = true) ∧
    ((h.segTake w).segJudge w.slot (match w.ent with | some e => e.bits | none => 0) = .inr (some e)) ∧
    (h.onlyWaits c .segmap = true) :=
  ⟨((wst.waiting kSegmapWrite [] .segmap).onGrid fun g => { g with seg := [(2, wseg 5 0 0)], segWait := [wsegWait] }).hw,
      ⟨.session 2, kSegmapWrite, 9, [], {}⟩, wsegWait, wseg 6 1 0, by decide +kernel⟩

/-- The hypotheses of WaitingActionsEndAndAnswer about segmapDrainTimeout are met. -/
theorem witness_WaitingActionsEndAndAnswer_segmapDrainTimeout : ∃ h : Mach, ∃ c : CmdReq, ∃ us : Nat, ∃ w : SegWait,
    (h.segWaiting c.rq = some w) ∧ (c.key = kSegmapWrite) ∧ (h.grid.segWait = [w]) ∧ (w.rq = c.rq) ∧
    (w.clearAll = false) ∧ (w.rest = []) ∧ (h.fb.role = 0) ∧ (us > 1000 * h.cfg kSegmapDrainTimeout) ∧
    (h.onlyWaits c .segmap = true) :=
  ⟨((wst.waiting kSegmapWrite [] .segmap).onGrid fun g => { g with seg := [(2, wseg 5 0 0)], segWait := [wsegWait] }).hw,
      ⟨.session 2, kSegmapWrite, 9, [], {}⟩, 10 ^ 9, wsegWait, by decide +kernel⟩

/-- The hypotheses of WaitingActionsEndAndAnswer about contextDestroyFinish are met. -/
theorem witness_WaitingActionsEndAndAnswer_contextDestroyFinish : ∃ h : Mach, ∃ c : Nat, ∃ x : Ctx, (c < 4096) ∧
    (h.ctx? c = some x) ∧ (x.st = .destroying) ∧ (h.rng.items.any (fun i => i.ctx = c) = false) ∧ (h.fb.chans = []) ∧
    ((skeys h.rng.ctxs).Pairwise (· < ·)) ∧ ((h.core.dev.any fun y => y.ctx = c) = false) :=
  ⟨((wst.onRng fun r => { r with ctxs := [(0, {}), (5, { st := .destroying })] })).hw, 5, { st := .destroying },
      by decide +kernel⟩

/-- The hypotheses of WaitingActionsEndAndAnswer about partyFenceDrained are met. -/
theorem witness_WaitingActionsEndAndAnswer_partyFenceDrained : ∃ h : Mach, ∃ t : Nat, ∃ f : Fence, (t < 4) ∧
    (h.site.dev.length = 4) ∧ (h.flt.fencing.find? (fun f => f.party = ⟨1, t⟩) = some f) ∧ (h.fb.chans = []) ∧
    (h.fenceHeld (siteOrigin t) = false) :=
  ⟨((wst.onSites fun x => { x with state := 5, fencing := some 2 }).setHw ((wst.onSites fun x => { x with state := 5, fencing := some 2 }).hw.setFlt { wst.hw.flt with fencing := [⟨⟨1, 3⟩, 2, false⟩] })).hw,
      3, ⟨⟨1, 3⟩, 2, false⟩, by decide +kernel⟩

/-- The hypotheses of WaitingActionsEndAndAnswer about partyFenceDrainedCore are met. -/
theorem witness_WaitingActionsEndAndAnswer_partyFenceDrainedCore : ∃ h : Mach, ∃ c : Nat, ∃ f : Fence, (c < 32) ∧
    (h.core.dev.length = 32) ∧ (h.flt.fencing.find? (fun f => f.party = ⟨2, c⟩) = some f) ∧ (h.fb.chans = []) ∧
    ((h.fenceHeld fun o => match o with | .core d _ => d = c | _ => false) = false) :=
  ⟨((wst.onCores fun x => { x with state := 2, fencing := some 2 }).setHw ((wst.onCores fun x => { x with state := 2, fencing := some 2 }).hw.setFlt { wst.hw.flt with fencing := [⟨⟨2, 3⟩, 2, false⟩] })).hw,
      3, ⟨⟨2, 3⟩, 2, false⟩, by decide +kernel⟩

/-- The hypotheses of WaitingActionsEndAndAnswer about partyFenceDrainedPort are met. -/
theorem witness_WaitingActionsEndAndAnswer_partyFenceDrainedPort : ∃ h : Mach, ∃ n : Nat, ∃ f : Fence, (n < 2) ∧
    (h.hp.dev.length = 2) ∧ (h.flt.fencing.find? (fun f => f.party = ⟨5, n⟩) = some f) ∧ (h.fb.chans = []) ∧
    ((h.fenceHeld fun o => match o with | .bar2 k _ => k = n | _ => false) = false) :=
  ⟨((wst.onHps fun x => { x with stopped := true, fencing := some 2 }).setHw ((wst.onHps fun x => { x with stopped := true, fencing := some 2 }).hw.setFlt { wst.hw.flt with fencing := [⟨⟨5, 1⟩, 2, false⟩] })).hw,
      1, ⟨⟨5, 1⟩, 2, false⟩, by decide +kernel⟩

/-- The hypotheses of WaitingActionsEndAndAnswer about closureComplete are met. -/
theorem witness_WaitingActionsEndAndAnswer_closureComplete : ∃ h : Mach, ∃ c : CmdReq, ∃ us : Nat, ∃ at_ : Nat,
    (h.pwr.closure = some ⟨2, at_⟩) ∧ (c.key = kPwrOff) ∧ (h.onlyWaits c .pwrOff = true) :=
  ⟨((wst.waiting kPwrOff [1] .pwrOff).onPwr fun p => { p with closure := some ⟨2, 7⟩ }).hw, ⟨.session 2, kPwrOff, 9,
      [1], {}⟩, 90, 7, by decide +kernel⟩

/-- The hypotheses of LinkFramesAndGroupMessages about fwImageReceived are met. -/
theorem witness_LinkFramesAndGroupMessages_fwImageReceived : ∃ (s : State) (r : RxImage),
    s.hw.trv.rxImage = some r ∧ r.data.length = r.len ∧ r.len ≤ pendRegion ∧ digest r.data = r.digest :=
  ⟨wst.onTrv fun t => { t with rxImage := some { len := 2, id := 5, digest := digest [1, 2], data := [1, 2] } },
    { len := 2, id := 5, digest := digest [1, 2], data := [1, 2] }, rfl, rfl,
        Nat.le_trans (by decide) (Nat.le_add_right _ _), rfl⟩

/-- The hypotheses of LinkFramesAndGroupMessages about linkFrameReceive are met. -/
theorem witness_LinkFramesAndGroupMessages_linkFrameReceive : ∃ h : Mach, ∃ p : Nat, ∃ f : LinkFrame, ∃ v : Verif,
    (p < 24) ∧ (h.lnk.dev.length = 24) ∧ ((h.portAt p).state = 5) ∧ ((h.portAt p).sealKey = none) ∧
    (f.crc = frameCrc f false ∧ f.lost = 0 ∧ f.kind = 2 ∧ f.vc ≤ 2 ∧ f.bytes ≤ 256) ∧
    (f.seq = ((h.portAt p).rxSeq + 1) % 4096) ∧ (f.nak = false) ∧ (f.credit = 0) ∧ ((h.portAt p).waitOut = [] ∧
    (h.portAt p).waitMsg = [] ∧ (h.portAt p).owed = [0, 0, 0]) ∧ (h.trv.selfVc2 = []) :=
  ⟨(wst.onPorts fun x => { x with state := 5 }).hw, 3, wcrc { seq := 0, kind := 2 }, {}, by decide +kernel⟩

/-- The hypotheses of LinkFramesAndGroupMessages about vc2FrameReceive are met. -/
theorem witness_LinkFramesAndGroupMessages_vc2FrameReceive : ∃ h : Mach, ∃ p : Nat, ∃ f : LinkFrame, ∃ v : Verif,
    (p < 24) ∧ (h.lnk.dev.length = 24) ∧ ((h.portAt p).state = 5) ∧ ((h.portAt p).sealKey = none) ∧ (h.clk.pwr = 0) ∧
    (let f' := { f with kind := 0, vc := 2 }; (f.crc = frameCrc f' false ∧ f.lost = 0 ∧ f.bytes ≤ 256) ∧
    (f.seq = ((h.portAt p).rxSeq + 1) % 4096) ∧ (f.nak = false) ∧ (f.credit = 0) ∧ ((h.portAt p).waitOut = [] ∧
    (h.portAt p).waitMsg = [] ∧ (h.portAt p).owed = [0, 0, 0]) ∧ (h.trv.selfVc2 = []) ∧ (h.member ≠ 0xFF) ∧
    (f.stream = vc2Tag h.member 0) ∧ (h.member < 128) ∧ (let b := padTo 256 f.payload; (num b 8 4 = 0) ∧
    (num b 4 4 > 240))) :=
  ⟨((wst.onPorts fun x => { x with state := 5 }).withVal kGroupMember (leB 1 2)).hw, 3,
      wcrc { seq := 0, kind := 0, vc := 2, stream := vc2Tag 2 0, payload := [1, 0, 5, 0] ++ leB 4 300 ++ leB 4 0 },
      {}, by decide +kernel⟩

/-- The hypotheses of LinkFramesAndGroupMessages about vc2Mailbox are met. -/
theorem witness_LinkFramesAndGroupMessages_vc2Mailbox : ∃ h : Mach, ∃ src : Nat, ∃ req : Nat, ∃ b : Bytes,
    ∃ f : Verif, ∃ w : GroupWait, (h.member = 0) ∧ (h.waitOf src req 0 = some w) :=
  ⟨((wst.withVal kGroupMember (leB 1 0)).onTrv fun t => { t with waits := [⟨4, 3, 0, 1, 0⟩] }).hw, 3, 4, [1, 2], {},
      ⟨4, 3, 0, 1, 0⟩, by decide +kernel⟩

/-- The hypotheses of LinkFramesAndGroupMessages about vc2Doorbell are met. -/
theorem witness_LinkFramesAndGroupMessages_vc2Doorbell : ∃ h : Mach, ∃ src : Nat, ∃ req : Nat, ∃ b : Bytes,
    (h.member = 0) ∧ (num b 0 1 = 1) ∧ (num b 8 2 < 2032) :=
  ⟨(wst.withVal kGroupMember (leB 1 0)).hw, 3, 4, leB 8 1 ++ leB 2 17, by decide +kernel⟩

/-- The hypotheses of LinkFramesAndGroupMessages about vc2DoorbellRing are met. -/
theorem witness_LinkFramesAndGroupMessages_vc2DoorbellRing : ∃ h : Mach, ∃ src : Nat, ∃ req : Nat, ∃ b : Bytes,
    (h.member ≠ 0xFF) ∧ (num b 0 1 = 0) ∧ (h.clk.pwr = 0) :=
  ⟨(wst.withVal kGroupMember (leB 1 2)).hw, 3, 4, leB 8 0 ++ leB 8 0, by decide +kernel⟩

/-- The hypotheses of LinkFramesAndGroupMessages about vc2WriteData are met. -/
theorem witness_LinkFramesAndGroupMessages_vc2WriteData : ∃ h : Mach, ∃ src : Nat, ∃ req : Nat, ∃ st : Nat,
    ∃ b : Bytes, (h.member ≠ 0xFF) ∧ (h.waitOf src req 1 = none) ∧ (num b 2 6 = 0) ∧ (h.hostMay (num b 0 2) = true) ∧
    (let w := h.itemWrite (.bar2 0 0) h.fb.epoch (num b 0 2) (num b 8 8) (b.drop 16); (w.2 = none)) :=
  ⟨(wst.withVal kGroupMember (leB 1 2)).hw, 3, 4, 0, leB 8 5 ++ leB 8 64 ++ [1, 2], by decide +kernel⟩

/-- The hypotheses of LinkFramesAndGroupMessages about vc2ReadData are met. -/
theorem witness_LinkFramesAndGroupMessages_vc2ReadData : ∃ h : Mach, ∃ src : Nat, ∃ req : Nat, ∃ st : Nat,
    ∃ b : Bytes, ∃ d : Bytes, (h.member ≠ 0xFF) ∧ (h.waitOf src req 2 = none) ∧ (num b 2 6 = 0) ∧
    (h.hostMay (num b 0 2) = true) ∧ (let g := h.itemRead (.bar2 0 0) h.fb.epoch (num b 0 2) (num b 8 8) (num b 16 4);
    (g.2 = .ok d)) :=
  ⟨(wst.withVal kGroupMember (leB 1 2)).hw, 3, 4, 0, leB 8 5 ++ leB 8 64 ++ leB 4 2, [0, 0], by decide +kernel⟩

/-- The hypotheses of LinkFramesAndGroupMessages about groupTransferReply are met. -/
theorem witness_LinkFramesAndGroupMessages_groupTransferReply : ∃ h : Mach, ∃ src : Nat, ∃ req : Nat, ∃ st : Nat,
    ∃ b : Bytes, ∃ w : GroupWait, (h.waitOf src req 1 = some w) ∧
    ((h.xferAt (w.chan / 16) (w.chan % 16)).busy = true) ∧ ((h.xferAt (w.chan / 16) (w.chan % 16)).fail = none) ∧
    (st = 0) ∧ (w.what = 1) ∧ (h.trv.waits = [w]) ∧ (w.chan / 16 < h.hp.dev.length) ∧
    (w.chan % 16 < (h.hpAt (w.chan / 16)).xfer.length) :=
  ⟨(((wst.withVal kGroupMember (leB 1 0)).onHps fun x => { x with xfer := x.xfer.map fun y => { y with busy := true } }).onTrv fun t => { t with waits := [⟨4, 3, 1, 2, 512⟩] }).hw,
      3, 4, 0, [], ⟨4, 3, 1, 2, 512⟩, by decide +kernel⟩

/-- The hypotheses of LinkFramesAndGroupMessages about groupTransferTimeout are met. -/
theorem witness_LinkFramesAndGroupMessages_groupTransferTimeout : ∃ h : Mach, ∃ n : Nat, ∃ k : Nat, ∃ ms : Nat,
    ∃ w : GroupWait, (n < 2 ∧ k < 16) ∧ (h.hp.dev.length = 2) ∧ ((h.hpAt n).xfer.length = 16) ∧
    (ms ≥ h.cfg kTravPatienceMax) ∧ (h.trv.waits = [w]) ∧ (w.what = 1 ∨ w.what = 2) ∧ (w.chan = waitChan n k) ∧
    ((h.xferAt n k).busy = true) ∧ ((h.xferAt n k).fail = none) :=
  ⟨(((wst.withVal kGroupMember (leB 1 0)).onHps fun x => { x with xfer := x.xfer.map fun y => { y with busy := true } }).onTrv fun t => { t with waits := [⟨4, 3, 1, waitChan 1 2, 512⟩] }).hw,
      1, 2, 10 ^ 9, ⟨4, 3, 1, waitChan 1 2, 512⟩, by decide +kernel⟩

/-- The hypotheses of LinkFramesAndGroupMessages about fwBcastAnswer are met. -/
theorem witness_LinkFramesAndGroupMessages_fwBcastAnswer : ∃ h : Mach, ∃ member : Nat, ∃ st : Nat, ∃ id : Nat,
    ∃ b : Bcast, (h.trv.bcast = some b) ∧ (b.id = id) ∧ (bitOf b.mask member = true) ∧
    (shas b.answers member = false) ∧ ((bitList 128 b.mask).all (shas (sput b.answers member st)) = false) :=
  ⟨(wst.onTrv fun t => { t with bcast := some { rq := .session 2, id := 5, mask := 6 } }).hw, 1, 0, 5,
      { rq := .session 2, id := 5, mask := 6 }, by decide +kernel⟩

/-- The hypotheses of LinkFramesAndGroupMessages about fwBcastTimeout are met. -/
theorem witness_LinkFramesAndGroupMessages_fwBcastTimeout : ∃ h : Mach, ∃ c : CmdReq, ∃ ms : Nat, ∃ x : Bcast,
    (h.trv.bcast = some x) ∧ (x.rq = c.rq) ∧ (c.key = kFwBcast) ∧ (ms ≥ h.cfg kTravPatienceMax) ∧
    (h.onlyWaits c .fwBcast = true) :=
  ⟨((wst.waiting kFwBcast [] .fwBcast).onTrv fun t => { t with bcast := some { rq := .session 2, id := 5, mask := 6 } }).hw,
      ⟨.session 2, kFwBcast, 9, [], {}⟩, 10 ^ 9, { rq := .session 2, id := 5, mask := 6 }, by decide +kernel⟩

/-- A state in which site 0, core 3, host port 0, context 5 and a neighbour may each issue an atomic operation in context 5. -/
def watomAll : State := ((wst.onSites fun x => { x with state := 5, up := 1, srstReleased := true, bonds := [(0, { rsp := 8 })] }).onCores
  fun x => { x with state := 1, ctx := 5 }).onHps fun x => { x with role := 1, link := 2, apCtx := 5 }
/-- Operands of each operation that its checks accept, for each kind of party; the neighbour's comes from the other floor. -/
def watomOf (k op : Nat) : AtomArgs :=
  { party := ⟨k, nth 0 [0, 0, 3, 5, 2 ^ 19, 0] k⟩, floor := if k = 4 then 1 else 0, ctx := 5, va := 256, size := op = 0x3A || op = 0x3B
    operand := leB 32 (2 ^ 130 + 3) }
/-- The same, with the CRC of the flit that brings it. -/
def watom (k op : Nat) : AtomArgs :=
  let a := watomOf k op
  if k = 1 then { a with flit := { a.flit with crc := flitCheck (AtomArgs.siteFlit a op) } } else a
/-- Their target; for UNLOCK the word there is a lock that the party holds. -/
def watomPiece : Piece := ⟨0, wseg 5 0 0, (wseg 5 0 0).place 256 0, ((wseg 5 0 0).place 256 0).pa 0, 256, 8⟩
def watomState (k op : Nat) : State := if op = 0x3B then
    watomAll.onMem fun m => { m with cells := Memory.putRun [] watomPiece.pa (leB 8 (lockWord 1 (watom k op).party 9)) }
  else watomAll
/-- The hypotheses of AtomicsReadModifyWriteTheirTarget are met by every operation of every kind of party. -/
def watomMet (k op : Nat) : Bool :=
  let h := (watomState k op).hw
  let a := watom k op
  let w := AtomWord.ofNat (AtomArgs.word a op)
  let q := { watomPiece with len := w.bytes }
  h.atomReady a op q && (List.range w.bytes).all (fun i => paMedium (q.pa + i) = 0) &&
  (atomEffect w a.party (h.cfg kAnchorOverflow = 1) (h.cfg kAnchorSubnormals = 1) (h.atomOld 5 w q) (h.atomFrom a).2.2).isSome
theorem witness_AtomicsReadModifyWriteTheirTarget :
    [0x10, 0x11, 0x12, 0x13, 0x14, 0x15, 0x16, 0x17, 0x20, 0x21, 0x22].all (fun op => [1,
        3].all fun k => watomMet k op) = true := by
  decide +kernel
theorem witness_AtomicsReadModifyWriteTheirTarget_integers :
    [0x30, 0x31, 0x32, 0x33, 0x34, 0x35, 0x36, 0x37, 0x38, 0x39, 0x3A, 0x3B].all (fun op => [1,
        3].all fun k => watomMet k op) = true := by
  decide +kernel
theorem witness_AtomicsReadModifyWriteTheirTarget_parties : [0x14, 0x39, 0x3A].all (fun op => [2, 4,
    5].all fun k => watomMet k op) = true := by
  decide +kernel

/-- The hypotheses of the two clauses of AtomicTargetsDoNotDependOnArrivalOrder are met. -/
theorem witness_AtomicTargetsDoNotDependOnArrivalOrder_order :
    ∃ (w : AtomWord) (old : Bytes) (xs ys : List Bytes),
      w.atop ∈ [0x12, 0x13, 0x14, 0x30, 0x31, 0x32, 0x33, 0x34, 0x35, 0x36, 0x37] ∧ old.length = w.bytes ∧
      List.Perm xs ys ∧ xs ≠ ys :=
  ⟨{ atop := 0x13 }, List.replicate 32 0, [leB 4 1, leB 4 2], [leB 4 2, leB 4 1], by decide +kernel, by decide +kernel,
    List.Perm.swap _ _ _, by decide +kernel⟩
theorem witness_AtomicTargetsDoNotDependOnArrivalOrder_merge : ∃ c : Machine.Cell, c.auto = false ∧ c.count ≠ 0 :=
  ⟨{ anchor := 11, count := 2 }, by decide +kernel⟩

/-- The hypotheses of CoresAndHostsReadTheirAtomicsBack about core are met. -/
theorem witness_CoresAndHostsReadTheirAtomicsBack_core : ∃ h : Mach, ∃ a : AtomArgs, ∃ n : Nat, ∃ q : Piece,
    (a.party = ⟨2, n⟩) ∧ (a.size = true ∧ a.fetch = true) ∧ (h.atomReady a 0x30 q = true) ∧ (∀ i < 8,
    paMedium (q.pa + i) = 0) :=
  ⟨watomAll.hw, { watom 2 0x30 with size := true, fetch := true, operand := leB 8 7 }, 3, watomPiece, by decide +kernel⟩

/-- The hypotheses of CoresAndHostsReadTheirAtomicsBack about hostPort are met. -/
theorem witness_CoresAndHostsReadTheirAtomicsBack_hostPort : ∃ h : Mach, ∃ a : AtomArgs, ∃ n : Nat, ∃ q : Piece,
    (a.party = ⟨5, n⟩) ∧ (a.size = true ∧ a.fetch = true) ∧ (h.atomReady a 0x30 q = true) ∧ (∀ i < 8,
    paMedium (q.pa + i) = 0) :=
  ⟨watomAll.hw, { watom 5 0x30 with size := true, fetch := true, operand := leB 8 7 }, 0, watomPiece, by decide +kernel⟩

/-- The hypotheses of CoresAndHostsReadTheirAtomicsBack about hostPortWaits are met. -/
theorem witness_CoresAndHostsReadTheirAtomicsBack_hostPortWaits : ∃ h : Mach, ∃ a : AtomArgs, ∃ n : Nat,
    ∃ wait : Bool, (AtomArgs.ok a = true) ∧ (n < h.hp.dev.length) ∧ (a.party = ⟨5, n⟩) ∧ (h.hpServes n = true) ∧
    (h.clk.pwr = 0) ∧ (h.hpAtomOpen n = true) :=
  ⟨(watomAll.onGrid fun g => { g with wait := [(0, [{ org := .bar2 0 0, ctx := 5, va := 0, kind := .atomic 0 [] false }])] }).hw,
      watom 5 0x30, 0, false, by decide +kernel⟩

/-- The hypotheses of GridAccessOfOwnBufferCompletes about gridRead are met. -/
theorem witness_GridAccessOfOwnBufferCompletes_gridRead : ∃ h : Mach, ∃ fl : Nat, ∃ port : Nat, ∃ tag : Nat,
    ∃ ctx : Nat, ∃ va : Nat, ∃ len : Nat, ∃ since : Nat, ∃ way : Nat, ∃ d : Bytes, (fl < 2) ∧ (port < 48) ∧
    (lineAccess ctx va len = true) ∧ (let o : Origin := .port fl port tag; (h.readsNow o ctx va len way = some d)) :=
  ⟨wst.hw, 0, 40, 9, 5, 256, 16, 0, 0, List.replicate 16 0, by decide +kernel⟩

/-- The hypotheses of GridAccessOfOwnBufferCompletes about gridWrite are met. -/
theorem witness_GridAccessOfOwnBufferCompletes_gridWrite : ∃ h : Mach, ∃ fl : Nat, ∃ port : Nat, ∃ tag : Nat,
    ∃ ctx : Nat, ∃ va : Nat, ∃ data : Bytes, ∃ rel : Bool, (fl < 2) ∧ (port < 48) ∧
    (lineAccess ctx va data.length = true) ∧ (let o : Origin := .port fl port tag;
    (let pas := h.writesNow o ctx va data rel; (pas ≠ []))) :=
  ⟨wst.hw, 0, 40, 9, 5, 256, [1, 2, 3], true, by decide +kernel⟩

/-- The hypotheses of WaitsAgeAndLinesCrossTheBridge about agePromote are met. -/
theorem witness_WaitsAgeAndLinesCrossTheBridge_agePromote : ∃ h : Mach, ∃ target : Nat, ∃ i : Nat, ∃ ns : Nat,
    ∃ x : Txn, (target < 320) ∧ (ns ≥ h.cfg kGridAgePromote) ∧ ((sgetD [] h.grid.wait target)[i]? = some x) ∧
    (h.grid.relWait = []) ∧
    (let m1 := Mach.takeIn 64 (h.setGrid { h.grid with wait := smod [] h.grid.wait target fun q => setAt q i { x with aged := true } }) target;
    (m1.nextTxn target = none) ∧ (h.rng.recWait = [])) :=
  ⟨((wst.onGrid fun g => { g with wait := [(128, [{ org := .port 0 40 9, ctx := 6, va := 0, kind := .read 8 }])] }).onStk fun k => { k with capped := [(0, ())] }).hw,
      128, 0, 100000, { org := .port 0 40 9, ctx := 6, va := 0, kind := .read 8 }, by decide +kernel⟩

/-- The hypotheses of WaitsAgeAndLinesCrossTheBridge about agePromoteEarly are met. -/
theorem witness_WaitsAgeAndLinesCrossTheBridge_agePromoteEarly : ∃ h : Mach, ∃ target : Nat, ∃ i : Nat, ∃ ns : Nat,
    (target < 320) ∧ (ns < h.cfg kGridAgePromote) :=
  ⟨wst.hw, 128, 0, 0, by decide +kernel⟩

/-- The hypotheses of WaitsAgeAndLinesCrossTheBridge about stackAgePromote are met. -/
theorem witness_WaitsAgeAndLinesCrossTheBridge_stackAgePromote : ∃ h : Mach, ∃ chan : Nat, ∃ i : Nat, ∃ ns : Nat,
    ∃ x : Txn, (chan < 192) ∧ (ns ≥ h.cfg kStackAgeLimit) ∧ ((sgetD [] h.grid.wait (128 + chan))[i]? = some x) ∧
    (h.grid.relWait = []) ∧
    (let m1 := Mach.takeIn 64 (h.setGrid { h.grid with wait := smod [] h.grid.wait (128 + chan) fun q => setAt q i { x with aged := true } }) (128 + chan);
    (m1.nextTxn (128 + chan) = none) ∧ (h.rng.recWait = [])) :=
  ⟨((wst.onGrid fun g => { g with wait := [(128, [{ org := .port 0 40 9, ctx := 6, va := 0, kind := .read 8 }])] }).onStk fun k => { k with capped := [(0, ())] }).hw,
      0, 0, 100000, { org := .port 0 40 9, ctx := 6, va := 0, kind := .read 8 }, by decide +kernel⟩

/-- The hypotheses of WaitsAgeAndLinesCrossTheBridge about fill are met. -/
theorem witness_WaitsAgeAndLinesCrossTheBridge_fill : ∃ h : Mach, ∃ ctx : Nat, ∃ epoch : Nat, ∃ pa : Nat, ∃ way : Nat,
    ∃ d : Bytes, (ctx < 4096) ∧ (pa < 2 ^ 47) ∧ (way < 16) ∧ (h.bridgeFree (paFloor pa) = true) ∧
    (let line := pa / 256 * 256; (h.sound line 256 = true) ∧ (sget (h.dropVictim pa way).die.dir line = none) ∧
    (h.lineFor epoch ctx line = .ok d)) :=
  ⟨wst.hw, 5, 1, 512, 3, List.replicate 256 0, by decide +kernel⟩

/-- The hypotheses of WaitsAgeAndLinesCrossTheBridge about dataMsg are met. -/
theorem witness_WaitsAgeAndLinesCrossTheBridge_dataMsg : ∃ h : Mach, ∃ fl : Nat, ∃ pa : Nat, ∃ w : Nat, ∃ f : Nat,
    ∃ p : Nat, ∃ tag : Nat, ∃ off : Nat, ∃ len : Nat, ∃ a : Nat, ∃ data : Bytes, (fl < 2) ∧ (pa < 2 ^ 47) ∧
    (h.rlcFind fl pa = some (w, .fill a [(.port f p tag, off, len)])) ∧ (shas h.die.dir a = true) ∧
    (sgetD [] h.grid.wait (Place.ofPa pa).target = []) ∧ (h.grid.relWait = []) ∧ (h.rng.recWait = []) :=
  ⟨(wst.onDie fun d => { d with rlc := [(rlcKey 0 512 2, .fill 512 [(.port 0 40 9, 4, 2)])], dir := [(512, .held 2)] }).hw,
      0, 512, 2, 0, 40, 9, 4, 2, 512, [1, 2, 3, 4, 5, 6, 7], by decide +kernel⟩

/-- The hypotheses of WaitsAgeAndLinesCrossTheBridge about invMsg are met. -/
theorem witness_WaitsAgeAndLinesCrossTheBridge_invMsg : ∃ h : Mach, ∃ fl : Nat, ∃ pa : Nat, ∃ w : Nat, ∃ a : Nat,
    ∃ d : Bytes, (fl < 2) ∧ (pa < 2 ^ 47) ∧ (h.bridgeFree fl = true) ∧ (h.rlcFind fl pa = some (w, .shared a d)) :=
  ⟨(wst.onDie fun d => { d with rlc := [(rlcKey 0 512 2, .shared 512 [])] }).hw, 0, 512, 2, 512, [], by decide +kernel⟩

/-- The hypotheses of WaitsAgeAndLinesCrossTheBridge about invAck are met. -/
theorem witness_WaitsAgeAndLinesCrossTheBridge_invAck : ∃ h : Mach, ∃ fl : Nat, ∃ pa : Nat, (fl < 2) ∧ (pa < 2 ^ 47) ∧
    (fl ≠ paFloor pa) ∧ (sget h.die.dir (pa / 256 * 256) = some (.inval [] [])) ∧ (h.grid.relWait = []) ∧
    (h.rng.recWait = []) ∧ (sgetD 0 h.die.ackEarly (pa / 256 * 256) = 0) :=
  ⟨(wst.onDie fun d => { d with dir := [(512, .inval [] [])] }).hw, 1, 515, by decide +kernel⟩

/-- The hypotheses of WaitsAgeAndLinesCrossTheBridge about invAckHeld are met. -/
theorem witness_WaitsAgeAndLinesCrossTheBridge_invAckHeld : ∃ h : Mach, ∃ fl : Nat, ∃ pa : Nat, ∃ f : Nat, ∃ p : Nat,
    ∃ tag : Nat, ∃ c : Nat, (fl < 2) ∧ (pa < 2 ^ 47) ∧ (fl ≠ paFloor pa) ∧
    (sget h.die.dir (pa / 256 * 256) = some (.inval [⟨.port f p tag, c, none⟩] [])) ∧ (h.grid.relWait = []) ∧
    (h.rng.recWait = []) ∧ (sgetD 0 h.die.ackEarly (pa / 256 * 256) = 0) :=
  ⟨((wst.onDie fun d => { d with dir := [(512, .inval [⟨.port 0 40 9, 5, none⟩] [])] }).onGrid fun g => { g with openWr := [(.port 0 40 9, 5, 512)] }).hw,
      1, 515, 0, 40, 9, 5, by decide +kernel⟩

/-- The hypotheses of ScrubsRetirementsAndRotations about bufScrub are met. -/
theorem witness_ScrubsRetirementsAndRotations_bufScrub : ∃ h : Mach, ∃ slice : Nat, ∃ line : Nat,
    (let pa := Place.pa ⟨slice / 64, 0, 0, slice % 64, line⟩ 0; (slice < 128) ∧ (line < 32768) ∧
    (h.sound pa 256 = true)) :=
  ⟨wst.hw, 127, 2, by decide +kernel⟩

/-- The hypotheses of ScrubsRetirementsAndRotations about bufScrubCorrected are met. -/
theorem witness_ScrubsRetirementsAndRotations_bufScrubCorrected : ∃ h : Mach, ∃ slice : Nat, ∃ line : Nat, ∃ j : Nat,
    (let pa := Place.pa ⟨slice / 64, 0, 0, slice % 64, line⟩ 0; (slice < 128) ∧ (line < 32768) ∧ (j < 32) ∧
    (h.mem.errs = []) ∧ (h.poisoned (pa + 8 * j) 8 = false)) :=
  ⟨wst.hw, 0, 2, 31, by decide +kernel⟩

/-- The hypotheses of ScrubsRetirementsAndRotations about bufScrubBad are met. -/
theorem witness_ScrubsRetirementsAndRotations_bufScrubBad : ∃ h : Mach, ∃ slice : Nat, ∃ line : Nat, ∃ j : Nat,
    (let pa := Place.pa ⟨slice / 64, 0, 0, slice % 64, line⟩ 0; (slice < 128) ∧ (line < 32768) ∧ (j < 32) ∧
    (h.mem.errs = []) ∧ (h.poisoned (pa + 8 * j) 8 = false) ∧ (h.segAt pa = none)) :=
  ⟨wst.hw, 127, 32767, 31, by decide +kernel⟩

/-- The hypotheses of ScrubsRetirementsAndRotations about sliceCeRetire are met. -/
theorem witness_ScrubsRetirementsAndRotations_sliceCeRetire : ∃ h : Mach, ∃ slice : Nat, ∃ i : Nat, (slice < 128) ∧
    (h.sliceCe slice > h.cfg kBufCeRetireLimit) ∧ (h.spareFor ⟨4, slice⟩ = some i) ∧ (h.cad.cur.physOf ⟨4,
    slice⟩ ≠ 255) ∧ (h.moving (slice / 64) = false) :=
  ⟨(wst.onGrid fun g => { g with ceHour := [(70, (0, 1000000))] }).hw, 70, 64, by decide +kernel⟩

/-- The hypotheses of ScrubsRetirementsAndRotations about sliceCeKeep are met. -/
theorem witness_ScrubsRetirementsAndRotations_sliceCeKeep : ∃ h : Mach, ∃ slice : Nat, (slice < 128) ∧
    (h.sliceCe slice ≤ h.cfg kBufCeRetireLimit) :=
  ⟨wst.hw, 127, by decide +kernel⟩

/-- The hypotheses of ScrubsRetirementsAndRotations about rekeySweepDone are met. -/
theorem witness_ScrubsRetirementsAndRotations_rekeySweepDone : ∃ h : Mach, ∃ ctx : Nat, (ctx < 4096) ∧
    ((h.keysOf ctx).rot = .sweeping) ∧ (h.stk.dev.any Stack.shut = false) :=
  ⟨(wst.onStk fun k => { k with keys := [(7, { slot0 := some 7, slot1 := some 8, write := 1, rot := .sweeping })] }).hw,
      7, by decide +kernel⟩

/-- The hypotheses of ScrubsRetirementsAndRotations about oldKeyErase are met. -/
theorem witness_ScrubsRetirementsAndRotations_oldKeyErase : ∃ h : Mach, ∃ ctx : Nat, (ctx < 4096) ∧
    ((h.keysOf ctx).rot = .erasing) ∧ (h.rng.items.any (fun i => (h.keysOf ctx).older.contains i.key) = false) :=
  ⟨(wst.onStk fun k => { k with keys := [(6, { slot0 := some 7, slot1 := some 8, write := 1, rot := .erasing })] }).hw,
      6, by decide +kernel⟩

/-- The hypotheses of ScrubsRetirementsAndRotations about channelCopyDone are met. -/
theorem witness_ScrubsRetirementsAndRotations_channelCopyDone : ∃ h : Mach, ∃ chan : Nat, (chan < 192) ∧
    ((h.stackAt (chan / 32)).shut = false) ∧ (h.grid.wait = []) ∧ (h.grid.relWait = []) ∧ (h.trv.live = []) ∧
    (h.rng.recWait = []) :=
  ⟨wst.hw, 191, by decide +kernel⟩

/-- The hypotheses of ChannelControllersKeepTheirQueues about writeDrain are met. -/
theorem witness_ChannelControllersKeepTheirQueues_writeDrain : ∃ h : Mach, ∃ chan : Nat, (chan < 192) ∧
    (h.gridFree chan = true) ∧ (h.grid.wait = []) ∧ (h.grid.relWait = []) ∧
    ((sgetD [] h.stk.writeQ chan).length ≤ 64) ∧ (h.rng.recWait = []) ∧ ((skeys h.stk.writeQ).Pairwise (· < ·)) :=
  ⟨(wst.onStk fun k => { k with writeQ := [(191, [(2 ^ 46, 8), (2 ^ 46 + 256, 256)])] }).hw, 191, by decide +kernel⟩

/-- The hypotheses of ChannelControllersKeepTheirQueues about writeDrainReads are met. -/
theorem witness_ChannelControllersKeepTheirQueues_writeDrainReads : ∃ h : Mach, ∃ chan : Nat, (chan < 192) ∧
    (h.gridFree chan = true) ∧ (h.readWaits chan = true) ∧ (48 ≤ (sgetD [] h.stk.writeQ chan).length) ∧
    ((sgetD [] h.stk.writeQ chan).length ≤ 64) ∧ (h.grid.relWait = []) ∧ (h.rng.recWait = []) ∧
    (sgetD 0 h.stk.agedW chan = 0) ∧ (let d := Mach.drainSome 64 h chan 16;
    (let m1 := d.setStk { d.stk with draining := sdel d.stk.draining chan }; (m1.nextTxn (128 + chan) = none))) :=
  ⟨((wst.onStk fun k => { k with writeQ := [(0, List.replicate 48 (2 ^ 46, 8))] }).onGrid fun g => { g with wait := [(128, [{ org := .port 0 40 9, ctx := 6, va := 0, kind := .read 8 }])] }).hw,
      0, by decide +kernel⟩

/-- The hypotheses of ChannelControllersKeepTheirQueues about rowNeighbourRefresh are met. -/
theorem witness_ChannelControllersKeepTheirQueues_rowNeighbourRefresh : ∃ h : Mach, ∃ pa : Nat, ∃ n : Nat,
    (2 ^ 46 ≤ pa) ∧ (pa < 2 ^ 47) ∧ (let x := sgetD 0 h.stk.acts (rowKey pa) + n; (0 < n) ∧
    (h.count (key (0x9200 + paChan pa) 4) < 2 ^ 64)) :=
  ⟨wst.hw, 2 ^ 46, 4097, by decide +kernel⟩

/-- The hypotheses of ChannelControllersKeepTheirQueues about bankRefresh are met. -/
theorem witness_ChannelControllersKeepTheirQueues_bankRefresh : ∃ h : Mach, ∃ chan : Nat, ∃ bank : Nat, ∃ rows : Nat,
    (chan < 192) ∧ (bank < 64) ∧ ((h.stackAt (chan / 32)).selfRefresh = false) ∧
    (sgetD 0 h.stk.deferred (chan * 64 + bank) < 8) :=
  ⟨wst.hw, 191, 63, 4, by decide +kernel⟩

/-- The hypotheses of ChannelControllersKeepTheirQueues about bankRefreshDone are met. -/
theorem witness_ChannelControllersKeepTheirQueues_bankRefreshDone : ∃ h : Mach, ∃ chan : Nat, ∃ bank : Nat,
    ∃ rows : Nat, ∃ busy : Bool, (chan < 192) ∧ (bank < 64) ∧ ((h.stackAt (chan / 32)).selfRefresh = false) ∧
    (let d := sgetD 0 h.stk.deferred (chan * 64 + bank); (busy = false ∨ 8 ≤ d)) :=
  ⟨wst.hw, 191, 63, 4, false, by decide +kernel⟩

/-- The hypotheses of ChannelControllersKeepTheirQueues about stackPatrol are met. -/
theorem witness_ChannelControllersKeepTheirQueues_stackPatrol : ∃ h : Mach, ∃ st : Nat, ∃ c : Nat,
    (let chan := 32 * st + c; (st < 6) ∧ (c < 32) ∧ ((h.stackAt st).selfRefresh = false) ∧
    ((h.stackAt st).shut = false) ∧ (h.atCap chan = false) ∧ (let i := sgetD 0 h.stk.patrol chan;
    (let pa := Place.pa ⟨st / 3, 1, st, c, i / 4⟩ (i % 4 * 64); (h.errsAt pa = 0)))) :=
  ⟨(wst.onStk fun k => { k with patrol := [(39, 3 * 2 ^ 24 - 1)] }).hw, 1, 7, by decide +kernel⟩

/-- The hypotheses of ChannelControllersKeepTheirQueues about rowCopyDone are met. -/
theorem witness_ChannelControllersKeepTheirQueues_rowCopyDone : ∃ h : Mach, ∃ pa : Nat, (2 ^ 46 ≤ pa) ∧
    (pa < 2 ^ 47) ∧ (sgetD [] h.grid.wait (128 + paChan pa) = []) ∧ (h.grid.relWait = []) ∧ (h.rng.recWait = []) ∧
    (h.trv.live = []) ∧ (sgetD 0 h.stk.agedW (paChan pa) = 0) :=
  ⟨(wst.onStk fun k => { k with copying := [(0, false)] }).hw, 2 ^ 46, by decide +kernel⟩

/-- The hypotheses of ChannelControllersKeepTheirQueues about stackCapReached are met. -/
theorem witness_ChannelControllersKeepTheirQueues_stackCapReached : ∃ h : Mach, ∃ chan : Nat, (chan < 192) ∧
    (h.stackCap (chan / 32) < 100) ∧ (sgetD 0 h.stk.window chan ≥ h.windowCap (chan / 32)) ∧
    (shas h.stk.capped chan = false) :=
  ⟨(wst.onStk fun k => { k with dev := k.dev.map fun x => { x with level := 4 } }).hw, 191, by decide +kernel⟩

/-- The hypotheses of RegulatorsLowerAndStartAgain about masterBudgetReached are met. -/
theorem witness_RegulatorsLowerAndStartAgain_masterBudgetReached : ∃ h : Mach, ∃ f : Nat, ∃ medium : Nat, ∃ j : Nat,
    (f < 2) ∧ (medium < 2) ∧ (j < 9) ∧ (let k := 9 * (2 * f + medium) + j; (let x := sgetD {} h.reg.masters k;
    (h.reg.enable = true) ∧ (x.budget ≤ x.bytes) ∧ (x.lowered = false))) :=
  ⟨(wst.onReg fun r => { r with enable := true }).hw, 1, 1, 8, by decide +kernel⟩

/-- The hypotheses of RegulatorsLowerAndStartAgain about regWindowStart are met. -/
theorem witness_RegulatorsLowerAndStartAgain_regWindowStart : ∃ h : Mach, ∃ bufDemand : Nat, ∃ stackDemand : Nat,
    ∃ waited : Nat, (h.grid.wait = []) ∧ (h.grid.relWait = []) ∧ (h.rng.recWait = []) :=
  ⟨wst.hw, 5, 1, 0, by decide +kernel⟩

/-- The hypotheses of ItemsAreTakenInTurnAndAccepted about sweep are met. -/
theorem witness_ItemsAreTakenInTurnAndAccepted_sweep : ∃ h : Mach, ∃ ring : Nat, ∃ d : Nat, ∃ x : Ring,
    (h.givesDesc ring x d = true) ∧ (descKind d = kindSweep) :=
  ⟨(wring 0 0 wsweepDesc).hw, 0, wsweepDesc, wringR 0 0, by decide +kernel⟩

/-- The hypotheses of ItemsAreTakenInTurnAndAccepted about sweepMerge are met. -/
theorem witness_ItemsAreTakenInTurnAndAccepted_sweepMerge : ∃ h : Mach, ∃ ring : Nat, ∃ d : Nat, ∃ x : Ring,
    (h.givesDesc ring x d = true) ∧ (descKind d = kindMerge) :=
  ⟨(wring 0 0 wsweepMergeDesc).hw, 0, wsweepMergeDesc, wringR 0 0, by decide +kernel⟩

/-- The hypotheses of ItemsAreTakenInTurnAndAccepted about sweepSessionOpen are met. -/
theorem witness_ItemsAreTakenInTurnAndAccepted_sweepSessionOpen : ∃ h : Mach, ∃ ring : Nat, ∃ d : Nat, ∃ x : Ring,
    (h.givesDesc ring x d = true) ∧ (descKind d = kindSession ∧ bitOf d 499 = true) ∧
    ((h.stackAt (swpStack kindSession d)).shut = false) ∧
    (h.swp.sess.find? (fun y => y.opening = some (itemKey ring x.taken)) = none) ∧
    ((h.runsOn (swpStack kindSession d) (swpFirst kindSession d) (swpCount kindSession d)).any (fun r => shas h.swp.runs r) = true) :=
  ⟨((wring 0 0 wsweepSessionOpenDesc).onSwp fun w => { w with runs := [(99, { stack := 0, first := 0, count := 16, parts := [], fail := none })] }).hw,
      0, wsweepSessionOpenDesc, wringR 0 0, by decide +kernel⟩

/-- The hypotheses of ItemsAreTakenInTurnAndAccepted about sweepSessionClose are met. -/
theorem witness_ItemsAreTakenInTurnAndAccepted_sweepSessionClose : ∃ h : Mach, ∃ ring : Nat, ∃ d : Nat, ∃ x : Ring,
    (h.givesDesc ring x d = true) ∧ (descKind d = kindSession ∧ bitOf d 499 = false) :=
  ⟨(wring 0 0 wsweepSessionCloseDesc).hw, 0, wsweepSessionCloseDesc, wringR 0 0, by decide +kernel⟩

/-- The hypotheses of ItemsAreTakenInTurnAndAccepted about descriptorTake are met. -/
theorem witness_ItemsAreTakenInTurnAndAccepted_descriptorTake : ∃ h : Mach, ∃ ring : Nat, ∃ d : Nat, ∃ x : Ring,
    (h.givesDesc ring x d = true) ∧ (descKind d = kindNop) :=
  ⟨(wring 0 0 (2 ^ 120)).hw, 0, 2 ^ 120, wringR 0 0, by decide +kernel⟩

/-- The hypotheses of ItemsAreTakenInTurnAndAccepted about siteWork are met. -/
theorem witness_ItemsAreTakenInTurnAndAccepted_siteWork : ∃ h : Mach, ∃ ring : Nat, ∃ d : Nat, ∃ b : Nat, ∃ x : Ring,
    (h.givesDesc ring x d = true) ∧ (descKind d = kindSite) ∧ (h.siteTakes x.target = true) ∧
    ((h.siteAt x.target).lowestUp = some b) ∧ (((h.siteAt x.target).bond b).replay.length < 64) :=
  ⟨((wring 1 0 (0x40 * 2 ^ 120)).onSites fun _ => wsiteUp).hw, 0, 0x40 * 2 ^ 120, 0, wringR 1 0, by decide +kernel⟩

/-- The hypotheses of ItemsAreTakenInTurnAndAccepted about coreWork are met. -/
theorem witness_ItemsAreTakenInTurnAndAccepted_coreWork : ∃ h : Mach, ∃ ring : Nat, ∃ d : Nat, ∃ sl : Nat, ∃ x : Ring,
    (h.givesDesc ring x d = true) ∧ (descKind d = kindCore) ∧ (h.coreTakes (ringCore ring x) = true) ∧
    ((h.coreAt (ringCore ring x)).freeSlot = some sl) ∧ (ringCore ring x < h.core.dev.length) ∧ (h.clk.pwr = 0) :=
  ⟨(wring 2 3 (0x41 * 2 ^ 120)).hw, 0, 0x41 * 2 ^ 120, 0, wringR 2 3, by decide +kernel⟩

/-- The hypotheses of ItemsAreTakenInTurnAndAccepted about checkpointSave are met. -/
theorem witness_ItemsAreTakenInTurnAndAccepted_checkpointSave : ∃ h : Mach, ∃ ring : Nat, ∃ d : Nat, ∃ x : Ring,
    (h.givesDesc ring x d = true) ∧ (descKind d = kindSave) ∧ (let key := (sgetD {} h.sec.keys x.ctx).ckpt;
    ((ckptSeal d && key.isNone) = false) ∧ ((h.hpAt (ckptPort d)).moves.length < 4) ∧
    ((h.hpAt (ckptPort d)).far = 2) ∧ (ckptPort d < h.hp.dev.length)) :=
  ⟨(((wring 0 0 wcheckpointSaveDesc).onHps fun h => { h with role := 2, far := 2 }).onFb fun f => { f with cur := { ovr := sput wplat kFarRangeP0 (leB 8 0 ++ leB 8 (2 ^ 30)) } }).hw,
      0, wcheckpointSaveDesc, wringR 0 0, by decide +kernel⟩

/-- The hypotheses of ItemsAreTakenInTurnAndAccepted about checkpointLoad are met. -/
theorem witness_ItemsAreTakenInTurnAndAccepted_checkpointLoad : ∃ h : Mach, ∃ ring : Nat, ∃ d : Nat, ∃ x : Ring,
    (h.givesDesc ring x d = true) ∧ (descKind d = kindLoad) ∧ (let key := (sgetD {} h.sec.keys x.ctx).ckpt;
    ((ckptSeal d && key.isNone) = false) ∧ ((h.hpAt (ckptPort d)).moves.length < 4) ∧
    ((h.hpAt (ckptPort d)).far = 2) ∧ (ckptPort d < h.hp.dev.length)) :=
  ⟨(((wring 0 0 wcheckpointLoadDesc).onHps fun h => { h with role := 2, far := 2 }).onFb fun f => { f with cur := { ovr := sput wplat kFarRangeP0 (leB 8 0 ++ leB 8 (2 ^ 30)) } }).hw,
      0, wcheckpointLoadDesc, wringR 0 0, by decide +kernel⟩

/-- The hypotheses of SweepItemsRunAndEnd about sweepDispatch are met. -/
theorem witness_SweepItemsRunAndEnd_sweepDispatch : ∃ h : Mach, ∃ stack : Nat, ∃ k : Nat, ∃ i : Item, (stack < 6) ∧
    ((h.stackAt stack).selfRefresh = false) ∧ (((List.range 6).any fun t => (h.stackAt t).shut) = false) ∧
    (h.calm = true) ∧ (h.swpNext stack [] (sgetD [] h.swp.queue stack) = some k) ∧ (h.item? k = some i) ∧
    (i.skip = false) ∧ (i.kind = kindSweep ∨ i.kind = kindMerge) ∧
    (h.engineGone i.epoch stack (swpFirst i.kind i.desc) (swpCount i.kind i.desc) = none) :=
  ⟨((wst.onRng fun r => { r with items := [{ ring := 0, seq := 0, desc := wsweepMergeDesc, kind := kindMerge, epoch := 1, ctx := 5, order := false, skip := false, notify := false, user := 0, started := false }] }).onSwp fun x => { x with queue := [(0, [0])] }).hw,
      0, 0,
      { ring := 0, seq := 0, desc := wsweepMergeDesc, kind := kindMerge, epoch := 1, ctx := 5, order := false, skip := false, notify := false, user := 0, started := false },
      by decide +kernel⟩

/-- The hypotheses of SweepItemsRunAndEnd about sweepCombine are met. -/
theorem witness_SweepItemsRunAndEnd_sweepCombine : ∃ h : Mach, ∃ ring : Nat, ∃ seq : Nat, ∃ i : Item, ∃ r : SwpRun,
    (ring < 32768) ∧ (seq < 2 ^ 48) ∧ (h.item? (itemKey ring seq) = some i) ∧
    (sget h.swp.runs (itemKey ring seq) = some r) :=
  ⟨((wst.onRng fun r => { r with items := [{ ring := 0, seq := 0, desc := wsweepMergeDesc, kind := kindMerge, epoch := 1, ctx := 5, order := false, skip := false, notify := false, user := 0, started := true }] }).onSwp fun x => { x with runs := [(0, { stack := 0, first := 0, count := 1, parts := [[]], fail := none })] }).hw,
      0, 0,
      { ring := 0, seq := 0, desc := wsweepMergeDesc, kind := kindMerge, epoch := 1, ctx := 5, order := false, skip := false, notify := false, user := 0, started := true },
      { stack := 0, first := 0, count := 1, parts := [[]], fail := none }, by decide +kernel⟩

/-- The hypotheses of SweepItemsRunAndEnd about sessionOpenDone are met. -/
theorem witness_SweepItemsRunAndEnd_sessionOpenDone : ∃ h : Mach, ∃ ring : Nat, ∃ seq : Nat, ∃ i : Item,
    ∃ x : SwpSess, (ring < 32768) ∧ (seq < 2 ^ 48) ∧ (h.item? (itemKey ring seq) = some i) ∧
    (h.swp.sess.find? (fun y => y.opening = some (itemKey ring seq)) = some x) ∧
    (x.waitFor.any (fun r => shas h.swp.runs r) = false) ∧ ((i.order || i.skip) = false) ∧
    (sget h.swp.runs (itemKey ring seq) = none) :=
  ⟨((wst.onRng fun r => { r with items := [{ ring := 0, seq := 0, desc := wsweepSessionOpenDesc, kind := kindSession, epoch := 1, ctx := 5, order := false, skip := false, notify := false, user := 0, started := true }] }).onSwp fun x => { x with sess := [⟨0, 0, 4, 5, some 0, [], false, []⟩] }).hw,
      0, 0,
      { ring := 0, seq := 0, desc := wsweepSessionOpenDesc, kind := kindSession, epoch := 1, ctx := 5, order := false, skip := false, notify := false, user := 0, started := true },
      ⟨0, 0, 4, 5, some 0, [], false, []⟩, by decide +kernel⟩

/-- The hypotheses of SweepItemsRunAndEnd about sweepSessionExpire are met. -/
theorem witness_SweepItemsRunAndEnd_sweepSessionExpire : ∃ h : Mach, ∃ i : Nat, ∃ us : Nat, ∃ x : SwpSess,
    (h.swp.sess[i]? = some x) ∧ (x.expiring = false) ∧ (x.opening = none) ∧ (x.freed = []) ∧
    (us ≥ 1000 * h.cfg kSweepSessionLimit) ∧ (h.swp.runs = []) :=
  ⟨(wst.onSwp fun x => { x with sess := [⟨5, 0, 16, 5, none, [], false, []⟩] }).hw, 0, 1000000000000, ⟨5, 0, 16, 5,
      none, [], false, []⟩, by decide +kernel⟩

/-- The hypotheses of SweepItemsRunAndEnd about engineFault are met. -/
theorem witness_SweepItemsRunAndEnd_engineFault : ∃ h : Mach, ∃ stack : Nat, ∃ e : Nat, ∃ i : Nat, (stack < 6) ∧
    (e < 16) ∧ (let u := (⟨5, stack * 16 + e⟩ : UnitRef); (h.cad.cur.physOf u ≠ 255) ∧ (h.swp.runs = []) ∧
    (h.spareFor u = some i)) :=
  ⟨wst.hw, 5, 15, 16, by decide +kernel⟩

/-- The hypotheses of DoorbellsAdvanceTheirRing about doorbellProduce are met. -/
theorem witness_DoorbellsAdvanceTheirRing_doorbellProduce : ∃ h : Mach, ∃ kind : Nat, ∃ num : Nat, ∃ word : Nat,
    ∃ x : Ring, ∃ c : Ctx, (let r := fld (word % 2 ^ 63) 48 15; (let seq := fld (word % 2 ^ 63) 0 48;
    (h.clk.pwr = 0) ∧ (h.ring? r = some x) ∧ (x.subKind = kind) ∧ (x.submitter = num) ∧ (x.closed = false) ∧
    (h.ctx? x.ctx = some c) ∧ (c.st = .live) ∧ (seq > x.produce))) :=
  ⟨(wring 0 0 (2 ^ 120)).hw, 2, 0, 5, wringR 0 0, {}, by decide +kernel⟩

/-- The hypotheses of DoorbellsAdvanceTheirRing about doorbellConsume are met. -/
theorem witness_DoorbellsAdvanceTheirRing_doorbellConsume : ∃ h : Mach, ∃ kind : Nat, ∃ num : Nat, ∃ word : Nat,
    ∃ x : Ring, ∃ c : Ctx, (let r := fld (word % 2 ^ 63) 48 15; (let seq := fld (word % 2 ^ 63) 0 48;
    (h.clk.pwr = 0) ∧ (h.ring? r = some x) ∧ (x.subKind = kind) ∧ (x.submitter = num) ∧ (x.closed = false) ∧
    (h.ctx? x.ctx = some c) ∧ (c.st = .live) ∧ (min seq x.taken > x.consumed))) :=
  ⟨((wring 0 0 (2 ^ 120)).onRng fun r => { r with rings := [(0, { wringR 0 0 with taken := 1 })] }).hw, 2, 0, 5,
      { wringR 0 0 with taken := 1 }, {}, by decide +kernel⟩

/-- The hypotheses of DoorbellsAdvanceTheirRing about doorbellNoRing are met. -/
theorem witness_DoorbellsAdvanceTheirRing_doorbellNoRing : ∃ h : Mach, ∃ kind : Nat, ∃ num : Nat, ∃ word : Nat,
    (h.clk.pwr = 0) ∧ (h.ring? (fld (word % 2 ^ 63) 48 15) = none) :=
  ⟨wst.hw, 2, 0, 5, by decide +kernel⟩

/-- The hypotheses of DoorbellsAdvanceTheirRing about orderedItemStart are met. -/
theorem witness_DoorbellsAdvanceTheirRing_orderedItemStart : ∃ h : Mach, ∃ ring : Nat, ∃ seq : Nat, ∃ i : Item,
    (ring < 32768) ∧ (seq < 2 ^ 48) ∧ (h.item? (itemKey ring seq) = some i) ∧ (i.started = false) ∧
    (h.itemFree i = true) ∧ (i.skip = false) ∧ (i.kind = kindNop) :=
  ⟨(wst.onRng fun r => { r with items := [{ ring := 0, seq := 0, desc := 0, kind := kindNop, epoch := 1, ctx := 5, order := true, skip := false, notify := false, user := 0, started := false }] }).hw,
      0, 0,
      { ring := 0, seq := 0, desc := 0, kind := kindNop, epoch := 1, ctx := 5, order := true, skip := false, notify := false, user := 0, started := false },
      by decide +kernel⟩

/-- The hypotheses of SiteFlitsOfAnAdmittedTileAct about siteRead are met. -/
theorem witness_SiteFlitsOfAnAdmittedTileAct_siteRead : ∃ h : Mach, ∃ t : Nat, ∃ b : Nat, ∃ since : Nat, ∃ way : Nat,
    ∃ f : Flit, ∃ d : Bytes, (h.siteHears t b (flitOwn f 1) 5 = true) ∧ (h.siteAsks t b f.ctx f.tag = true) ∧
    (h.readsNow (.site t b f.tag) f.ctx f.addr f.len way = some d) :=
  ⟨(wsiteIn 5).hw, 1, 0, 0, 0, wflit 1 { op := 1, ctx := 5, tag := 9, addr := 512, len := 16 }, List.replicate 16 0,
      by decide +kernel⟩

/-- The hypotheses of SiteFlitsOfAnAdmittedTileAct about siteWrite are met. -/
theorem witness_SiteFlitsOfAnAdmittedTileAct_siteWrite : ∃ h : Mach, ∃ t : Nat, ∃ b : Nat, ∃ f : Flit,
    (h.siteHears t b (flitOwn f 2) 5 = true) ∧ (h.siteAsks t b f.ctx f.tag = true) ∧
    (let d := (f.data.drop (f.addr % 256)).take f.len;
    (let pas := h.writesNow (.site t b f.tag) f.ctx f.addr d f.release; (pas ≠ []))) :=
  ⟨(wsiteIn 5).hw, 1, 0, wflit 2 { op := 2, ctx := 5, tag := 9, addr := 512, len := 3, data := List.replicate 256 7 },
      by decide +kernel⟩

/-- The hypotheses of SiteFlitsOfAnAdmittedTileAct about siteDoorbell are met. -/
theorem witness_SiteFlitsOfAnAdmittedTileAct_siteDoorbell : ∃ h : Mach, ∃ t : Nat, ∃ b : Nat, ∃ f : Flit, ∃ x : Ring,
    ∃ c : Ctx, (h.siteHears t b (flitOwn f 4) 5 = true) ∧ (let word := num f.data 0 8; (let r := fld word 48 15;
    (ringFloor r = t / 2) ∧ (h.ring? r = some x) ∧ (x.subKind = 1) ∧ (x.submitter = t) ∧ (x.closed = false) ∧
    (h.ctx? x.ctx = some c) ∧ (c.st = .live) ∧ (bitOf word 63 = false) ∧ (fld word 0 48 > x.produce))) :=
  ⟨(((wring 0 0 (2 ^ 120)).onRng fun r => { r with rings := [(0, { wringR 0 0 with subKind := 1, submitter := 1 })] }).onSites fun _ => { wsiteUp with srstReleased := true }).hw,
      1, 0, wflit 4 { op := 4, data := leB 8 5 }, { wringR 0 0 with subKind := 1, submitter := 1 }, {},
      by decide +kernel⟩

/-- The hypotheses of SiteFlitsOfAnAdmittedTileAct about workDone are met. -/
theorem witness_SiteFlitsOfAnAdmittedTileAct_workDone : ∃ h : Mach, ∃ t : Nat, ∃ b : Nat, ∃ f : Flit, ∃ i : Item,
    ∃ x : Ring, (h.siteHears t b (flitOwn f 5) 5 = true) ∧ (let k := itemKey (num f.data 0 2) (num f.data 2 8);
    (h.item? k = some i) ∧ (i.kind = 0x40) ∧ (i.started = true) ∧ (h.ring? (num f.data 0 2) = some x) ∧ (x.ty = 1) ∧
    (x.target = t)) :=
  ⟨(((wring 1 1 0).onRng fun r => { r with items := [{ ring := 0, seq := 0, desc := 0, kind := 0x40, epoch := 1, ctx := 5, order := false, skip := false, notify := false, user := 0, started := true }] }).onSites fun _ => { wsiteUp with srstReleased := true }).hw,
      1, 0, wflit 5 { op := 5, data := leB 64 0 },
      { ring := 0, seq := 0, desc := 0, kind := 0x40, epoch := 1, ctx := 5, order := false, skip := false, notify := false, user := 0, started := true },
      wringR 1 1, by decide +kernel⟩

/-- The hypotheses of SiteFlitsOfAnAdmittedTileAct about vset are met. -/
theorem witness_SiteFlitsOfAnAdmittedTileAct_vset : ∃ h : Mach, ∃ t : Nat, ∃ b : Nat, ∃ f : Flit,
    (h.siteHears t b (flitOwn f 6) 5 = true) ∧ (h.cfg (kSiteVcoreMin + 256 * t) ≤ f.operand) ∧
    (f.operand ≤ h.cfg (kSiteVcoreMax + 256 * t)) ∧ (f.operand % 5 = 0) ∧ ((h.siteAt t).vset = none) ∧
    (f.operand ≤ (h.siteAt t).ceiling) :=
  ⟨(wsiteIn 5).hw, 3, 0, wflit 6 { op := 6, tag := 9, operand := 750 }, by decide +kernel⟩

/-- The hypotheses of SiteFlitsOfAnAdmittedTileAct about nullFlit are met. -/
theorem witness_SiteFlitsOfAnAdmittedTileAct_nullFlit : ∃ h : Mach, ∃ t : Nat, ∃ b : Nat, ∃ f : Flit,
    (h.siteHears t b (flitOwn f 0) 5 = true) :=
  ⟨(wsiteIn 5).hw, 3, 0, wflit 0 { op := 0, crClass := 2, crCount := 255 }, by decide +kernel⟩

/-- The hypotheses of SiteFlitsOfAnAdmittedTileAct about fwStatus are met. -/
theorem witness_SiteFlitsOfAnAdmittedTileAct_fwStatus : ∃ h : Mach, ∃ t : Nat, ∃ b : Nat, ∃ f : Flit,
    (h.siteHears t b (flitOwn f 7) 4 = true) ∧ ((h.siteAt t).fwLoad = some (num f.data 0 4)) ∧ (num f.data 4 1 = 0) :=
  ⟨(wst.onSites fun _ => { wsiteUp with state := 4, srstReleased := true, fwLoad := some 0 }).hw, 2, 0,
      wflit 7 { op := 7, data := leB 64 0 }, by decide +kernel⟩

/-- The hypotheses of BondModulesReplayAndLoadNoticesCount about siteFlitCorrupt are met. -/
theorem witness_BondModulesReplayAndLoadNoticesCount_siteFlitCorrupt : ∃ h : Mach, ∃ t : Nat, ∃ b : Nat,
    (let y := (h.siteAt t).bond b; (t < 4) ∧ (b < 16) ∧ (t < h.site.dev.length) ∧ (bitOf (h.siteAt t).up b = true) ∧
    (((h.siteAt t).bond b).retraining = false) ∧ (((h.siteAt t).bond b).nakSent < 7)) :=
  ⟨(wst.onSites fun _ => wsiteUp).hw, 3, 0, by decide +kernel⟩

/-- The hypotheses of BondModulesReplayAndLoadNoticesCount about siteNakReceive are met. -/
theorem witness_BondModulesReplayAndLoadNoticesCount_siteNakReceive : ∃ h : Mach, ∃ t : Nat, ∃ b : Nat, ∃ seq : Nat,
    (t < 4) ∧ (b < 16) ∧ (seq < 128) ∧ (t < h.site.dev.length) ∧ (bitOf (h.siteAt t).up b = true) ∧
    (((h.siteAt t).bond b).retraining = false) ∧ (let y := (h.siteAt t).bond b;
    (let n := if y.nakSeq = seq && y.naks > 0 then y.naks + 1 else 1; (n < 8))) :=
  ⟨(wst.onSites fun _ => { wsiteUp with bonds := [(0, { replay := [⟨127, 0, [], []⟩, ⟨0, 0x22, [9, 0], []⟩, ⟨1, 0x22, [10, 0], []⟩], txSeq := 2 })] }).hw,
      3, 0, 127, by decide +kernel⟩

/-- The hypotheses of BondModulesReplayAndLoadNoticesCount about bondRetrain are met. -/
theorem witness_BondModulesReplayAndLoadNoticesCount_bondRetrain : ∃ h : Mach, ∃ t : Nat, ∃ b : Nat, ∃ rsp : Nat,
    ∃ work : Nat, ∃ test : BondTest, (let y := (h.siteAt t).bond b; (t < 4) ∧ (b < 16) ∧ (t < h.site.dev.length) ∧
    (y.retraining = true) ∧ (y.waitOut = []) ∧ (bondTestOk test = true)) :=
  ⟨(wst.onSites fun _ => { wsiteUp with bonds := [(0, { replay := [⟨127, 0, [], []⟩, ⟨0, 0x22, [9, 0], []⟩], txSeq := 1, nakSeq := 127, naks := 8, retraining := true })] }).hw,
      3, 0, 0, 0, {}, by decide +kernel⟩

/-- The hypotheses of BondModulesReplayAndLoadNoticesCount about vsetSettled are met. -/
theorem witness_BondModulesReplayAndLoadNoticesCount_vsetSettled : ∃ h : Mach, ∃ t : Nat, ∃ mv : Nat, ∃ a : Nat,
    ∃ tag : Nat, (t < 4) ∧ (t < h.site.dev.length) ∧ ((h.siteAt t).vset = some (mv, a, tag)) :=
  ⟨(wst.onSites fun _ => { wsiteUp with vset := some (750, 0, 9) }).hw, 3, 750, 0, 9, by decide +kernel⟩

/-- The hypotheses of BondModulesReplayAndLoadNoticesCount about lnNAssert are met. -/
theorem witness_BondModulesReplayAndLoadNoticesCount_lnNAssert : ∃ h : Mach, ∃ t : Nat, (t < 4) ∧
    (t < h.site.dev.length) ∧ ((h.siteAt t).railsOn = true) ∧ ((h.siteAt t).lnLow = false) :=
  ⟨(wst.onSites fun _ => { wsiteUp with railsOn := true }).hw, 3, by decide +kernel⟩

/-- The hypotheses of BondModulesReplayAndLoadNoticesCount about lnNRelease are met. -/
theorem witness_BondModulesReplayAndLoadNoticesCount_lnNRelease : ∃ h : Mach, ∃ t : Nat, (t < 4) ∧
    (t < h.site.dev.length) :=
  ⟨wst.hw, 3, by decide +kernel⟩

/-- The hypotheses of BondModulesReplayAndLoadNoticesCount about lnNOverlong are met. -/
theorem witness_BondModulesReplayAndLoadNoticesCount_lnNOverlong : ∃ h : Mach, ∃ t : Nat, ∃ ns : Nat, (t < 4) ∧
    (t < h.site.dev.length) ∧ ((h.siteAt t).lnLow = true) ∧ ((h.siteAt t).lnIgnored = false) ∧ (ns > 2000) :=
  ⟨(wst.onSites fun _ => { wsiteUp with railsOn := true, lnLow := true }).hw, 3, 2001, by decide +kernel⟩

/-- The hypotheses of SitesFenceOnTheirLimits about protoErrLimit are met. -/
theorem witness_SitesFenceOnTheirLimits_protoErrLimit : ∃ h : Mach, ∃ t : Nat, ∃ rise : Nat, (h.siteServes t = true) ∧
    ((h.siteAt t).sbOut = none) ∧ (rise ≥ h.cfg kSiteProtoErrLimit) ∧ (h.count (kSiteProtoErrs + 256 * t) ≥ rise) :=
  ⟨((wst.onSites fun _ => wsiteUp).onFb fun f => { f with ctr := [(kSiteProtoErrs + 256 * 3, 1000000)] }).hw, 3,
      1000000, by decide +kernel⟩

/-- The hypotheses of SitesFenceOnTheirLimits about siteWorkTimeout are met. -/
theorem witness_SitesFenceOnTheirLimits_siteWorkTimeout : ∃ h : Mach, ∃ t : Nat, ∃ ring : Nat, ∃ seq : Nat,
    ∃ us : Nat, ∃ i : Item, ∃ x : Ring, (h.siteServes t = true) ∧ ((h.siteAt t).sbOut = none) ∧ (ring < 32768) ∧
    (seq < 2 ^ 48) ∧ (h.item? (itemKey ring seq) = some i) ∧ (h.ring? i.ring = some x) ∧ (x.target = t) ∧
    (i.kind = 0x40) ∧ (i.started = true) ∧ (us ≥ 1000 * h.cfgItem i kSiteWorkTimeout) :=
  ⟨(((wring 1 1 0).onRng fun r => { r with items := [{ ring := 0, seq := 0, desc := 0, kind := 0x40, epoch := 1, ctx := 5, order := false, skip := false, notify := false, user := 0, started := true }] }).onSites fun _ => wsiteUp).hw,
      1, 0, 0, 100000000000,
      { ring := 0, seq := 0, desc := 0, kind := 0x40, epoch := 1, ctx := 5, order := false, skip := false, notify := false, user := 0, started := true },
      wringR 1 1, by decide +kernel⟩

/-- The hypotheses of SitesFenceOnTheirLimits about sbFenceReq are met. -/
theorem witness_SitesFenceOnTheirLimits_sbFenceReq : ∃ h : Mach, ∃ t : Nat, ∃ msg : SbMsg, (h.siteServes t = true) ∧
    ((h.siteAt t).sbOut = none) ∧ (h.sbHears t 9 msg 5 = true) :=
  ⟨(wsiteIn 5).hw, 3, wsb 9 [], by decide +kernel⟩

/-- The hypotheses of SitesFenceOnTheirLimits about sidebandLost are met. -/
theorem witness_SitesFenceOnTheirLimits_sidebandLost : ∃ h : Mach, ∃ t : Nat, ∃ us : Nat, (h.siteServes t = true) ∧
    ((h.siteAt t).sbOut = none) ∧ ((h.siteAt t).srstReleased = true) ∧ ((h.siteAt t).hello = true) ∧ (us ≥ 10000) :=
  ⟨(wst.onSites fun _ => { wsiteUp with srstReleased := true, hello := true }).hw, 3, 10000, by decide +kernel⟩

/-- The hypotheses of SitesFenceOnTheirLimits about evidenceTimeout are met. -/
theorem witness_SitesFenceOnTheirLimits_evidenceTimeout : ∃ h : Mach, ∃ t : Nat, ∃ us : Nat, (h.siteServes t = true) ∧
    ((h.siteAt t).sbOut = none) ∧ ((h.siteAt t).challenge.isSome = true) ∧ (us ≥ 1000000) :=
  ⟨(wst.onSites fun _ => { wsiteUp with challenge := some (1, 0) }).hw, 3, 1000000, by decide +kernel⟩

/-- The hypotheses of SitesFenceOnTheirLimits about helloTimeout are met. -/
theorem witness_SitesFenceOnTheirLimits_helloTimeout : ∃ h : Mach, ∃ t : Nat, ∃ us : Nat, (t < 4) ∧
    (t < h.site.dev.length) ∧ ((h.siteAt t).state = 2) ∧ ((h.siteAt t).srstReleased = true) ∧
    ((h.siteAt t).hello = false) ∧ ((h.siteAt t).fencing = none) ∧ (us ≥ 1000 * h.cfg kSiteHelloTimeout) ∧
    (h.grid.wait = []) ∧ (h.grid.relWait = []) ∧ (h.ringsTo 1 (siteRing t) = []) :=
  ⟨(wst.onSites fun _ => { wsiteUp with state := 2, srstReleased := true }).hw, 3, 10000000000, by decide +kernel⟩

/-- The hypotheses of TilesAreAdmittedStepByStep about sbHello are met. -/
theorem witness_TilesAreAdmittedStepByStep_sbHello : ∃ h : Mach, ∃ t : Nat, ∃ rate : Nat, ∃ ph : Nat, ∃ msg : SbMsg,
    ∃ tests : List (List BondTest), ∃ rsp : List Nat, ∃ work : List Nat, (h.sbHears t 1 msg 2 = true) ∧
    (num msg.payload 3 1 = 0) ∧ (h.pickRate t (([4, 2, 1].map fun r => (r,
    trainedOf (nth [] tests (rateAt r)))).filter fun r => r.1 ≤ min (h.cfg kSiteRateMax) (num msg.payload 1 1)) = some (rate,
    ph)) ∧ ((h.trainMask t ph).2 = (none, [])) :=
  ⟨(wst.onSites fun _ => { wsiteUp with state := 2, srstReleased := true }).hw, 3, 4, 131071, wsb 1 [1, 4], [], [],
      [], by decide +kernel⟩

/-- The hypotheses of TilesAreAdmittedStepByStep about sbAccept are met. -/
theorem witness_TilesAreAdmittedStepByStep_sbAccept : ∃ h : Mach, ∃ t : Nat, ∃ msg : SbMsg,
    (h.sbHears t 3 msg 2 = true) ∧ ((h.siteAt t).rate ≠ 0) ∧ (num msg.payload 0 1 = (h.siteAt t).rate) ∧
    (num msg.payload 1 2 = (h.siteAt t).up) :=
  ⟨(wst.onSites fun _ => { wsiteUp with state := 2, srstReleased := true, rate := 4 }).hw, 3, wsb 3 [4, 1, 0],
      by decide +kernel⟩

/-- The hypotheses of TilesAreAdmittedStepByStep about sbEvidence are met. -/
theorem witness_TilesAreAdmittedStepByStep_sbEvidence : ∃ s : State, ∃ t : Nat, ∃ d : Nat, ∃ msg : SbMsg,
    (s.hw.sbHears t 5 msg 3 = true) ∧ ((s.hw.siteAt t).challenge = some (0, d)) ∧ (num msg.payload 0 1 = 0) ∧
    (evidenceGood msg.payload msg.verif 0 = true) ∧ (num (s.hw.siteAt t).tileId 2 1 = 0) ∧
    (orderPartner s.fuses.order = 0) :=
  ⟨wst.onSites fun _ => { wsiteUp with state := 3, srstReleased := true, challenge := some (0, 7) }, 3, 7, wsb 5 ([0,
      0, 0, 0, 1, 0, 0, 0] ++ List.replicate 148 0), by decide +kernel⟩

/-- The hypotheses of TilesAreAdmittedStepByStep about sbAck are met. -/
theorem witness_TilesAreAdmittedStepByStep_sbAck : ∃ h : Mach, ∃ t : Nat, ∃ st : Nat, ∃ msg : SbMsg,
    (h.sbHears t 0x0A msg st = true) ∧ (msg.payload = []) ∧ ((h.siteAt t).sbOut = some msg.seq) ∧
    ((h.siteAt t).sbWait = []) :=
  ⟨(wst.onSites fun _ => { wsiteUp with srstReleased := true, sbOut := some 0 }).hw, 3, 5, wsb 0x0A [],
      by decide +kernel⟩

/-- The hypotheses of TilesAreAdmittedStepByStep about tileRecheck are met. -/
theorem witness_TilesAreAdmittedStepByStep_tileRecheck : ∃ h : Mach, ∃ t : Nat, ∃ us : Nat, (t < 4) ∧
    (h.siteServes t = true) ∧ ((h.siteAt t).sbOut = none) ∧ (h.cfg kTileRecheckPeriod ≠ 0) ∧
    (us ≥ 1000000 * h.cfg kTileRecheckPeriod) :=
  ⟨((wst.onSites fun _ => wsiteUp).onFb fun f => { f with cur := { ovr := sput wplat kTileRecheckPeriod [1] } }).hw,
      3, 1000000, by decide +kernel⟩

/-- The hypotheses of TilesAreAdmittedStepByStep about siteReadmitAuto are met. -/
theorem witness_TilesAreAdmittedStepByStep_siteReadmitAuto : ∃ h : Mach, ∃ t : Nat, (t < 4) ∧
    (t < h.site.dev.length) ∧ ((h.siteAt t).state = 6) ∧ ((h.siteAt t).fencing = none) ∧ (h.cfg kSiteReadmit = 1) ∧
    (h.siteCauseEnded t = true) :=
  ⟨((wst.onSites fun _ => { wsiteUp with state := 6, cause := 3 }).onFb fun f => { f with cur := { ovr := sput wplat kSiteReadmit [1] } }).hw,
      3, by decide +kernel⟩

/-- The hypotheses of RunningCoresServeTheirLocalPages about workPop are met. -/
theorem witness_RunningCoresServeTheirLocalPages_workPop : ∃ h : Mach, ∃ c : Nat, ∃ w : WorkEnt, (c < 32) ∧
    (h.coreRuns c = true) ∧ ((h.coreAt c).work.find? (fun w => !w.popped) = some w) :=
  ⟨(wst.onCores fun x => { x with state := 1, ctx := 5, work := [⟨3, 7, [], false⟩] }).hw, 4, ⟨3, 7, [], false⟩,
      by decide +kernel⟩

/-- The hypotheses of RunningCoresServeTheirLocalPages about workPopEmpty are met. -/
theorem witness_RunningCoresServeTheirLocalPages_workPopEmpty : ∃ h : Mach, ∃ c : Nat, (c < 32) ∧
    (h.coreRuns c = true) ∧ ((h.coreAt c).work.all (fun w => w.popped) = true) :=
  ⟨wcore.hw, 31, by decide +kernel⟩

/-- The hypotheses of RunningCoresServeTheirLocalPages about noticePop are met. -/
theorem witness_RunningCoresServeTheirLocalPages_noticePop : ∃ h : Mach, ∃ c : Nat, ∃ v : Nat,
    ∃ r : List (Nat × Bool), ∃ b : Bool, (c < 32) ∧ (h.coreRuns c = true) ∧ ((h.coreAt c).notices = (v, b) :: r) :=
  ⟨(wst.onCores fun x => { x with state := 1, ctx := 5, notices := [(9, false)] }).hw, 4, 9, [], false,
      by decide +kernel⟩

/-- The hypotheses of RunningCoresServeTheirLocalPages about draw are met. -/
theorem witness_RunningCoresServeTheirLocalPages_draw : ∃ h : Mach, ∃ c : Nat, (c < 32) ∧ (h.coreRuns c = true) :=
  ⟨(wst.onCores fun x => { x with state := 1, ctx := 5, drawIndex := 2 ^ 64 - 1 }).hw, 0, by decide +kernel⟩

/-- The hypotheses of RunningCoresServeTheirLocalPages about entropy are met. -/
theorem witness_RunningCoresServeTheirLocalPages_entropy : ∃ h : Mach, ∃ c : Nat, (c < 32) ∧ (h.coreRuns c = true) ∧
    (h.entropyUsed (c / 16) < 1000000) :=
  ⟨wcore.hw, 16, by decide +kernel⟩

/-- The hypotheses of RunningCoresServeTheirLocalPages about entropyStalls are met. -/
theorem witness_RunningCoresServeTheirLocalPages_entropyStalls : ∃ h : Mach, ∃ c : Nat, (c < 32) ∧
    (h.coreRuns c = true) ∧ (h.entropyUsed (c / 16) ≥ 1000000) :=
  ⟨(wcore.setHw (wcore.hw.setCore { wcore.hw.core with entropy := [(0, 1000000), (0, 0)] })).hw, 15, by decide +kernel⟩

/-- The hypotheses of RunningCoresServeTheirLocalPages about intPendingClear are met. -/
theorem witness_RunningCoresServeTheirLocalPages_intPendingClear : ∃ h : Mach, ∃ c : Nat, ∃ mask : Nat, (c < 32) ∧
    (c < h.core.dev.length) ∧ (h.coreRuns c = true) :=
  ⟨(wst.onCores fun x => { x with state := 1, ctx := 5, intPending := 7 }).hw, 2, 5, by decide +kernel⟩

/-- The hypotheses of RunningCoresServeTheirLocalPages about registerWrite are met. -/
theorem witness_RunningCoresServeTheirLocalPages_registerWrite : ∃ h : Mach, ∃ c : Nat, ∃ v : Nat, (c < 32) ∧
    (v < 2 ^ 64) ∧ (h.coreRuns c = true) :=
  ⟨wcore.hw, 1, 2 ^ 64 - 1, by decide +kernel⟩

/-- The hypotheses of RunningCoresServeTheirLocalPages about registerWriteSeed are met. -/
theorem witness_RunningCoresServeTheirLocalPages_registerWriteSeed : ∃ h : Mach, ∃ c : Nat, ∃ v : Nat, (c < 32) ∧
    (v < 2 ^ 64) ∧ (h.coreRuns c = true) :=
  ⟨wcore.hw, 1, 2 ^ 64 - 1, by decide +kernel⟩

/-- The hypotheses of RunningCoresServeTheirLocalPages about registerWriteEnable are met. -/
theorem witness_RunningCoresServeTheirLocalPages_registerWriteEnable : ∃ h : Mach, ∃ c : Nat, ∃ v : Nat, (c < 32) ∧
    (v < 2 ^ 64) ∧ (h.coreRuns c = true) :=
  ⟨wcore.hw, 1, 6, by decide +kernel⟩

/-- The hypotheses of RunningCoresServeTheirLocalPages about coreDoorbellWrite are met. -/
theorem witness_RunningCoresServeTheirLocalPages_coreDoorbellWrite : ∃ h : Mach, ∃ c : Nat, ∃ word : Nat, ∃ x : Ring,
    ∃ y : Ctx, (let r := fld word 48 15; (let seq := fld word 0 48; (c < 32) ∧ (word < 2 ^ 63) ∧
    (h.coreRuns c = true) ∧ (h.clk.pwr = 0) ∧ (h.storesOpen (isCore c) = false) ∧ ((h.coreAt c).heldBells = []) ∧
    (ringFloor r = c / 16) ∧ (h.ring? r = some x) ∧ (x.subKind = 2) ∧ (x.submitter = c) ∧ (x.closed = false) ∧
    (h.ctx? x.ctx = some y) ∧ (y.st = .live) ∧ (seq > x.produce))) :=
  ⟨((wring 0 0 (2 ^ 120)).onCores fun x => { x with state := 1, ctx := 5 }).hw, 0, 5, wringR 0 0, {}, by decide +kernel⟩

/-- The hypotheses of RunningCoresServeTheirLocalPages about coreWorkDone are met. -/
theorem witness_RunningCoresServeTheirLocalPages_coreWorkDone : ∃ h : Mach, ∃ c : Nat, ∃ val : Nat, ∃ k : Nat,
    (let d := (padTo 16 (h.coreAt c).workDone).take 16 ++ leB 8 val; (c < 32) ∧
    (k = itemKey (num d 0 2) (num d 2 8)) ∧ (h.coreRuns c = true) ∧ ((h.coreAt c).fencing = none) ∧
    ((h.coreAt c).work.any (fun w => w.item = k) = true) ∧ (num d 11 1 = 0 ∧ num d 18 6 = 0)) :=
  ⟨((wring 1 0 0).onCores fun x => { x with state := 1, ctx := 5, work := [⟨0, 7, [], true⟩], workDone := leB 2 0 ++ leB 8 7 ++ leB 6 0 }).hw,
      3, 0, 7, by decide +kernel⟩

/-- The hypotheses of CoreCachesWindowsAndFences about cacheClean are met. -/
theorem witness_CoreCachesWindowsAndFences_cacheClean : ∃ h : Mach, ∃ c : Nat, ∃ lines : Nat, (c < 32) ∧
    (c < h.core.dev.length) ∧ (1 ≤ lines) ∧ (lines ≤ 65536) ∧ (h.coreRuns c = true) ∧
    (h.core.cache.Pairwise (fun a b => a.1 < b.1)) ∧ (let line := (h.coreAt c).cacheAddr / 256 * 256;
    ((h.coreAt c).cacheOp = none)) :=
  ⟨wcore.hw, 1, 65536, by decide +kernel⟩

/-- The hypotheses of CoreCachesWindowsAndFences about cacheInvalidate are met. -/
theorem witness_CoreCachesWindowsAndFences_cacheInvalidate : ∃ h : Mach, ∃ c : Nat, ∃ lines : Nat, (c < 32) ∧
    (c < h.core.dev.length) ∧ (1 ≤ lines) ∧ (lines ≤ 65536) ∧ (h.coreRuns c = true) ∧
    (h.core.cache.Pairwise (fun a b => a.1 < b.1)) ∧ (let line := (h.coreAt c).cacheAddr / 256 * 256;
    ((h.coreAt c).cacheOp = none)) :=
  ⟨(wcache true).hw, 1, 2, by decide +kernel⟩

/-- The hypotheses of CoreCachesWindowsAndFences about cacheCleanInvalidate are met. -/
theorem witness_CoreCachesWindowsAndFences_cacheCleanInvalidate : ∃ h : Mach, ∃ c : Nat, ∃ lines : Nat, (c < 32) ∧
    (c < h.core.dev.length) ∧ (1 ≤ lines) ∧ (lines ≤ 65536) ∧ (h.coreRuns c = true) ∧
    (h.core.cache.Pairwise (fun a b => a.1 < b.1)) ∧ (let line := (h.coreAt c).cacheAddr / 256 * 256;
    ((h.coreAt c).cacheOp = none)) :=
  ⟨(wcache true).hw, 1, 2, by decide +kernel⟩

/-- The hypotheses of CoreCachesWindowsAndFences about cacheOpDone are met. -/
theorem witness_CoreCachesWindowsAndFences_cacheOpDone : ∃ h : Mach, ∃ c : Nat, (c < 32) ∧
    ((h.coreAt c).cacheWait = []) :=
  ⟨(wst.onCores fun x => { x with state := 1, ctx := 5, cacheOp := some (1, 1) }).hw, 31, by decide +kernel⟩

/-- The hypotheses of CoreCachesWindowsAndFences about cachedLoad are met. -/
theorem witness_CoreCachesWindowsAndFences_cachedLoad : ∃ h : Mach, ∃ c : Nat, ∃ va : Nat, ∃ len : Nat,
    ∃ l : CacheLine, (let ctx := (h.coreAt c).ctx; (c < 32) ∧ (lineAccess ctx va len = true) ∧ (h.coreRuns c = true) ∧
    (h.clk.pwr = 0) ∧ (ctx ≠ 0) ∧
    ((match h.resolve (c / 16) ctx va len .rd with | .ok _ => true | .error _ => false) = true) ∧
    (h.cached (c / 16) ctx (va / 256 * 256) = some l)) :=
  ⟨(wcache true).hw, 1, 257, 8, wcline true, by decide +kernel⟩

/-- The hypotheses of CoreCachesWindowsAndFences about cachedStore are met. -/
theorem witness_CoreCachesWindowsAndFences_cachedStore : ∃ h : Mach, ∃ c : Nat, ∃ va : Nat, ∃ b : Bytes,
    ∃ l : CacheLine, (let ctx := (h.coreAt c).ctx; (c < 32) ∧ (lineAccess ctx va b.length = true) ∧
    (h.coreRuns c = true) ∧ (h.clk.pwr = 0) ∧ (ctx ≠ 0) ∧
    ((match h.resolve (c / 16) ctx va b.length .wr with | .ok _ => true | .error _ => false) = true) ∧
    (h.cached (c / 16) ctx (va / 256 * 256) = some l)) :=
  ⟨(wcache false).hw, 1, 257, [1, 2, 3], wcline false, by decide +kernel⟩

/-- The hypotheses of CoreCachesWindowsAndFences about uncachedLoad are met. -/
theorem witness_CoreCachesWindowsAndFences_uncachedLoad : ∃ h : Mach, ∃ c : Nat, ∃ va : Nat, ∃ len : Nat, ∃ d : Bytes,
    (let ctx := (h.coreAt c).ctx; (c < 32) ∧ (lineAccess ctx va len = true) ∧ (h.coreRuns c = true) ∧
    (h.clk.pwr = 0) ∧ (ctx ≠ 0) ∧ (h.readsNow (.core c 0) ctx va len = some d)) :=
  ⟨wcore.hw, 1, 257, 8, List.replicate 8 0, by decide +kernel⟩

/-- The hypotheses of CoreCachesWindowsAndFences about uncachedStore are met. -/
theorem witness_CoreCachesWindowsAndFences_uncachedStore : ∃ h : Mach, ∃ c : Nat, ∃ va : Nat, ∃ b : Bytes,
    (let ctx := (h.coreAt c).ctx; (c < 32) ∧ (lineAccess ctx va b.length = true) ∧ (h.coreRuns c = true) ∧
    (h.clk.pwr = 0) ∧ (ctx ≠ 0) ∧ (let pas := h.writesNow (.core c 0) ctx va b; (pas ≠ []))) :=
  ⟨wcore.hw, 1, 257, [1, 2, 3], by decide +kernel⟩

/-- The hypotheses of CoreCachesWindowsAndFences about localLoad are met. -/
theorem witness_CoreCachesWindowsAndFences_localLoad : ∃ h : Mach, ∃ c : Nat, (c < 32) ∧ (h.coreRuns c = true) :=
  ⟨wcore.hw, 0, by decide +kernel⟩

/-- The hypotheses of CoreCachesWindowsAndFences about hostWorkTimeout are met. -/
theorem witness_CoreCachesWindowsAndFences_hostWorkTimeout : ∃ h : Mach, ∃ ring : Nat, ∃ seq : Nat, ∃ us : Nat,
    ∃ c : Nat, ∃ i : Item, (ring < 32768) ∧ (seq < 2 ^ 48) ∧ (c < h.core.dev.length) ∧
    (indexOf? (fun (x : Core) => x.work.any fun w => w.item = itemKey ring seq) h.core.dev = some c) ∧
    (h.item? (itemKey ring seq) = some i) ∧ (us ≥ 1000 * h.cfgItem i kHostWorkTimeout) ∧
    ((h.coreAt c).fencing = none) ∧ ((h.coreAt c).state < 3) :=
  ⟨((wst.onCores fun x => { x with state := 1, ctx := 5, work := [⟨0, 7, [], true⟩] }).onRng fun r => { r with items := [{ ring := 0, seq := 7, desc := 0, kind := kindCore, epoch := 1, ctx := 5, order := false, skip := false, notify := false, user := 0, started := true }] }).hw,
      0, 7, 10000000000000, 0,
      { ring := 0, seq := 7, desc := 0, kind := kindCore, epoch := 1, ctx := 5, order := false, skip := false, notify := false, user := 0, started := true },
      by decide +kernel⟩

/-- The hypotheses of CoreCachesWindowsAndFences about coreCacheUe are met. -/
theorem witness_CoreCachesWindowsAndFences_coreCacheUe : ∃ h : Mach, ∃ c : Nat, (c < 32) ∧ (c < h.core.dev.length) ∧
    ((h.coreAt c).state < 3) ∧ ((h.coreAt c).fencing = none) ∧ (h.cad.cur.physOf ⟨0x09, c⟩ ≠ 0xFF) ∧
    (h.spareFor ⟨0x09, c⟩ = none) :=
  ⟨((wst.onCores fun x => { x with state := 1, ctx := 5 }).onFb fun f => { f with cur := { f.cur with ovr := sput f.cur.ovr kCadSparesInService [0] } }).hw,
      2, by decide +kernel⟩

/-- The hypotheses of EndpointPortsServeTheirWindows about hpDoorbellWrite are met. -/
theorem witness_EndpointPortsServeTheirWindows_hpDoorbellWrite : ∃ h : Mach, ∃ n : Nat, ∃ word : Nat, ∃ x : Ring,
    ∃ y : Ctx, (let r := fld word 48 15; (let seq := fld word 0 48; (word < 2 ^ 63) ∧ (h.hpHears n = true) ∧
    (h.hpTarget n = h.ownMember) ∧ (h.storesOpen (isHp n) = false) ∧ ((h.hpAt n).heldBells = []) ∧ (ringFloor r = n) ∧
    (h.ring? r = some x) ∧ (x.subKind = 5) ∧ (x.submitter = n) ∧ (x.closed = false) ∧ (h.ctx? x.ctx = some y) ∧
    (y.st = .live) ∧ (seq > x.produce))) :=
  ⟨((wring 0 0 (2 ^ 120)).onHps (fun x => { x with role := 1, link := 2, apCtx := 5 }) |>.onRng fun r => { r with rings := [(0, { wringR 0 0 with subKind := 5, start := 0, submitter := 0 })] }).hw,
      0, 5, { wringR 0 0 with subKind := 5 }, {}, by decide +kernel⟩

/-- The hypotheses of EndpointPortsServeTheirWindows about bar2Read are met. -/
theorem witness_EndpointPortsServeTheirWindows_bar2Read : ∃ h : Mach, ∃ n : Nat, ∃ tag : Nat, ∃ off : Nat,
    ∃ len : Nat, ∃ since : Nat, ∃ way : Nat, ∃ d : Bytes, (let x := h.hpAt n; (let va := x.apBase + off;
    (off < 2 ^ 32) ∧ (h.hpHears n = true) ∧ (h.bar2Refused n va len .rd = false) ∧
    (lineAccess x.apCtx va len = true) ∧ (h.readsNow (.bar2 n tag) x.apCtx va len way = some d))) :=
  ⟨(wst.onHps fun x => { x with role := 1, link := 2, apCtx := 5 }).hw, 0, 1, 256, 16, 0, 0, List.replicate 16 0,
      by decide +kernel⟩

/-- The hypotheses of EndpointPortsServeTheirWindows about bar2Write are met. -/
theorem witness_EndpointPortsServeTheirWindows_bar2Write : ∃ h : Mach, ∃ n : Nat, ∃ tag : Nat, ∃ off : Nat,
    ∃ data : Bytes, (let x := h.hpAt n; (let va := x.apBase + off; (off < 2 ^ 32) ∧ (h.hpHears n = true) ∧
    (h.bar2Refused n va data.length .wr = false) ∧ (lineAccess x.apCtx va data.length = true) ∧
    (let pas := h.writesNow (.bar2 n tag) x.apCtx va data; (pas ≠ [])))) :=
  ⟨(wst.onHps fun x => { x with role := 1, link := 2, apCtx := 5 }).hw, 0, 1, 256, [1, 2, 3], by decide +kernel⟩

/-- The hypotheses of EndpointPortsServeTheirWindows about registerWrite are met. -/
theorem witness_EndpointPortsServeTheirWindows_registerWrite : ∃ h : Mach, ∃ n : Nat, ∃ k : Nat, ∃ v : Nat, (k < 16) ∧
    (v < 2 ^ 64) ∧ (h.hpHears n = true) :=
  ⟨(wst.onHps fun x => { x with role := 1, link := 2, apCtx := 5 }).hw, 0, 15, 4096, by decide +kernel⟩

/-- The hypotheses of EndpointPortsServeTheirWindows about xferToModule are met. -/
theorem witness_EndpointPortsServeTheirWindows_xferToModule : ∃ h : Mach, ∃ n : Nat, ∃ k : Nat, ∃ ctl : Nat,
    ∃ data : Bytes, ∃ recs : Bytes, (let c := (ctl % 2 ^ 30 + ctl / 2 ^ 31 * 2 ^ 31) % 2 ^ 31;
    (h.xferGoes n k c = true)) :=
  ⟨(wst.onHps fun x => { x with role := 1, link := 2, xfer := List.replicate 16 { length := 512 } }).hw, 0, 3,
      5 * 2 ^ 16, [], [], by decide +kernel⟩

/-- The hypotheses of EndpointPortsServeTheirWindows about xferToHost are met. -/
theorem witness_EndpointPortsServeTheirWindows_xferToHost : ∃ h : Mach, ∃ n : Nat, ∃ k : Nat, ∃ ctl : Nat,
    (let c := (ctl % 2 ^ 30 + 2 ^ 30) % 2 ^ 31; (h.xferGoes n k c = true)) :=
  ⟨(wst.onHps fun x => { x with role := 1, link := 2, xfer := List.replicate 16 { length := 512 } }).hw, 0, 3,
      5 * 2 ^ 16, by decide +kernel⟩

/-- The hypotheses of EndpointPortsServeTheirWindows about xferEnd are met. -/
theorem witness_EndpointPortsServeTheirWindows_xferEnd : ∃ h : Mach, ∃ n : Nat, ∃ k : Nat, (n < 2) ∧ (k < 16) ∧
    ((h.xferAt n k).busy = true) ∧
    (h.trv.waits.any (fun w => (w.what = 1 || w.what = 2) && w.chan = waitChan n k) = false) :=
  ⟨(wst.onHps fun x => { x with role := 1, link := 2, xfer := List.replicate 16 { length := 512, busy := true } }).hw,
      0, 3, by decide +kernel⟩

/-- The hypotheses of HostSessionsBindAndPortsFollowTheirLinks about spdmRequest are met. -/
theorem witness_HostSessionsBindAndPortsFollowTheirLinks_spdmRequest : ∃ h : Mach, ∃ n : Nat, ∃ sess : Nat,
    (let x := h.hpAt n; (h.hpSpdm n = true) ∧ (x.sessions.length < 4)) :=
  ⟨(wst.onHps fun x => { x with role := 1, link := 2, apCtx := 5 }).hw, 1, 0, by decide +kernel⟩

/-- The hypotheses of HostSessionsBindAndPortsFollowTheirLinks about xferBind are met. -/
theorem witness_HostSessionsBindAndPortsFollowTheirLinks_xferBind : ∃ s : State, ∃ n : Nat, ∃ sess : Nat, ∃ k : Nat,
    ∃ ctx : Nat, ∃ root : Nat, ∃ y : Spdm, (let x := s.hw.hpAt n; (k < 16) ∧ (k < x.xfer.length) ∧
    (s.hw.hpSpdm n = true) ∧ (x.sessions.find? (fun s => s.id = sess) = some y) ∧
    ((sgetD {} s.hw.sec.keys ctx).root = some root) ∧ (s.hw.hpCtx n ctx = true) ∧ ((s.hw.xferAt n k).busy = false)) :=
  ⟨((wst.onHps fun x => { x with role := 1, link := 2, apCtx := 5, sessions := [{ id := 7 }] }).onSec fun z => { z with keys := [(5, { root := some 3 })] }),
      0, 7, 15, 5, 3, { id := 7 }, by decide +kernel⟩

/-- The hypotheses of HostSessionsBindAndPortsFollowTheirLinks about xferUnbind are met. -/
theorem witness_HostSessionsBindAndPortsFollowTheirLinks_xferUnbind : ∃ s : State, ∃ n : Nat, ∃ sess : Nat, ∃ k : Nat,
    ∃ b : Nat × Nat × Nat, (let x := s.hw.hpAt n; (k < x.xfer.length) ∧ (s.hw.hpSpdm n = true) ∧
    (x.sessions.any (fun s => s.id = sess) = true) ∧ ((s.hw.xferAt n k).bound = some b) ∧ (b.2.1 = sess)) :=
  ⟨wst.onHps fun x => { x with role := 1, link := 2, apCtx := 5, sessions := [{ id := 7 }], xfer := List.replicate 16 { bound := some (5, 7, 1) } },
      0, 7, 15, (5, 7, 1), by decide +kernel⟩

/-- The hypotheses of HostSessionsBindAndPortsFollowTheirLinks about spdmHeartbeatExpire are met. -/
theorem witness_HostSessionsBindAndPortsFollowTheirLinks_spdmHeartbeatExpire : ∃ h : Mach, ∃ n : Nat, ∃ sess : Nat,
    ∃ us : Nat, (n < 2) ∧ (n < h.hp.dev.length) ∧ (us ≥ 60000000) :=
  ⟨(wst.onHps fun x => { x with role := 1, link := 2, apCtx := 5, sessions := [{ id := 7 }], xfer := List.replicate 16 { bound := some (5, 7, 1) } }).hw,
      0, 7, 60000000, by decide +kernel⟩

/-- The hypotheses of HostSessionsBindAndPortsFollowTheirLinks about hpLinkDown are met. -/
theorem witness_HostSessionsBindAndPortsFollowTheirLinks_hpLinkDown : ∃ h : Mach, ∃ n : Nat, (h.hpHears n = true) :=
  ⟨(wst.onHps fun x => { x with role := 1, link := 2, apCtx := 5 }).hw, 1, by decide +kernel⟩

/-- The hypotheses of HostSessionsBindAndPortsFollowTheirLinks about hpPerst are met. -/
theorem witness_HostSessionsBindAndPortsFollowTheirLinks_hpPerst : ∃ h : Mach, ∃ n : Nat, (h.hpHears n = true) :=
  ⟨(wst.onHps fun x => { x with role := 1, link := 2, apCtx := 5 }).hw, 1, by decide +kernel⟩

/-- The hypotheses of HostSessionsBindAndPortsFollowTheirLinks about functionLevelReset are met. -/
theorem witness_HostSessionsBindAndPortsFollowTheirLinks_functionLevelReset : ∃ h : Mach, ∃ n : Nat,
    (h.hpHears n = true) :=
  ⟨(wst.onHps fun x => { x with role := 1, link := 2, apCtx := 5 }).hw, 1, by decide +kernel⟩

/-- The hypotheses of HostSessionsBindAndPortsFollowTheirLinks about hpLinkUp are met. -/
theorem witness_HostSessionsBindAndPortsFollowTheirLinks_hpLinkUp : ∃ h : Mach, ∃ n : Nat, ∃ width : Nat,
    ∃ rate : Nat, ∃ flit : Bool, (n < 2) ∧ ((h.hpAt n).role = 1) ∧ ((h.hpAt n).fencing = none) ∧
    (h.floorLost n = false) ∧ (h.floorGone n = false) ∧ (h.pwr.closure = none) ∧ (nth false h.clk.loss n = false) :=
  ⟨(wst.onHps fun x => { x with role := 1, stopped := true }).hw, 1, 8, 5, true, by decide +kernel⟩

/-- The hypotheses of HostSessionsBindAndPortsFollowTheirLinks about farDeviceAttach are met. -/
theorem witness_HostSessionsBindAndPortsFollowTheirLinks_farDeviceAttach : ∃ h : Mach, ∃ n : Nat, ∃ cap : Nat,
    ∃ device : Bytes, (n < 2) ∧ ((h.hpAt n).role = 2) ∧ (h.floorLost n = false) ∧ (h.floorGone n = false) :=
  ⟨(wst.onHps fun x => { x with role := 2 }).hw, 1, 2 ^ 42, [], by decide +kernel⟩

/-- The hypotheses of HostSessionsBindAndPortsFollowTheirLinks about farDeviceDown are met. -/
theorem witness_HostSessionsBindAndPortsFollowTheirLinks_farDeviceDown : ∃ h : Mach, ∃ n : Nat, (n < 2) ∧
    (n < h.hp.dev.length) ∧ ((h.hpAt n).role = 2) ∧ ((h.hpAt n).moves = []) :=
  ⟨(wst.onHps fun x => { x with role := 2, far := 2, link := 2 }).hw, 1, by decide +kernel⟩

/-- The hypotheses of HostSessionsBindAndPortsFollowTheirLinks about checkpointMoveDone are met. -/
theorem witness_HostSessionsBindAndPortsFollowTheirLinks_checkpointMoveDone : ∃ h : Mach, ∃ ring : Nat, ∃ seq : Nat,
    ∃ hd : Bytes, ∃ b : Bytes, ∃ hp : Bool, ∃ bp : Bool, ∃ i : Item, ∃ d : Nat, ∃ key : Option Nat, (ring < 32768) ∧
    (seq < 2 ^ 48) ∧ (h.item? (itemKey ring seq) = some i) ∧
    (sget (h.hpAt (ckptPort i.desc)).moves (itemKey ring seq) = some (d, key)) :=
  ⟨((wring 0 0 0 |>.onHps fun x => { x with role := 2, far := 2, link := 2, moves := [(0, (5, none))] }).onRng fun r => { r with items := [{ ring := 0, seq := 0, desc := 0, kind := kindSave, epoch := 1, ctx := 5, order := false, skip := false, notify := false, user := 0, started := true }] }).hw,
      0, 0, [], [], false, false,
      { ring := 0, seq := 0, desc := 0, kind := kindSave, epoch := 1, ctx := 5, order := false, skip := false, notify := false, user := 0, started := true },
      5, none, by decide +kernel⟩

/-- The hypotheses of LinkPortsTrainAndReplay about linkTraining are met. -/
theorem witness_LinkPortsTrainAndReplay_linkTraining : ∃ h : Mach, ∃ p : Nat, ∃ tx : Nat, ∃ rx : Nat, ∃ q : LinkPeer,
    (let x := h.portAt p;
    (let w := widthOf (min (if x.recWidth = 0 then 8 else x.recWidth) (min (popcount 9 tx) (popcount 9 rx)));
    (h.clk.pwr = 0) ∧ (h.portIs p 2 = true) ∧ (h.protectOf p = 0) ∧ (w ≠ 0) ∧ (h.minWidth p ≤ w) ∧
    (h.cad.step = 21))) :=
  ⟨(wst.onPorts fun x => { x with state := 2 }).hw, 23, 511, 255, {}, by decide +kernel⟩

/-- The hypotheses of LinkPortsTrainAndReplay about linkBerGate are met. -/
theorem witness_LinkPortsTrainAndReplay_linkBerGate : ∃ s : State, ∃ p : Nat, ∃ errs : List Nat, ∃ bits : Nat,
    (let x := s.hw.portAt p; (s.hw.portIs p 3 = true) ∧ (x.gated = false) ∧ (19 ≤ s.hw.cad.step) ∧
    (s.hw.portMay p 1 = true) ∧ ((List.range 18).all (fun l => nth 0 errs l * 1000000 ≤ bits) = true) ∧
    ((x.txMap ++ x.rxMap.map (· + 9)).all (· < 18) = true)) :=
  ⟨wst.onPorts fun x => { x with state := 3, txMap := [0], rxMap := [0], width := 1 }, 23, [1], 1000000,
      by decide +kernel⟩

/-- The hypotheses of LinkPortsTrainAndReplay about discover are met. -/
theorem witness_LinkPortsTrainAndReplay_discover : ∃ s : State, ∃ p : Nat, ∃ g : LinkMsg, (let x := s.hw.portAt p;
    (let y := ({ station := g.sender, port := g.senderPort, serial := fld g.body 128 64, dims := [fld g.body 123 5 + 1, fld g.body 118 5 + 1, fld g.body 114 4 + 1], licences := fld g.body 104 8, protect := fld g.body 96 8 } : Partner);
    (s.hw.portIs p 4 = true) ∧ (LinkMsg.bad { g with ty := 1 } = false) ∧ (s.hw.cfg kStationAddr ≠ 0xFFFF) ∧
    (s.hw.miswired s.fuses.serial p y = none))) :=
  ⟨(wst.onPorts fun x => { x with state := 4 }).onFb fun f => { f with cur := { f.cur with ovr := sput f.cur.ovr kStationAddr (leB 2 0) } , coldRun := sput f.coldRun kStationAddr (leB 2 0) },
      0,
      { ty := 1, sender := neighbourOf ((wst.onPorts fun x => { x with state := 4 }).hw.dims) 0 0, senderPort := 2, body := 77 * 2 ^ 128 + ((nth 1 (wst.hw.dims) 0 - 1) * 2 ^ 123 + (nth 1 (wst.hw.dims) 1 - 1) * 2 ^ 118 + (nth 1 (wst.hw.dims) 2 - 1) * 2 ^ 114) },
      by decide +kernel⟩

/-- The hypotheses of LinkPortsTrainAndReplay about linkNakReceive are met. -/
theorem witness_LinkPortsTrainAndReplay_linkNakReceive : ∃ h : Mach, ∃ p : Nat, ∃ ack : Nat, (let x := h.portAt p;
    (ack < 4096) ∧ (h.portIs p 5 = true) ∧ (x.naks < 7)) :=
  ⟨(wst.onPorts fun x => { x with state := 5, replay := [⟨1, 0, [3, 256], []⟩, ⟨2, 0, [4, 256], []⟩] }).hw, 4, 1,
      by decide +kernel⟩

/-- The hypotheses of LinkPortsTrainAndReplay about linkNakRetrain are met. -/
theorem witness_LinkPortsTrainAndReplay_linkNakRetrain : ∃ h : Mach, ∃ p : Nat, ∃ g : LinkRetrain,
    (let x := h.portAt p; (h.portIs p 6 = true) ∧ (x.disc = false) ∧ (g.oks.head? = some true) ∧ (x.width ≥ 1) ∧
    (x.waitMsg = [] ∧ x.waitOut = [] ∧ x.owed = [0, 0, 0]) ∧ (h.trv.live = [])) :=
  ⟨(wst.onPorts fun x => { x with state := 6, width := 8, naks := 8, nakSeq := 1, replay := [⟨1, 0, [3, 256], []⟩, ⟨2, 0, [4, 256], []⟩] }).hw,
      4, { oks := [true] }, by decide +kernel⟩

/-- The hypotheses of LinkPortsTrainAndReplay about linkBerWindow are met. -/
theorem witness_LinkPortsTrainAndReplay_linkBerWindow : ∃ h : Mach, ∃ p : Nat, ∃ lane : Nat, ∃ errs : Nat,
    ∃ bits : Nat, ∃ i : Nat, (let x := h.portAt p; (lane < 9) ∧ (h.portIs p 5 = true) ∧
    (indexOf? (· = lane) x.txMap = some i) ∧ (errs * 10 ^ h.cfg kLinkLaneBerLimit > bits) ∧ (bitOf x.txGood 8 = true ∧
    x.txMap.contains 8 = false)) :=
  ⟨(wst.onPorts fun x => { x with state := 5, width := 8, txGood := 511, txMap := [0, 1, 2, 3, 4, 5, 6, 7] }).hw, 4,
      3, 1000000, 1, 3, by decide +kernel⟩

/-- The hypotheses of LinkPortsTrainAndReplay about partnerDetectTimeout are met. -/
theorem witness_LinkPortsTrainAndReplay_partnerDetectTimeout : ∃ h : Mach, ∃ p : Nat, ∃ ms : Nat,
    (let x := h.portAt p; (h.portIs p 2 = true) ∧ (ms ≥ h.cfg kLinkTrainTimeout) ∧ (x.partner = none) ∧
    (h.itemsOnPort p = [])) :=
  ⟨(wst.onPorts fun x => { x with state := 2 }).hw, 4, 2 ^ 32, by decide +kernel⟩

/-- The hypotheses of LinkPortsTrainAndReplay about linkRetry are met. -/
theorem witness_LinkPortsTrainAndReplay_linkRetry : ∃ h : Mach, ∃ p : Nat, ∃ ms : Nat, (let x := h.portAt p;
    (h.portIs p 1 = true) ∧ (h.cad.step = 21) ∧ (h.portMayTrain p = true) ∧ (ms ≥ h.cfg kLinkRetryPeriod)) :=
  ⟨(wst.onPorts fun x => { x with state := 1 }).hw, 4, 2 ^ 32, by decide +kernel⟩

/-- The hypotheses of NeighbourMessagesChangeTheirPort about throttle are met. -/
theorem witness_NeighbourMessagesChangeTheirPort_throttle : ∃ h : Mach, ∃ p : Nat, ∃ g : LinkMsg,
    (let x := h.portAt p; (let z := (⟨fld g.body 184 8, fld g.body 176 8, fld g.body 168 8, fld g.body 160 8,
    h.clk.us⟩ : NbrZone); (p < 24) ∧ (p < h.lnk.dev.length) ∧ (x.state = 4 ∨ x.state = 5) ∧
    (LinkMsg.bad { g with ty := 2 } = false) ∧ (z.step ≠ 0))) :=
  ⟨(wst.onPorts fun x => { x with state := 5 }).hw, 4, { body := 2 ^ 184 + 2 ^ 176 + 2 ^ 168 + 50 * 2 ^ 160 },
      by decide +kernel⟩

/-- The hypotheses of NeighbourMessagesChangeTheirPort about throttleRepeat are met. -/
theorem witness_NeighbourMessagesChangeTheirPort_throttleRepeat : ∃ h : Mach, ∃ kind : Nat, ∃ zone : Nat, ∃ us : Nat,
    (let z := h.zoneStep kind zone; (let held := (h.clk.us - z.2.2) / 1000 % 2 ^ 32;
    ((if kind = 1 then zone < 6 else kind = 2 && zone < 2) = true) ∧ (us ≥ 10000) ∧ (z.1 ≠ 0) ∧
    (h.upPorts.all (fun p => h.portMay p 1) = true))) :=
  ⟨((wst.onPorts fun x => { x with state := 5 }).onStk fun k => { k with dev := k.dev.map fun x => { x with level := 2 } }).hw,
      1, 3, 10000, by decide +kernel⟩

/-- The hypotheses of NeighbourMessagesChangeTheirPort about throttleExpire are met. -/
theorem witness_NeighbourMessagesChangeTheirPort_throttleExpire : ∃ h : Mach, ∃ p : Nat, ∃ kind : Nat, ∃ zone : Nat,
    ∃ us : Nat, ∃ z : NbrZone, (let x := h.portAt p; (p < 24) ∧ (p < h.lnk.dev.length) ∧
    (x.zones.find? (fun w => w.kind = kind && w.zone = zone) = some z) ∧ (us ≥ 30000)) :=
  ⟨(wst.onPorts fun x => { x with state := 5, zones := [⟨1, 2, 1, 50, 0⟩] }).hw, 4, 1, 2, 30000, ⟨1, 2, 1, 50, 0⟩,
      by decide +kernel⟩

/-- The hypotheses of NeighbourMessagesChangeTheirPort about sleepNotice are met. -/
theorem witness_NeighbourMessagesChangeTheirPort_sleepNotice : ∃ h : Mach, ∃ p : Nat, ∃ g : LinkMsg,
    (let x := h.portAt p; (p < 24) ∧ (x.state = 4 ∨ x.state = 5) ∧ (LinkMsg.bad { g with ty := 3 } = false)) :=
  ⟨(wst.onPorts fun x => { x with state := 5 }).hw, 4, { body := 3 * 2 ^ 184 + 9 * 2 ^ 152 }, by decide +kernel⟩

/-- The hypotheses of NeighbourMessagesChangeTheirPort about downNotice are met. -/
theorem witness_NeighbourMessagesChangeTheirPort_downNotice : ∃ h : Mach, ∃ p : Nat, ∃ q : Nat, ∃ g : LinkMsg,
    ∃ y : Partner, (let x := h.portAt p; (p < 24) ∧ (q < h.lnk.dev.length) ∧ (x.state = 4 ∨ x.state = 5) ∧
    (LinkMsg.bad { g with ty := 4 } = false) ∧ ((h.portAt q).partner = some y) ∧ ((h.portAt q).state ≠ 1) ∧
    (y.station = g.sender) ∧ (bitOf (fld g.body 160 24) y.port = true)) :=
  ⟨(wst.onPorts fun x => { x with state := 5, partner := some { station := 7, port := 3, serial := 0, dims := [], licences := 0, protect := 0 } }).hw,
      4, 5, { sender := 7, body := 4 * 2 ^ 184 + 8 * 2 ^ 160 },
      { station := 7, port := 3, serial := 0, dims := [], licences := 0, protect := 0 }, by decide +kernel⟩

/-- The hypotheses of TraverseLegsMoveTheirStreams about legStart are met. -/
theorem witness_TraverseLegsMoveTheirStreams_legStart : ∃ h : Mach, ∃ ring : Nat, ∃ seq : Nat, ∃ it : Item,
    ∃ t : Trav, (let k := itemKey ring seq; (let l := t.leg t.started; (ring < 32768) ∧ (seq < 2 ^ 48) ∧
    (h.item? k = some it) ∧ (it.key = k) ∧ (it.started = true) ∧ (sget h.trv.live k = some t) ∧
    (t.started < t.legs.length) ∧ (l.wait = 0 ∨ (sget t.runs (l.wait - 1)).map (·.done) = some true) ∧
    ((svals t.runs).countP (fun r => !r.done) < 64) ∧
    (((l.op = 4 || (l.op = 1 && l.convert)) && t.anchorOf l = 0x8000) = false) ∧
    (h.trv.held.any (fun x => x.port = l.port && x.tag = l.stream) = false))) :=
  ⟨(wtrav [wleg 1 0] []).hw, 0, 7, wtravItem, wtravLive [wleg 1 0] [], by decide +kernel⟩

/-- The hypotheses of TraverseLegsMoveTheirStreams about send are met. -/
theorem witness_TraverseLegsMoveTheirStreams_send : ∃ h : Mach, ∃ ring : Nat, ∃ seq : Nat, ∃ i : Nat, ∃ fl : Nat,
    ∃ it : Item, ∃ t : Trav, ∃ l : Leg, ∃ r : LegRun, ∃ b : Bytes, (h.legRuns ring seq i 1 it t l r = true) ∧
    (if r.frames = 0 then (h.sendStream it l r.anchor).2 = .ok (b, fl) else b = r.buf) ∧ (r.put + 256 < b.length) ∧
    (h.maySend l = true) :=
  ⟨(wtrav [wleg 1 600, wleg 1 0] [(0, {})]).hw, 0, 7, 0, 0, wtravItem, wtravLive [wleg 1 600, wleg 1 0] [(0, {})],
      Leg.ofNat (wleg 1 600), {}, leB 600 0, by decide +kernel⟩

/-- The hypotheses of TraverseLegsMoveTheirStreams about emaxSend are met. -/
theorem witness_TraverseLegsMoveTheirStreams_emaxSend : ∃ h : Mach, ∃ ring : Nat, ∃ seq : Nat, ∃ i : Nat, ∃ it : Item,
    ∃ t : Trav, ∃ l : Leg, ∃ r : LegRun, ∃ b : Bytes, (h.legRuns ring seq i 5 it t l r = true) ∧ (r.frames = 0 ∧
    r.put = 0) ∧ ((h.legRead it l.outPort l.addr (l.count * fmtBytes l.fmt)).2 = .ok b) ∧ (h.maySend l = true) ∧
    (t.goesOn i r = true) :=
  ⟨(wtrav [wleg 5 2, wleg 1 0] [(0, {})]).hw, 0, 7, 0, wtravItem, wtravLive [wleg 5 2, wleg 1 0] [(0, {})],
      Leg.ofNat (wleg 5 2), {}, leB 8 0, by decide +kernel⟩

/-- The hypotheses of TraverseLegsMoveTheirStreams about atomicSend are met. -/
theorem witness_TraverseLegsMoveTheirStreams_atomicSend : ∃ h : Mach, ∃ ring : Nat, ∃ seq : Nat, ∃ i : Nat,
    ∃ it : Item, ∃ t : Trav, ∃ l : Leg, ∃ r : LegRun, ∃ b : Bytes, (h.legRuns ring seq i 9 it t l r = true) ∧
    (if r.frames = 0 then (h.legRead it l.outPort l.addr (272 * l.count)).2 = .ok b else b = r.buf) ∧
    (r.put + 256 < b.length) ∧ (h.maySend l = true) :=
  ⟨(wtrav [wleg 9 2, wleg 1 0] [(0, {})]).hw, 0, 7, 0, wtravItem, wtravLive [wleg 9 2, wleg 1 0] [(0, {})],
      Leg.ofNat (wleg 9 2), {}, leB 544 0, by decide +kernel⟩

/-- The hypotheses of TraverseLegsMoveTheirStreams about recv are met. -/
theorem witness_TraverseLegsMoveTheirStreams_recv : ∃ h : Mach, ∃ ring : Nat, ∃ seq : Nat, ∃ i : Nat, ∃ f : Bytes,
    ∃ it : Item, ∃ t : Trav, ∃ l : Leg, ∃ r : LegRun,
    (let q := ({ ({ r with got := r.got + 256, frames := r.frames + 1 }.advanced h.clk.us) with full := false, put := r.got + 256 } : LegRun);
    (let w := ((h.legTook l 256).setRun (itemKey ring seq) i q).legWrite it l.port (l.dst + r.got) f;
    (h.legHears ring seq i 2 it t l r = true) ∧ (f.length = 256) ∧ (r.got + 256 < l.total) ∧ (w.2 = none))) :=
  ⟨(wtrav [wleg 2 600, wleg 1 0] [(0, {})]).hw, 0, 7, 0, leB 256 9, wtravItem, wtravLive [wleg 2 600, wleg 1 0] [(0,
      {})], Leg.ofNat (wleg 2 600), {}, by decide +kernel⟩

/-- The hypotheses of TraverseLegsMoveTheirStreams about forward are met. -/
theorem witness_TraverseLegsMoveTheirStreams_forward : ∃ h : Mach, ∃ ring : Nat, ∃ seq : Nat, ∃ i : Nat, ∃ f : Bytes,
    ∃ it : Item, ∃ t : Trav, ∃ l : Leg, ∃ r : LegRun, (let g := h.legTook l 256;
    (let q := ({ ({ r with got := r.got + 256, frames := r.frames + 1 }.advanced h.clk.us) with full := false, put := r.got + 256 } : LegRun);
    (let w := ((g.sendFrame l.outPort l.outVc l.streamOut f).setRun (itemKey ring seq) i q).legWrite it l.port (l.dst + r.got) f;
    (h.legHears ring seq i 3 it t l r = true) ∧ (f.length = 256) ∧ (r.got + 256 < l.total) ∧
    (l.copy = false ∨ w.2 = none) ∧ (h.maySend l = true) ∧ (g.maySend l = true)))) :=
  ⟨(wtrav [wleg 3 600 + 3 * 2 ^ 227, wleg 1 0] [(0, {})]).hw, 0, 7, 0, leB 256 9, wtravItem,
      wtravLive [wleg 3 600 + 3 * 2 ^ 227, wleg 1 0] [(0, {})], Leg.ofNat (wleg 3 600 + 3 * 2 ^ 227), {},
      by decide +kernel⟩

/-- The hypotheses of TraverseLegsMoveTheirStreams about reduceRecv are met. -/
theorem witness_TraverseLegsMoveTheirStreams_reduceRecv : ∃ h : Mach, ∃ ring : Nat, ∃ seq : Nat, ∃ i : Nat,
    ∃ f : Bytes, ∃ c : Bytes, ∃ it : Item, ∃ t : Trav, ∃ l : Leg, ∃ r : LegRun, (let g := h.legTook l 256;
    (let d := ((addPacked l.count (r.buf ++ f) c).take (r.got + 256)).drop r.put;
    (h.legHears ring seq i 4 it t l r = true) ∧ (f.length = 256) ∧ (r.got + 256 < l.total) ∧
    (r.frames ≠ 0 ∨ (num f 0 2 = r.anchor ∧ num f 8 4 = l.count)) ∧
    (if r.frames = 0 then (g.localStream it l r.anchor).2 = .ok c else c = r.rsp) ∧
    (l.mode ≠ 0 ∨ (h.maySend l = true ∧ g.maySend l = true)))) :=
  ⟨(wtrav [wleg 4 20 + 3 * 2 ^ 227, wleg 1 0] [(0, {})]).hw, 0, 7, 0, leB 8 0 ++ leB 248 20,
      packedHeader 0 0 0 20 ++ packedValues (List.replicate 20 0), wtravItem, wtravLive [wleg 4 20 + 3 * 2 ^ 227,
      wleg 1 0] [(0, {})], Leg.ofNat (wleg 4 20 + 3 * 2 ^ 227), {}, by decide +kernel⟩

/-- The hypotheses of TraverseLegsMoveTheirStreams about emaxRecv are met. -/
theorem witness_TraverseLegsMoveTheirStreams_emaxRecv : ∃ h : Mach, ∃ ring : Nat, ∃ seq : Nat, ∃ i : Nat, ∃ x : Nat,
    ∃ f : Bytes, ∃ b : Bytes, ∃ it : Item, ∃ t : Trav, ∃ l : Leg, ∃ r : LegRun, (let g := h.legTook l 2;
    (let e := expMax (num f 0 2) x; (h.legHears ring seq i 6 it t l r = true) ∧
    (if l.convert then (g.legRead it l.port l.addr (l.count * fmtBytes l.fmt)).2 = .ok b ∧
    x = maxExp (elements l.fmt l.count b) else x = 0x8000) ∧ (f.length = 2) ∧ (r.got = 0) ∧
    (l.mode = 1 ∨ (h.maySend l = true ∧ g.maySend l = true)) ∧ (l.ancSrc ≤ t.slots.length) ∧
    (t.goesOn i r = true))) :=
  ⟨(wtrav [wleg 6 0 + 3 * 2 ^ 227, wleg 1 0] [(0, {})]).hw, 0, 7, 0, 0x8000, leB 2 5, [], wtravItem,
      wtravLive [wleg 6 0 + 3 * 2 ^ 227, wleg 1 0] [(0, {})], Leg.ofNat (wleg 6 0 + 3 * 2 ^ 227), {},
      by decide +kernel⟩

/-- The hypotheses of TraverseLegsMoveTheirStreams about atomicRecv are met. -/
theorem witness_TraverseLegsMoveTheirStreams_atomicRecv : ∃ h : Mach, ∃ ring : Nat, ∃ seq : Nat, ∃ i : Nat,
    ∃ f : Bytes, ∃ it : Item, ∃ t : Trav, ∃ l : Leg, ∃ r : LegRun, (h.legHears ring seq i 10 it t l r = true) ∧
    (h.portIs l.port 5 = true) ∧ ((h.portAt l.port).room = true) ∧ (f.length = 256) ∧ (r.got + 256 < l.total) ∧
    (r.buf = [] ∧ r.rsp = [] ∧ r.recs < l.count) :=
  ⟨(wtrav [wleg 10 1, wleg 1 0] [(0, {})]).hw, 0, 7, 0, leB 256 9, wtravItem, wtravLive [wleg 10 1, wleg 1 0] [(0,
      {})], Leg.ofNat (wleg 10 1), {}, by decide +kernel⟩

/-- The hypotheses of TraverseLegsMoveTheirStreams about grant are met. -/
theorem witness_TraverseLegsMoveTheirStreams_grant : ∃ h : Mach, ∃ ring : Nat, ∃ seq : Nat, ∃ i : Nat, ∃ it : Item,
    ∃ t : Trav, ∃ l : Leg, ∃ r : LegRun, (h.legRuns ring seq i 7 it t l r = true) ∧ (h.portIs l.port 5 = true) ∧
    (h.portMay l.port 1 = true) ∧ (t.goesOn i r = true) :=
  ⟨(wtrav [wleg 7 5, wleg 1 0] [(0, {})]).hw, 0, 7, 0, wtravItem, wtravLive [wleg 7 5, wleg 1 0] [(0, {})],
      Leg.ofNat (wleg 7 5), {}, by decide +kernel⟩

/-- The hypotheses of TraverseLegsMoveTheirStreams about waitCredit are met. -/
theorem witness_TraverseLegsMoveTheirStreams_waitCredit : ∃ h : Mach, ∃ ring : Nat, ∃ seq : Nat, ∃ i : Nat,
    ∃ it : Item, ∃ t : Trav, ∃ l : Leg, ∃ r : LegRun, (h.legRuns ring seq i 8 it t l r = true) ∧
    (sgetD 0 t.credits (l.outPort * 32768 + l.streamOut) ≥ l.count) ∧ (t.goesOn i r = true) :=
  ⟨(wtrav [wleg 8 0, wleg 1 0] [(0, {})]).hw, 0, 7, 0, wtravItem, wtravLive [wleg 8 0, wleg 1 0] [(0, {})],
      Leg.ofNat (wleg 8 0), {}, by decide +kernel⟩

/-- The hypotheses of TraversesHoldNoticeAndEnd about traverse are met. -/
theorem witness_TraversesHoldNoticeAndEnd_traverse : ∃ h : Mach, ∃ ring : Nat, ∃ d : Nat, ∃ x : Ring,
    (let k := itemKey ring x.taken; (let legs := (h.readLegs (ringFloor ring) x.ctx d).filterMap id;
    (let l := Leg.ofNat (nth 0 legs 0); (h.givesDesc ring x d = true) ∧ (descKind d = kindTraverse) ∧
    (h.die.rlc = []) ∧ (l.ancSrc = 0) ∧ (h.trv.fails = []) ∧ (h.trv.held = [])))) :=
  ⟨wtravRing.hw, 0, wtravDesc, { wringR 0 0 with produce := 9, taken := 8 }, by decide +kernel⟩

/-- The hypotheses of TraversesHoldNoticeAndEnd about creditNotice are met. -/
theorem witness_TraversesHoldNoticeAndEnd_creditNotice : ∃ h : Mach, ∃ p : Nat, ∃ i : Nat, ∃ k : Nat, ∃ g : LinkMsg,
    ∃ t : Trav, (let tag := fld g.body 168 15; (let b := g.body % 2 ^ 184 + 2 ^ 184; (h.portIs p 5 = true) ∧
    (LinkMsg.bad { g with ty := 5, body := b } = false) ∧ (h.claimOf p true tag = some (k, i)) ∧
    (sget h.trv.live k = some t) ∧ (t.runs = []) ∧ (h.trv.live.length = 1))) :=
  ⟨(wtrav [wleg 1 600] []).hw, 4, 0, 7, { body := 5 * 2 ^ 168 + 9 * 2 ^ 136 }, wtravLive [wleg 1 600] [],
      by decide +kernel⟩

/-- The hypotheses of TraversesHoldNoticeAndEnd about holdNotice are met. -/
theorem witness_TraversesHoldNoticeAndEnd_holdNotice : ∃ h : Mach, ∃ p : Nat, ∃ g : LinkMsg,
    (let b := g.body % 2 ^ 184 + 2 * 2 ^ 184; (h.portIs p 5 = true) ∧
    (LinkMsg.bad { g with ty := 5, body := b } = false)) :=
  ⟨(wtrav [wleg 1 600] []).hw, 4, { body := 5 * 2 ^ 168 }, by decide +kernel⟩

/-- The hypotheses of TraversesHoldNoticeAndEnd about failNotice are met. -/
theorem witness_TraversesHoldNoticeAndEnd_failNotice : ∃ h : Mach, ∃ p : Nat, ∃ i : Nat, ∃ k : Nat, ∃ g : LinkMsg,
    ∃ t : Trav, ∃ it : Item, (let b := g.body % 2 ^ 184 + 3 * 2 ^ 184; (h.portIs p 5 = true) ∧
    (LinkMsg.bad { g with ty := 5, body := b } = false) ∧ (h.claimOf p false (fld g.body 168 15) = some (k, i)) ∧
    (sget h.trv.live k = some t) ∧ (h.item? k = some it)) :=
  ⟨(wtrav [wleg 2 600] []).hw, 4, 0, 7, { body := 5 * 2 ^ 168 }, wtravLive [wleg 2 600] [], wtravItem,
      by decide +kernel⟩

/-- The hypotheses of TraversesHoldNoticeAndEnd about failRemembered are met. -/
theorem witness_TraversesHoldNoticeAndEnd_failRemembered : ∃ h : Mach, ∃ p : Nat, ∃ g : LinkMsg,
    (let b := g.body % 2 ^ 184 + 3 * 2 ^ 184; (let tag := fld g.body 168 15; (h.portIs p 5 = true) ∧
    (LinkMsg.bad { g with ty := 5, body := b } = false) ∧ (h.claimOf p false tag = none) ∧
    (h.claimOf p true tag = none))) :=
  ⟨(wtrav [] []).hw, 4, { body := 5 * 2 ^ 168 }, by decide +kernel⟩

/-- The hypotheses of TraversesHoldNoticeAndEnd about failNoticeForget are met. -/
theorem witness_TraversesHoldNoticeAndEnd_failNoticeForget : ∃ h : Mach, ∃ p : Nat, ∃ tag : Nat, ∃ us : Nat,
    (p < 24) ∧ (tag < 32768) ∧ (us ≥ 1000 * h.cfg kTravHoldLimit) :=
  ⟨((wtrav [] []).onTrv fun t => { t with fails := [⟨4, 5, 0, 0, 0, 0⟩] }).hw, 4, 5, 2 ^ 50, by decide +kernel⟩

/-- The hypotheses of TraversesHoldNoticeAndEnd about holdNoticeSend are met. -/
theorem witness_TraversesHoldNoticeAndEnd_holdNoticeSend : ∃ h : Mach, ∃ ring : Nat, ∃ seq : Nat, ∃ us : Nat,
    ∃ t : Trav, ∃ i : Nat, ∃ r : LegRun, (let k := itemKey ring seq; (ring < 32768) ∧ (seq < 2 ^ 48) ∧ (us ≥ 10000) ∧
    (sget h.trv.live k = some t) ∧ (sget t.runs i = some r) ∧ (r.done = false) ∧ (h.throttled = true) ∧
    (t.claims.all (fun c => h.portIs c.port 5 && h.portMay c.port t.claims.length) = true)) :=
  ⟨((wtrav [wleg 2 600] [(0, {})]).onSites fun x => { x with level := 2 }).hw, 0, 7, 10000,
      wtravLive [wleg 2 600] [(0, {})], 0, {}, by decide +kernel⟩

/-- The hypotheses of TraversesHoldNoticeAndEnd about legPatienceExpire are met. -/
theorem witness_TraversesHoldNoticeAndEnd_legPatienceExpire : ∃ h : Mach, ∃ ring : Nat, ∃ seq : Nat, ∃ i : Nat,
    ∃ us : Nat, ∃ t : Trav, ∃ r : LegRun, ∃ it : Item, (let k := itemKey ring seq; (ring < 32768) ∧ (seq < 2 ^ 48) ∧
    (h.item? k = some it) ∧ (sget h.trv.live k = some t) ∧ (sget t.runs i = some r) ∧ (r.done = false) ∧
    (us ≥ 1000 * h.cfgItem it kTravPatience) ∧ (us ≥ 1000 * h.cfgItem it kTravPatienceMax)) :=
  ⟨(wtrav [wleg 2 600] [(0, {})]).hw, 0, 7, 0, 2 ^ 50, wtravLive [wleg 2 600] [(0, {})], {}, wtravItem,
      by decide +kernel⟩

/-- The hypotheses of TraversesHoldNoticeAndEnd about unclaimedHoldExpire are met. -/
theorem witness_TraversesHoldNoticeAndEnd_unclaimedHoldExpire : ∃ h : Mach, ∃ p : Nat, ∃ tag : Nat, ∃ us : Nat,
    (p < 24) ∧ (tag < 32768) ∧ (us ≥ 1000 * h.cfg kTravHoldLimit) ∧ (h.claimOf p false tag = none) :=
  ⟨((wtrav [] []).onTrv fun t => { t with held := [⟨4, 0, 5, [[1]], 0⟩] }).hw, 4, 5, 2 ^ 50, by decide +kernel⟩

/-- The hypotheses of BridgeFlitsLanesAndSideband about bridgeFlitReceive are met. -/
theorem witness_BridgeFlitsLanesAndSideband_bridgeFlitReceive : ∃ h : Mach, ∃ f : Nat, ∃ head : Nat, ∃ body : Bytes,
    (let y : Die := { h.die with rxSeq := setAt h.die.rxSeq f ((fld head 116 12 + 1) % 4096), rxDiscard := setAt h.die.rxDiscard f false };
    (f < 2) ∧ (head < 2 ^ 128) ∧ (h.bridgeOpen = true) ∧ (flitCrc head (body.take 256) (num body 264 8) = true) ∧
    (headBad head = false) ∧ (fld head 116 12 = nth 0 h.die.rxSeq f)) :=
  ⟨wst.hw, 1, 5 * 2 ^ 104, List.replicate 264 0 ++ leB 8 (crc64 (leB 16 (5 * 2 ^ 104) ++ List.replicate 256 0)),
      by decide +kernel⟩

/-- The hypotheses of BridgeFlitsLanesAndSideband about bridgeNakReceive are met. -/
theorem witness_BridgeFlitsLanesAndSideband_bridgeNakReceive : ∃ h : Mach, ∃ f : Nat, ∃ ack : Nat,
    (let n := if nth 0 h.die.nakSeq f = ack ∧ nth 0 h.die.naks f > 0 then nth 0 h.die.naks f + 1 else 1;
    (let left := acked (nth [] h.die.replay f) ack; (f < 2) ∧ (ack < 4096) ∧ (h.bridgeOpen = true) ∧
    (f < h.die.replay.length) ∧ (nth [] h.die.waitTx f = []) ∧ (n < 8))) :=
  ⟨(wst.onDie fun d => { d with replay := [[⟨3, 1, [7, 5], []⟩, ⟨4, 2, [8, 5], []⟩], []] }).hw, 0, 3, by decide +kernel⟩

/-- The hypotheses of BridgeFlitsLanesAndSideband about bridgeRetrain are met. -/
theorem witness_BridgeFlitsLanesAndSideband_bridgeRetrain : ∃ h : Mach, (h.die.retraining = true) ∧
    (h.die.bridgeDown = false) ∧ (∀ d : Nat, d < 2 → nth 0 h.die.width d = h.laneWidth d ∧ h.laneWidth d ≠ 0 ∧
    nth [] h.die.waitTx d = []) ∧ (∀ d : Nat, d < 2 → ∀ l : Nat, l < 64 →
    shas h.die.badLanes (128 * d + sgetD l h.die.laneMap (128 * d + l)) = false) :=
  ⟨(wst.onDie fun d => { d with retraining := true, replay := [[⟨3, 1, [7, 5], []⟩, ⟨4, 2, [8, 5], []⟩], [⟨9, 2, [8, 5], []⟩]] }).hw,
      by decide +kernel⟩

/-- The hypotheses of BridgeFlitsLanesAndSideband about bridgeLaneSpare are met. -/
theorem witness_BridgeFlitsLanesAndSideband_bridgeLaneSpare : ∃ h : Mach, ∃ d : Nat, ∃ lane : Nat, ∃ n : Nat,
    ∃ us : Nat, ∃ l : Nat, (let old := sgetD lane h.die.laneMap (128 * d + lane); (d < 2) ∧ (lane < 64) ∧
    (us ≤ 1000) ∧ (n ≥ h.cfg kBridgeLaneErrLimit) ∧ (h.bridgeOpen = true) ∧ (h.spareLane d = some l)) :=
  ⟨wst.hw, 1, 5, 1000, 1000, 64, by decide +kernel⟩

/-- The hypotheses of BridgeFlitsLanesAndSideband about sidebandStateMessage are met. -/
theorem witness_BridgeFlitsLanesAndSideband_sidebandStateMessage : ∃ h : Mach, ∃ f : Nat, (f < 2) ∧
    (h.die.lost = none) ∧ (h.floorGone 0 = false ∧ h.floorGone 1 = false) ∧ (nth false h.clk.loss (1 - f) = false) :=
  ⟨wst.hw, 1, by decide +kernel⟩

/-- The hypotheses of BridgeFlitsLanesAndSideband about sidebandSilent are met. -/
theorem witness_BridgeFlitsLanesAndSideband_sidebandSilent : ∃ h : Mach, ∃ us : Nat, (us ≥ 5) ∧ (h.die.lost = none) :=
  ⟨wst.hw, 5, by decide +kernel⟩

/-- The hypotheses of BridgeFlitsLanesAndSideband about f0ReturnTimeout are met. -/
theorem witness_BridgeFlitsLanesAndSideband_f0ReturnTimeout : ∃ h : Mach, ∃ ms : Nat, (h.die.lost = some 0) ∧
    (ms ≥ h.cfg kF0ReturnTimeout) :=
  ⟨(wst.onDie fun d => { d with lost := some 0 }).hw, 10 ^ 9, by decide +kernel⟩

/-- The hypotheses of ClocksLockAndSleepStatesAreEntered about pllLock are met. -/
theorem witness_ClocksLockAndSleepStatesAreEntered_pllLock : ∃ h : Mach, ∃ f : Nat, ∃ n : Nat, (f < 2) ∧ (n ≥ 8) ∧
    (bitOf (nth 0 h.clk.locked f) 18 = false) ∧ (h.clk.state ≠ 2) :=
  ⟨wst.hw, 1, 8, by decide +kernel⟩

/-- The hypotheses of ClocksLockAndSleepStatesAreEntered about pllUnlock are met. -/
theorem witness_ClocksLockAndSleepStatesAreEntered_pllUnlock : ∃ h : Mach, ∃ f : Nat, ∃ b : Nat, ∃ n : Nat, (f < 2) ∧
    (n ≥ 2) ∧ (3 ≤ b) ∧ (b ≤ 5) ∧ (bitOf (nth 0 h.clk.locked f) b = true) ∧ (h.clk.state ≠ 2) :=
  ⟨(wst.onClk fun c => { c with locked := [2 ^ 22 - 1, 2 ^ 22 - 1] }).hw, 1, 5, 2, by decide +kernel⟩

/-- The hypotheses of ClocksLockAndSleepStatesAreEntered about mpllRelockTimeout are met. -/
theorem witness_ClocksLockAndSleepStatesAreEntered_mpllRelockTimeout : ∃ h : Mach, ∃ st : Nat, ∃ us : Nat, (st < 6) ∧
    (us ≥ 10000) ∧ (h.clk.relock.contains st = true) :=
  ⟨(wst.onClk fun c => { c with relock := [4] }).hw, 4, 10000, by decide +kernel⟩

/-- The hypotheses of ClocksLockAndSleepStatesAreEntered about domainSwitch are met. -/
theorem witness_ClocksLockAndSleepStatesAreEntered_domainSwitch : ∃ h : Mach, ∃ f : Nat, ∃ mhz : Nat,
    (let other := 1 - nth 0 h.clk.cpll f; (f < 2) ∧ (nth none h.clk.coreTo f = some mhz) ∧
    (bitOf (nth 0 h.clk.locked f) (1 + other) = true) ∧ (h.clk.pwr < 2) ∧ (nth false h.clk.loss f = false) ∧
    (f < h.clk.coreTo.length ∧ f < h.clk.coreMhz.length ∧ f < h.clk.cpll.length)) :=
  ⟨(wst.onClk fun c => { c with locked := [2 ^ 22 - 1, 2 ^ 22 - 1], coreTo := [none, some 2800] }).hw, 1, 2800,
      by decide +kernel⟩

/-- The hypotheses of ClocksLockAndSleepStatesAreEntered about referenceLoss are met. -/
theorem witness_ClocksLockAndSleepStatesAreEntered_referenceLoss : ∃ h : Mach, (h.pwr.off = false) ∧
    (h.clk.state = 0) ∧ (5 ≤ h.cad.step) :=
  ⟨(wring 0 0 0).hw, by decide +kernel⟩

/-- The hypotheses of ClocksLockAndSleepStatesAreEntered about referenceReturn are met. -/
theorem witness_ClocksLockAndSleepStatesAreEntered_referenceReturn : ∃ h : Mach, (h.clk.state = 2) ∧ (5 ≤ h.cad.step) :=
  ⟨(wst.onClk fun c => { c with state := 2 }).hw, by decide +kernel⟩

/-- The hypotheses of ClocksLockAndSleepStatesAreEntered about settleDelayExpire are met. -/
theorem witness_ClocksLockAndSleepStatesAreEntered_settleDelayExpire : ∃ h : Mach, ∃ us : Nat, (h.clk.state = 1) ∧
    (us ≥ h.settleUs) ∧ (h.pwr.off = false) ∧ (5 ≤ h.cad.step) ∧ (h.calm = true) :=
  ⟨(wst.onClk fun c => { c with state := 1, loss := [true, true] }).hw, 64000, by decide +kernel⟩

/-- The hypotheses of ClocksLockAndSleepStatesAreEntered about powerIdleTimeout are met. -/
theorem witness_ClocksLockAndSleepStatesAreEntered_powerIdleTimeout : ∃ h : Mach, ∃ us : Nat,
    (let st := h.idleState us; (us ≥ 1) ∧ (st > h.clk.pwr) ∧ (h.idle = true)) :=
  ⟨wst.hw, 2 ^ 40, by decide +kernel⟩

/-- The hypotheses of ClocksLockAndSleepStatesAreEntered about pwrWakeTimer are met. -/
theorem witness_ClocksLockAndSleepStatesAreEntered_pwrWakeTimer : ∃ h : Mach, ∃ ms : Nat, (h.cfg kPwrWakeTimer ≠ 0) ∧
    (ms ≥ h.cfg kPwrWakeTimer) ∧ (h.clk.pwr ≠ 0) ∧ (h.pwr.off = false) :=
  ⟨((wst.onClk fun c => { c with pwr := 2 }).onFb fun f => { f with cur := { f.cur with ovr := sput f.cur.ovr kPwrWakeTimer (leB 4 5) } }).hw,
      5, by decide +kernel⟩

/-- The hypotheses of PowerPinsAndSiteSupplies about pfwNFall are met. -/
theorem witness_PowerPinsAndSiteSupplies_pfwNFall : ∃ h : Mach, ∃ ns : Nat, (ns ≥ 1000) ∧ (h.pwr.closure = none) ∧
    (h.pwr.off = false) ∧ (h.pwr.reset = none) ∧ (h.cad.step = 21) ∧ (h.cad.halted = false) :=
  ⟨(wring 0 0 0).hw, 1000, by decide +kernel⟩

/-- The hypotheses of PowerPinsAndSiteSupplies about porstNFall are met. -/
theorem witness_PowerPinsAndSiteSupplies_porstNFall : ∃ h : Mach, (h.pwr.closure = none) ∧ (h.pwr.off = false) ∧
    (h.pwr.reset = none) ∧ (h.cad.step = 21) ∧ (h.cad.halted = false) :=
  ⟨(wring 0 0 0).hw, by decide +kernel⟩

/-- The hypotheses of PowerPinsAndSiteSupplies about wrstNFall are met. -/
theorem witness_PowerPinsAndSiteSupplies_wrstNFall : ∃ h : Mach, (h.pwr.closure = none) ∧ (h.pwr.off = false) ∧
    (h.pwr.reset = none) ∧ (h.pwr.porstLow = false) ∧ (h.cad.step = 21) ∧ (h.cad.halted = false) :=
  ⟨(wring 0 0 0).hw, by decide +kernel⟩

/-- The hypotheses of PowerPinsAndSiteSupplies about pvinLowStop are met. -/
theorem witness_PowerPinsAndSiteSupplies_pvinLowStop : ∃ h : Mach, ∃ mv : Nat, (mv < 2100) ∧ (h.pwr.off = false) :=
  ⟨(wring 0 0 0).hw, 2099, by decide +kernel⟩

/-- The hypotheses of PowerPinsAndSiteSupplies about v1p8AonLoss are met. -/
theorem witness_PowerPinsAndSiteSupplies_v1p8AonLoss : ∃ h : Mach, ∃ mv : Nat, (mv < 1620) :=
  ⟨(wring 0 0 0).hw, 1619, by decide +kernel⟩

/-- The hypotheses of PowerPinsAndSiteSupplies about v1p8AonRise are met. -/
theorem witness_PowerPinsAndSiteSupplies_v1p8AonRise : ∃ h : Mach, (h.sec.aonUp = false) :=
  ⟨(wst.onSec fun z => { z with aonUp := false }).hw, by decide +kernel⟩

/-- The hypotheses of PowerPinsAndSiteSupplies about sitePowerOver are met. -/
theorem witness_PowerPinsAndSiteSupplies_sitePowerOver : ∃ h : Mach, ∃ t : Nat, ∃ w : Nat, (let x := h.siteAt t;
    (t < 4) ∧ (t < h.site.dev.length) ∧ (w > h.cfg (kSitePowerLimit + 256 * t)) ∧ (x.held = false) ∧
    (x.railsOn = true)) :=
  ⟨(wst.onSites fun x => { x with railsOn := true, vcore := 800 }).hw, 2, 10000, by decide +kernel⟩

/-- The hypotheses of PowerPinsAndSiteSupplies about siteCeilingRelease are met. -/
theorem witness_PowerPinsAndSiteSupplies_siteCeilingRelease : ∃ h : Mach, ∃ t : Nat, ∃ w : Nat, ∃ ms : Nat,
    (let x := h.siteAt t; (t < 4) ∧ (t < h.site.dev.length) ∧ (ms ≥ 10) ∧
    (100 * w < 95 * h.cfg (kSitePowerLimit + 256 * t)) ∧ (h.zoneHolds t = false) ∧ (x.held = true)) :=
  ⟨(wst.onSites fun x => { x with railsOn := true, vcore := 800, ceiling := 800, powerCap := true, held := true }).hw,
      2, 100, 10, by decide +kernel⟩

/-- The hypotheses of PowerPinsAndSiteSupplies about vcoreCurrentLimit are met. -/
theorem witness_PowerPinsAndSiteSupplies_vcoreCurrentLimit : ∃ h : Mach, ∃ t : Nat, ∃ ma : Nat, ∃ ns : Nat,
    (let k := kSiteIlimEvents + 256 * t; (t < 4) ∧ (ma > 550000) ∧ (ns ≥ 1000)) :=
  ⟨wst.hw, 3, 550001, 1000, by decide +kernel⟩

/-- The hypotheses of PowerPinsAndSiteSupplies about droopEvent are met. -/
theorem witness_PowerPinsAndSiteSupplies_droopEvent : ∃ h : Mach, ∃ t : Nat, ∃ mv : Nat, (let x := h.siteAt t;
    (let k := kSiteDroopEvents + 256 * t; (t < 4) ∧ (t < h.pwr.droopAt.length) ∧ (mv > 30) ∧ (x.lnLow = false) ∧
    (nth none h.pwr.droopAt t = none))) :=
  ⟨wst.hw, 3, 31, by decide +kernel⟩

/-- The hypotheses of ReadingsSetLevelsAndMargins about zoneSample are met. -/
theorem witness_ReadingsSetLevelsAndMargins_zoneSample : ∃ h : Mach, ∃ t : Nat, ∃ reads : List Int, ∃ r : Int,
    (let f := t / 2; (let g := (h.heatAt f).sample (256 + t % 2 * 4) (reads.take 4) [] []; (let x := h.siteAt t;
    (let l := nextLevel (h.thresholds false) x.level r; (t < 4) ∧ (t < h.site.dev.length) ∧
    ((h.heatAt f).stopped = false) ∧ (nth false h.clk.loss f = false) ∧ (h.floorLost f = false ∧
    h.floorGone f = false) ∧ (g.largest (256 + t % 2 * 4) 4 = some r) ∧ (l < 4))))) :=
  ⟨wst.hw, 3, [800, 801, 802, 803], 803, by decide +kernel⟩

/-- The hypotheses of ReadingsSetLevelsAndMargins about floorZoneSample are met. -/
theorem witness_ReadingsSetLevelsAndMargins_floorZoneSample : ∃ h : Mach, ∃ f : Nat, ∃ reads : List Int, ∃ r : Int,
    (let y := h.heatAt f; (let g := y.sample 0 (reads.take 256) [] [];
    (let l := nextLevel (h.thresholds false) y.level r; (f < 2) ∧ (f < h.pwr.heat.length) ∧ (y.stopped = false) ∧
    (nth false h.clk.loss f = false) ∧ (h.floorLost f = false ∧ h.floorGone f = false) ∧ (g.largest 0 256 = some r) ∧
    (l < 4)))) :=
  ⟨wst.hw, 1, List.replicate 256 800, 800, by decide +kernel⟩

/-- The hypotheses of ReadingsSetLevelsAndMargins about stackTempReport are met. -/
theorem witness_ReadingsSetLevelsAndMargins_stackTempReport : ∃ h : Mach, ∃ st : Nat, ∃ seq : Nat, ∃ crc : Nat,
    ∃ words : List Nat, ∃ t : Int, (let x := h.stackAt st; (let l := nextLevel (h.thresholds true) x.level t;
    (st < 6) ∧ (seq < 2 ^ 16) ∧ (words.all (· < 2 ^ 16) = true) ∧ (st < h.stk.dev.length) ∧
    (reportGood seq words crc = true) ∧ (hottest words = some t) ∧ (x.shut = false) ∧ (l < 4))) :=
  ⟨wst.hw, 5, 9, reportCrc 9 wwords, wwords, 810, by decide +kernel⟩

/-- The hypotheses of ReadingsSetLevelsAndMargins about stackReportMissed are met. -/
theorem witness_ReadingsSetLevelsAndMargins_stackReportMissed : ∃ h : Mach, ∃ st : Nat, (let x := h.stackAt st;
    (st < 6) ∧ (st < h.stk.dev.length) ∧ (nth false h.clk.loss (st / 3) = false)) :=
  ⟨(wst.onStk fun k => { k with dev := k.dev.map fun x => { x with missed := 2 } }).hw, 5, by decide +kernel⟩

/-- The hypotheses of ReadingsSetLevelsAndMargins about stackReportTimeout are met. -/
theorem witness_ReadingsSetLevelsAndMargins_stackReportTimeout : ∃ h : Mach, ∃ st : Nat, ∃ us : Nat, (st < 6) ∧
    (st < h.stk.dev.length) ∧ (us ≥ 100000) ∧ ((h.stackAt st).silent = false) ∧
    (nth false h.clk.loss (st / 3) = false) :=
  ⟨wst.hw, 5, 100000, by decide +kernel⟩

/-- The hypotheses of ReadingsSetLevelsAndMargins about benchmarkRecal are met. -/
theorem witness_ReadingsSetLevelsAndMargins_benchmarkRecal : ∃ h : Mach, ∃ f : Nat, ∃ bench : Int,
    ∃ near : List (Nat × Int), (let y := h.heatAt f;
    (let mean := if near = [] then 0 else (near.map fun x => x.2 + (nth {} y.sensors x.1).off - bench).foldl (· + ·) 0 / (near.length : Int);
    (f < 2) ∧ (f < h.pwr.heat.length) ∧ (y.failed = false) ∧ (-640 ≤ bench ∧ bench ≤ 2400) ∧ (-80 ≤ mean - y.drift ∧
    mean - y.drift ≤ 80))) :=
  ⟨wst.hw, 1, 800, [(1, 805), (2, 811)], by decide +kernel⟩

/-- The hypotheses of ReadingsSetLevelsAndMargins about floorThermalReturn are met. -/
theorem witness_ReadingsSetLevelsAndMargins_floorThermalReturn : ∃ h : Mach, ∃ f : Nat, ∃ bench : Int,
    (let y := h.heatAt f; (f < 2) ∧ (y.stopped = true) ∧ (bench < (nth (0, 0) (h.thresholds false) 3).1 - 128)) :=
  ⟨(wst.onPwr fun p => { p with heat := p.heat.map fun h => { h with stopped := true, level := 4 } }).hw, 1, 300,
      by decide +kernel⟩

/-- The hypotheses of ReadingsSetLevelsAndMargins about monitorSample are met. -/
theorem witness_ReadingsSetLevelsAndMargins_monitorSample : ∃ h : Mach, ∃ f : Nat, ∃ i : Nat, ∃ reads : List Int,
    ∃ bad : List Nat, (f < 2) ∧ (i < 64) ∧ (reads.length = 64) ∧ ((h.heatAt f).level < 2 ∧
    (h.heatAt f).stopped = false) ∧ (h.floorLost f = false ∧ h.floorGone f = false) :=
  ⟨wst.hw, 1, 63, List.replicate 64 130, [3], by decide +kernel⟩

/-- The hypotheses of ReadingsSetLevelsAndMargins about eyeMeasure are met. -/
theorem witness_ReadingsSetLevelsAndMargins_eyeMeasure : ∃ h : Mach, ∃ kind : Nat, ∃ n : Nat, ∃ lane : Nat, ∃ w : Nat,
    ∃ ht : Nat, (let k := runKey ⟨kind, n⟩ lane; (w ≥ h.eyeFloor kind)) :=
  ⟨wst.hw, 8, 4, 2, 10000, 50, by decide +kernel⟩

/-- The hypotheses of ReadingsSetLevelsAndMargins about levelRunBegins are met. -/
theorem witness_ReadingsSetLevelsAndMargins_levelRunBegins : ∃ h : Mach, ∃ kind : Nat, ∃ n : Nat, ∃ lane : Nat,
    ∃ phase : Nat, ∃ ref : Nat, ∃ req : Nat, (let k := runKey ⟨kind, n⟩ lane; (h.isCanary ⟨kind, n⟩ lane = true) ∧
    (h.age.runs.contains k = false) ∧ (h.clk.pwr = 0) ∧ (h.clk.loss.contains true = false) ∧ (h.pwr.closure = none) ∧
    (h.pwr.off = false)) :=
  ⟨wst.hw, 8, 4, 8, 1, 2, 3, by decide +kernel⟩

/-- The hypotheses of ReadingsSetLevelsAndMargins about levelRunEnds are met. -/
theorem witness_ReadingsSetLevelsAndMargins_levelRunEnds : ∃ h : Mach, ∃ kind : Nat, ∃ n : Nat, ∃ lane : Nat,
    ∃ phase : Nat, ∃ ref : Nat, ∃ req : Nat, (let k := runKey ⟨kind, n⟩ lane; (h.isCanary ⟨kind, n⟩ lane = true) ∧
    (h.age.runs.contains k = true)) :=
  ⟨(wst.onAge fun a => { a with runs := [runKey ⟨8, 4⟩ 8] }).hw, 8, 4, 8, 1, 2, 3, by decide +kernel⟩

/-- The hypotheses of ReadingsSetLevelsAndMargins about marginReplan are met. -/
theorem witness_ReadingsSetLevelsAndMargins_marginReplan : ∃ h : Mach, ∃ secs : Nat, ∃ f : Nat, ∃ d : Nat,
    (let old := nth 0 h.age.offsets (5 * f + d); (let want := min (h.domainNeed f d) (h.vmax d);
    (secs ≥ h.cfg kMarginReplanPeriod) ∧ (f < 2 ∧ d < 5) ∧ (5 * f + d < h.age.offsets.length) ∧
    (h.floorLost f = false ∧ h.floorGone f = false))) :=
  ⟨(wst.onAge fun a => { a with offsets := [20, 20, 20, 20, 20, 20, 20, 20, 20, 20] }).hw, 10 ^ 9, 1, 4,
      by decide +kernel⟩

/-- The hypotheses of SurveysStartAndStep about surveyStart are met. -/
theorem witness_SurveysStartAndStep_surveyStart : ∃ h : Mach, ∃ hp : Nat, ∃ bs : Nat, ∃ rs : Nat, ∃ ts : Nat,
    ∃ flash : List Nat, (h.sec.aonUp = true) ∧ (h.pwr.wrstLow = false) ∧ (h.pwr.closure = none) ∧
    (h.pwr.reset = none) ∧ (h.cad.step = 0) ∧ (h.clk.state ≠ 2) :=
  ⟨(State.reset.onSec fun z => { z with aonUp := true }).hw, 2, 3, 1, 0, [], by decide +kernel⟩

/-- The hypotheses of SurveysStartAndStep about resetClosureEnd are met. -/
theorem witness_SurveysStartAndStep_resetClosureEnd : ∃ h : Mach, ∃ us : Nat, ∃ flash : List Nat,
    (h.pwr.closure.map (·.by_) = some 3) ∧ (h.pwr.porstLow = true) :=
  ⟨(wst.onPwr fun p => { p with closure := some ⟨3, 0⟩, porstLow := true }).hw, 10, [], by decide +kernel⟩

/-- The hypotheses of SurveysStartAndStep about surveyStepEnd are met. -/
theorem witness_SurveysStartAndStep_surveyStepEnd : ∃ h : Mach, ∃ g : Found, ∃ total : Nat, (h.cad.step = 1) ∧
    (h.cad.halted = false) ∧ (h.pwr.closure = none) ∧ (h.pwr.off = false) ∧ (h.pwr.reset = none) ∧ (h.clk.state = 0) ∧
    (h.pwr.pfwLow = false) ∧ (g.us ≥ h.settleUs) :=
  ⟨(wst.onCad fun c => { c with step := 1 }).hw, { us := 64000 }, 64000, by decide +kernel⟩

/-- The hypotheses of SurveysStartAndStep about surveyReady are met. -/
theorem witness_SurveysStartAndStep_surveyReady : ∃ h : Mach, ∃ g : Found, ∃ total : Nat, (h.cad.step = 20) ∧
    (h.cad.halted = false) ∧ (h.pwr.closure = none) ∧ (h.pwr.off = false) ∧ (h.pwr.reset = none) ∧ (h.clk.state = 0) ∧
    (h.cad.repairing = false) :=
  ⟨(wst.onCad fun c => { c with step := 20 }).hw, { us := 64000 }, 64000, by decide +kernel⟩

/-- The hypotheses of SurveysStartAndStep about fwSourceTimeout are met. -/
theorem witness_SurveysStartAndStep_fwSourceTimeout : ∃ h : Mach, ∃ ms : Nat, ∃ src : Nat, (h.cad.source = some src) ∧
    (h.cad.step = 4) ∧ (h.cad.halted = false) ∧ (src ≠ 0) ∧ (src < 4) ∧ (ms ≥ h.cfg kFwSourceTimeout) :=
  ⟨(wst.onCad fun c => { c with step := 4, source := some 2 }).hw, 10 ^ 9, 2, by decide +kernel⟩

/-- The hypotheses of SurveysStartAndStep about fwSourceRetry are met. -/
theorem witness_SurveysStartAndStep_fwSourceRetry : ∃ h : Mach, ∃ ms : Nat, (h.cad.source = none) ∧ (h.cad.step = 4) ∧
    (h.cad.halted = false) ∧ (ms ≥ 10000) :=
  ⟨(wst.onCad fun c => { c with step := 4, tried := 15 }).hw, 10000, by decide +kernel⟩

/-- The hypotheses of SurveysStartAndStep about fwReady are met. -/
theorem witness_SurveysStartAndStep_fwReady : ∃ s : State, ∃ n : Nat, ∃ image : Bytes, ∃ f : Verif, ∃ bad : List Nat,
    (n < 2) ∧ ((s.hw.hpAt n).role = 1) ∧ (s.hw.cad.step = 4) ∧ (s.hw.cad.halted = false) ∧
    (s.hw.cad.source = some 2) ∧ (imageGood s.fuses image f = true) :=
  ⟨(wst.onCad fun c => { c with step := 4, source := some 2 }).onHps fun x => { x with role := 1 }, 0,
      List.replicate 1024 0, { chain := true, sig := true, meas := [1, 5, 6] }, [], by decide +kernel⟩

/-- The hypotheses of SurveysStartAndStep about flashRepairDone are met. -/
theorem witness_SurveysStartAndStep_flashRepairDone : ∃ h : Mach, (h.cad.repairing = true) :=
  ⟨(wst.onCad fun c => { c with repairing := true, running := [1] }).hw, by decide +kernel⟩

/-- The hypotheses of UnitsMoveAndDiesReturn about unitFail are met. -/
theorem witness_UnitsMoveAndDiesReturn_unitFail : ∃ h : Mach, ∃ sl : Nat, ∃ i : Nat, (let u := (⟨4, sl⟩ : UnitRef);
    (sl < 128) ∧ (h.cad.moves.any (fun x => x.unit = u) = false ∧ h.cad.queued.any (fun q => q.1 = u) = false) ∧
    (h.cad.cur.physOf u ≠ 0xFF) ∧ (h.spareFor u = some i) ∧ (h.moving u.floor = false)) :=
  ⟨wst.hw, 70, 64, by decide +kernel⟩

/-- The hypotheses of UnitsMoveAndDiesReturn about unitWithdrawn are met. -/
theorem witness_UnitsMoveAndDiesReturn_unitWithdrawn : ∃ h : Mach, ∃ sl : Nat, (let u := (⟨4, sl⟩ : UnitRef);
    (sl < 128) ∧ (h.cad.moves.any (fun x => x.unit = u) = false ∧ h.cad.queued.any (fun q => q.1 = u) = false) ∧
    (h.cad.cur.physOf u ≠ 0xFF) ∧ (h.spareFor u = none) ∧ (h.calm = true)) :=
  ⟨(wst.onFb fun f => { f with cur := { f.cur with ovr := sput f.cur.ovr kCadSparesInService [0] } }).hw, 70,
      by decide +kernel⟩

/-- The hypotheses of UnitsMoveAndDiesReturn about sliceCopyDone are met. -/
theorem witness_UnitsMoveAndDiesReturn_sliceCopyDone : ∃ h : Mach, ∃ sl : Nat, ∃ x : Move, (sl < 128) ∧
    (h.floorLost (sl / 64) = false) ∧ (h.cad.moves = [x]) ∧ (x.unit = ⟨4, sl⟩ ∧ x.stage = 1) ∧ (h.calm = true) ∧
    (h.trv.live = []) :=
  ⟨(wst.onCad fun c => { c with moves := [{ unit := ⟨4, 70⟩, from_ := 6, spare := 64, stage := 1, final := 2 }] }).hw,
      70, { unit := ⟨4, 70⟩, from_ := 6, spare := 64, stage := 1, final := 2 }, by decide +kernel⟩

/-- The hypotheses of UnitsMoveAndDiesReturn about moveRetire are met. -/
theorem witness_UnitsMoveAndDiesReturn_moveRetire : ∃ h : Mach, ∃ kind : Nat, ∃ n : Nat, ∃ x : Move,
    (UnitRef.isCad ⟨kind, n⟩ = true) ∧ (h.cad.moves.find? (fun x => x.unit = ⟨kind, n⟩ && x.stage = 3) = some x) ∧
    (h.fb.old.any (fun o => o.1 = x.until_) = false) :=
  ⟨(wst.onCad fun c => { c with moves := [{ unit := ⟨4, 70⟩, from_ := 6, spare := 64, stage := 3, final := 2 }] }).hw,
      4, 70, { unit := ⟨4, 70⟩, from_ := 6, spare := 64, stage := 3, final := 2 }, by decide +kernel⟩

/-- The hypotheses of UnitsMoveAndDiesReturn about moveStartQueued are met. -/
theorem witness_UnitsMoveAndDiesReturn_moveStartQueued : ∃ h : Mach, ∃ f : Nat, ∃ st : Nat, ∃ i : Nat, ∃ u : UnitRef,
    (f < 2) ∧ (h.cad.queued = [(u, st)]) ∧ (u.kind = 4 ∧ u.floor = f) ∧ (h.moving f = false) ∧
    (h.cad.cur.physOf u ≠ 0xFF) ∧ (h.physState 4 u.parent (h.cad.cur.physOf u) ≠ 2) ∧ (h.spareFor u = some i) :=
  ⟨(wst.onCad fun c => { c with queued := [(⟨4, 70⟩, 2)] }).hw, 1, 2, 64, ⟨4, 70⟩, by decide +kernel⟩

/-- The hypotheses of UnitsMoveAndDiesReturn about dieReadmit are met. -/
theorem witness_UnitsMoveAndDiesReturn_dieReadmit : ∃ s : State, ∃ g : Found, (s.hw.die.lost = some 1) ∧
    (nth false s.hw.pwr.floorOn 1 = true) ∧ ((s.hw.heatAt 1).stopped = false) ∧ (s.hw.pwr.closure = none) ∧
    (g.ok = true) ∧ (bitOf (nth 0 g.nums 0) 0 = true) ∧ (s.hw.clk.state = 0) ∧ (s.fuses.pair0 = s.fuses.pair1) ∧
    (((s.hw.lockOutcome s.fuses 1 (nth 0 g.nums 0)).trainBridge (s.hw.badLanesOf g.units g.eyes)).die.width.contains 0 = false) :=
  ⟨wst.onDie fun d => { d with lost := some 1, state := 1 }, { nums := [2 ^ 22 - 1] }, by decide +kernel⟩

/-- The hypotheses of UnitsMoveAndDiesReturn about readmitCommit are met. -/
theorem witness_UnitsMoveAndDiesReturn_readmitCommit : ∃ h : Mach, ∃ f : Nat, (h.die.lost = some f) ∧
    (h.die.state = 3) ∧ (h.fb.old = none) ∧ ([2 * f,
    2 * f + 1].any (fun t => 2 ≤ (h.siteAt t).state && (h.siteAt t).state ≤ 4) = false) :=
  ⟨(wst.onDie fun d => { d with lost := some 1, state := 3, bridgeFenced := true }).hw, 1, by decide +kernel⟩

/-- The hypotheses of UnitsMoveAndDiesReturn about surveyorLockstepFault are met. -/
theorem witness_UnitsMoveAndDiesReturn_surveyorLockstepFault : ∃ h : Mach, ∃ f : Nat, (f < 2) ∧ (h.die.lost = none) ∧
    (h.floorGone 0 = false ∧ h.floorGone 1 = false) ∧ (nth false h.clk.loss (1 - f) = false) :=
  ⟨wst.hw, 1, by decide +kernel⟩

/-- The hypotheses of UnitsMoveAndDiesReturn about ledgerFlush are met. -/
theorem witness_UnitsMoveAndDiesReturn_ledgerFlush : ∃ h : Mach, (h.flt.degraded = false) ∧
    (h.flt.hist.all (fun x => x.flushed) = false) :=
  ⟨(wst.onFlt fun f => { f with hist := [{ lseq := 1, survey := 0, time := 0, unit := {}, phys := 0, fclass := 2, cause := 1, outcome := 0, status := 0, items := 0, ctx := 0, sev := 1, data := 0, flushed := false }] }).hw,
      by decide +kernel⟩

/-- The hypotheses of UnitsMoveAndDiesReturn about warmStart are met. -/
theorem witness_UnitsMoveAndDiesReturn_warmStart : ∃ h : Mach, ∃ hp : Nat, ∃ bs : Nat, ∃ rs : Nat, ∃ ts : Nat,
    ∃ flash : List Nat, (h.sec.aonUp = true) ∧ (h.pwr.porstLow = false) ∧ (h.pwr.closure = none) ∧
    (h.pwr.reset = some 4) :=
  ⟨(wst.onPwr fun p => { p with wrstLow := true, reset := some 4 }).hw, 0, 0, 0, 0, [], by decide +kernel⟩

/-- The hypotheses of UnitsMoveAndDiesReturn about resurveyHolds are met. -/
theorem witness_UnitsMoveAndDiesReturn_resurveyHolds : ∃ h : Mach, ∃ us : Nat, ∃ flash : List Nat,
    (h.pwr.closure.map (·.by_) = some 4) ∧ (h.pwr.wrstLow = true) :=
  ⟨(wst.onPwr fun p => { p with closure := some ⟨4, 0⟩, wrstLow := true }).hw, 10, [], by decide +kernel⟩

/-- The hypotheses of UnitsMoveAndDiesReturn about warmStep are met. -/
theorem witness_UnitsMoveAndDiesReturn_warmStep : ∃ h : Mach, ∃ g : Found, ∃ total : Nat, (h.cad.step = 11) ∧
    (h.cad.warm = true) ∧ (h.cad.halted = false) ∧ (h.pwr.closure = none) ∧ (h.pwr.off = false) ∧
    (h.pwr.reset = none) ∧ (h.clk.state = 0) :=
  ⟨(wst.onCad fun c => { c with step := 11, warm := true }).hw, {}, 64000, by decide +kernel⟩

/-- The hypotheses of UnitsMoveAndDiesReturn about sourcePassed are met. -/
theorem witness_UnitsMoveAndDiesReturn_sourcePassed : ∃ h : Mach, ∃ ms : Nat, (h.cad.source = some 2) ∧
    (h.cad.step = 4) ∧ (h.cad.halted = false) ∧ (ms ≥ h.cfg kFwSourceTimeout) :=
  ⟨(wst.onCad fun c => { c with step := 4, source := some 2 }).hw, 10 ^ 9, by decide +kernel⟩

/-- The hypotheses of UnitsMoveAndDiesReturn about flashTriedAgain are met. -/
theorem witness_UnitsMoveAndDiesReturn_flashTriedAgain : ∃ h : Mach, ∃ ms : Nat, (h.cad.source = none) ∧
    (h.cad.step = 4) ∧ (h.cad.halted = false) ∧ (h.cad.firstSource = none) ∧ (h.cad.bootsrc = 0) ∧ (ms ≥ 10000) :=
  ⟨(wst.onCad fun c => { c with step := 4, tried := 15, bootsrc := 0 }).hw, 10000, by decide +kernel⟩

/-- The hypotheses of UnitsMoveAndDiesReturn about imageStaged are met. -/
theorem witness_UnitsMoveAndDiesReturn_imageStaged : ∃ h : Mach, ∃ n : Nat, ∃ v : Nat, ∃ image : Bytes, ∃ f : Verif,
    ∃ bad : List Nat, (n < 2) ∧ ((h.hpAt n).role = 1) ∧ (h.cad.step ≠ 4) :=
  ⟨(wst.onHps fun x => { x with role := 1 }).hw, 0, 1, [1, 2], {}, [], by decide +kernel⟩

/-- The hypotheses of UnitsMoveAndDiesReturn about repairEnds are met. -/
theorem witness_UnitsMoveAndDiesReturn_repairEnds : ∃ h : Mach, (h.cad.repairing = true) :=
  ⟨(wst.onCad fun c => { c with repairing := true, running := [1] }).hw, by decide +kernel⟩

/-- The hypotheses of SecurityControllerRows about getMeasurements are met. -/
theorem witness_SecurityControllerRows_getMeasurements : ∃ h : Mach, ∃ n : Nat, ∃ idx : Nat, ∃ nonce : Bytes,
    (h.hpSpdm n = true) ∧ (1 ≤ idx) ∧ (idx ≤ 14) :=
  ⟨(wst.onHps fun x => { x with role := 1, link := 2 }).hw, 0, 3, [], by decide +kernel⟩

/-- The hypotheses of SecurityControllerRows about getMeasurementsReport are met. -/
theorem witness_SecurityControllerRows_getMeasurementsReport : ∃ s : State, ∃ n : Nat, ∃ nonce : Bytes,
    (s.hw.hpSpdm n = true) :=
  ⟨wst.onHps fun x => { x with role := 1, link := 2 }, 0, [], by decide +kernel⟩

/-- The hypotheses of SecurityControllerRows about keyRequestExpire are met. -/
theorem witness_SecurityControllerRows_keyRequestExpire : ∃ h : Mach, ∃ id : Nat, ∃ ms : Nat, ∃ r : KeyReq,
    (h.sec.reqs.find? (fun r => r.id = id) = some r) ∧ (ms ≥ h.cfg kKeyRequestTtl) :=
  ⟨(wst.onSec fun z => { z with reqs := [{ id := 4, ctx := 5, kind := 2, lease := 0, draw := 1, time := 0 }] }).hw, 4,
      10 ^ 9, { id := 4, ctx := 5, kind := 2, lease := 0, draw := 1, time := 0 }, by decide +kernel⟩

/-- The hypotheses of SecurityControllerRows about consoleInput are met. -/
theorem witness_SecurityControllerRows_consoleInput : ∃ h : Mach, ∃ c : Nat, ∃ code : Nat, (c < 2) :=
  ⟨wst.hw, 1, 65, by decide +kernel⟩

/-- The hypothesis of StepRunsTheFrontCommand is met. -/
theorem witness_StepRunsTheFrontCommand : ∃ (s : State) (c : Instr) (rest : List Instr), s.pending = c :: rest :=
  ⟨wst.setPending [.counterLatch, .v1p8AonRise], .counterLatch, [.v1p8AonRise], rfl⟩

/-- The hypothesis of AnEmptyQueueLetsTimePass is met. -/
theorem witness_AnEmptyQueueLetsTimePass : ∃ s : State, s.pending = [] := ⟨wst, rfl⟩

/-- The hypothesis of WellFormedCommandsComplete is met, and a command of a unit that does not exist stops. -/
theorem witness_WellFormedCommandsComplete : ∃ (i : Instr) (_ : State), i.wellFormed = true :=
  ⟨.gridWrite 1 47 3 5 256 [1, 2] false .clean false, wst, by decide⟩

/-- The hypothesis of EveryStepKeepsTheInvariant is met, with commands waiting and a fuse burned. -/
theorem witness_EveryStepKeepsTheInvariant : ∃ s : State, s.inv ∧ s.pending ≠ [] ∧ s.fuses.svn ≠ 0 :=
  ⟨{ fuses := { svn := 3 }, hw := (wst.onSec fun z => { z with burn := 3 }).hw
     pending := [.counterLatch, .gridWrite 1 47 3 5 256 [1, 2] false .clean false] }, ⟨by decide, by decide, by decide⟩,
    by decide, by decide⟩

/-- The hypotheses of FieldBookRecordsDecodeBack are met, by a value that needs padding and by one that needs none. -/
theorem witness_FieldBookRecordsDecodeBack : ∃ (ops : List OpRec) (n : Nat), ops.length ≤ n ∧ 2 ≤ ops.length ∧
    (∀ r ∈ ops, r.index < 2 ^ 16 ∧ r.sub < 256 ∧ r.target < 256 ∧ r.ty < 256 ∧ r.status < 256 ∧
        r.value.length < 2 ^ 16) :=
  ⟨[wrecLive, { index := 65535, sub := 255, target := 255, ty := 255, status := 255, value := [1, 2, 3, 4, 5] }], 2,
    by decide +kernel⟩

/-- The hypotheses of SegmentMapEntriesDecodeBack are met at the top of every field. -/
theorem witness_SegmentMapEntriesDecodeBack : ∃ e : SegEnt, e.ctx < 2 ^ 12 ∧ e.vaBase < 2 ^ 19 ∧ e.size < 16 ∧
    e.policy < 8 ∧
    e.medium < 2 ∧ e.home < 2 ∧ e.stack < 4 ∧ e.unit < 64 ∧ e.unitOff < 2 ^ 24 :=
  ⟨{ ctx := 4095, vaBase := 2 ^ 19 - 1, size := 15, policy := 7, medium := 1, home := 1, stack := 3, unit := 63, rd := true
     wr := true, at' := true, noAlloc := true, unitOff := 2 ^ 24 - 1 }, by decide +kernel⟩

/-- The hypothesis of FieldBookStatusesAreOfTheirClasses is met: a licence-less write is refused. -/
theorem witness_FieldBookStatusesAreOfTheirClasses : ∃ (m : Mach) (rq : Rq) (e : EntryRow) (r : OpRec) (st : Status),
    m.writeRefused rq e r = some st :=
  ⟨wcmd.hw, .session 2, entryRows[0]'(by decide +kernel), { wrecLive with ty := 0xFF }, _, rfl⟩

/-- The hypotheses of CommitOfAnEmptyDraftClosesIt are met, of any commit and of the command. -/
theorem witness_CommitOfAnEmptyDraftClosesIt_any : ∃ (m : Mach) (rq : Rq) (d : Draft), m.fb.draft = some d ∧
    d.owner = draftOwner rq ∧ d.held = false ∧ d.ents = [] :=
  ⟨(wcmd.onFb fun f => { f with draft := some { owner := .core 3 } }).hw, .core 3, { owner := .core 3 },
      by decide +kernel⟩

theorem witness_CommitOfAnEmptyDraftClosesIt_command : ∃ (h : Mach) (rq : Rq) (v : Bytes) (d : Draft),
    h.takes (.commit rq 9 v {}) = true ∧ h.fb.draft = some d ∧ d.owner = draftOwner rq ∧ d.held = false ∧ d.ents = [] :=
  ⟨(wcmd.onFb fun f => { f with draft := some { owner := .session 2 } }).hw, .session 2, leB 4 1,
      { owner := .session 2 },
    by decide +kernel⟩

/-- The hypotheses of EpochNumbersCountUpAndSkipZero are met at both ends of the count, and by a surveyor's commit. -/
theorem witness_EpochNumbersCountUpAndSkipZero : (∃ m : Mach, m.fb.epoch < 0xFFFFFFFF) ∧ (∃ m : Mach,
    m.fb.epoch = 0xFFFFFFFF) ∧
    (∃ m : Mach, m.fb.old = none) :=
  ⟨⟨(wst.onFb fun f => { f with epoch := 0xFFFFFFFE }).hw, by decide⟩,
      ⟨(wst.onFb fun f => { f with epoch := 0xFFFFFFFF }).hw, rfl⟩,
    ⟨wst.hw, rfl⟩⟩

/-- The hypotheses of SplitGranulesAlternateFloors are met by a granule of each floor. -/
theorem witness_SplitGranulesAlternateFloors : ∃ (e : SegEnt) (va wa : Nat), e.policy = 3 ∧ e.va ≤ va ∧
    (va - e.va) / 4096 % 2 = 0 ∧
    e.va ≤ wa ∧ (wa - e.va) / 4096 % 2 = 1 :=
  ⟨wseg 5 0 3, 8191 + 1, 4096, by decide⟩

/-- The hypotheses of AnIdleMasterKeepsItsGuarantee are met. -/
theorem witness_AnIdleMasterKeepsItsGuarantee : ∃ (demand j : Nat), j < 9 ∧ bitOf demand j = false := ⟨2, 0, by decide⟩

/-- The hypotheses of DoorbellsBelowAndAboveAreClamped are met, clause by clause. -/
theorem witness_DoorbellsBelowAndAboveAreClamped_produce : ∃ (s : State) (kind num word : Nat) (x : Ring),
    s.hw.clk.pwr = 0 ∧
    s.hw.ring? (fld (word % 2 ^ 63) 48 15) = some x ∧ x.subKind = kind ∧ x.submitter = num ∧
    fld (word % 2 ^ 63) 0 48 < x.produce := ⟨wring 0 0 (2 ^ 120), 2, 0, 0, wringR 0 0, by decide +kernel⟩

theorem witness_DoorbellsBelowAndAboveAreClamped_consume : ∃ (s : State) (kind num word : Nat) (x : Ring),
    s.hw.clk.pwr = 0 ∧
    s.hw.ring? (fld (word % 2 ^ 63) 48 15) = some x ∧ x.subKind = kind ∧ x.submitter = num ∧
    fld (word % 2 ^ 63) 0 48 < x.consumed :=
  ⟨wst.onRng fun r => { r with rings := [(0, { wringR 0 0 with taken := 1, consumed := 1 })] }, 2, 0, 0,
    { wringR 0 0 with taken := 1, consumed := 1 }, by decide +kernel⟩

theorem witness_DoorbellsBelowAndAboveAreClamped_above : ∃ (s : State) (kind num word : Nat) (x : Ring) (c : Ctx),
    s.hw.clk.pwr = 0 ∧ s.hw.ring? (fld (word % 2 ^ 63) 48 15) = some x ∧ x.subKind = kind ∧ x.submitter = num ∧
    x.closed = false ∧ s.hw.ctx? x.ctx = some c ∧ c.st = .live ∧ x.taken < fld (word % 2 ^ 63) 0 48 ∧
        x.consumed < x.taken :=
  ⟨wst.onRng fun r => { r with rings := [(0, { wringR 0 0 with taken := 1 })] }, 2, 0, 9,
    { wringR 0 0 with taken := 1 }, {}, by decide +kernel⟩

/-- The hypotheses of SecVersionAdvanceBurnsItsFuses are met where it burns, at 64, and where it refuses, on both grounds. -/
theorem witness_SecVersionAdvanceBurnsItsFuses_burns : ∃ (s : State) (rq : Rq) (v : Bytes),
    s.hw.takes (.secVersionAdvance rq 9 v {}) = true ∧ s.fuses.svn < s.hw.sec.version ∧ s.hw.sec.version ≤ 64 :=
  ⟨wcmd.onSec fun z => { z with version := 64 }, .session 2, [1], by decide +kernel⟩

theorem witness_SecVersionAdvanceBurnsItsFuses_equal : ∃ (s : State) (rq : Rq) (v : Bytes), s.inv ∧
    s.hw.takes (.secVersionAdvance rq 9 v {}) = true ∧ s.hw.sec.version ≤ s.fuses.svn :=
  ⟨wcmd.onSec fun z => { z with version := 0 }, .session 2, [1], ⟨by decide +kernel, by decide +kernel,
      by decide +kernel⟩, by decide +kernel⟩

theorem witness_SecVersionAdvanceBurnsItsFuses_above : ∃ (s : State) (rq : Rq) (v : Bytes), s.inv ∧
    s.hw.takes (.secVersionAdvance rq 9 v {}) = true ∧ 64 < s.hw.sec.version :=
  ⟨wcmd.onSec fun z => { z with version := 65 }, .session 2, [1], ⟨by decide +kernel, by decide +kernel,
      by decide +kernel⟩, by decide +kernel⟩

/-- The hypotheses of GridCommandsKeepMemoryCanonical are met, with a byte in memory. -/
theorem witness_GridCommandsKeepMemoryCanonical : ∃ s t : State, Memory.wf s.hw.mem.cells = true ∧ s.hw.mem.cells ≠ [] ∧
    exec (.gridWrite 0 40 3 5 256 [1, 2] false .clean false) s = .next t :=
  ⟨wst.onMem fun m => { m with cells := Memory.putRun [] 0 [1] }, _, by decide +kernel, by decide +kernel, rfl⟩

end
end

section
/-! PROOFS. What every command shares (R4): it is one function of the fuses and the module, it leaves the queue and all fuses but
SVN_FUSES, and with it every step keeps the invariant. -/
namespace Sys2Proof.Machine

/-- A command's meaning `e` is one function of the fuses and the module, carried out where its unit exists, and the unit of a
command with `wf` exists. -/
def IsRun (wf : Bool) (e : State → Result) : Prop :=
  ∃ (ok : Bool) (f : Fuses → Mach → Mach), (wf = true → ok = true) ∧ ∀ s, e s = runFzIf ok s f

section IsRun
variable {wf wf' : Bool} {e : State → Result}

theorem IsRun.of_runFzIf {f : Fuses → Mach → Mach} (h : ∀ s, e s = runFzIf wf s f) : IsRun wf e := ⟨wf, f, id, h⟩

theorem IsRun.of_runIf {f : Mach → Mach} (h : ∀ s, e s = runIf wf s f) : IsRun wf e := .of_runFzIf h

theorem IsRun.of_runFz {f : Fuses → Mach → Mach} (h : ∀ s, e s = runFz s f) : IsRun wf e := ⟨true, f, fun _ => rfl, h⟩

theorem IsRun.of_run {f : Mach → Mach} (h : ∀ s, e s = run s f) : IsRun wf e := .of_runFz h

/-- A command with more conditions than its unit's existence. -/
theorem IsRun.mono (hw : wf' = true → wf = true) (h : IsRun wf e) : IsRun wf' e := by
  obtain ⟨ok, f, hok, hf⟩ := h
  exact ⟨ok, f, fun h => hok (hw h), hf⟩

theorem IsRun.and_right (h : IsRun wf e) : IsRun (wf && wf') e := h.mono fun h => (Bool.and_eq_true_iff.mp h).1

end IsRun

/-- The party and place of a well-formed atomic exist (Table 8.8). -/
theorem AtomArgs.ok_of_fits (a : AtomArgs) (h : (a.floor < 2 && a.va < 2 ^ 40 && a.ctx < 4096 && a.fits) = true) :
    AtomArgs.ok a = true := by
  unfold AtomArgs.fits at h
  unfold AtomArgs.ok
  simp only [Bool.and_eq_true] at h ⊢
  obtain ⟨hplace, ⟨⟨⟨⟨hparty, -⟩, -⟩, -⟩, -⟩, -⟩ := h
  exact ⟨hplace, hparty⟩

/-- The units of Table 19.8 are those that have spares. -/
theorem isCad_of_unitExists (kind num : Nat) (h : unitExists kind num = true) : UnitRef.isCad ⟨kind, num⟩ = true := by
  unfold unitExists at h
  split at h
  case h_6 => cases h
  all_goals simpa [UnitRef.isCad, cadKinds, unitsOf, parentsOf] using h

/-- Every command has that shape: most ask that the units they number exist, and their well-formedness says so, alone or before
what it asks of other operands; the rest ask nothing. -/
theorem exec_isRun (i : Instr) : IsRun i.wellFormed (exec i) := by
  unfold exec
  cases i with
  | fbRead | describe | writeDirect | writeDraft | writeStoredLayer | draftOpen | draftDiscard
  | draftIdleTimeout | commit | commitSwitch | commitTimeoutExpired | surveyorCommit | licenceInstall
  | licenceRemove | saveRunning | counterClear | sensorRead | eyeHistoryRead | monitorSlackRead | ringCounters
  | streamCounters | legCounters | myRingCounters | myCoreCounters | readmitCommit | rlcFlush | segmapWrite
  | segmapRecordDrained | segmapDrainTimeout | segmapRead | segmapClearContext | stackRetireList | rekeyQuery
  | ringCreate | ringDelete | ringReopen | ringQuery | ringLastMarks | contextCreate | contextDestroy
  | contextQuery | linkRetrain | vc2Mailbox | vc2Doorbell | vc2WriteData | vc2ReadData | fwBcast | fwBcastAnswer
  | fwBcastTimeout | secVersionAdvance | attestReport | keyRequest | keyInstall | keyRotate | keyErase
  | keyQuery | leaseUnseal | leaseRevoke | leaseList | debugChallenge | debugUnlock | pwrRequest | pwrOff
  | closureComplete | thermRecalNow | surveyStepEnd | fwUpdate | surveyLogRead | cadRead | cadRemapUnit
  | marginReplanNow | marginPlanRead | ledgerRead | ledgerStandingRead | ledgerAck | holdingsRead =>
    exact .of_runFz fun _ => rfl
  | counterLatch | sidebandSilent | f0ReturnTimeout | bridgeRetrain | regWindowStart | sweepSessionExpire
  | doorbellProduce | doorbellConsume | groupTransferReply | fwImageReceived | mbxReplyReady | keyRequestExpire
  | leaseExpiry | jtagInstruction | referenceLoss | referenceReturn | settleDelayExpire | powerIdleTimeout
  | pwrWakeTimer | pfwNFall | pvinLowStop | v1p8AonLoss | porstNFall | wrstNFall | resetClosureEnd | surveyStart
  | fwSourceTimeout | fwSourceRetry | flashRepairDone | eyeMeasure | marginReplan | levelRun | ledgerFlush
  | v1p8AonRise | pfwNRise | railsInRange =>
    exact .of_run fun _ => rfl
  | sessionIdleTimeout | dieReadmit | fbRequest | contextDestroyFinish | linkTraining | linkBerGate
  | bondRetrain | partyFenceDrained | coreMbxGo | coreCacheUe | hpMbxGo | fwReady | getMeasurements | xferBind =>
    exact .of_runFzIf fun _ => rfl
  | sidebandStateMessage | bridgeNakReceive | bridgeLaneSpare | dataMsg | invMsg | invAck | agePromote
  | bufScrub | sliceCeRetire | stackAgePromote | writeDrain | rowNeighbourRefresh | bankRefresh | stackPatrol
  | rowCopyDone | stackTempReport | stackReportMissed | stackReportTimeout | stackCapReached | rekeySweepDone
  | oldKeyErase | channelCopyDone | masterBudgetReached | sweep | sweepMerge | sweepDispatch | sweepCombine
  | engineFault | sweepSessionOpen | sessionOpenDone | sweepSessionClose | descriptorTake | orderedItemStart
  | linkNakReceive | linkNakRetrain | partnerDetectTimeout | linkBerWindow | throttleRepeat | throttleExpire
  | linkRetry | traverse | legStart | send | recv | forward | reduceRecv | emaxSend | emaxRecv | grant
  | waitCredit | atomicSend | atomicRecv | unclaimedHoldExpire | holdNoticeSend | failNoticeForget
  | legPatienceExpire | groupTransferTimeout | siteWork | vsetSettled | siteFlitCorrupt | siteNakReceive
  | protoErrLimit | siteWorkTimeout | sidebandLost | helloTimeout | evidenceTimeout | lnNAssert | lnNRelease
  | lnNOverlong | tileRecheck | siteReadmitAuto | coreDoorbellWrite | coreWork | workPop | coreWorkDone
  | noticePop | cacheClean | cacheInvalidate | cacheCleanInvalidate | cacheOpDone | draw | entropy
  | intPendingClear | coreSegmentAccess | hostWorkTimeout | hpDoorbellWrite | bar2Read | bar2Write
  | xferToModule | xferToHost | xferEnd | spdmRequest | xferUnbind | hpLinkDown | functionLevelReset | hpPerst
  | farDeviceAttach | farDeviceDown | checkpointSave | checkpointLoad | checkpointMoveDone | consoleInput
  | pllLock | pllUnlock | domainSwitch | sitePowerOver | siteCeilingRelease | vcoreCurrentLimit | droopEvent
  | benchmarkRecal | floorThermalReturn | sliceCopyDone | moveStartQueued | surveyorLockstepFault
  | monitorSample | mpllRelockTimeout | hpLinkUp | spdmHeartbeatExpire =>
    exact .of_runIf fun _ => rfl
  | hello | subscribe | unsubscribe | ping | bye | linkFrameReceive | discover | vc2FrameReceive | sbEvidence =>
    exact IsRun.and_right (.of_runFzIf fun _ => rfl)
  | bridgeFlitReceive | throttle | sleepNotice | downNotice | creditNotice | holdNotice | failNotice | siteRead
  | siteWrite | siteDoorbell | workDone | vset | fwStatus | nullFlit | sbHello | sbAccept | sbFenceReq | sbAck =>
    exact IsRun.and_right (.of_runIf fun _ => rfl)
  | tlsConnect | sheetClear | siteFence | siteReadmitNow | hostCoreStart | hostCoreStop | hostCoreFence
  | hpFence | farTest =>
    exact IsRun.and_right (.and_right (.of_runFzIf fun _ => rfl))
  | anchInitFixed | anchInitAuto | anchEmax | anchAdd | anchAddRaw | anchRead | anchReadRaw | anchFetchClear
  | faddFp32 | faddBf16 | faddFp16 | iadd | iand | ior | ixor | smin | smax | umin | umax | swap | cas | lock
  | unlock =>
    exact IsRun.mono (AtomArgs.ok_of_fits _) (.of_runIf fun _ => rfl)
  | fill r pa way ecc =>
    exact IsRun.mono (fun h => by simp_all [Instr.wellFormed]) (.of_runIf fun _ => rfl)
  | gridRead fl port tag ctx va len since way ecc wait =>
    exact IsRun.mono (fun h => by simp_all [Instr.wellFormed, lineAccess]) (.of_runIf fun _ => rfl)
  | gridWrite fl port tag ctx va data rel ecc wait =>
    exact IsRun.mono (fun h => by simp_all [Instr.wellFormed, lineAccess]) (.of_runIf fun _ => rfl)
  | registerWrite kind n off val =>
    exact IsRun.mono (fun h => by simp only [Instr.wellFormed] at h; split at h <;> simp_all) (.of_runIf fun _ => rfl)
  | zoneSample kind zone reads odd dead =>
    exact IsRun.mono (fun h => by simp only [Instr.wellFormed] at h; split at h <;> simp_all) (.of_runIf fun _ => rfl)
  | unitFail kind num cause serves spare =>
    refine IsRun.and_right (IsRun.mono (fun h => ?_) (.of_runFzIf fun _ => rfl))
    rw [Bool.or_eq_true] at h ⊢
    exact h.imp_left (isCad_of_unitExists kind num)
  | moveRetire kind num => exact IsRun.mono (isCad_of_unitExists kind num) (.of_runIf fun _ => rfl)

/-- What `runFz` answers keeps the queue and every fuse but SVN_FUSES, which rises to the burn asked for (R501, R508). -/
theorem runFz_frame {s t : State} {f : Fuses → Mach → Mach} (h : runFz s f = .next t) :
    t.pending = s.pending ∧ { t.fuses with svn := s.fuses.svn } = s.fuses ∧
      t.fuses.svn = max s.fuses.svn (min 64 t.hw.sec.burn) := by
  obtain ⟨hhw, hpending, hfuses⟩ := runFz_next h
  rw [hfuses, hhw]
  exact ⟨hpending, rfl, rfl⟩

/-- A well-formed command answers a next state. -/
theorem exec_completes {i : Instr} (hw : i.wellFormed = true) (s : State) : ∃ t, exec i s = .next t := by
  obtain ⟨ok, f, hok, hf⟩ := exec_isRun i
  exact ⟨_, (hf s).trans (runFzIf_true (hok hw) s f)⟩

/-- The one way a command stops is that its unit does not exist (R4, Table 0.2; log 5). -/
theorem exec_next_or_noSuchUnit (i : Instr) (s : State) :
    (∃ t, exec i s = .next t) ∨ exec i s = .fault .noSuchUnit := by
  obtain ⟨ok, f, -, hf⟩ := exec_isRun i
  cases ok with
  | true => exact .inl ⟨_, (hf s).trans (runFzIf_true rfl s f)⟩
  | false => exact .inr ((hf s).trans (runFzIf_false rfl s f))

/-- What a command leaves unchanged, and what becomes of SVN_FUSES (log 20). -/
theorem exec_frame {i : Instr} {s t : State} (h : exec i s = .next t) :
    t.pending = s.pending ∧ { t.fuses with svn := s.fuses.svn } = s.fuses ∧
      t.fuses.svn = max s.fuses.svn (min 64 t.hw.sec.burn) := by
  obtain ⟨ok, f, -, hf⟩ := exec_isRun i
  exact runFz_frame (runFzIf_next ((hf s).symm.trans h)).2

theorem step_of_pending_nil {s : State} (h : s.pending = []) : step s = runFz s fun z m => m.tick z := by
  simp only [step, h]

theorem step_of_pending_cons {s : State} {c : Instr} {rest : List Instr} (h : s.pending = c :: rest) :
    step s = exec c (s.setPending rest) := by
  simp only [step, h]

/-- A state whose queue can reach the module meets the invariant once SVN_FUSES has risen to the burn asked for. -/
theorem State.inv_of_burned {t : State} {n : Nat} (hsafe : t.safe = true) (hn : n ≤ 64)
    (hsvn : t.fuses.svn = max n (min 64 t.hw.sec.burn)) : t.inv := by
  refine ⟨hsafe, ?_, ?_⟩
  · rw [hsvn]; exact max_le hn (min_le_left _ _)
  · rw [hsvn]; exact le_max_right _ _

/-- A microsecond without a command keeps the invariant. -/
theorem step_inv_of_pending_nil {s : State} (h : s.inv) (hq : s.pending = []) : ∃ t, step s = .next t ∧ t.inv := by
  obtain ⟨hsafe, hsvn, -⟩ := h
  obtain ⟨t, ht⟩ : ∃ t, step s = .next t := ⟨_, step_of_pending_nil hq⟩
  obtain ⟨hpending, -, hburn⟩ := runFz_frame ((step_of_pending_nil hq).symm.trans ht)
  refine ⟨t, ht, State.inv_of_burned ?_ hsvn hburn⟩
  rw [State.safe, hpending]
  exact hsafe

/-- The command at the front of the queue runs to its end and keeps the invariant. -/
theorem step_inv_of_pending_cons {s : State} {c : Instr} {rest : List Instr} (h : s.inv) (hq : s.pending = c :: rest) :
    ∃ t, step s = .next t ∧ t.inv := by
  obtain ⟨hsafe, hsvn, -⟩ := h
  rw [State.safe, hq, List.all_cons, Bool.and_eq_true] at hsafe
  obtain ⟨hc, hrest⟩ := hsafe
  obtain ⟨t, ht⟩ := exec_completes hc (s.setPending rest)
  obtain ⟨hpending, -, hburn⟩ := exec_frame ht
  refine ⟨t, (step_of_pending_cons hq).trans ht, State.inv_of_burned ?_ hsvn hburn⟩
  rw [State.safe, hpending]
  exact hrest

/-- Settles O1: what `step` is with a command at the front of the queue. -/
theorem stepRunsTheFrontCommand : Obligations.StepRunsTheFrontCommand := by
  unfold Obligations.StepRunsTheFrontCommand
  exact fun _ _ _ h => step_of_pending_cons h

/-- Settles O3, from the shape all commands share (`exec_isRun`). -/
theorem wellFormedCommandsComplete : Obligations.WellFormedCommandsComplete := by
  unfold Obligations.WellFormedCommandsComplete
  exact fun i s => ⟨fun hw => exec_completes hw s, exec_next_or_noSuchUnit i s, fun _ h => exec_frame h⟩

/-- Settles O4, by the two kinds of step: a microsecond without a command, and the command at the front. -/
theorem everyStepKeepsTheInvariant : Obligations.EveryStepKeepsTheInvariant := by
  unfold Obligations.EveryStepKeepsTheInvariant
  intro s h
  cases hq : s.pending with
  | nil => exact step_inv_of_pending_nil h hq
  | cons c rest => exact step_inv_of_pending_cons h hq

end Sys2Proof.Machine
end

section
/-! PROOFS. Statuses of replies (R10): what the action of each CMD entry and each refusal of a write may answer. -/
namespace Sys2Proof.Machine

/-! The status of an action with branches is that of the branch taken, so `inReplies` is pushed into the branches,
where it holds of each status by its code. -/

theorem Status.inReplies_of_isReject {st : Status} (h : st.isReject = true) : st.inReplies = true := by
  have hcode : st.code / 16 = 2 := of_decide_eq_true h
  have hdone : st ≠ .doneFlagged := by rintro rfl; cases hcode
  simp [Status.inReplies, Status.isFail, hcode, hdone]

@[simp] theorem Status.inReplies_done : Status.done.inReplies = true := rfl

@[simp] theorem Status.inReplies_reject :
    Status.rejectFormat.inReplies = true ∧ Status.rejectAccess.inReplies = true ∧ Status.rejectRange.inReplies = true ∧
    Status.rejectLicence.inReplies = true ∧ Status.rejectBusy.inReplies = true := ⟨rfl, rfl, rfl, rfl, rfl⟩

@[simp] theorem Status.inReplies_fb :
    Status.fbCoupled.inReplies = true ∧ Status.fbType.inReplies = true ∧ Status.fbValue.inReplies = true ∧
    Status.fbAccessClass.inReplies = true ∧ Status.fbNoDraft.inReplies = true ∧ Status.fbConflict.inReplies = true :=
  ⟨rfl, rfl, rfl, rfl, rfl, rfl⟩

@[simp] theorem Mach.refuse_st (m : Mach) (st : Status) : (m.refuse st).st = st := rfl

@[simp] theorem CmdRes.inReplies_ite (c : Prop) [Decidable c] (a b : CmdRes) :
    (if c then a else b).st.inReplies = if c then a.st.inReplies else b.st.inReplies := by
  split <;> rfl

/-- A check that refuses with a status of replies, before the rest of an action. -/
theorem Mach.inReplies_check {m : Mach} {c : Prop} [Decidable c] {st : Status} {b : CmdRes} (hst : st.inReplies = true)
    (hb : b.st.inReplies = true) : (if c then m.refuse st else b).st.inReplies = true := by
  split
  · exact hst
  · exact hb

/-- What holds of the status of every check holds of the refusal. -/
theorem firstBad_of_all {p : Status → Bool} {l : List (Bool × Status)} {st : Status} (hl : l.all (fun c => p c.2) = true)
    (h : firstBad l = some st) : p st = true := by
  induction l with
  | nil => cases h
  | cons c r ih =>
    rw [List.all_cons, Bool.and_eq_true] at hl
    obtain ⟨hc, hr⟩ := hl
    unfold firstBad at h
    split at h
    · cases h; exact hc
    · exact ih hr h

theorem Mach.writeRefused_inReplies {m : Mach} {rq : Rq} {e : EntryRow} {r : OpRec} {st : Status}
    (h : m.writeRefused rq e r = some st) : st.inReplies = true := by
  unfold Mach.writeRefused at h
  exact firstBad_of_all (p := Status.inReplies) (by simp) h

section
variable (m : Mach) (z : Fuses) (rq : Rq) (v : Bytes) (f : Verif)

/-! Actions that go by a match, or take their status from another operation. Those that are checks before one answer stand in the
lemma of their area. -/

@[simp] theorem Mach.draftDiscard_inReplies : (m.draftDiscard rq).st.inReplies = true := by
  unfold Mach.draftDiscard
  split <;> simp

@[simp] theorem Mach.commit_inReplies : (m.commit rq).st.inReplies = true := by
  unfold Mach.commit
  dsimp only
  split
  · simp
  · split
    · simp
    · refine Mach.inReplies_check rfl ?_
      split
      · simp
      · split <;> simp

@[simp] theorem Mach.segWrite_inReplies : (m.segWrite rq v).st.inReplies = true := by
  unfold Mach.segWrite
  dsimp only
  split <;> simp

@[simp] theorem Mach.ringDelete_inReplies (r : Nat) : (m.ringDelete r).st.inReplies = true := by
  unfold Mach.ringDelete
  split <;> simp

@[simp] theorem Mach.ringReopen_inReplies (r : Nat) : (m.ringReopen r).st.inReplies = true := by
  unfold Mach.ringReopen
  split <;> simp

@[simp] theorem Mach.ringQuery_inReplies (r : Nat) : (m.ringQuery r).st.inReplies = true := by
  unfold Mach.ringQuery
  split <;> simp

@[simp] theorem Mach.ringMarks_inReplies (r : Nat) : (m.ringMarks r).st.inReplies = true := by
  unfold Mach.ringMarks
  split <;> simp

@[simp] theorem Mach.ctxDestroy_inReplies (c : Nat) : (m.ctxDestroy c).st.inReplies = true := by
  unfold Mach.ctxDestroy
  refine Mach.inReplies_check rfl ?_
  split <;> simp

@[simp] theorem Mach.ctxQuery_inReplies (c : Nat) : (m.ctxQuery c).st.inReplies = true := by
  unfold Mach.ctxQuery
  refine Mach.inReplies_check rfl ?_
  split <;> simp

@[simp] theorem Mach.fwBcast_inReplies : (m.fwBcast rq v).st.inReplies = true := by
  unfold Mach.fwBcast
  extract_lets
  iterate 4 refine Mach.inReplies_check rfl ?_
  split
  · rw [Mach.refuse_st]
    split_ifs with h
    · exact Status.inReplies_of_isReject h
    · rfl
  · extract_lets
    split <;> simp

@[simp] theorem Mach.coreStart_inReplies (c ctx rsvd entry : Nat) : (m.coreStart c ctx rsvd entry).1.inReplies = true := by
  unfold Mach.coreStart
  dsimp only
  split_ifs <;> simp

@[simp] theorem Mach.coreStop_inReplies (c : Nat) : (m.coreStop c).1.inReplies = true := by
  unfold Mach.coreStop
  dsimp only
  split_ifs <;> simp

@[simp] theorem Mach.keyInstall_inReplies : (m.keyInstall z v f).st.inReplies = true := by
  unfold Mach.keyInstall
  extract_lets kind c req? part root access
  clear_value req?
  iterate 2 refine Mach.inReplies_check rfl ?_
  split
  · simp
  · split <;> simp

@[simp] theorem Mach.leaseUnseal_inReplies : (m.leaseUnseal z v).st.inReplies = true := by
  unfold Mach.leaseUnseal
  extract_lets c kind lease? access part
  clear_value lease?
  iterate 4 refine Mach.inReplies_check rfl ?_
  split <;> simp

@[simp] theorem Mach.fwUpdate_inReplies : (m.fwUpdate z v f).st.inReplies = true := by
  unfold Mach.fwUpdate
  dsimp only
  split
  · simp
  · split <;> simp

@[simp] theorem Mach.cadRemap_inReplies : (m.cadRemap v).st.inReplies = true := by
  unfold Mach.cadRemap
  extract_lets
  iterate 3 refine Mach.inReplies_check rfl ?_
  split <;> simp

@[simp] theorem Mach.ringCounters_inReplies (cls r : Nat) : (m.ringCounters cls r).st.inReplies = true := by
  unfold Mach.ringCounters
  split <;> simp

@[simp] theorem Mach.legCounters_inReplies (cls : Nat) : (m.legCounters cls v).st.inReplies = true := by
  unfold Mach.legCounters
  dsimp only
  split <;> simp

@[simp] theorem Mach.myRing_inReplies (ctx r : Nat) : (m.myRing ctx r).st.inReplies = true := by
  unfold Mach.myRing
  split <;> simp

variable (k : Nat)

/-- Areas below 0x5000: the entries written out are checks that refuse, before an answer of DONE. -/
theorem Mach.actLow_inReplies : (m.actLow z rq k v f).st.inReplies = true := by
  unfold Mach.actLow
  simp [Mach.licInstall, Mach.licRemove, Mach.draftOpen, Mach.pwrRequest, Mach.pwrOff, Mach.recalNow, Mach.segRead,
    Mach.segClear, Mach.retireList, Mach.rekeyQuery, Mach.ringCreate, Mach.ctxCreate]

/-- Areas 0x5000 to 0x7FFF, likewise; starts and stops of cores answer their own status. -/
theorem Mach.actMid_inReplies : (m.actMid z rq k v f).st.inReplies = true := by
  unfold Mach.actMid
  simp [Mach.linkRetrain, Mach.siteFenceCmd, Mach.readmitCmd, cmdOf, Mach.coreFenceCmd, Mach.hpFenceCmd, Mach.farTest,
    Mach.svnAdvance, Mach.attest, Mach.keyRequest, Mach.debugChallenge, Mach.debugUnlock, Mach.keyRotate, Mach.keyErase,
    Mach.keyQuery, Mach.leaseRevoke, Mach.leaseList]

/-- Areas from 0x8000 on, likewise. -/
theorem Mach.actHigh_inReplies : (m.actHigh z rq k v f).st.inReplies = true := by
  unfold Mach.actHigh
  simp [Mach.logRead, Mach.cadRead, Mach.replanNow, Mach.planRead, Mach.ledgerRead, Mach.standingRead, Mach.ledgerAck,
    Mach.holdingsRead, Mach.counterClear, Mach.sensorRead, Mach.eyeRead, Mach.slackRead, Mach.streamRead, Mach.myCore,
    Mach.saveRunning, Mach.sheetClear]

theorem Mach.act_inReplies : (m.act z rq k v f).st.inReplies = true := by
  unfold Mach.act
  split_ifs
  · exact m.actLow_inReplies z rq v f k
  · exact m.actMid_inReplies z rq v f k
  · exact m.actHigh_inReplies z rq v f k
end

/-- Settles O9, by the actions of each area of the Field Book and by the list of checks of a write. -/
theorem fieldBookStatusesAreOfTheirClasses : Obligations.FieldBookStatusesAreOfTheirClasses := by
  unfold Obligations.FieldBookStatusesAreOfTheirClasses
  exact ⟨fun m z rq k v f => m.act_inReplies z rq v f k, fun _ _ _ _ _ h => Mach.writeRefused_inReplies h⟩

end Sys2Proof.Machine
end

section
/-! PROOFS. Where a statement about a command that runs to its end fails: what it says of the module after the command, read off
the command's meaning. -/
namespace Sys2Proof.Machine

/-- What a command that is a `runFz` completes with holds of its effect: the converse of `completes_runFz`. -/
theorem completes_runFz_effect {i : Instr} {s : State} {f : Fuses → Mach → Mach} {p : Mach → Prop}
    (h : exec i s = runFz s f) (hc : completes i s p) : p (f s.fuses s.hw) := by
  obtain ⟨t, ht, -, -, -, hp⟩ := hc
  obtain ⟨hhw, -, -⟩ := runFz_next (h.symm.trans ht)
  rwa [hhw] at hp

/-- A grid read of a port and a line that exist is its transaction's arrival (R16). -/
theorem exec_gridRead {fl port tag ctx va len since way : Nat} {ecc : Ecc} {wait : Bool} (hfl : fl < 2) (hport : port < 48)
    (hline : lineAccess ctx va len = true) (s : State) :
    exec (.gridRead fl port tag ctx va len since way ecc wait) s =
      runFz s fun _ m => m.arrive (.port fl port tag) ctx va (.read len) ecc since way wait :=
  runFzIf_true (by simp [hfl, hport, hline]) s _

end Sys2Proof.Machine
end

section
/-! PROOFS. Grid accesses: a read of a MIRROR line that comes after a write of its own port (R88, R128). -/
namespace Sys2Proof.Machine

/-- Segment 0 of context 5: 2 MiB of buffer under policy MIRROR, home floor 0. -/
def mirrorSegment : SegEnt :=
  { ctx := 5, vaBase := 0, size := 0, policy := 4, medium := 0, home := 0, stack := 0, unit := 0, rd := true, wr := true
    at' := true, noAlloc := false, unitOff := 0 }

/-- The module after reset with that segment mapped. -/
def mirrorMapped : Mach := State.reset.hw.setGrid { State.reset.hw.grid with seg := [(0, mirrorSegment)] }

/-- There, port 40 of floor 1 has issued a write of address 256, which waits at the line's home, slice 1 of floor 0. -/
def mirrorWriteWaits : Mach := mirrorMapped.arrive (.port 1 40 8) 5 256 (.write [7] false) .clean 33 0 true

/-- `readsNow` lets a read of the same port have the bytes of floor 1's copy: it asks of a transaction with number 0, which no
other that waits comes before. -/
theorem mirrorWriteWaits_readsNow :
    mirrorWriteWaits.readsNow (.port 1 40 9) 5 256 16 0 = some (List.replicate 16 0) := by decide +kernel

/-- The read that arrives has number 1 and waits at slice 1 of floor 1, as the write with number 0 comes before it (R128): nothing
is answered. -/
theorem mirrorWriteWaits_read :
    let m := mirrorWriteWaits.arrive (.port 1 40 9) 5 256 (.read 16) .clean 0 0 false
    m.out = [] ∧ m.grid.wait =
      [(1, [{ org := .port 1 40 8, ctx := 5, va := 256, kind := .write [7] false, seq := 0 }]),
       (65, [{ org := .port 1 40 9, ctx := 5, va := 256, kind := .read 16, win := some 0, seq := 1 }])] := by
  decide +kernel

/-- Refutes O17: a MIRROR read is served from the copy on its own floor, while an earlier write of its port to the line may wait at
the home on the other floor. That write is in the read's way (R128), and `readsNow` does not see it. -/
theorem not_gridAccessOfOwnBufferCompletes : ¬ Obligations.GridAccessOfOwnBufferCompletes := by
  unfold Obligations.GridAccessOfOwnBufferCompletes
  intro h
  obtain ⟨hread, -⟩ := h mirrorWriteWaits
  have hfloor : 1 < 2 := by decide
  have hport : 40 < 48 := by decide
  have hline : lineAccess 5 256 16 = true := by decide
  have hruns := hread 1 40 9 5 256 16 0 0 (List.replicate 16 0) hfloor hport hline mirrorWriteWaits_readsNow
  obtain ⟨hout, -⟩ := completes_runFz_effect (exec_gridRead hfloor hport hline _)
    (hruns (State.reset.setHw mirrorWriteWaits) rfl)
  rw [State.setHw_hw, mirrorWriteWaits_read.1] at hout
  cases hout

end Sys2Proof.Machine
end

section
/-! PROOFS. Commits: the reply to a host port's mailbox (R476), and a commit that closes sessions (R557). -/
namespace Sys2Proof.Machine

/-- A channel with something in it is what it was put to. -/
theorem Mach.chanOf_putChan (m : Mach) (rq : Rq) {c : Chan} (h : c ≠ {}) : (m.putChan rq c).chanOf rq = c := by
  simp only [Mach.chanOf, Mach.putChan, if_neg h, Mach.setFb_fb, sgetD_sput_self]

/-- Once its request has been answered, a host port whose MBX_GO still reads 1 has the reply on its way (R476). -/
theorem Mach.chanOf_replies_hostPort {m : Mach} {c : CmdReq} {n : Nat} {st : Status} {v : Bytes} (hrq : c.rq = .hostPort n)
    (h : ((m.replies c st v).hpAt n).mbxGo = 1) : (m.replies c st v).chanOf c.rq ≠ {} := by
  have hfull (x : Chan) (b : Bytes) : { x with reply := some b } ≠ ({} : Chan) := fun e => nomatch congrArg Chan.reply e
  unfold Mach.replies Mach.sendReply at h ⊢
  simp only [hrq] at h ⊢
  split at h
  case isTrue hgo =>
    rw [if_pos hgo, Mach.chanOf_putChan _ _ (hfull _ _)]
    exact hfull _ _
  case isFalse hgo => exact absurd h hgo

/-- The COMMIT that host port 0 has sent. -/
def mailboxCommit : CmdReq := ⟨.hostPort 0, kCommit, 9, leB 4 1, {}⟩

/-- Its draft, which denies the leaf certificate whose digest is 1. -/
def denyLeafDraft : Draft := { owner := .hostPort 0, ents := [(kMgmtClientDeny, leB 48 1)], held := true }

/-- The module after reset, where that commit waits and a client with that leaf has the session numbered 16. -/
def mailboxCommitWaits : Mach :=
  let m := State.reset.hw
  let m := m.setFb { m.fb with
    epoch := 1, draft := some denyLeafDraft, committing := some mailboxCommit.rq, sessions := [(16, { port := 0 })]
    chans := [(rqCode mailboxCommit.rq, { cur := some (mailboxCommit.waiting .commit) })] }
  (m.setSec { m.sec with clients := [(16, 2, 1)] }).setHpAt 0 { m.hpAt 0 with mbxGo := 1 }

/-- The waiting commit may switch the epoch. -/
theorem mailboxCommitWaits_commitFree : mailboxCommitWaits.commitFree = true ∧ mailboxCommitWaits.clk.pwr = 0 ∧
    mailboxCommitWaits.newSheet denyLeafDraft.ents = none ∧ mailboxCommitWaits.onlyWaits mailboxCommit .commit = true := by
  decide +kernel

/-- The switch closes the session, and with it goes the channel of number 16, which is host port 0's: its request stays open, and no
reply is on its way. -/
theorem mailboxCommitWaits_switch : ((mailboxCommitWaits.commitSwitch State.reset.fuses).hpAt 0).mbxGo = 1 ∧
    (mailboxCommitWaits.commitSwitch State.reset.fuses).chanOf mailboxCommit.rq = {} := by decide +kernel

/-- Refutes O49: a switch that changes the client lists closes every session that they no longer admit (R557), and a session's number
is the number of its channel. The statement takes every module, one with a session of number 16 too, which R73 opens none of; there
the session's channel is host port 0's, whose COMMIT is then never answered. -/
theorem not_draftsCommitsAndLatchesByTime : ¬ Obligations.DraftsCommitsAndLatchesByTime := by
  unfold Obligations.DraftsCommitsAndLatchesByTime
  intro h
  obtain ⟨hswitch, -⟩ := h mailboxCommitWaits
  obtain ⟨hfree, hpwr, hsheet, hwaits⟩ := mailboxCommitWaits_commitFree
  have hruns := hswitch mailboxCommit denyLeafDraft rfl rfl rfl hfree hpwr hsheet hwaits
  obtain ⟨a, v, hreplies, -⟩ := completes_runFz_effect (f := fun z m => m.commitSwitch z) rfl
    (hruns (State.reset.setHw mailboxCommitWaits) rfl)
  obtain ⟨hopen, hchan⟩ := mailboxCommitWaits_switch
  have hswitched : mailboxCommitWaits.commitSwitch State.reset.fuses = a.replies mailboxCommit .done v := hreplies
  rw [hswitched] at hopen hchan
  exact Mach.chanOf_replies_hostPort rfl hopen hchan

end Sys2Proof.Machine
end

section
/-! PROOFS. The values after reset (R34, R613). -/
namespace Sys2Proof.Machine

/-- Settles O6: reset holds no value of any layer, so each entry falls back to its table's default. -/
theorem resetLeavesTheTablesValues : Obligations.ResetLeavesTheTablesValues := by
  unfold Obligations.ResetLeavesTheTablesValues
  have hval (k : Nat) : State.reset.hw.runVal k = dfltVal k := by
    unfold Mach.runVal
    split <;> rfl
  exact ⟨rfl, rfl, rfl, hval, fun _ => rfl, rfl, rfl, rfl, rfl, fun _ => rfl, fun _ _ => rfl, rfl, rfl, rfl, rfl⟩

end Sys2Proof.Machine
end

section
/-! PROOFS. The records of a request and their bytes (R75): numbers, padding, and the list of records that a frame spells. -/
namespace Sys2Proof.Machine

@[simp] theorem leB_length (n v : Nat) : (leB n v).length = n := by
  induction n generalizing v with
  | zero => rfl
  | succ n ih => simp [leB, ih]

@[simp] theorem leN_zeros (n : Nat) : leN (List.replicate n 0) = 0 := by
  induction n with
  | zero => rfl
  | succ n ih => rw [List.replicate_succ, leN, ih]; rfl

/-- Padding to no fewer bytes than there are keeps the bytes and adds zeros. -/
theorem padTo_eq (n : Nat) (xs : Bytes) (h : xs.length ≤ n) : padTo n xs = xs ++ List.replicate (n - xs.length) 0 := by
  rw [padTo, List.take_of_length_le h]

/-- The fields of a record fit Table 2.9. -/
def opFits (r : OpRec) : Prop :=
  r.index < 2 ^ 16 ∧ r.sub < 256 ∧ r.target < 256 ∧ r.ty < 256 ∧ r.status < 256 ∧ r.value.length < 2 ^ 16

/-- The 8 header bytes of a record. -/
def opHead (r : OpRec) : Bytes :=
  leB 2 r.index ++ leB 1 r.sub ++ leB 1 r.target ++ leB 1 r.ty ++ leB 1 r.status ++ leB 2 r.value.length

@[simp] theorem opHead_length (r : OpRec) : (opHead r).length = 8 := by simp [opHead]

/-- A record's bytes are its header, its value and zeros. -/
theorem opBytes_eq (r : OpRec) :
    opBytes r = opHead r ++ (r.value ++ List.replicate (opSize r - 8 - r.value.length) 0) := by
  rw [opBytes, padTo_eq _ _ (by omega)]
  simp [opHead, opSize]

@[simp] theorem opBytes_length (r : OpRec) : (opBytes r).length = opSize r := by
  simp only [opBytes_eq, List.length_append, List.length_replicate, opHead_length, opSize]
  omega

/-- The fields of a header read back. -/
theorem opHead_num {r : OpRec} (h : opFits r) (rest : Bytes) :
    num (opHead r ++ rest) 0 2 = r.index ∧ num (opHead r ++ rest) 2 1 = r.sub ∧ num (opHead r ++ rest) 3 1 = r.target ∧
      num (opHead r ++ rest) 4 1 = r.ty ∧ num (opHead r ++ rest) 5 1 = r.status ∧ num (opHead r ++ rest) 6 2 = r.value.length := by
  obtain ⟨hindex, hsub, htarget, hty, hstatus, hlen⟩ := h
  simp only [num, opHead, leB, leN, List.cons_append, List.nil_append, List.drop_succ_cons, List.drop_zero,
    List.take_succ_cons, List.take_zero, BitVec.toNat_ofNat]
  omega

/-- The first record of a run of bytes reads back, and the rest of the bytes give the rest of the records. -/
theorem opsOf_opBytes_append {r : OpRec} (h : opFits r) (n : Nat) (rest : Bytes) :
    opsOf (n + 1) (opBytes r ++ rest) = (opsOf n rest).map (r :: ·) := by
  have hfull : ¬ (opBytes r ++ rest).length < 8 + (r.value.length + 3) / 4 * 4 := by simp [opSize]
  have hsome : (opBytes r ++ rest).isEmpty = false := by
    rw [List.isEmpty_eq_false_iff, ← List.length_pos_iff]; simp [opSize]
  have hrest : (opBytes r ++ rest).drop (8 + (r.value.length + 3) / 4 * 4) = rest :=
    List.drop_left' (opBytes_length r)
  have hbody : (opBytes r ++ rest).drop 8 = r.value ++ (List.replicate (opSize r - 8 - r.value.length) 0 ++ rest) := by
    rw [opBytes_eq, List.append_assoc, List.drop_left' (opHead_length r), List.append_assoc]
  have hpad : ((opBytes r ++ rest).drop (8 + r.value.length)).take
      (8 + (r.value.length + 3) / 4 * 4 - 8 - r.value.length) = List.replicate (opSize r - 8 - r.value.length) 0 := by
    rw [← List.drop_drop, hbody, List.drop_left]
    exact List.take_left' (by simp [opSize])
  obtain ⟨hindex, hsub, htarget, hty, hstatus, hlen⟩ := opHead_num h
    (r.value ++ (List.replicate (opSize r - 8 - r.value.length) 0 ++ rest))
  have heq : opBytes r ++ rest = opHead r ++ (r.value ++ (List.replicate (opSize r - 8 - r.value.length) 0 ++ rest)) := by
    simp [opBytes_eq]
  rw [← heq] at hindex hsub htarget hty hstatus hlen
  simp only [opsOf, hsome, hlen, hfull, hpad, hrest, hbody, hindex, hsub, htarget, hty, hstatus, leN_zeros, if_true, if_false,
    Bool.false_eq_true, List.take_left]

theorem opsOf_nil (n : Nat) : opsOf n [] = some [] := by cases n <;> rfl

theorem opsOf_flatMap_opBytes (ops : List OpRec) (n : Nat) (hn : ops.length ≤ n) (h : ∀ r ∈ ops, opFits r) :
    opsOf n (ops.flatMap opBytes) = some ops := by
  induction ops generalizing n with
  | nil => exact opsOf_nil n
  | cons r ops ih =>
    obtain ⟨n, rfl⟩ : ∃ k, n = k + 1 := ⟨n - 1, by simp at hn; omega⟩
    rw [List.flatMap_cons, opsOf_opBytes_append (h r (by simp)), ih n (by simpa using hn) fun x hx => h x (by simp [hx]),
      Option.map_some]

/-- Settles O7, by induction on the records. -/
theorem fieldBookRecordsDecodeBack : Obligations.FieldBookRecordsDecodeBack :=
  fun ops n hn h => opsOf_flatMap_opBytes ops n hn h

end Sys2Proof.Machine
end

section
/-! PROOFS. What the operations of the grid, the rings and the links keep of the Field Book's requests and of the units' tables. -/
namespace Sys2Proof.Machine

/-- What a request and a fence find again after the operations between: the channels, the epoch, the values in force, the draft and
the power state; how many sites, cores and host ports there are; and the contexts with their states. -/
structure Kept where
  chans : SMap Chan
  epoch : Nat
  cur : Bank
  draft : Option Draft
  pwr : Pwr
  sites : Nat
  cores : Nat
  ports : Nat
  ctxsRise : Prop
  ctxSt : Nat → Option CtxSt

def Mach.kept (m : Mach) : Kept :=
  { chans := m.fb.chans, epoch := m.fb.epoch, cur := m.fb.cur, draft := m.fb.draft, pwr := m.pwr, sites := m.site.dev.length
    cores := m.core.dev.length, ports := m.hp.dev.length, ctxsRise := rising m.rng.ctxs
    ctxSt := fun d => (m.ctx? d).map (·.st) }

theorem mem_skeys_sput {α : Type} {s : SMap α} {i : Nat} (k : Nat) (x : α) (h : i ∈ skeys s) : i ∈ skeys (sput s k x) := by
  induction s with
  | nil => cases h
  | cons p r ih =>
    obtain ⟨j, y⟩ := p
    unfold sput
    split_ifs with h1 h2
    · exact List.mem_cons_of_mem _ h
    · subst h2; exact h
    · rcases List.mem_cons.mp h with rfl | h
      · exact List.mem_cons_self
      · exact List.mem_cons_of_mem _ (ih h)

/-- A write of a key keeps the order of a map, as it keeps the want of order. -/
theorem rising_sput_iff {α : Type} (s : SMap α) (k : Nat) (x : α) : rising (sput s k x) ↔ rising s := by
  refine ⟨fun h => ?_, fun h => rising_sput h k x⟩
  induction s with
  | nil => exact List.Pairwise.nil
  | cons p r ih =>
    obtain ⟨j, y⟩ := p
    unfold sput at h
    split_ifs at h with h1 h2
    · exact (List.pairwise_cons.mp h).2
    · subst h2; exact h
    · obtain ⟨hhead, htail⟩ := List.pairwise_cons.mp h
      exact List.pairwise_cons.mpr ⟨fun i hi => hhead i (mem_skeys_sput k x hi), ih htail⟩

/-- A context whose state stays is written back. -/
theorem Mach.setRng_kept_sput {m : Mach} {r : Rings} {c : Nat} {x y : Ctx} (hr : r.ctxs = sput m.rng.ctxs c x)
    (hy : m.ctx? c = some y) (hst : x.st = y.st) : (m.setRng r).kept = m.kept := by
  have hctx : (fun d => ((m.setRng r).ctx? d).map (·.st)) = fun d => (m.ctx? d).map (·.st) := by
    funext d
    simp only [Mach.ctx?, Mach.setRng_rng, hr, sget_sput] at hy ⊢
    split_ifs with hd
    · rw [hd, hy]; simp [hst]
    · rfl
  simp only [Mach.kept, hctx, Mach.setRng_rng, hr, rising_sput_iff]
  simp

theorem Mach.sameButMem.kept_eq {a b : Mach} (h : a.sameButMem b) : a.kept = b.kept := by
  obtain ⟨⟨hfb, -, hrng, -, hsite, hcore, -, -, -, -, -, hhp, -, hpwr, -, -⟩, -⟩ := h
  simp only [Mach.kept, Mach.ctx?, hfb, hrng, hsite, hcore, hhp, hpwr]

/-! A fold of operations that each keep it keeps it. -/

@[simp] theorem Mach.foldl_kept {α : Type} {f : Mach → α → Mach} (h : ∀ m x, (f m x).kept = m.kept) (l : List α) (m : Mach) :
    (l.foldl f m).kept = m.kept := by
  induction l generalizing m with
  | nil => rfl
  | cons x r ih => exact (ih _).trans (h m x)

/-! The parts of the module that are no part of it, or whose kept fields stay. -/

@[simp] theorem Mach.setDie_kept (m : Mach) (x : Die) : (m.setDie x).kept = m.kept := rfl
@[simp] theorem Mach.setGrid_kept (m : Mach) (x : Grid) : (m.setGrid x).kept = m.kept := rfl
@[simp] theorem Mach.setMem_kept (m : Mach) (x : Mem) : (m.setMem x).kept = m.kept := rfl
@[simp] theorem Mach.setStk_kept (m : Mach) (x : Stk) : (m.setStk x).kept = m.kept := rfl
@[simp] theorem Mach.setReg_kept (m : Mach) (x : Reg) : (m.setReg x).kept = m.kept := rfl
@[simp] theorem Mach.setCad_kept (m : Mach) (x : Cad) : (m.setCad x).kept = m.kept := rfl
@[simp] theorem Mach.setClk_kept (m : Mach) (x : Clk) : (m.setClk x).kept = m.kept := rfl
@[simp] theorem Mach.setFlt_kept (m : Mach) (x : Flt) : (m.setFlt x).kept = m.kept := rfl
@[simp] theorem Mach.setSwp_kept (m : Mach) (x : Swp) : (m.setSwp x).kept = m.kept := rfl
@[simp] theorem Mach.setLnk_kept (m : Mach) (x : Links) : (m.setLnk x).kept = m.kept := rfl
@[simp] theorem Mach.setTrv_kept (m : Mach) (x : Travs) : (m.setTrv x).kept = m.kept := rfl
@[simp] theorem Mach.setSec_kept (m : Mach) (x : Sec) : (m.setSec x).kept = m.kept := rfl
@[simp] theorem Mach.setAge_kept (m : Mach) (x : Age) : (m.setAge x).kept = m.kept := rfl
@[simp] theorem Mach.setOut_kept (m : Mach) (x : List Emit) : (m.setOut x).kept = m.kept := rfl

@[simp] theorem Mach.setFb_kept {m : Mach} {x : Fb} (hchans : x.chans = m.fb.chans) (hepoch : x.epoch = m.fb.epoch)
    (hcur : x.cur = m.fb.cur) (hdraft : x.draft = m.fb.draft) : (m.setFb x).kept = m.kept := by
  simp only [Mach.kept, Mach.setFb_fb, hchans, hepoch, hcur, hdraft]; rfl

@[simp] theorem Mach.setRng_kept {m : Mach} {x : Rings} (h : x.ctxs = m.rng.ctxs) : (m.setRng x).kept = m.kept := by
  simp only [Mach.kept, Mach.ctx?, Mach.setRng_rng, h]; rfl

@[simp] theorem Mach.setSite_kept {m : Mach} {x : Sites} (h : x.dev.length = m.site.dev.length) :
    (m.setSite x).kept = m.kept := by
  simp only [Mach.kept, Mach.setSite_site, h]; rfl

@[simp] theorem Mach.setCore_kept {m : Mach} {x : Cores} (h : x.dev.length = m.core.dev.length) :
    (m.setCore x).kept = m.kept := by
  simp only [Mach.kept, Mach.setCore_core, h]; rfl

@[simp] theorem Mach.setHp_kept {m : Mach} {x : Hps} (h : x.dev.length = m.hp.dev.length) : (m.setHp x).kept = m.kept := by
  simp only [Mach.kept, Mach.setHp_hp, h]; rfl

@[simp] theorem Mach.ite_kept (c : Prop) [Decidable c] (a b : Mach) :
    (if c then a else b).kept = if c then a.kept else b.kept := apply_ite Mach.kept c a b

end Sys2Proof.Machine
end

section
/-! PROOFS. `kept` (the channels, the epoch, the values in force, the draft, the power state, the units' tables, the contexts' states)
through the operations of the grid, the rings, the links and the survey, in the order in which they use each other. -/
namespace Sys2Proof.Machine
@[simp] theorem Mach.setCount_kept (m : Mach) (k v : Nat) : (m.setCount k v).kept = m.kept := by
  simp [Mach.setCount]

@[simp] theorem Mach.bump_kept (m : Mach) (k : Nat) (n : Nat) : (m.bump k n).kept = m.kept := by
  simp [Mach.bump]

@[simp] theorem Mach.xlate_kept (m : Mach) (o : Origin) (ctx va : Nat) : (m.xlate o ctx va).1.kept = m.kept := by
  unfold Mach.xlate
  split <;> simp

@[simp] theorem Mach.takeIn_kept (fuel : Nat) (m : Mach) (t : Nat) : (Mach.takeIn fuel m t).kept = m.kept := by
  induction fuel generalizing m with
  | zero => rfl
  | succ fuel ih =>
    unfold Mach.takeIn
    dsimp only
    split
    · rfl
    · split <;> simp [ih]

@[simp] theorem Mach.setSiteAt_kept (m : Mach) (t : Nat) (x : Site) : (m.setSiteAt t x).kept = m.kept := by
  simp [Mach.setSiteAt]

@[simp] theorem Mach.emit_kept (m : Mach) (e : Emit) : (m.emit e).kept = m.kept := by
  simp [Mach.emit]

@[simp] theorem Mach.showFlit_kept (m : Mach) (t b : Nat) (s : Sent) (nak : Bool) : (m.showFlit t b s nak).kept = m.kept := by
  simp [Mach.showFlit]

@[simp] theorem Mach.putFlit_kept (m : Mach) (t b op : Nat) (fields : List Nat) (data : Bytes) :
    (m.putFlit t b op fields data).kept = m.kept := by
  simp [Mach.putFlit]

@[simp] theorem Mach.sendFlit_kept (m : Mach) (t b op : Nat) (fields : List Nat) (data : Bytes) :
    (m.sendFlit t b op fields data).kept = m.kept := by
  simp [Mach.sendFlit]

@[simp] theorem Mach.siteRsp_kept (m : Mach) (t b op tag : Nat) (st : Status) (data : Bytes) :
    (m.siteRsp t b op tag st data).kept = m.kept := by
  simp [Mach.siteRsp]

@[simp] theorem Mach.replyRead_kept (m : Mach) (o : Origin) (st : Status) (data : Bytes) :
    (m.replyRead o st data).kept = m.kept := by
  unfold Mach.replyRead
  split <;> simp

@[simp] theorem Mach.served_kept (m : Mach) (target g : Nat) : (m.served target g).kept = m.kept := by
  simp [Mach.served]

@[simp] theorem Mach.setErrs_kept (m : Mach) (pa n : Nat) : (m.setErrs pa n).kept = m.kept := by
  simp [Mach.setErrs]

@[simp] theorem Mach.moved_kept (m : Mach) (c n : Nat) (by_ : Mover) : (m.moved c n by_).kept = m.kept := by
  simp [Mach.moved]

@[simp] theorem Mach.movedAt_kept (m : Mach) (pa n : Nat) (by_ : Mover) : (m.movedAt pa n by_).kept = m.kept := by
  simp [Mach.movedAt]

@[simp] theorem Mach.clearPoison_kept (m : Mach) (pa n : Nat) : (m.clearPoison pa n).kept = m.kept :=
  (Mach.clearPoison_frame m pa n).kept_eq

@[simp] theorem Mach.wrLine_kept (m : Mach) (c pa : Nat) (d : Bytes) : (m.wrLine c pa d).kept = m.kept :=
  (Mach.wrLine_frame m c pa d).kept_eq

@[simp] theorem Mach.copyBytes_kept (m : Mach) (ctx src dst n : Nat) : (m.copyBytes ctx src dst n).kept = m.kept := by
  simp [Mach.copyBytes]

@[simp] theorem Mach.addPoison_kept (m : Mach) (pa : Nat) : (m.addPoison pa).kept = m.kept := by
  simp [Mach.addPoison]

@[simp] theorem Mach.cleanErrs_kept (m : Mach) (here : Nat → Bool) : (m.cleanErrs here).kept = m.kept := by
  refine Mach.foldl_kept (fun m e => ?_) _ m
  dsimp only
  split
  · simp
  · split
    · split <;> simp
    · simp

@[simp] theorem Mach.setStack_kept (m : Mach) (s : Nat) (x : Stack) : (m.setStack s x).kept = m.kept := by
  simp [Mach.setStack]

@[simp] theorem Mach.rowActivated_kept (m : Mach) (pa n : Nat) : (m.rowActivated pa n).kept = m.kept := by
  simp [Mach.rowActivated]

@[simp] theorem Mach.openRowOf_kept (m : Mach) (pa : Nat) (read : Bool) : (m.openRowOf pa read).kept = m.kept := by
  simp [Mach.openRowOf]

@[simp] theorem Mach.openPage_kept (m : Mach) (pa : Nat) : (m.openPage pa).kept = m.kept := by
  simp [Mach.openPage]

@[simp] theorem Mach.closeMerge_kept (m : Mach) (pa : Nat) : (m.closeMerge pa).kept = m.kept :=
  (Mach.closeMerge_frame m pa).kept_eq

@[simp] theorem Mach.putPiece_kept (m : Mach) (e c : Nat) (p : Piece) (d : Bytes) : (m.putPiece e c p d).1.kept = m.kept :=
  (Mach.putPiece_frame m e c p d).kept_eq

@[simp] theorem Mach.rlcInvalidate_kept (m : Mach) (f pa : Nat) : (m.rlcInvalidate f pa).kept = m.kept :=
  (Mach.rlcInvalidate_frame m f pa).kept_eq

@[simp] theorem Mach.putBridge_kept (m : Mach) (f c l a : Nat) (d : Bytes) : (m.putBridge f c l a d).kept = m.kept :=
  (Mach.putBridge_same m f c l a d).kept_eq

@[simp] theorem Mach.dropRemote_kept (m : Mach) (f pa : Nat) : (m.dropRemote f pa).kept = m.kept :=
  (Mach.dropRemote_frame m f pa).kept_eq

@[simp] theorem Mach.crossWrite_kept (m : Mach) (f pa c : Nat) (d : Bytes) : (m.crossWrite f pa c d).kept = m.kept :=
  (Mach.crossWrite_frame m f pa c d).kept_eq

@[simp] theorem Mach.writePiece_kept (m : Mach) (e c f : Nat) (p : Piece) (d : Bytes) : (m.writePiece e c f p d).1.kept = m.kept :=
  (Mach.writePiece_frame m e c f p d).kept_eq

@[simp] theorem Mach.writeMem_kept (m : Mach) (e fl c va : Nat) (d : Bytes) : (m.writeMem e fl c va d).1.kept = m.kept :=
  (Mach.writeMem_frame m e fl c va d).kept_eq

@[simp] theorem Mach.recordWrite_kept (m : Mach) (epoch fl ctx va : Nat) (data : Bytes) :
    (m.recordWrite epoch fl ctx va data).1.kept = m.kept := by
  unfold Mach.recordWrite
  dsimp only
  repeat' split
  all_goals simp

@[simp] theorem Mach.interruptBound_kept (m : Mach) (c b : Nat) : (m.interruptBound c b).kept = m.kept := by
  simp [Mach.interruptBound]

@[simp] theorem Mach.eventToArea_kept (m : Mach) (e : Event) : (m.eventToArea e).kept = m.kept := by
  unfold Mach.eventToArea
  split
  case h_1 => rfl
  case h_2 x hx =>
    dsimp only
    split
    · rfl
    · generalize hr : m.recordWrite m.fb.epoch _ e.ctx _ e.bytes = r
      have hkept : r.1.kept = m.kept := by rw [← hr]; exact Mach.recordWrite_kept _ _ _ _ _ _
      have hcall : (if r.2.isSome = true then r.1 else r.1.interruptBound e.ctx 3).kept = m.kept := by
        split <;> simp [hkept]
      generalize (if r.2.isSome = true then r.1 else r.1.interruptBound e.ctx 3) = a at hcall ⊢
      have hst : (a.ctx? e.ctx).map (·.st) = some x.st := by
        rw [show (a.ctx? e.ctx).map (·.st) = (m.ctx? e.ctx).map (·.st) from congrFun (congrArg Kept.ctxSt hcall) e.ctx, hx]
        rfl
      obtain ⟨y, hy, hxy⟩ := Option.map_eq_some_iff.mp hst
      refine (Mach.setRng_kept_sput (c := e.ctx) rfl hy ?_).trans hcall
      exact hxy.symm

@[simp] theorem Mach.event_kept (m : Mach) (cls code sev : Nat) (unit : UnitRef) (ctx : Nat) (data : Nat) :
    (m.event cls code sev unit ctx data).kept = m.kept := by
  simp [Mach.event]

@[simp] theorem Mach.addHist_kept (m : Mach) (h : Hist) : (m.addHist h).kept = m.kept := by
  simp [Mach.addHist]

@[simp] theorem Mach.driveAlert_kept (old m : Mach) : (old.driveAlert m).kept = m.kept := by
  simp [Mach.driveAlert]

@[simp] theorem Mach.ledger_kept (m : Mach) (cls cause outcome : Nat) (unit : UnitRef) (st items ctx data phys : Nat) :
    (m.ledger cls cause outcome unit st items ctx data phys).kept = m.kept := by
  simp [Mach.ledger]

@[simp] theorem Mach.addStanding_kept (m : Mach) (x : Standing) : (m.addStanding x).kept = m.kept := by
  simp [Mach.addStanding]

@[simp] theorem Mach.setPhys_kept (m : Mach) (kind parent idx x : Nat) : (m.setPhys kind parent idx x).kept = m.kept := by
  simp [Mach.setPhys]

@[simp] theorem Mach.endPhys_kept (m : Mach) (u : UnitRef) (i st : Nat) : (m.endPhys u i st).kept = m.kept := by
  simp [Mach.endPhys]

@[simp] theorem Mach.eachBank_kept (m : Mach) (f : CadBank → CadBank) : (m.eachBank f).kept = m.kept := by
  simp [Mach.eachBank]

@[simp] theorem Mach.withdraw_kept (m : Mach) (u : UnitRef) (st : Nat) : (m.withdraw u st).kept = m.kept := by
  simp [Mach.withdraw]

@[simp] theorem Mach.marginEvent_kept (m : Mach) (code sev : Nat) (unit : UnitRef) (floor what old new : Nat) :
    (m.marginEvent code sev unit floor what old new).kept = m.kept := by
  simp [Mach.marginEvent]

@[simp] theorem Mach.abandonRuns_kept (m : Mach) (p : Nat → Bool) : (m.abandonRuns p).kept = m.kept := by
  simp [Mach.abandonRuns]

@[simp] theorem Mach.spareRuns_kept (m : Mach) (kind parent i : Nat) : (m.spareRuns kind parent i).kept = m.kept := by
  simp [Mach.spareRuns]

@[simp] theorem Mach.loseContents_kept (m : Mach) (u : UnitRef) : (m.loseContents u).kept = m.kept := by
  simp [Mach.loseContents]

@[simp] theorem Mach.spareTaken_kept (m : Mach) (u : UnitRef) (old new st : Nat) :
    (m.spareTaken u old new st).kept = m.kept := by
  unfold Mach.spareTaken
  split <;> simp

@[simp] theorem Mach.loadStanding_kept (m : Mach) (c : Nat) (x : Standing) : (m.loadStanding c x).kept = m.kept := by
  unfold Mach.loadStanding
  split <;> simp

@[simp] theorem Mach.reloadChan_kept (m : Mach) (c : Nat) : (m.reloadChan c).kept = m.kept := by
  simp [Mach.reloadChan]

@[simp] theorem Mach.clearRetired_kept (m : Mach) (u : UnitRef) : (m.clearRetired u).kept = m.kept := by
  simp [Mach.clearRetired]

@[simp] theorem Mach.moveUnit_kept (m : Mach) (u : UnitRef) (st : Nat) (serves : Bool) :
    (m.moveUnit u st serves).kept = m.kept := by
  unfold Mach.moveUnit
  split <;> simp

@[simp] theorem Mach.unitRetires_kept (m : Mach) (u : UnitRef) (cause : Nat) : (m.unitRetires u cause).kept = m.kept := by
  simp [Mach.unitRetires]

@[simp] theorem Mach.retirePage_kept (m : Mach) (pa cause : Nat) : (m.retirePage pa cause).kept = m.kept := by
  simp [Mach.retirePage]

@[simp] theorem Mach.rowFails_kept (m : Mach) (pa cause : Nat) : (m.rowFails pa cause).kept = m.kept := by
  simp [Mach.rowFails]

@[simp] theorem Mach.sectorCorrected_kept (m : Mach) (pa : Nat) : (m.sectorCorrected pa).kept = m.kept := by
  simp [Mach.sectorCorrected]

@[simp] theorem Mach.eccFixed_kept (m : Mach) (a : Nat) (back : Bool) (by_ : Mover) :
    (m.eccFixed a back by_).kept = m.kept := by
  simp [Mach.eccFixed]

@[simp] theorem Mach.sectorBad_kept (m : Mach) (pa : Nat) : (m.sectorBad pa).kept = m.kept := by
  simp [Mach.sectorBad]

@[simp] theorem Mach.eccLost_kept (m : Mach) (epoch st a : Nat) : (m.eccLost epoch st a).kept = m.kept := by
  simp [Mach.eccLost]

@[simp] theorem Mach.eccMeet_kept (m : Mach) (epoch st : Nat) (back : Bool) (l : List Nat) (by_ : Mover) :
    (m.eccMeet epoch st back l by_).kept = m.kept := by
  simp [Mach.eccMeet]

@[simp] theorem Mach.movedLater_kept (m : Mach) (c n : Nat) (by_ : Mover) : (m.movedLater c n by_).kept = m.kept := by
  unfold Mach.movedLater
  split <;> simp

@[simp] theorem Mach.movedBy_kept (m : Mach) (item : Bool) (c n : Nat) (by_ : Mover) :
    (m.movedBy item c n by_).kept = m.kept := by
  simp [Mach.movedBy]

@[simp] theorem Mach.arrayRead_kept (m : Mach) (epoch pa n : Nat) (by_ : Mover) (item : Bool) :
    (m.arrayRead epoch pa n by_ item).kept = m.kept := by
  simp [Mach.arrayRead]

@[simp] theorem Mach.regCount_kept (m : Mach) (o : Origin) (medium n : Nat) : (m.regCount o medium n).kept = m.kept := by
  unfold Mach.regCount
  split <;> simp

@[simp] theorem Mach.readCount_kept (m : Mach) (o : Origin) (medium n : Nat) : (m.readCount o medium n).kept = m.kept := by
  simp [Mach.readCount]

@[simp] theorem Mach.readEnds_kept (m : Mach) (o : Origin) (medium : Nat) (r : Except Fail Bytes) :
    (m.readEnds o medium r).kept = m.kept := by
  unfold Mach.readEnds
  split <;> simp

@[simp] theorem Mach.readTarget_kept (m : Mach) (t : Txn) (epoch len slot : Nat) (e : SegEnt) (p : Place) :
    (m.readTarget t epoch len slot e p).kept = m.kept := by
  simp [Mach.readTarget]

@[simp] theorem Mach.performRead_kept (m : Mach) (t : Txn) (len : Nat) : (m.performRead t len).kept = m.kept := by
  unfold Mach.performRead
  dsimp only
  have hx := Mach.xlate_kept m t.org t.ctx t.va
  generalize m.xlate t.org t.ctx t.va = r at hx ⊢
  obtain ⟨a, _ | ⟨slot, e⟩⟩ := r
  · simpa using hx
  · dsimp only at hx ⊢
    rw [← hx]
    split
    · simp
    · split
      · simp
      · split
        · simp
        · simp
        · split <;> simp

@[simp] theorem Mach.replyWrite_kept (m : Mach) (o : Origin) (st : Status) : (m.replyWrite o st).kept = m.kept := by
  unfold Mach.replyWrite
  split <;> simp

@[simp] theorem Mach.writeReads_kept (m : Mach) (epoch ctx pa n : Nat) : (m.writeReads epoch ctx pa n).kept = m.kept := by
  simp [Mach.writeReads]

@[simp] theorem Mach.dirFailed_kept (m : Mach) (fl pa : Nat) : (m.dirFailed fl pa).kept = m.kept := by
  unfold Mach.dirFailed
  split <;> simp

@[simp] theorem Mach.queueWrite_kept (m : Mach) (ps : List Place) (b n : Nat) : (m.queueWrite ps b n).kept = m.kept := by
  simp [Mach.queueWrite]

@[simp] theorem Mach.writeCount_kept (m : Mach) (o : Origin) (medium n : Nat) : (m.writeCount o medium n).kept = m.kept := by
  simp [Mach.writeCount]

@[simp] theorem Mach.setCoreAt_kept (m : Mach) (c : Nat) (x : Core) : (m.setCoreAt c x).kept = m.kept := by
  simp [Mach.setCoreAt]

@[simp] theorem Mach.replyAtomic_kept (m : Mach) (o : Origin) (st : Status) (data : Bytes) :
    (m.replyAtomic o st data).kept = m.kept := by
  unfold Mach.replyAtomic
  split <;> simp

@[simp] theorem Mach.heldDone_kept (m : Mach) (line : Nat) (h : HeldRsp) (lost : Option Status) :
    (m.heldDone line h lost).kept = m.kept := by
  unfold Mach.heldDone
  split <;> simp

@[simp] theorem Mach.dirWrite_kept (m : Mach) (d : Option DirLine) (fl pa : Nat) (h : HeldRsp) :
    (m.dirWrite d fl pa h).kept = m.kept := by
  unfold Mach.dirWrite
  split <;> simp

@[simp] theorem Mach.performWrite_kept (m : Mach) (t : Txn) (data : Bytes) : (m.performWrite t data).kept = m.kept := by
  unfold Mach.performWrite
  dsimp only
  have hx := Mach.xlate_kept m t.org t.ctx t.va
  generalize m.xlate t.org t.ctx t.va = r at hx ⊢
  obtain ⟨a, _ | ⟨slot, e⟩⟩ := r
  · simpa using hx
  · dsimp only at hx ⊢
    rw [← hx]
    split
    · simp
    · split <;> simp

@[simp] theorem Mach.atomicBytes_kept (m : Mach) (o : Origin) (ctx va word : Nat) :
    (m.atomicBytes o ctx va word).kept = m.kept := by
  unfold Mach.atomicBytes
  split <;> simp

@[simp] theorem Mach.hold_kept (m : Mach) (floor kind : Nat) (party : Party) (ctx object : Nat) :
    (m.hold floor kind party ctx object).kept = m.kept := by
  simp [Mach.hold]

@[simp] theorem Mach.unhold_kept (m : Mach) (p : Holding → Bool) : (m.unhold p).kept = m.kept := by
  simp [Mach.unhold]

@[simp] theorem Mach.countAtomic_kept (m : Mach) (w : AtomWord) (p : Place) (flagged : Bool) :
    (m.countAtomic w p flagged).kept = m.kept := by
  simp [Mach.countAtomic]

@[simp] theorem Mach.atomTarget_kept (m : Mach) (epoch : Nat) (p : Party) (ctx : Nat) (w : AtomWord) (operand : Bytes) (q : Piece) :
    (m.atomTarget epoch p ctx w operand q).m.kept = m.kept := by
  unfold Mach.atomTarget
  dsimp only
  repeat' split
  all_goals simp

@[simp] theorem Mach.atomic_kept (m : Mach) (epoch : Nat) (p : Party) (floor ctx va : Nat) (w : AtomWord) (operand : Bytes) :
    (m.atomic epoch p floor ctx va w operand).m.kept = m.kept := by
  unfold Mach.atomic
  split
  · simp
  · split <;> simp

@[simp] theorem Mach.atomicAt_kept (m : Mach) (epoch : Nat) (p : Party) (floor ctx va word : Nat) (operand : Bytes) (item : Bool) :
    (m.atomicAt epoch p floor ctx va word operand item).m.kept = m.kept := by
  unfold Mach.atomicAt
  dsimp only
  repeat' split
  all_goals simp

@[simp] theorem Mach.performAtomic_kept (m : Mach) (t : Txn) (word : Nat) (operand : Bytes) :
    (m.performAtomic t word operand).kept = m.kept := by
  unfold Mach.performAtomic
  dsimp only
  repeat' split
  all_goals simp

@[simp] theorem Mach.perform_kept (m : Mach) (t : Txn) : (m.perform t).kept = m.kept := by
  unfold Mach.perform
  split <;> simp

@[simp] theorem Mach.serveTxn_kept (m : Mach) (target : Nat) (t : Txn) : (m.serveTxn target t).kept = m.kept := by
  simp [Mach.serveTxn]

@[simp] theorem Mach.serveThose_kept (m : Mach) (p : Txn → Bool) : (m.serveThose p).kept = m.kept := by
  simp [Mach.serveThose]

@[simp] theorem Mach.behind_kept (m : Mach) (t : Txn) : (m.behind t).kept = m.kept := by
  simp [Mach.behind]

@[simp] theorem Mach.dataAt_kept (m : Mach) (fl pa : Nat) (st : Status) (data : Bytes) :
    (m.dataAt fl pa st data).kept = m.kept := by
  unfold Mach.dataAt
  split <;> simp

@[simp] theorem Mach.landData_kept (m : Mach) (epoch ctx pa : Nat) : (m.landData epoch ctx pa).kept = m.kept := by
  unfold Mach.landData
  dsimp only
  repeat' split
  all_goals simp

@[simp] theorem Mach.endCopy_kept (m : Mach) (pa : Nat) : (m.endCopy pa).kept = m.kept := by
  unfold Mach.endCopy
  split <;> simp

@[simp] theorem Mach.itemRow_kept (m : Mach) (pa : Nat) : (m.itemRow pa).kept = m.kept := by
  simp [Mach.itemRow]

@[simp] theorem Mach.answerFill_kept (m : Mach) (epoch ctx pa way : Nat) (item : Bool) :
    (m.answerFill epoch ctx pa way item).kept = m.kept := by
  unfold Mach.answerFill
  dsimp only
  repeat' split
  all_goals simp

@[simp] theorem Mach.ackLine_kept (m : Mach) (pa : Nat) : (m.ackLine pa).kept = m.kept := by
  unfold Mach.ackLine
  dsimp only
  repeat' split
  all_goals simp

@[simp] theorem Mach.ackNow_kept (m : Mach) (pa : Nat) : (m.ackNow pa).kept = m.kept := by
  unfold Mach.ackNow
  dsimp only
  repeat' split
  all_goals simp

@[simp] theorem Mach.itemWriteOne_kept (m : Mach) (o : Origin) (epoch ctx va : Nat) (data : Bytes) :
    (m.itemWriteOne o epoch ctx va data).1.kept = m.kept := by
  unfold Mach.itemWriteOne
  dsimp only
  repeat' split
  all_goals simp

@[simp] theorem Mach.itemWriteAll_kept (m : Mach) (o : Origin) (epoch ctx : Nat) (ps : List (Nat × Nat)) (data : Bytes)
    (f : Option Fail) : (m.itemWriteAll o epoch ctx ps data f).1.kept = m.kept := by
  induction ps generalizing m data f with
  | nil => rfl
  | cons p ps ih => simp [Mach.itemWriteAll, ih]

@[simp] theorem Mach.itemWrite_kept (m : Mach) (o : Origin) (epoch ctx va : Nat) (data : Bytes) :
    (m.itemWrite o epoch ctx va data).1.kept = m.kept := by
  simp [Mach.itemWrite]

@[simp] theorem Mach.spoil_kept (m : Mach) (i : Item) : (m.spoil i).kept = m.kept :=
  (Mach.spoil_frame m i).1.kept_eq

@[simp] theorem Mach.countItem_kept (m : Mach) (i : Item) : (m.countItem i).kept = m.kept := by
  simp [Mach.countItem]

@[simp] theorem Mach.unholdFirst_kept (m : Mach) (p : Holding → Bool) : (m.unholdFirst p).kept = m.kept := by
  unfold Mach.unholdFirst
  split <;> simp

@[simp] theorem Mach.dropHanded_kept (m : Mach) (k : Nat) : (m.dropHanded k).kept = m.kept := by
  unfold Mach.dropHanded
  split <;> simp

@[simp] theorem Mach.setSessions_kept (m : Mach) (l : List SwpSess) : (m.setSessions l).kept = m.kept := by
  simp [Mach.setSessions]

@[simp] theorem Mach.runOver_kept (m : Mach) (k : Nat) : (m.runOver k).kept = m.kept := by
  unfold Mach.runOver
  split <;> simp

@[simp] theorem Mach.dropSweep_kept (m : Mach) (k : Nat) (st : Status) : (m.dropSweep k st).kept = m.kept := by
  simp [Mach.dropSweep]

@[simp] theorem Mach.setPort_kept (m : Mach) (p : Nat) (x : Port) : (m.setPort p x).kept = m.kept := by
  simp [Mach.setPort]

@[simp] theorem Mach.showFrame_kept (m : Mach) (p : Nat) (s : Sent) (nak : Bool) : (m.showFrame p s nak).kept = m.kept := by
  simp [Mach.showFrame]

@[simp] theorem Mach.putFrame_kept (m : Mach) (p code : Nat) (fields : List Nat) (payload : Bytes) :
    (m.putFrame p code fields payload).kept = m.kept := by
  simp [Mach.putFrame]

@[simp] theorem Mach.putMsg_kept (m : Mach) (p : Nat) (b : Bytes) : (m.putMsg p b).kept = m.kept := by
  simp [Mach.putMsg]

@[simp] theorem Mach.sendMsg_kept (m : Mach) (p ty : Nat) (body : List Nat) : (m.sendMsg p ty body).kept = m.kept := by
  simp [Mach.sendMsg]

@[simp] theorem Mach.dropTraverse_kept (m : Mach) (k ctx : Nat) (st : Status) : (m.dropTraverse k ctx st).kept = m.kept := by
  unfold Mach.dropTraverse
  split <;> simp

@[simp] theorem Mach.retireEpoch_kept (m : Mach) : m.retireEpoch.kept = m.kept := by
  unfold Mach.retireEpoch
  split <;> simp

@[simp] theorem Mach.setRing_kept (m : Mach) (r : Nat) (x : Ring) : (m.setRing r x).kept = m.kept := by
  simp [Mach.setRing]

@[simp] theorem Mach.coreNotice_kept (m : Mach) (c vector : Nat) : (m.coreNotice c vector).kept = m.kept := by
  simp [Mach.coreNotice]

@[simp] theorem Mach.countStream_kept (m : Mach) (p dir tag bytes : Nat) : (m.countStream p dir tag bytes).kept = m.kept := by
  simp [Mach.countStream]

@[simp] theorem Mach.sendFrame_kept (m : Mach) (p vc stream : Nat) (payload : Bytes) :
    (m.sendFrame p vc stream payload).kept = m.kept := by
  simp [Mach.sendFrame]

@[simp] theorem Mach.forwardVc2_kept (m : Mach) (from_ : Option Nat) (tag : Nat) (payload : Bytes) :
    (m.forwardVc2 from_ tag payload).kept = m.kept := by
  simp [Mach.forwardVc2]

@[simp] theorem Mach.sendVc2_kept (m : Mach) (dest chan req st : Nat) (content : Bytes) :
    (m.sendVc2 dest chan req st content).kept = m.kept := by
  simp [Mach.sendVc2]

@[simp] theorem Mach.hpNotice_kept (m : Mach) (n vector : Nat) : (m.hpNotice n vector).kept = m.kept := by
  simp [Mach.hpNotice]

@[simp] theorem Mach.notice_kept (m : Mach) (r : Ring) : (m.notice r).kept = m.kept := by
  unfold Mach.notice
  split
  · split
    · split <;> simp
    · rfl
  all_goals simp

@[simp] theorem Mach.answerNow_kept (m : Mach) (r seq kind user epoch : Nat) (notify : Bool) (st : Status)
    (unit : UnitRef) (flags result : Nat) : (m.answerNow r seq kind user epoch notify st unit flags result).kept = m.kept := by
  unfold Mach.answerNow
  dsimp only
  repeat' split
  all_goals simp

@[simp] theorem Mach.answer_kept (m : Mach) (r seq kind user epoch : Nat) (notify : Bool) (st : Status)
    (unit : UnitRef) (flags result : Nat) : (m.answer r seq kind user epoch notify st unit flags result).kept = m.kept := by
  unfold Mach.answer
  split <;> simp

@[simp] theorem Mach.finish_kept (m : Mach) (k : Nat) (st : Status)
    (unit : UnitRef) (flags result : Nat) : (m.finish k st unit flags result).kept = m.kept := by
  unfold Mach.finish
  split <;> simp

@[simp] theorem Mach.drain_kept (m : Mach) (p : Origin → Bool) : (m.drain p).kept = m.kept := by
  simp [Mach.drain]

@[simp] theorem Mach.fenceLocks_kept (m : Mach) (p : Party) (on : Nat → Bool) : (m.fenceLocks p on).kept = m.kept := by
  simp [Mach.fenceLocks]

@[simp] theorem Mach.reclaim_kept (m : Mach) (p : Party) : (m.reclaim p).kept = m.kept := by
  simp [Mach.reclaim]

@[simp] theorem Mach.finishAll_kept (m : Mach) (ks : List Nat) (st : Status) (unit : UnitRef) :
    (m.finishAll ks st unit).kept = m.kept := by
  simp [Mach.finishAll]

@[simp] theorem Mach.closeRing_kept (m : Mach) (r : Nat) (st : Status) (unit : UnitRef) :
    (m.closeRing r st unit).kept = m.kept := by
  unfold Mach.closeRing
  split <;> simp

@[simp] theorem Mach.closeRings_kept (m : Mach) (rs : List Nat) (st : Status) (unit : UnitRef) :
    (m.closeRings rs st unit).1.kept = m.kept := by
  simp [Mach.closeRings]

@[simp] theorem Mach.loseLine_kept (m : Mach) (pa : Nat) : (m.loseLine pa).kept = m.kept := by
  simp [Mach.loseLine]

@[simp] theorem Mach.loseSlices_kept (m : Mach) (gone : Nat → Nat → Bool) (keepMirror : Bool) :
    (m.loseSlices gone keepMirror).kept = m.kept := by
  refine Mach.foldl_kept (fun m s => ?_) _ m
  split
  · rfl
  · exact Mach.foldl_kept (fun m i => Mach.foldl_kept (fun m p => by split <;> simp) _ m) _ m

@[simp] theorem Mach.setRefresh_kept (m : Mach) (s : Nat) : (m.setRefresh s).kept = m.kept := by
  simp [Mach.setRefresh]

@[simp] theorem Mach.leaveRefresh_kept (m : Mach) (p : Nat → Bool) : (m.leaveRefresh p).kept = m.kept := by
  simp [Mach.leaveRefresh]

@[simp] theorem Mach.startTraining_kept (m : Mach) (p : Nat) : (m.startTraining p).kept = m.kept := by
  simp [Mach.startTraining]

@[simp] theorem Mach.wake_kept (m : Mach) (code : Nat) : (m.wake code).kept = m.kept := by
  simp [Mach.wake]

@[simp] theorem Mach.measure_kept (m : Mach) (i : Nat) (d : Bytes) : (m.measure i d).kept = m.kept := by
  simp [Mach.measure]

@[simp] theorem Mach.debugChange_kept (old m : Mach) : (old.debugChange m).kept = m.kept := by
  simp [Mach.debugChange]

@[simp] theorem Mach.askClock_kept (m : Mach) (f : Nat) : (m.askClock f).kept = m.kept := by
  simp [Mach.askClock]

@[simp] theorem Mach.configChanged_kept (old m : Mach) : (old.configChanged m).kept = m.kept := by
  simp [Mach.configChanged]

@[simp] theorem Mach.openSites_kept (m : Mach) : m.openSites.kept = m.kept := by
  simp [Mach.openSites]

@[simp] theorem Mach.fenceEvent_kept (m : Mach) (unit : UnitRef) : (m.fenceEvent unit).kept = m.kept := by
  simp [Mach.fenceEvent]

@[simp] theorem Mach.reportFence_kept (m : Mach) (p : Party) (unit : UnitRef) (cause items : Nat) (quiet : Bool) :
    (m.reportFence p unit cause items quiet).kept = m.kept := by
  simp [Mach.reportFence]

@[simp] theorem Mach.dropLines_kept (m : Mach) (c : Nat) : (m.dropLines c).kept = m.kept := by
  simp [Mach.dropLines]

@[simp] theorem Mach.startCoreFence_kept (m : Mach) (c cause : Nat) (quiet : Bool) :
    (m.startCoreFence c cause quiet).kept = m.kept := by
  simp [Mach.startCoreFence]

@[simp] theorem Mach.endSessions_kept (m : Mach) (ctx : Nat) : (m.endSessions ctx).kept = m.kept := by
  simp [Mach.endSessions]

@[simp] theorem Mach.setHpAt_kept (m : Mach) (n : Nat) (x : HostPort) : (m.setHpAt n x).kept = m.kept := by
  simp [Mach.setHpAt]

@[simp] theorem Mach.endXfer_kept (m : Mach) (n k : Nat) (st : Status) : (m.endXfer n k st).kept = m.kept := by
  simp [Mach.endXfer]

@[simp] theorem Mach.unbind_kept (m : Mach) (n k : Nat) : (m.unbind n k).kept = m.kept := by
  simp [Mach.unbind]

@[simp] theorem Mach.dropXfers_kept (m : Mach) (c : Nat) : (m.dropXfers c).kept = m.kept := by
  refine Mach.foldl_kept (fun m i => ?_) _ m
  dsimp only
  split <;> simp

@[simp] theorem Mach.dropKeys_kept (m : Mach) (c : Nat) : (m.dropKeys c).kept = m.kept := by
  simp [Mach.dropKeys]

@[simp] theorem Mach.leaseEvent_kept (m : Mach) (what ctx kind id : Nat) : (m.leaseEvent what ctx kind id).kept = m.kept := by
  simp [Mach.leaseEvent]

@[simp] theorem Mach.eraseLeases_kept (m : Mach) (p : Lease → Bool) : (m.eraseLeases p).kept = m.kept := by
  simp [Mach.eraseLeases]

@[simp] theorem Mach.endReq_kept (m : Mach) (r : KeyReq) (st : Status) (fails : Bool) :
    (m.endReq r st fails).kept = m.kept := by
  simp [Mach.endReq]

@[simp] theorem Mach.keyEvent_kept (m : Mach) (code c key slot lease : Nat) :
    (m.keyEvent code c key slot lease).kept = m.kept := by
  simp [Mach.keyEvent]

@[simp] theorem Mach.eraseKeys_kept (m : Mach) (c : Nat) : (m.eraseKeys c).kept = m.kept := by
  simp [Mach.eraseKeys]

@[simp] theorem Mach.zeroFoot_kept (m : Mach) (e : SegEnt) : (m.zeroFoot e).kept = m.kept := by
  simp [Mach.zeroFoot]

@[simp] theorem Mach.landFills_kept (m : Mach) (e : SegEnt) : (m.landFills e).kept = m.kept := by
  refine Mach.foldl_kept (fun m x => ?_) _ m
  split
  · rfl
  · split
    · rfl
    · split <;> simp

@[simp] theorem Mach.dropFoot_kept (m : Mach) (e : SegEnt) : (m.dropFoot e).kept = m.kept := by
  simp [Mach.dropFoot]

@[simp] theorem Mach.dropCached_kept (m : Mach) (slot : Nat) : (m.dropCached slot).kept = m.kept := by
  simp [Mach.dropCached]

@[simp] theorem Mach.putSlot_kept (m : Mach) (slot : Nat) (ent : Option SegEnt) : (m.putSlot slot ent).kept = m.kept := by
  unfold Mach.putSlot
  dsimp only
  repeat' split
  all_goals simp

@[simp] theorem Mach.clearSlots_kept (m : Mach) (ctx : Nat) : (m.clearSlots ctx).kept = m.kept := by
  simp [Mach.clearSlots]

@[simp] theorem Mach.recordsGo_kept (m : Mach) : m.recordsGo.kept = m.kept := by
  simp [Mach.recordsGo]

@[simp] theorem Mach.recordsOut_kept (m : Mach) (r : Nat) : (m.recordsOut r).kept = m.kept := by
  simp [Mach.recordsOut]

@[simp] theorem Mach.ringGone_kept (m : Mach) (r : Nat) (unit : UnitRef) : (m.ringGone r unit).kept = m.kept := by
  simp [Mach.ringGone]

@[simp] theorem Mach.measureLayer_kept (m : Mach) (l : Nat) : (m.measureLayer l).kept = m.kept := by
  simp [Mach.measureLayer]

@[simp] theorem Mach.putLayer_kept (m : Mach) (l : Nat) (s : SMap Bytes) : (m.putLayer l s).kept = m.kept := by
  unfold Mach.putLayer
  split <;> simp

@[simp] theorem Mach.measureTile_kept (m : Mach) (t : Nat) : (m.measureTile t).kept = m.kept := by
  simp [Mach.measureTile]

end Sys2Proof.Machine
end

section
/-! PROOFS. Epoch numbers (R59): the switch takes the next one, and what a commit does besides keeps it. -/
namespace Sys2Proof.Machine

theorem Mach.epoch_of_kept {a b : Mach} (h : a.kept = b.kept) : a.fb.epoch = b.fb.epoch := congrArg Kept.epoch h

/-- The number after epoch `e`: 1 after 0xFFFFFFFF. -/
theorem Mach.switchEpoch_epoch (m : Mach) (bank : Bank) (cad : CadBank) (n b : Nat) :
    (m.switchEpoch bank cad n b).fb.epoch = m.fb.epoch % 0xFFFFFFFF + 1 := by
  unfold Mach.switchEpoch
  rw [Mach.epoch_of_kept (Mach.retireEpoch_kept _)]
  exact Mach.event_epoch _ _ _ _ _ _ _

/-! A commit that closes sessions keeps the epoch. -/

@[simp] theorem Mach.discardDraft_epoch (m : Mach) (code : Nat) : (m.discardDraft code).fb.epoch = m.fb.epoch := by
  unfold Mach.discardDraft
  split
  · rfl
  · split
    · rfl
    · exact Mach.event_epoch _ _ _ _ _ _ _

@[simp] theorem Mach.dropSession_epoch (m : Mach) (n : Nat) : (m.dropSession n).fb.epoch = m.fb.epoch := by
  unfold Mach.dropSession Mach.draftOf
  dsimp only
  split
  · split <;> simp
  · simp

@[simp] theorem Mach.closeRefused_epoch (m : Mach) : m.closeRefused.fb.epoch = m.fb.epoch := by
  unfold Mach.closeRefused
  generalize m.sec.clients = l
  induction l generalizing m with
  | nil => rfl
  | cons c r ih =>
    rw [List.foldl_cons, ih]
    split <;> simp

@[simp] theorem Mach.draftClose_epoch (m : Mach) : m.draftClose.fb.epoch = m.fb.epoch := rfl

theorem Mach.commitApply_epoch (m : Mach) (d : Draft) : (m.commitApply d).fb.epoch = m.fb.epoch % 0xFFFFFFFF + 1 := by
  unfold Mach.commitApply
  dsimp only
  rw [Mach.epoch_of_kept (Mach.configChanged_kept _ _)]
  have hstore (a : Mach) (c : Prop) [Decidable c] : (if c then a.writeStore else a).fb.epoch = a.fb.epoch := by
    split <;> rfl
  have hmeas (a : Mach) (c : Prop) [Decidable c] : (if c then a.measure 9 a.platDigest else a).fb.epoch = a.fb.epoch := by
    split
    · exact Mach.epoch_of_kept (Mach.measure_kept _ _ _)
    · rfl
  have hlists (a : Mach) (c : Prop) [Decidable c] : (if c then a.closeRefused else a).fb.epoch = a.fb.epoch := by
    split <;> simp
  simp only [hlists, hstore, hmeas, Mach.draftClose_epoch, Mach.setFb_fb, Mach.switchEpoch_epoch,
    Mach.epoch_of_kept (Mach.wake_kept m 6)]

/-- With no older epoch live, the surveyor's commit takes the next number (R59, R63). -/
theorem Mach.surveyorCommit_epoch {m : Mach} (h : m.fb.old = none) (n : Nat) :
    (m.surveyorCommit n).fb.epoch = m.fb.epoch % 0xFFFFFFFF + 1 := by
  unfold Mach.surveyorCommit
  simp only [h, Option.isSome_none, Bool.false_eq_true, if_false]
  rw [Mach.epoch_of_kept (Mach.openSites_kept _)]
  simp only [Mach.setFb_fb, Mach.switchEpoch_epoch, Mach.setCad_fb]
  rw [Mach.epoch_of_kept (Mach.foldl_kept (fun m x => Mach.setPhys_kept _ _ _ _ _) _ m)]

/-- Settles O11. -/
theorem epochNumbersCountUpAndSkipZero : Obligations.EpochNumbersCountUpAndSkipZero := by
  unfold Obligations.EpochNumbersCountUpAndSkipZero
  refine ⟨fun m bank cad n b h => ?_, fun m bank cad n b h => ?_, fun m bank cad n b => ?_, Mach.commitApply_epoch,
    fun m n h => Mach.surveyorCommit_epoch h n, fun _ => rfl⟩
  all_goals rw [Mach.switchEpoch_epoch]; omega

end Sys2Proof.Machine
end

section
/-! PROOFS. Requests (R74 to R76, R79): the requester as its path names it, its channel after a reply, and what a request comes to
when the Field Book serves and nothing of the requester waits. -/
namespace Sys2Proof.Machine

theorem itemKey_of_item? {m : Mach} {k : Nat} {i : Item} (h : m.item? k = some i) : itemKey i.ring i.seq = k := by
  unfold Mach.item? at h
  have hk := List.find?_some h
  exact of_decide_eq_true hk

theorem beq_chan_reply (c : Chan) (b : Bytes) : { c with reply := some b } ≠ ({} : Chan) :=
  fun e => nomatch congrArg Chan.reply e

/-! Channels. -/

theorem sdel_of_sget_none {α : Type} {s : SMap α} {k : Nat} (h : sget s k = none) : sdel s k = s := by
  induction s with
  | nil => rfl
  | cons p r ih =>
    obtain ⟨j, y⟩ := p
    unfold sget at h
    split_ifs at h with hj
    rw [sdel, if_neg hj, ih h]

/-- A channel that is not there is put to nothing: nothing changes. -/
theorem Mach.putChan_none {m : Mach} {rq : Rq} (h : sget m.fb.chans (rqCode rq) = none) : m.putChan rq {} = m := by
  simp only [Mach.putChan, if_true, sdel_of_sget_none h]
  rfl

theorem Mach.chanOf_none {m : Mach} {rq : Rq} (h : sget m.fb.chans (rqCode rq) = none) : m.chanOf rq = {} := by
  simp [Mach.chanOf, sgetD, h]

theorem Mach.chanOf_kept {a b : Mach} (rq : Rq) (h : a.kept = b.kept) : a.chanOf rq = b.chanOf rq := by
  rw [Mach.chanOf, Mach.chanOf, show a.fb.chans = b.fb.chans from congrArg Kept.chans h]

/-- Neither a frame of the requester is being carried out nor one held behind it. -/
def Mach.quiet (m : Mach) (rq : Rq) : Prop := (m.chanOf rq).cur = none ∧ (m.chanOf rq).held = []

theorem Mach.quiet_of_none {m : Mach} {rq : Rq} (h : sget m.fb.chans (rqCode rq) = none) : m.quiet rq := by
  rw [Mach.quiet, Mach.chanOf_none h]; exact ⟨rfl, rfl⟩

theorem Mach.drainHeld_of_quiet {m : Mach} {rq : Rq} (h : m.quiet rq) (z : Fuses) (n : Nat) : Mach.drainHeld z rq n m = m := by
  cases n with
  | zero => rfl
  | succ n => simp [Mach.drainHeld, h.1, h.2]

/-- While an action goes on, the frames behind it stay held. -/
theorem Mach.drainHeld_of_waiting {m : Mach} {rq : Rq} (h : (m.chanOf rq).cur.isSome) (z : Fuses) (n : Nat) :
    Mach.drainHeld z rq n m = m := by
  cases n with
  | zero => rfl
  | succ n => simp [Mach.drainHeld, h]

/-! Replies. -/

@[simp] theorem Mach.itemReply_kept (m : Mach) (k : Nat) (b bare : Bytes) : (m.itemReply k b bare).kept = m.kept := by
  unfold Mach.itemReply
  split
  · rfl
  · dsimp only
    split <;> simp

/-- A reply leaves everything of `kept` but, where it waits in a mailbox, the requester's own channel, which then holds it. -/
theorem Mach.sendReply_cases (m : Mach) (rq : Rq) (ty : Nat) (st : Status) (q : Nat) (b : Bytes) :
    (m.sendReply rq ty st q b).kept = m.kept ∨
      m.sendReply rq ty st q b = m.putChan rq { m.chanOf rq with reply := some (replyBytes ty st q b) } := by
  unfold Mach.sendReply
  cases rq with
  | session n => left; dsimp only; split <;> simp
  | hostPort n => dsimp only; split <;> simp
  | core c => dsimp only; split <;> simp
  | member k => simp
  | item ring seq ctx => simp

theorem Mach.sendReply_quiet {m : Mach} {rq : Rq} (h : m.quiet rq) (ty : Nat) (st : Status) (q : Nat) (b : Bytes) :
    (m.sendReply rq ty st q b).quiet rq := by
  rcases m.sendReply_cases rq ty st q b with hk | hk
  · rw [Mach.quiet, Mach.chanOf_kept rq hk]; exact h
  · rw [hk, Mach.quiet, Mach.chanOf_putChan _ _ (beq_chan_reply _ _)]; exact h

/-! The requester. -/

/-- The requester under which the model carries a request out: of an item's request, the item that the number names. -/
def Mach.asker (m : Mach) : Rq → Rq
  | .item ring seq ctx => match m.item? (itemKey ring seq) with
    | some i => .item i.ring i.seq i.ctx
    | none => .item ring seq ctx
  | rq => rq

theorem Mach.asker_eq {m : Mach} {rq : Rq} (h : rqClass rq ≠ 2) : m.asker rq = rq := by
  cases rq <;> first | rfl | exact absurd rfl h

theorem Mach.asker_cases (m : Mach) (rq : Rq) : m.asker rq = rq ∨
    ∃ ring seq ctx i, rq = .item ring seq ctx ∧ m.item? (itemKey ring seq) = some i ∧ m.asker rq = .item i.ring i.seq i.ctx := by
  cases rq with
  | item ring seq ctx =>
    cases hi : m.item? (itemKey ring seq) with
    | none => left; simp [Mach.asker, hi]
    | some i => right; exact ⟨ring, seq, ctx, i, rfl, hi, by simp [Mach.asker, hi]⟩
  | _ => exact .inl rfl

@[simp] theorem Mach.rqCode_asker (m : Mach) (rq : Rq) : rqCode (m.asker rq) = rqCode rq := by
  rcases m.asker_cases rq with h | ⟨ring, seq, ctx, i, rfl, hi, h⟩
  · rw [h]
  · have hkey := itemKey_of_item? hi
    simp only [itemKey] at hkey
    rw [h, rqCode, rqCode, hkey]

@[simp] theorem Mach.rqClass_asker (m : Mach) (rq : Rq) : rqClass (m.asker rq) = rqClass rq := by
  rcases m.asker_cases rq with h | ⟨ring, seq, ctx, i, rfl, hi, h⟩ <;> rw [h]
  rfl

@[simp] theorem Mach.bounded_asker (m : Mach) (rq : Rq) : bounded (m.asker rq) = bounded rq := by
  rcases m.asker_cases rq with h | ⟨ring, seq, ctx, i, rfl, hi, h⟩ <;> rw [h]
  rfl

@[simp] theorem Mach.isSession_asker (m : Mach) (rq : Rq) : isSession (m.asker rq) = isSession rq := by
  rcases m.asker_cases rq with h | ⟨ring, seq, ctx, i, rfl, hi, h⟩ <;> rw [h]
  rfl

theorem Mach.sendReply_asker (m a : Mach) (rq : Rq) (ty : Nat) (st : Status) (q : Nat) (b : Bytes) :
    a.sendReply (m.asker rq) ty st q b = a.sendReply rq ty st q b := by
  rcases m.asker_cases rq with h | ⟨ring, seq, ctx, i, rfl, hi, h⟩
  · rw [h]
  · rw [h]; simp only [Mach.sendReply, itemKey_of_item? hi]

/-! A request that its path takes. -/

@[simp] theorem Mach.setItem_fb (m : Mach) (i : Item) : (m.setItem i).fb = m.fb := rfl

@[simp] theorem Mach.startItem_fb (m : Mach) (k : Nat) : (m.startItem k).fb = m.fb := by
  unfold Mach.startItem; split <;> simp

@[simp] theorem Mach.opens_fb (m : Mach) (rq : Rq) : (m.opens rq).fb = m.fb := by
  cases rq <;> simp [Mach.opens, Mach.setHpAt]

theorem Mach.wake_active {m : Mach} (h : m.clk.pwr = 0) (code : Nat) : m.wake code = m := by simp [Mach.wake, h]

/-- A session whose path is open has said HELLO. -/
theorem Mach.pathOpen_session {m : Mach} {n : Nat} (h : m.pathOpen (.session n)) :
    ∃ x, sget m.fb.sessions n = some x ∧ x.hello = true := by
  simp only [Mach.pathOpen] at h
  split at h
  case h_1 x hx => exact ⟨x, hx, h⟩
  case h_2 => cases h

/-- A request of a requester that may ask is its frame carried out now, the requester's path taken (R75, R320, R459, R476, R488). -/
theorem Mach.request_of_asks {m : Mach} {rq : Rq} (h : m.asks rq) (z : Fuses) (f : Frame) :
    m.request z rq f = Mach.drainHeld z (m.asker rq) 16 ((m.opens rq).frameNow z (m.asker rq) f) := by
  simp only [Mach.asks, Bool.and_eq_true, Option.isNone_iff_eq_none] at h
  obtain ⟨⟨hserves, hopen⟩, hchan⟩ := h
  cases rq with
  | session n =>
    have hsess : shas m.fb.sessions n = true := by
      obtain ⟨x, hx, -⟩ := Mach.pathOpen_session hopen
      simp [shas, hx]
    simp [Mach.request, Mach.sessionFrame, hserves, hsess, Mach.chanOf_none hchan, Mach.opens, Mach.asker]
  | hostPort n =>
    simp only [Mach.pathOpen, Bool.and_eq_true, decide_eq_true_eq] at hopen
    obtain ⟨⟨⟨-, hport⟩, hpwr⟩, hgo⟩ := hopen
    simp [Mach.request, Mach.ownMbx, hserves, hport, hgo, Mach.wake_active hpwr, Mach.mailbox, Mach.opens, Mach.asker]
  | core c =>
    simp only [Mach.pathOpen, Bool.and_eq_true, decide_eq_true_eq] at hopen
    obtain ⟨⟨⟨-, hruns⟩, hfence⟩, hgo⟩ := hopen
    simp only [Option.isNone_iff_eq_none] at hfence
    simp [Mach.request, Mach.coreMbx, hserves, hruns, hfence, hgo, Mach.mailbox, Mach.opens, Mach.asker]
  | member k => simp [Mach.request, hserves, Mach.mailbox, Mach.opens, Mach.asker]
  | item ring seq ctx =>
    simp only [Mach.pathOpen] at hopen
    split at hopen
    case h_2 => cases hopen
    case h_1 i hi =>
      simp only [Bool.and_eq_true, decide_eq_true_eq, Bool.not_eq_true', Bool.and_eq_false_iff] at hopen
      obtain ⟨⟨⟨⟨hkind, hstart⟩, hctx⟩, hfree⟩, hskip⟩ := hopen
      have hkey : i.key = itemKey ring seq := itemKey_of_item? hi
      have hgoes : (i.skip && m.predecessorFailed i) = false := by rcases hskip with h | h <;> simp [h]
      simp [Mach.request, hi, hkind, hstart, hctx, hfree, hgoes, hserves, Mach.itemFrame, Mach.mailbox, Mach.opens, Mach.asker,
        hkey]

/-- A READ, WRITE or DESCRIBE frame without fault is its records, carried out in order (R76). -/
theorem Mach.frameNow_ops {m : Mach} {rq : Rq} {f : Frame} (hhello : ∀ n, rq = .session n → m.pathOpen rq)
    (hbad : frameBad rq true f = false) (hty : 2 ≤ f.ty ∧ f.ty ≤ 4) (z : Fuses) :
    m.frameNow z rq f = m.opsOn z rq f.ty f.reqId f.verif [] ((opsOf 256 f.payload).getD []) := by
  unfold Mach.frameNow
  cases rq with
  | session n =>
    obtain ⟨x, hx, hsaid⟩ := Mach.pathOpen_session (hhello n rfl)
    simp [hx, hsaid, hbad, hty]
  | _ => simp [hbad, hty]

theorem frameBad_asker (m : Mach) (rq : Rq) (b : Bool) (f : Frame) : frameBad (m.asker rq) b f = frameBad rq b f := by
  simp [frameBad]

/-- What a READ, WRITE or DESCRIBE frame without fault comes to. -/
theorem Mach.request_ops {m : Mach} {rq : Rq} {f : Frame} (h : m.hears rq f) (hty : 2 ≤ f.ty ∧ f.ty ≤ 4) (z : Fuses) :
    m.request z rq f = Mach.drainHeld z (m.asker rq) 16
      ((m.opens rq).opsOn z (m.asker rq) f.ty f.reqId f.verif [] ((opsOf 256 f.payload).getD [])) := by
  simp only [Mach.hears, Bool.and_eq_true, Bool.not_eq_true'] at h
  obtain ⟨hasks, hbad⟩ := h
  rw [Mach.request_of_asks hasks, Mach.frameNow_ops ?_ (by rw [frameBad_asker, hbad]) hty]
  intro n hn
  have hrq : rq = .session n := by
    rcases m.asker_cases rq with h | ⟨_, _, _, _, -, -, h⟩ <;> rw [h] at hn
    · exact hn
    · cases hn
  subst hrq
  simp only [Mach.asks, Bool.and_eq_true] at hasks
  exact hasks.1.2

end Sys2Proof.Machine
end

section
/-! PROOFS. CMD entries (R74 to R79): what the frame of a row of them comes to. -/
namespace Sys2Proof.Machine

/-- A key of a CMD entry, with its row. -/
def CmdRow (k : Nat) (e : EntryRow) : Prop := entryRow k = some e ∧ e.wr = 4 ∧ k % 256 ≠ 0

theorem CmdRow.entryAt {k : Nat} {e : EntryRow} (h : CmdRow k e) : entryAt k = some e := by
  obtain ⟨hrow, -, hsub⟩ := h
  rw [Machine.entryAt, if_neg hsub, hrow]

/-- Every row's index fits 16 bits, and its type is one of Table 2.2. -/
theorem entryRows_fit : (entryRows.all fun r => decide (r.idx + r.n ≤ 2 ^ 16 ∧ 1 ≤ r.ty ∧ r.ty ≤ 11)) = true := by decide +kernel

theorem entryRow_fits {k : Nat} {e : EntryRow} (h : entryRow k = some e) : k / 256 < 2 ^ 16 ∧ 1 ≤ e.ty ∧ e.ty ≤ 11 := by
  unfold entryRow at h
  have hmem := List.all_eq_true.mp entryRows_fit e (List.mem_of_find?_eq_some h)
  have hkey := List.find?_some h
  simp only [decide_eq_true_eq] at hmem hkey
  omega

theorem opKey_cmdRec (k : Nat) (v : Bytes) : opKey (cmdRec k v) = k := by
  simp only [opKey, key, cmdRec]; omega

theorem CmdRow.cmdRec_ty {k : Nat} {e : EntryRow} (h : CmdRow k e) (v : Bytes) : (cmdRec k v).ty = e.ty := by
  simp [cmdRec, h.1]

theorem CmdRow.fits {k : Nat} {e : EntryRow} (h : CmdRow k e) {v : Bytes} (hv : v.length ≤ 65512) : opFits (cmdRec k v) := by
  obtain ⟨hindex, hlo, hhi⟩ := entryRow_fits h.1
  refine ⟨hindex, Nat.mod_lt _ (by omega), by simp [cmdRec], ?_, by simp [cmdRec], ?_⟩
  · rw [h.cmdRec_ty]; omega
  · simp only [cmdRec]; omega

theorem cmdFrame_eq (k q : Nat) (v : Bytes) (f : Verif) : cmdFrame k q v f =
    { ty := 3, length := opSize (cmdRec k v), reqId := q, payload := opBytes (cmdRec k v), verif := f } := by
  rw [← opBytes_length]; rfl

theorem CmdRow.opsOf {k : Nat} {e : EntryRow} (h : CmdRow k e) {v : Bytes} (hv : v.length ≤ 65512) :
    opsOf 256 (opBytes (cmdRec k v)) = some [cmdRec k v] := by
  have hfit := opsOf_flatMap_opBytes [cmdRec k v] 256 (by simp) (by simpa using h.fits hv)
  simpa using hfit

theorem CmdRow.frameBad {k : Nat} {e : EntryRow} (h : CmdRow k e) {v : Bytes} (hv : v.length ≤ 65512) (rq : Rq) (q : Nat)
    (f : Verif) : frameBad rq true (cmdFrame k q v f) = false := by
  have hlen : opSize (cmdRec k v) ≤ 65520 := by simp only [opSize, cmdRec]; omega
  simp [Machine.frameBad, cmdFrame_eq, h.opsOf hv, hlen]

/-- Whether a write is refused depends on the requester's class alone, but for a draft. -/
theorem Mach.writeRefused_congr (m : Mach) {rq rq' : Rq} (e : EntryRow) {r : OpRec} (hclass : rqClass rq' = rqClass rq)
    (htarget : r.target = 0) : m.writeRefused rq' e r = m.writeRefused rq e r := by
  simp [Mach.writeRefused, hclass, htarget]

/-- A record of a CMD entry that nothing refuses is its action (R77, R79). -/
theorem CmdRow.opWrite {m : Mach} {rq : Rq} {k : Nat} {e : EntryRow} (h : CmdRow k e) {v : Bytes}
    (hfree : m.writeRefused rq e (cmdRec k v) = none) (z : Fuses) (f : Verif) :
    m.opWrite z rq f (cmdRec k v) = { m.act z rq k v f with m := (m.act z rq k v f).m.noteAll z } := by
  obtain ⟨-, hlo, hhi⟩ := entryRow_fits h.1
  have hform : opMalformed 3 (cmdRec k v) = false := by
    have hty := h.cmdRec_ty v
    simp only [cmdRec] at hty
    simp only [opMalformed, cmdRec, hty]
    simp
    omega
  simp only [Mach.opWrite, hform, opKey_cmdRec, h.entryAt, h.2.1]
  simp [cmdRec, Mach.cmdRefused] at hfree ⊢
  simp [hfree]

theorem CmdRow.opRun {m : Mach} {rq : Rq} {k : Nat} {e : EntryRow} (h : CmdRow k e) {v : Bytes}
    (hfree : m.writeRefused rq e (cmdRec k v) = none) (z : Fuses) (f : Verif) :
    m.opRun z rq 3 f (cmdRec k v) = ({ m.act z rq k v f with m := (m.act z rq k v f).m.noteAll z }, e.ty) := by
  rw [Mach.opRun, if_pos rfl, h.opWrite hfree, opKey_cmdRec, h.entryAt]

/-- The bytes that the record of an action takes at most fit a reply. -/
theorem waitBytes_le {r : OpRec} (h : r.value.length ≤ 65512) (w : Wait) : waitBytes r w ≤ 65512 := by
  unfold waitBytes
  split
  · omega
  · split <;> omega
  · omega
  · omega

@[simp] theorem Mach.noteAll_chans (m : Mach) (z : Fuses) : (m.noteAll z).fb.chans = m.fb.chans := rfl

/-- Records answered so far and one more, with room for the records behind it (R699). -/
def roomFor (rq : Rq) (done : List OpRec) (a : OpRec) (rest : List OpRec) : Prop :=
  bounded rq = true → (done.map opSize).foldl (· + ·) 0 + opSize a + 8 * rest.length ≤ 65520

/-- A record that is answered at once and for which there is room is answered, and the records behind it go on. -/
theorem Mach.runOps_answered {m : Mach} {z : Fuses} {rq : Rq} {ty : Nat} {f : Verif} {done rest : List OpRec} {r : OpRec}
    {x : CmdRes × Nat} (hx : m.opRun z rq ty f r = x) (hw : x.1.wait = none)
    (hroom : roomFor rq done (opAnswer r x.1.st x.2 x.1.val) rest) :
    Mach.runOps z rq ty f m done (r :: rest) = Mach.runOps z rq ty f x.1.m (opAnswer r x.1.st x.2 x.1.val :: done) rest := by
  rw [Mach.runOps, hx]
  simp only [hw]
  rw [if_neg]
  simpa [roomFor] using hroom

/-- A record whose action goes on waits, and the records behind it. -/
theorem Mach.runOps_waits {m : Mach} {z : Fuses} {rq : Rq} {ty : Nat} {f : Verif} {done rest : List OpRec} {r : OpRec}
    {x : CmdRes × Nat} {w : Wait} (hx : m.opRun z rq ty f r = x) (hw : x.1.wait = some w)
    (hroom : roomFor rq done (opAnswer r x.1.st x.2 (List.replicate (waitBytes r w) 0)) rest) :
    Mach.runOps z rq ty f m done (r :: rest) = (x.1.m, done, some (r, rest, w)) := by
  rw [Mach.runOps, hx]
  simp only [hw]
  rw [if_neg]
  simpa [roomFor] using hroom

/-- Every record answered, and no frame of the requester in its channel: the reply goes out. -/
theorem Mach.opsOn_answered {m m' : Mach} {z : Fuses} {rq : Rq} {ty q : Nat} {f : Verif} {ops done : List OpRec}
    (hrun : Mach.runOps z rq ty f m [] ops = (m', done, none)) (hchan : sget m'.fb.chans (rqCode rq) = none) :
    m.opsOn z rq ty q f [] ops = m'.sendReply rq ty .done q (done.reverse.flatMap opBytes) := by
  rw [Mach.opsOn, hrun]
  simp only [Mach.chanOf_none hchan]
  rw [Mach.putChan_none hchan]

theorem roomFor_one {rq : Rq} {a : OpRec} (h : bounded rq = true → a.value.length ≤ 65512) : roomFor rq [] a [] := by
  intro hrq
  have := h hrq
  simp [opSize]
  omega

/-- The frame of one record of a CMD entry whose action ends at once: its answer goes out (R79). -/
theorem CmdRow.opsOn_answered {m : Mach} {rq : Rq} {k : Nat} {e : EntryRow} (h : CmdRow k e) {v : Bytes}
    (hfree : m.writeRefused rq e (cmdRec k v) = none) {z : Fuses} {q : Nat} {f : Verif} {a : CmdRes}
    (ha : m.act z rq k v f = a) (hw : a.wait = none) (hchan : sget a.m.fb.chans (rqCode rq) = none)
    (hval : bounded rq = true → a.val.length ≤ 65512) :
    m.opsOn z rq 3 q f [] [cmdRec k v] =
      (a.m.noteAll z).sendReply rq 3 .done q (opBytes { cmdRec k a.val with status := a.st.code }) := by
  have hanswer : opAnswer (cmdRec k v) a.st e.ty a.val = { cmdRec k a.val with status := a.st.code } := by
    simp only [opAnswer, cmdRec, h.1, ite_self]
  have hrun := Mach.runOps_answered (done := []) (rest := []) (h.opRun hfree z f) (by rw [ha]; exact hw)
    (roomFor_one (by rw [ha]; exact hval))
  rw [Mach.opsOn_answered hrun (by rw [ha]; exact hchan)]
  simp [ha, hanswer]

/-- The frame of one record of a CMD entry whose action goes on waits for it (R79). -/
theorem CmdRow.opsOn_waits {m : Mach} {rq : Rq} {k : Nat} {e : EntryRow} (h : CmdRow k e) {v : Bytes} (hv : v.length ≤ 65512)
    (hfree : m.writeRefused rq e (cmdRec k v) = none) {z : Fuses} {q : Nat} {f : Verif} {a : CmdRes} {w : Wait}
    (ha : m.act z rq k v f = a) (hw : a.wait = some w) (hchan : sget a.m.fb.chans (rqCode rq) = none) :
    m.opsOn z rq 3 q f [] [cmdRec k v] = (a.m.noteAll z).putChan rq
      { cur := some { rq, ty := 3, reqId := q, verif := f, done := [], cur := cmdRec k v, rest := [], wait := w } } := by
  have hrun := Mach.runOps_waits (done := []) (rest := []) (h.opRun hfree z f) (by rw [ha]; exact hw)
    (roomFor_one fun _ => by simpa [opAnswer] using waitBytes_le hv w)
  have hnone : sget (a.m.noteAll z).fb.chans (rqCode rq) = none := hchan
  rw [Mach.opsOn, hrun, ha]
  simp only [Mach.chanOf_none hnone]

/-- What `takes` says of a row of the CMD entries. -/
theorem Mach.takes_row {m : Mach} {i : Instr} {c : CmdReq} {e : EntryRow} (h : m.takes i) (hc : asCmd i = some c)
    (hrow : CmdRow c.key e) : m.asks c.rq = true ∧ c.value.length ≤ 65512 ∧
      (m.opens c.rq).writeRefused (m.asker c.rq) e (cmdRec c.key c.value) = none := by
  rw [Mach.takes, hc] at h
  simp only [Bool.and_eq_true, decide_eq_true_eq, hrow.entryAt, Option.isNone_iff_eq_none] at h
  obtain ⟨⟨hasks, hlen⟩, hfree⟩ := h
  exact ⟨hasks, hlen, by rw [Mach.writeRefused_congr _ e (m.rqClass_asker c.rq) rfl, hfree]⟩

/-- The request of a CMD entry that nothing refuses is its frame's one record. -/
theorem Mach.command_of_takes {m : Mach} {i : Instr} {c : CmdReq} {e : EntryRow} (h : m.takes i) (hc : asCmd i = some c)
    (hrow : CmdRow c.key e) (z : Fuses) : m.command z c.rq c.key c.reqId c.value c.verif =
      Mach.drainHeld z (m.asker c.rq) 16
        ((m.opens c.rq).opsOn z (m.asker c.rq) 3 c.reqId c.verif [] [cmdRec c.key c.value]) := by
  obtain ⟨hasks, hlen, -⟩ := Mach.takes_row h hc hrow
  have hhears : m.hears c.rq (cmdFrame c.key c.reqId c.value c.verif) = true := by
    rw [Mach.hears, hasks, hrow.frameBad hlen]; rfl
  rw [Mach.command, Mach.request_ops hhears (by simp [cmdFrame_eq])]
  simp only [cmdFrame_eq, hrow.opsOf hlen, Option.getD_some]

/-- A row of the CMD entries that nothing refuses, whose action ends at once, is the action, the notifications and the reply (R75, R79,
R81). -/
theorem Mach.command_answered {m : Mach} {i : Instr} {c : CmdReq} {e : EntryRow} (h : m.takes i) (hc : asCmd i = some c)
    (hrow : CmdRow c.key e) {z : Fuses} {a : CmdRes} (ha : (m.opens c.rq).act z (m.asker c.rq) c.key c.value c.verif = a)
    (hw : a.wait = none) (hchan : sget a.m.fb.chans (rqCode c.rq) = none) (hval : bounded c.rq = true → a.val.length ≤ 65512) :
    m.command z c.rq c.key c.reqId c.value c.verif = (a.m.noteAll z).replies c a.st a.val := by
  obtain ⟨-, -, hfree⟩ := Mach.takes_row h hc hrow
  have hquiet : (a.m.noteAll z).quiet (m.asker c.rq) := Mach.quiet_of_none (by rw [m.rqCode_asker]; exact hchan)
  rw [Mach.command_of_takes h hc hrow, hrow.opsOn_answered hfree ha hw (by simpa using hchan) (by simpa using hval),
    Mach.drainHeld_of_quiet (Mach.sendReply_quiet hquiet ..), Mach.sendReply_asker]
  rfl

/-- A row of the CMD entries that nothing refuses, whose action goes on, is the action and the notifications, and its frame waits. -/
theorem Mach.command_waits {m : Mach} {i : Instr} {c : CmdReq} {e : EntryRow} (h : m.takes i) (hc : asCmd i = some c)
    (hrow : CmdRow c.key e) (hclass : rqClass c.rq ≠ 2) {z : Fuses} {a : CmdRes} {w : Wait}
    (ha : (m.opens c.rq).act z c.rq c.key c.value c.verif = a) (hw : a.wait = some w)
    (hchan : sget a.m.fb.chans (rqCode c.rq) = none) :
    m.command z c.rq c.key c.reqId c.value c.verif = (a.m.noteAll z).putChan c.rq { cur := some (c.waiting w) } := by
  obtain ⟨-, hlen, hfree⟩ := Mach.takes_row h hc hrow
  rw [Mach.asker_eq hclass] at hfree
  rw [Mach.command_of_takes h hc hrow, Mach.asker_eq hclass, hrow.opsOn_waits hlen hfree ha hw hchan,
    Mach.drainHeld_of_waiting]
  · rfl
  · have hfull (p : Partial) : ({ cur := some p } : Chan) ≠ {} := fun e => nomatch congrArg Chan.cur e
    rw [Mach.chanOf_putChan _ _ (hfull _)]; rfl

/-- `i` is the request of the CMD entry that `c` names. -/
def isCommand (i : Instr) (c : CmdReq) : Prop :=
  asCmd i = some c ∧ ∀ s, exec i s = runFz s fun z m => m.command z c.rq c.key c.reqId c.value c.verif

/-- A row of the CMD entries that nothing refuses and whose action ends with DONE is answered so. -/
theorem isCommand.answersAt {i : Instr} {c : CmdReq} {e : EntryRow} (hi : isCommand i c) (hrow : CmdRow c.key e) {s : State}
    (h : s.hw.takes i) {a : CmdRes} (ha : (s.hw.opens c.rq).act s.fuses (s.hw.asker c.rq) c.key c.value c.verif = a)
    (hst : a.st = .done) (hw : a.wait = none) (hchan : sget a.m.fb.chans (rqCode c.rq) = none)
    (hval : bounded c.rq = true → a.val.length ≤ 65512) {p : Mach → Mach → Bytes → Prop}
    (hp : p (s.hw.opens c.rq) a.m a.val) : answersAt i s p := by
  simp only [Machine.answersAt, hi.1]
  refine completes_runFz (hi.2 s) ⟨a.m, a.val, ?_, hp⟩
  rw [Mach.command_answered h hi.1 hrow ha hw hchan hval, hst]

end Sys2Proof.Machine
end

section
/-! PROOFS. The module with a request taken, and the CMD entries that class C does not write (Table 2.4): drafts, layers, licences and
counters. -/
namespace Sys2Proof.Machine

/-- Taking a request marks its path, and nothing else of the module is changed. -/
theorem Mach.opens_frame (m : Mach) (rq : Rq) : (m.opens rq).grid = m.grid ∧ (m.opens rq).cad = m.cad ∧ (m.opens rq).age = m.age ∧
    (m.opens rq).pwr = m.pwr ∧ (m.opens rq).trv = m.trv ∧ (m.opens rq).sec = m.sec ∧ (m.opens rq).clk = m.clk := by
  cases rq with
  | item ring seq ctx =>
    simp only [Mach.opens, Mach.startItem]
    split <;> exact ⟨rfl, rfl, rfl, rfl, rfl, rfl, rfl⟩
  | _ => exact ⟨rfl, rfl, rfl, rfl, rfl, rfl, rfl⟩

theorem Mach.opens_rng (m : Mach) {rq : Rq} (h : rqClass rq ≠ 2) : (m.opens rq).rng = m.rng := by
  cases rq with
  | item ring seq ctx => exact absurd rfl h
  | _ => rfl

/-- A CMD entry that no item writes. -/
def isClassedKey (k : Nat) : Bool :=
  match entryRow k with
  | some e => e.wr = 4 && k % 256 ≠ 0 && !e.writes 2
  | none => false

theorem cmdRow_of_isClassedKey {k : Nat} (h : isClassedKey k = true) : ∃ e, CmdRow k e ∧ e.writes 2 = false := by
  unfold isClassedKey at h
  split at h
  case h_1 e he =>
    simp only [Bool.and_eq_true, decide_eq_true_eq, Bool.not_eq_true'] at h
    exact ⟨e, ⟨he, h.1.1, h.1.2⟩, h.2⟩
  case h_2 => cases h

/-- A requester that an entry's ACCESS bits do not let write it is refused. -/
theorem Mach.writes_of_writeRefused {m : Mach} {rq : Rq} {e : EntryRow} {r : OpRec} (h : m.writeRefused rq e r = none) :
    e.writes (rqClass rq) = true := by
  by_contra hno
  have hbad : (!e.writes (rqClass rq)) = true := by simpa using hno
  simp [Mach.writeRefused, firstBad, hbad] at h

theorem Mach.class_of_takes {m : Mach} {i : Instr} {c : CmdReq} {e : EntryRow} (h : m.takes i) (hc : asCmd i = some c)
    (hrow : CmdRow c.key e) (hacc : e.writes 2 = false) : rqClass c.rq ≠ 2 := by
  obtain ⟨-, -, hfree⟩ := Mach.takes_row h hc hrow
  have hw := Mach.writes_of_writeRefused hfree
  rw [m.rqClass_asker] at hw
  intro h2
  rw [h2, hacc] at hw
  cases hw

theorem Mach.chans_of_takes {m : Mach} {i : Instr} {c : CmdReq} (h : m.takes i) (hc : asCmd i = some c) :
    sget m.fb.chans (rqCode c.rq) = none := by
  rw [Mach.takes, hc] at h
  simp only [Mach.asks, Bool.and_eq_true, Option.isNone_iff_eq_none] at h
  exact h.1.1.2

/-- A row of the CMD entries that no item writes and that nothing refuses, whose action ends with DONE and leaves the channels, is
answered so: `p` holds of the module with the request taken, the action's module and its value. -/
theorem isCommand.answersAt_classed {i : Instr} {c : CmdReq} (hi : isCommand i c) (hkey : isClassedKey c.key = true) {s : State}
    (h : s.hw.takes i) {p : Mach → Mach → Bytes → Prop}
    (hact : rqClass c.rq ≠ 2 → ∃ a, (s.hw.opens c.rq).act s.fuses c.rq c.key c.value c.verif = a ∧ a.st = .done ∧ a.wait = none ∧
      a.m.fb.chans = s.hw.fb.chans ∧ a.val.length ≤ 65512 ∧ p (s.hw.opens c.rq) a.m a.val) : Machine.answersAt i s p := by
  obtain ⟨e, hrow, hacc⟩ := cmdRow_of_isClassedKey hkey
  have hclass := Mach.class_of_takes h hi.1 hrow hacc
  obtain ⟨a, ha, hst, hw, hchans, hval, hp⟩ := hact hclass
  refine hi.answersAt hrow h (a := a) ?_ hst hw ?_ (fun _ => hval) hp
  · rw [Mach.asker_eq hclass]; exact ha
  · rw [hchans]; exact Mach.chans_of_takes h hi.1

/-- As `answersAt_classed`, of an action that goes on. -/
theorem isCommand.awaits_classed {i : Instr} {c : CmdReq} (hi : isCommand i c) (hkey : isClassedKey c.key = true) {h : Mach}
    (ht : h.takes i) {w : Wait} {p : Mach → Mach → Prop}
    (hact : rqClass c.rq ≠ 2 → ∀ z, ∃ a, (h.opens c.rq).act z c.rq c.key c.value c.verif = a ∧ a.wait = some w ∧
      a.m.fb.chans = h.fb.chans ∧ p (h.opens c.rq) a.m) : awaits i h w p := by
  obtain ⟨e, hrow, hacc⟩ := cmdRow_of_isClassedKey hkey
  have hclass := Mach.class_of_takes ht hi.1 hrow hacc
  simp only [awaits, hi.1]
  rintro s rfl
  obtain ⟨a, ha, hw, hchans, hp⟩ := hact hclass s.fuses
  refine completes_runFz (hi.2 s) ⟨a.m, ?_, hp⟩
  exact Mach.command_waits ht hi.1 hrow hclass ha hw (by rw [hchans]; exact Mach.chans_of_takes ht hi.1)

/-! Drafts. -/

theorem Mach.draftConflict_nil (m : Mach) : m.draftConflict [] = none := by
  simp [Mach.draftConflict, Mach.newSheet, sget, layOver, skeys, Mach.badGroup, groupsFor, shas]

/-- A commit of an empty draft by its owner ends it at once (R57). -/
theorem Mach.commit_empty {m : Mach} {rq : Rq} {d : Draft} (hd : m.fb.draft = some d) (howner : d.owner = draftOwner rq)
    (hheld : d.held = false) (hents : d.ents = []) : m.commit rq =
      { m := m.draftClose.setFb { m.draftClose.fb with lastStatus := .done }, val := leB 4 m.fb.epoch } := by
  simp [Mach.commit, hd, howner, hheld, hents, Mach.draftConflict_nil]

theorem isCommand_commit (rq : Rq) (q : Nat) (v : Bytes) (f : Verif) : isCommand (.commit rq q v f) ⟨rq, kCommit, q, v, f⟩ :=
  ⟨rfl, fun _ => rfl⟩

theorem isClassedKey_commit : isClassedKey kCommit = true := by decide +kernel

/-- Settles O10. -/
theorem commitOfAnEmptyDraftClosesIt : Obligations.CommitOfAnEmptyDraftClosesIt := by
  unfold Obligations.CommitOfAnEmptyDraftClosesIt
  constructor
  · intro m rq d hd howner hheld hents
    rw [Mach.commit_empty hd howner hheld hents]
    exact ⟨rfl, rfl, rfl, rfl, rfl, rfl, rfl, rfl⟩
  · rintro _ rq q v f d i ht hd howner hheld hents s rfl
    refine (isCommand_commit rq q v f).answersAt_classed isClassedKey_commit ht fun _ => ?_
    have hcommit := Mach.commit_empty (m := s.hw.opens rq) (rq := rq) (by simpa using hd) howner hheld hents
    refine ⟨_, hcommit, rfl, rfl, ?_, by simp, ?_⟩
    · simp [Mach.draftClose, Mach.unhold]
    · simp [Mach.draftClose, Mach.unhold, s.hw.opens_frame rq]

end Sys2Proof.Machine
end

section
/-! PROOFS. Draft, commit, licence, layer and counter commands (R49, R50, R56 to R58, R69, R84, R529, R530, R698). -/
namespace Sys2Proof.Machine

/-! Events of no context, and maps changed at some keys. -/

theorem Mach.event_rng (m : Mach) (c k v : Nat) (u : UnitRef) (d : Nat) : (m.event c k v u 0 d).rng = m.rng := by
  rw [Mach.event_none]; rfl

/-- A map with the keys that `p` rules out removed. -/
theorem sget_filter_key {α : Type} (p : Nat → Bool) (s : SMap α) (k : Nat) :
    sget (s.filter fun c => p c.1) k = if p k then sget s k else none := by
  induction s with
  | nil => simp [sget]
  | cons c r ih =>
    obtain ⟨j, y⟩ := c
    by_cases hj : j = k
    · subst hj
      cases hp : p j <;> simp [List.filter, hp, sget, ih]
    · cases hp : p j <;> simp [List.filter, hp, sget, hj, ih]

theorem sget_foldl_sput_ne {α : Type} (g : Nat → α) (l : List Nat) (s : SMap α) {j : Nat} (h : j ∉ l) :
    sget (l.foldl (fun s k => sput s k (g k)) s) j = sget s j := by
  induction l generalizing s with
  | nil => rfl
  | cons k l ih =>
    rw [List.foldl_cons, ih _ fun hj => h (List.mem_cons_of_mem _ hj), sget_sput_ne]
    rintro rfl
    exact h List.mem_cons_self

/-! Drafts. -/

theorem Mach.discardDraft_open {m : Mach} {d : Draft} (hd : m.fb.draft = some d) (hheld : d.held = false) (code : Nat) :
    (m.discardDraft code).kept = { m.kept with draft := none } ∧ (m.discardDraft code).rng = m.rng := by
  simp only [Mach.discardDraft, hd, hheld, Bool.false_eq_true, if_false, Mach.event_kept, Mach.event_rng]
  exact ⟨rfl, rfl⟩

/-- A commit of its owner's draft that its licences and coupling groups let pass waits for the epoch to be free (R58). -/
theorem Mach.commit_waits {m : Mach} {rq : Rq} {d : Draft} (hd : m.fb.draft = some d) (howner : d.owner = draftOwner rq)
    (hheld : d.held = false) (hents : d.ents ≠ [])
    (hlic : d.ents.all (fun p => (match entryRow p.1 with | some e => e.lic = 0 || m.hasLicence (e.lic - 1) | none => true)) = true)
    (hfree : m.draftConflict d.ents = none) : m.commit rq =
      { m := m.setFb { m.fb with draft := some { d with held := true }, committing := some rq }, wait := some .commit } := by
  simp only [Mach.commit, hd]
  rw [if_neg (not_not.mpr howner), if_neg (by simp [hheld]), if_neg ?_]
  · simp only [hfree]
    rw [if_neg (by simpa using hents)]
  · rw [Bool.not_eq_true, List.any_eq_false]
    intro p hp
    have hgood := List.all_eq_true.mp hlic p hp
    cases he : entryRow p.1 with
    | none => simp
    | some e =>
      simp only [he, Bool.or_eq_true, decide_eq_true_eq] at hgood
      rcases hgood with h | h <;> simp [h]

theorem Mach.opens_hasLicence (m : Mach) (rq : Rq) (l : Nat) : (m.opens rq).hasLicence l = m.hasLicence l := by
  simp [Mach.hasLicence]

/-- A field that a write of a host port keeps is kept at every port; likewise of a core. -/
theorem Mach.hpAt_setHpAt_keep {β : Type} (m : Mach) (n k : Nat) (x : HostPort) (f : HostPort → β) (h : f x = f (m.hpAt n)) :
    f ((m.setHpAt n x).hpAt k) = f (m.hpAt k) := nth_setAt_keep _ _ _ _ _ f h

theorem Mach.coreAt_setCoreAt_keep {β : Type} (m : Mach) (n k : Nat) (x : Core) (f : Core → β) (h : f x = f (m.coreAt n)) :
    f ((m.setCoreAt n x).coreAt k) = f (m.coreAt k) := nth_setAt_keep _ _ _ _ _ f h

/-- Taking a request leaves the roles and far memories of the host ports and the contexts of the cores. -/
theorem Mach.opens_units (m : Mach) (rq : Rq) : (∀ n, ((m.opens rq).hpAt n).role = (m.hpAt n).role) ∧
    (∀ n, ((m.opens rq).hpAt n).capacity = (m.hpAt n).capacity) ∧ (∀ c, ((m.opens rq).coreAt c).ctx = (m.coreAt c).ctx) ∧
    (m.opens rq).site = m.site := by
  cases rq with
  | hostPort n => exact ⟨fun k => m.hpAt_setHpAt_keep n k _ HostPort.role rfl,
      fun k => m.hpAt_setHpAt_keep n k _ HostPort.capacity rfl, fun _ => rfl, rfl⟩
  | core c => exact ⟨fun _ => rfl, fun _ => rfl,
      fun k => m.coreAt_setCoreAt_keep c k _ Core.ctx rfl, rfl⟩
  | item ring seq ctx => simp only [Mach.opens, Mach.startItem]; split <;> exact ⟨fun _ => rfl, fun _ => rfl, fun _ => rfl, rfl⟩
  | _ => exact ⟨fun _ => rfl, fun _ => rfl, fun _ => rfl, rfl⟩

theorem Mach.opens_runVal (m : Mach) (rq : Rq) (k : Nat) : (m.opens rq).runVal k = m.runVal k := by
  simp only [Mach.runVal, Mach.opens_fb]

theorem Mach.opens_usesRemoved (m : Mach) {rq : Rq} (h : rqClass rq ≠ 2) (ctx : Nat) (had has : Nat → Nat → Bool) :
    (m.opens rq).usesRemoved ctx had has = m.usesRemoved ctx had has := by
  simp only [Mach.usesRemoved, Mach.segsOf, (m.opens_units rq).2.2.1, (m.opens_frame rq).1, m.opens_rng h]

theorem Mach.opens_groupGood (m : Mach) {rq : Rq} (h : rqClass rq ≠ 2) (v : Nat → Bytes) (g : Nat) :
    (m.opens rq).groupGood v g = m.groupGood v g := by
  obtain ⟨hrole, hcap, -, hsite⟩ := m.opens_units rq
  have hplat : (m.opens rq).platGood v = m.platGood v := by
    simp only [Mach.platGood, Mach.siteAt, Mach.ringInPlat, Mach.plat, Mach.cfg, Mach.opens_runVal, m.opens_usesRemoved h, hrole,
      hsite, m.opens_rng h]
    rfl
  simp only [Mach.groupGood, hplat, hcap]

/-- What couples a draft's values is not changed by taking its owner's request. -/
theorem Mach.opens_draftConflict (m : Mach) {rq : Rq} (h : rqClass rq ≠ 2) (ents : SMap Bytes) :
    (m.opens rq).draftConflict ents = m.draftConflict ents := by
  have hsheet : (m.opens rq).newSheet ents = m.newSheet ents := by
    simp only [Mach.newSheet, Mach.cfg, Mach.opens_runVal]
    rfl
  have hlayer (n : Nat) : (m.opens rq).goodLayer n = m.goodLayer n := by
    simp only [Mach.goodLayer, Mach.sheet, Mach.opens_fb, (m.opens_frame rq).2.1]
  simp only [Mach.draftConflict, hsheet, hlayer, Mach.badGroup, m.opens_groupGood h, Mach.opens_runVal]

/-! Layers and counters. -/

theorem Mach.event_sheets (m : Mach) (c k v : Nat) (u : UnitRef) (x d : Nat) : (m.event c k v u x d).fb.sheets = m.fb.sheets := by
  have h := congrArg Fb.sheets (Mach.event_fb m c k v u x d).1
  exact h

theorem Mach.measure_sheets (m : Mach) (i : Nat) (d : Bytes) : (m.measure i d).fb.sheets = m.fb.sheets :=
  Mach.event_sheets _ _ _ _ _ _ _

theorem Mach.putLayer_sheet (m : Mach) {j : Nat} (h : j ≠ 8) (s : SMap Bytes) : (m.putLayer j s).sheet j = s := by
  simp [Mach.putLayer, Mach.measureLayer, h, Mach.sheet, Mach.measure_sheets]

theorem mem_measuredKeys {lo hi k : Nat} (h : k ∈ measuredKeys lo hi) :
    isMeasured k = true ∧ lo ≤ k / 256 ∧ k / 256 < hi := by
  simp only [measuredKeys, List.mem_flatMap] at h
  obtain ⟨r, hr, hk⟩ := h
  have hsub : r.sub < 256 := by
    have hall : (entryRows.all fun r => decide (r.sub < 256)) = true := by decide +kernel
    exact of_decide_eq_true (List.all_eq_true.mp hall r hr)
  split at hk
  · cases hk
  · simp only [List.mem_filterMap, List.mem_range] at hk
    obtain ⟨i, -, hi⟩ := hk
    split at hi
    case isTrue hc =>
      obtain rfl := Option.some.inj hi
      simp only [Bool.and_eq_true, decide_eq_true_eq] at hc
      have hidx : key (r.idx + i) r.sub / 256 = r.idx + i := by unfold key; omega
      rw [hidx]
      exact ⟨hc.1.1, hc.1.2, hc.2⟩
    case isFalse => cases hi

/-- A counter area zeroed: what is not measured reads its default, and what is measured the sensors' value; other areas stay. -/
theorem Mach.zeroArea_ctr (m : Mach) (lo hi k : Nat) :
    (lo ≤ k / 256 → k / 256 < hi → isMeasured k = false → sget (m.zeroArea lo hi).fb.ctr k = none) ∧
    (k / 256 < lo ∨ hi ≤ k / 256 → sget (m.zeroArea lo hi).fb.ctr k = sget m.fb.ctr k) := by
  have hfilter := sget_filter_key (fun i => i / 256 < lo || hi ≤ i / 256) m.fb.ctr k
  constructor
  · intro hlo hhi hmeas
    have hmem : k ∉ measuredKeys lo hi := fun hk => by simp [(mem_measuredKeys hk).1] at hmeas
    simp only [Mach.zeroArea, Mach.setFb_fb, sget_foldl_sput_ne _ _ _ hmem, hfilter]
    rw [if_neg]
    simp; omega
  · intro hout
    have hmem : k ∉ measuredKeys lo hi := fun hk => by
      obtain ⟨-, h1, h2⟩ := mem_measuredKeys hk
      omega
    simp only [Mach.zeroArea, Mach.setFb_fb, sget_foldl_sput_ne _ _ _ hmem, hfilter]
    rw [if_pos]
    simpa using hout

theorem Mach.act_sheetClear (m : Mach) (z : Fuses) (rq : Rq) {j : Nat} (h : j < 8) (v : Bytes) (f : Verif) :
    m.act z rq (kSheetClear + 256 * j) v f = m.sheetClear j := by
  interval_cases j <;> rfl

/-- The keys of these commands are of CMD entries that no item writes. -/
theorem isClassedKey_layers : ([kDraftOpen, kDraftDiscard, kLicenceInstall, kLicenceRemove, kSaveRunning, kCounterClear] ++
    (List.range 8).map (kSheetClear + 256 * ·)).all isClassedKey = true := by decide +kernel

theorem isClassedKey_layer {k : Nat} (h : k ∈ [kDraftOpen, kDraftDiscard, kLicenceInstall, kLicenceRemove, kSaveRunning,
    kCounterClear] ++ (List.range 8).map (kSheetClear + 256 * ·)) : isClassedKey k = true :=
  List.all_eq_true.mp isClassedKey_layers k h

/-- Settles O54. -/
theorem draftAndLayerCommands : Obligations.DraftAndLayerCommands := by
  unfold Obligations.DraftAndLayerCommands
  intro rq q v f
  refine ⟨fun h => ⟨?_, ?_, ?_, ?_⟩, ?_, fun h => ⟨?_, ?_, ?_, ?_⟩⟩
  · rintro i ht hd s rfl
    have hi : isCommand i ⟨rq, kDraftOpen, q, v, f⟩ := ⟨rfl, fun _ => rfl⟩
    refine hi.answersAt_classed (isClassedKey_layer (by simp)) ht fun hclass => ⟨_, rfl, ?_⟩
    have hopen : (s.hw.opens rq).act s.fuses rq kDraftOpen v f = (s.hw.opens rq).draftOpen rq := rfl
    simp [hopen, Mach.draftOpen, hd, Mach.hold, Mach.opens_rng _ hclass, s.hw.opens_frame rq]
  · rintro d i ht hd howner hheld s rfl
    have hi : isCommand i ⟨rq, kDraftDiscard, q, v, f⟩ := ⟨rfl, fun _ => rfl⟩
    refine hi.answersAt_classed (isClassedKey_layer (by simp)) ht fun hclass => ⟨_, rfl, ?_⟩
    have hact : (s.hw.opens rq).act s.fuses rq kDraftDiscard v f = { m := (s.hw.opens rq).discardDraft 1 } := by
      show (s.hw.opens rq).draftDiscard rq = _
      simp [Mach.draftDiscard, hd, howner, hheld]
    obtain ⟨hkept, hrng⟩ := Mach.discardDraft_open (m := s.hw.opens rq) (by simpa using hd) hheld 1
    refine ⟨by rw [hact], by rw [hact], ?_, by rw [hact]; simp, by rw [hact], ?_, ?_, ?_⟩ <;> rw [hact]
    · simpa [Mach.kept] using congrArg Kept.chans hkept
    · simpa [Mach.kept] using congrArg Kept.draft hkept
    · simpa [Mach.kept] using congrArg Kept.cur hkept
    · simp [hrng, Mach.opens_rng _ hclass]
  · rintro d i ht hd howner hheld hents s rfl
    refine (isCommand_commit rq q v f).answersAt_classed isClassedKey_commit ht fun _ => ?_
    have hcommit := Mach.commit_empty (m := s.hw.opens rq) (rq := rq) (by simpa using hd) howner hheld hents
    refine ⟨_, hcommit, rfl, rfl, ?_, by simp, ?_⟩ <;> simp [Mach.draftClose, Mach.unhold]
  · rintro d i ht hd howner hheld hents hlic hfree
    refine (isCommand_commit rq q v f).awaits_classed isClassedKey_commit ht fun hclass z => ?_
    have hcommit := Mach.commit_waits (m := h.opens rq) (rq := rq) (by simpa using hd) howner hheld hents
      (by
        rw [List.all_eq_true] at hlic ⊢
        intro p hp
        have := hlic p hp
        cases he : entryRow p.1 with
        | none => rfl
        | some e => simpa [he, Mach.opens_hasLicence] using this)
      (by rw [Mach.opens_draftConflict _ hclass]; exact hfree)
    exact ⟨_, hcommit, rfl, by simp, by simp⟩
  · intro s i ht hshape hchain hsig hroom
    have hi : isCommand i ⟨rq, kLicenceInstall, q, v, f⟩ := ⟨rfl, fun _ => rfl⟩
    refine hi.answersAt_classed (isClassedKey_layer (by simp)) ht fun hclass => ⟨_, rfl, ?_⟩
    have hact : (s.hw.opens rq).act s.fuses rq kLicenceInstall v f = (s.hw.opens rq).licInstall s.fuses v f := rfl
    simp [hact, Mach.licInstall, hshape, hchain, hsig, Nat.not_le.mpr hroom]
  · rintro i ht s rfl
    have hi : isCommand i ⟨rq, kLicenceRemove, q, v, f⟩ := ⟨rfl, fun _ => rfl⟩
    refine hi.answersAt_classed (isClassedKey_layer (by simp)) ht fun hclass => ⟨_, rfl, rfl, rfl, ?_, Nat.zero_le _, rfl, rfl⟩
    have hchans : (s.hw.opens rq).fb.chans = s.hw.fb.chans := congrArg Fb.chans (s.hw.opens_fb rq)
    exact hchans
  · rintro i ht s rfl
    have hi : isCommand i ⟨rq, kSaveRunning, q, v, f⟩ := ⟨rfl, fun _ => rfl⟩
    refine hi.answersAt_classed (isClassedKey_layer (by simp)) ht fun hclass => ⟨_, rfl, rfl, rfl, ?_, Nat.zero_le _, rfl, rfl⟩
    have hkept := Mach.putLayer_kept (s.hw.opens rq)
    exact (congrArg Kept.chans (hkept _ _)).trans (congrArg Fb.chans (s.hw.opens_fb rq))
  · rintro j i ht hj s rfl
    have hi : isCommand i ⟨rq, kSheetClear + 256 * j, q, v, f⟩ := by
      constructor
      · simp [i, asCmd, hj]
      · intro s
        exact runFzIf_true (by simp [hj]) s _
    refine hi.answersAt_classed (isClassedKey_layer (by simp; omega)) ht fun hclass =>
      ⟨_, Mach.act_sheetClear _ _ _ hj _ _, rfl, rfl, ?_, Nat.zero_le _, rfl, rfl, ?_⟩
    · exact (congrArg Kept.chans (Mach.putLayer_kept (s.hw.opens rq) j [])).trans (congrArg Fb.chans (s.hw.opens_fb rq))
    · exact Mach.putLayer_sheet _ (by omega) _
  · rintro i ht g s rfl
    have hi : isCommand i ⟨rq, kCounterClear, q, v, f⟩ := ⟨rfl, fun _ => rfl⟩
    have hact : (s.hw.opens rq).act s.fuses rq kCounterClear v f = { m := (s.hw.opens rq).zeroArea g.1 g.2 } := rfl
    have hctr := Mach.zeroArea_ctr (s.hw.opens rq) g.1 g.2
    refine hi.answersAt_classed (isClassedKey_layer (by simp)) ht fun hclass => ⟨_, hact, rfl, rfl, ?_, Nat.zero_le _, rfl,
      fun k hlo hhi hmeas => (hctr k).1 hlo hhi hmeas, fun k hout => ((hctr k).2 hout).trans (by simp), ?_⟩
    · have hchans : (s.hw.opens rq).fb.chans = s.hw.fb.chans := congrArg Fb.chans (s.hw.opens_fb rq)
      exact hchans
    · exact Mach.opens_rng _ hclass

end Sys2Proof.Machine
end

section
/-! PROOFS. Sessions (R72 to R75, R80, R556, R700): a frame that the surveyor takes on a session is carried out at once. -/
namespace Sys2Proof.Machine

/-- A session's frame, with none of the session's waiting: it is carried out, and what it leaves of the channel is looked at. -/
theorem Mach.sessionFrame_now {m : Mach} {n : Nat} (hserves : m.bookServes = true) (hsess : shas m.fb.sessions n = true)
    (hchan : sget m.fb.chans n = none) (z : Fuses) (f : Frame) :
    m.sessionFrame z n f = Mach.drainHeld z (.session n) 16 (m.frameNow z (.session n) f) := by
  simp [Mach.sessionFrame, hserves, hsess, Mach.chanOf_none (rq := .session n) hchan]

/-- The reply of a session that is open leaves on it. -/
theorem Mach.sendReply_session {m : Mach} {n : Nat} (h : shas m.fb.sessions n = true) (ty : Nat) (st : Status) (q : Nat)
    (b : Bytes) : m.sendReply (.session n) ty st q b = m.emit (.reply (.session n) ((ty + 0x80) % 256) st q b) := by
  simp [Mach.sendReply, h]

/-- What a session may send and be heard. -/
theorem Mach.hears_session {m : Mach} {n : Nat} {f : Frame} (h : m.hears (.session n) f) :
    m.bookServes = true ∧ (∃ x, sget m.fb.sessions n = some x ∧ x.hello = true) ∧ sget m.fb.chans n = none ∧
      frameBad (.session n) true f = false := by
  simp only [Mach.hears, Mach.asks, Bool.and_eq_true, Bool.not_eq_true', Option.isNone_iff_eq_none] at h
  obtain ⟨⟨⟨hserves, hopen⟩, hchan⟩, hbad⟩ := h
  exact ⟨hserves, Mach.pathOpen_session hopen, hchan, hbad⟩

theorem shas_of_sget {α : Type} {s : SMap α} {k : Nat} {x : α} (h : sget s k = some x) : shas s k = true := by simp [shas, h]

/-- A frame of a session that is heard and is none of READ, WRITE and DESCRIBE: what its type says (Table 2.8). -/
theorem Mach.frameNow_session {m : Mach} {n : Nat} {f : Frame} {x : Session} (h : m.hears (.session n) f)
    (hx : sget m.fb.sessions n = some x) (hty : 5 ≤ f.ty) (z : Fuses) : m.frameNow z (.session n) f =
      if f.ty = 5 then (m.putSession n (m.subscribe z n x f.payload).2).sendReply (.session n) 5
        (m.subscribe z n x f.payload).1 f.reqId []
      else if f.ty = 6 then (m.putSession n { x with mask := 0, ents := [], seen := [] }).sendReply (.session n) 6 .done f.reqId []
      else if f.ty = 7 then m.sendReply (.session n) 7 .done f.reqId []
      else ((m.sendReply (.session n) f.ty .done f.reqId []).dropSession n).noteAll z := by
  obtain ⟨-, ⟨y, hy, hsaid⟩, -, hbad⟩ := Mach.hears_session h
  obtain rfl : y = x := Option.some.inj (hy.symm.trans hx)
  have hops : ¬ (2 ≤ f.ty ∧ f.ty ≤ 4) := by omega
  have hhello : f.ty ≠ 1 := by omega
  simp only [Mach.frameNow, hx, hsaid, hbad, Bool.false_eq_true, if_false, Bool.and_eq_true, decide_eq_true_eq, hops, hhello]
  split_ifs with h5 h6 h7 <;> simp [*]

theorem Mach.drainHeld_session {m : Mach} {n : Nat} (h : sget m.fb.chans n = none) (z : Fuses) (k : Nat) :
    Mach.drainHeld z (.session n) k m = m := Mach.drainHeld_of_quiet (Mach.quiet_of_none h) z k

theorem Mach.freeSession_some {m : Mach} {n : Nat} (h : m.freeSession = some n) : n < 8 ∧ shas m.fb.sessions n = false := by
  refine ⟨List.mem_range.mp (List.mem_of_find?_eq_some h), ?_⟩
  have := List.find?_some h
  simpa using this

/-- A session that has no draft is dropped: it goes, and with it its channel and its client. -/
theorem Mach.dropSession_noDraft {m : Mach} {n : Nat} (h : m.ownsDraft (.session n) = false) : m.dropSession n =
    ((m.setFb { m.fb with sessions := sdel m.fb.sessions n, chans := sdel m.fb.chans n }).setSec
      { m.sec with clients := sdel m.sec.clients n }).emit (.closed n) := by
  unfold Mach.dropSession Mach.draftOf
  simp only [Mach.setSec_fb, Mach.setFb_fb]
  cases hd : m.fb.draft with
  | none => rfl
  | some d =>
    have howner : d.owner ≠ .session n := fun e => by simp [Mach.ownsDraft, hd, draftOwner, e] at h
    simp [howner]

/-- A frame of a session that is heard, which leaves the session's channel empty, is carried out and that is all. -/
theorem Mach.sessionFrame_heard {m a : Mach} {n : Nat} {f : Frame} (h : m.hears (.session n) f) (z : Fuses)
    (ha : m.frameNow z (.session n) f = a) (hchan : sget a.fb.chans n = none) : m.sessionFrame z n f = a := by
  obtain ⟨hserves, ⟨x, hx, -⟩, hnone, -⟩ := Mach.hears_session h
  rw [Mach.sessionFrame_now hserves (shas_of_sget hx) hnone, ha, Mach.drainHeld_session hchan]

theorem Mach.putSession_shas (m : Mach) (n : Nat) (x : Session) : shas (m.putSession n x).fb.sessions n = true := by
  simp [Mach.putSession]

/-- A subscription whose mask and entries are good is kept (R80, R700). -/
theorem Mach.subscribe_done {m : Mach} {n : Nat} {x : Session} {b : Bytes} (hmask : Nat.land (num b 0 2) 0xF001 = 0)
    (hlen : (namedOf (num b 2 2) (b.drop 4)).length ≤ 64)
    (hents : (namedOf (num b 2 2) (b.drop 4)).all (fun e => e.2 = 0 && (match entryAt e.1 with | some r => r.reads 6 | none => false)) = true)
    (z : Fuses) : ∃ seen, m.subscribe z n x b =
      (.done, { x with mask := num b 0 2, ents := (namedOf (num b 2 2) (b.drop 4)).map (·.1), seen }) := by
  unfold Mach.subscribe
  dsimp only
  generalize namedOf (num b 2 2) (b.drop 4) = names at hlen hents ⊢
  have hent : ∀ e ∈ names, e.2 = 0 ∧ ∃ r, entryAt e.1 = some r ∧ r.reads 6 = true := by
    intro e he
    have hgood := List.all_eq_true.mp hents e he
    simp only [Bool.and_eq_true, decide_eq_true_eq] at hgood
    obtain ⟨hzero, hreads⟩ := hgood
    cases hr : entryAt e.1 with
    | none => simp [hr] at hreads
    | some r => exact ⟨hzero, r, rfl, by simpa [hr] using hreads⟩
  rw [if_neg, if_neg, if_neg]
  · exact ⟨_, rfl⟩
  · simp only [List.map_map, List.any_map, Bool.not_eq_true, List.any_eq_false, Function.comp]
    intro e he
    obtain ⟨-, r, hr, hreads⟩ := hent e he
    simp [hr, hreads]
  · simp only [List.map_map, List.any_map, Bool.not_eq_true, Bool.or_eq_false_iff, decide_eq_false_iff_not, List.any_eq_false,
      Function.comp]
    refine ⟨by omega, fun e he => ?_⟩
    obtain ⟨-, r, hr, -⟩ := hent e he
    simp [hr]
  · simp only [Bool.not_eq_true, Bool.or_eq_false_iff, decide_eq_false_iff_not, List.any_eq_false]
    refine ⟨by simpa using hmask, fun e he => ?_⟩
    simp [(hent e he).1]

/-- Settles O47. -/
theorem sessionsOpenSpeakAndEnd : Obligations.SessionsOpenSpeakAndEnd := by
  unfold Obligations.SessionsOpenSpeakAndEnd
  refine ⟨fun h => ⟨?_, ?_⟩, ?_, fun h => ⟨?_, ?_, ?_⟩, fun s => ⟨?_, ?_⟩⟩
  · rintro p root leaf n f hp hfree hserves hport hlost hgone hclosure hchain hsig hgood s rfl
    refine completes_runFzIf rfl (by simp [hp]) ?_
    obtain ⟨hn, hnew⟩ := Mach.freeSession_some hfree
    refine ⟨?_, hn, hnew⟩
    simp [Mach.tlsConnect, hfree, hserves, hport, hlost, hgone, hclosure, hchain, hsig, hgood, Mach.putSession]
  · rintro p root leaf f hp hfree s rfl
    refine completes_runFzIf rfl (by simp [hp]) ?_
    simp [Mach.tlsConnect, hfree]
  · intro s n f x hn hty hserves hx hsaid hchan hbad
    refine completes_runFzIf rfl (by simp [hn]) ?_
    rw [Mach.sessionFrame_now hserves (shas_of_sget hx) hchan]
    have hnow : s.hw.frameNow s.fuses (.session n) f = (s.hw.putSession n { x with hello := true }).emit
        (.reply (.session n) 0x81 .done f.reqId (helloBytes s.fuses n)) := by
      simp [Mach.frameNow, hx, hsaid, hbad, hty, Mach.sendReply_session (Mach.putSession_shas _ _ _)]
    rw [hnow, Mach.drainHeld_session (by exact hchan)]
    rfl
  · rintro n f hn hty hhears s rfl
    refine completes_runFzIf rfl (by simp [hn]) ?_
    obtain ⟨-, ⟨x, hx, -⟩, hchan, -⟩ := Mach.hears_session hhears
    have hnow := Mach.frameNow_session hhears hx (by omega) s.fuses
    simp only [hty, Mach.sendReply_session (shas_of_sget hx)] at hnow
    exact Mach.sessionFrame_heard hhears s.fuses hnow (by simpa using hchan)
  · rintro n f x hn hty hhears hx names hmask hlen hents s rfl
    refine completes_runFzIf rfl (by simp [hn]) ?_
    obtain ⟨-, -, hchan, -⟩ := Mach.hears_session hhears
    obtain ⟨seen, hsub⟩ := Mach.subscribe_done (m := s.hw) (n := n) (x := x) hmask hlen hents s.fuses
    have hnow := Mach.frameNow_session hhears hx (by omega) s.fuses
    simp only [hty, hsub, Mach.sendReply_session (Mach.putSession_shas _ _ _)] at hnow
    rw [Mach.sessionFrame_heard hhears s.fuses hnow (by simpa [Mach.putSession] using hchan)]
    exact ⟨by simp [Mach.putSession, names], fun j hj => by simp [Mach.putSession, sget_sput_ne _ _ hj], rfl, rfl, rfl⟩
  · rintro n f x hn hty hhears hx s rfl
    refine completes_runFzIf rfl (by simp [hn]) ?_
    obtain ⟨-, -, hchan, -⟩ := Mach.hears_session hhears
    have hnow := Mach.frameNow_session hhears hx (by omega) s.fuses
    simp only [hty, Mach.sendReply_session (Mach.putSession_shas _ _ _)] at hnow
    exact Mach.sessionFrame_heard hhears s.fuses hnow (by simpa [Mach.putSession] using hchan)
  · intro n f hn hty hhears hdraft
    refine completes_runFzIf rfl (by simp [hn]) ?_
    obtain ⟨-, ⟨x, hx, -⟩, hchan, -⟩ := Mach.hears_session hhears
    have hnow := Mach.frameNow_session hhears hx (by omega) s.fuses
    simp only [hty, Mach.sendReply_session (shas_of_sget hx)] at hnow
    have hdraft' : (s.hw.emit (.reply (.session n) 0x88 .done f.reqId [])).ownsDraft (.session n) = false := hdraft
    rw [Mach.dropSession_noDraft hdraft'] at hnow
    refine Mach.sessionFrame_heard hhears s.fuses hnow ?_
    have hgone : sget (sdel s.hw.fb.chans n) n = none := by rw [sdel_of_sget_none hchan]; exact hchan
    exact hgone
  · intro n secs hn hsecs hsess hdraft
    refine completes_runFzIf rfl (by simp [hn]) ?_
    simp [Mach.sessionIdle, hsecs, hsess, Mach.dropSession_noDraft hdraft]

end Sys2Proof.Machine
end

section
/-! PROOFS. A CMD entry's action is carried out before the causes of R77 are asked, and what it has done stays where its own status is
the one that is answered. -/
namespace Sys2Proof.Machine

/-- The module after a survey, with a session that has said HELLO and no draft, where the other die's loss has left F1 to answer. -/
def busyModule : Mach :=
  let m := State.reset.hw
  (m.setCad { m.cad with step := 21 }).setFb { m.fb with role := 1, sessions := [(0, { port := 0, hello := true })] }

/-- The COMMIT of that session. -/
def commitOnBusy : CmdReq := ⟨.session 0, kCommit, 1, leB 4 1, {}⟩

/-- It may ask; the action finds no draft, and of that and REJECT_BUSY the first is answered. -/
theorem busyModule_refuses : busyModule.asks commitOnBusy.rq = true ∧
    ((entryAt kCommit).map fun e => busyModule.cmdRefused commitOnBusy.rq e (cmdRec kCommit commitOnBusy.value)
      (busyModule.commit commitOnBusy.rq).st) = some (some .fbNoDraft) := by decide +kernel

/-- The commit has left its status in COMMIT_LAST_STATUS, where the module held another. -/
theorem busyModule_lastStatus : busyModule.fb.lastStatus = .done ∧
    (busyModule.command State.reset.fuses commitOnBusy.rq kCommit 1 commitOnBusy.value {}).fb.lastStatus = .fbNoDraft := by
  decide +kernel

/-- Refutes O53: with F1 in charge (R107) a COMMIT without a draft is answered FB_NO_DRAFT, its action's own status, and the action
has left that in COMMIT_LAST_STATUS; the statement says that a record so refused changes nothing. -/
theorem not_cmdFramesAnswerTheirEntry : ¬ Obligations.CmdFramesAnswerTheirEntry := by
  unfold Obligations.CmdFramesAnswerTheirEntry
  intro h
  obtain ⟨hasks, hrefused⟩ := busyModule_refuses
  obtain ⟨e, he, hst⟩ := Option.map_eq_some_iff.mp hrefused
  obtain ⟨-, hclause⟩ := h (State.reset.setHw busyModule) (.commit (.session 0) 1 (leB 4 1) {}) commitOnBusy rfl
  have hruns := hclause e .fbNoDraft hasks (by decide) he hst
  have hm := completes_runFz_effect (f := fun z m => m.command z (.session 0) kCommit 1 (leB 4 1) {}) rfl hruns
  have hlast := congrArg (fun m => m.fb.lastStatus) hm
  obtain ⟨hdone, hleft⟩ := busyModule_lastStatus
  have hreply : (busyModule.replies commitOnBusy .fbNoDraft []).fb = busyModule.fb := rfl
  rw [State.setHw_hw] at hlast
  have hends := hleft.symm.trans (hlast.trans (congrArg Fb.lastStatus hreply))
  rw [hdone] at hends
  cases hends

end Sys2Proof.Machine
end

section
/-! PROOFS. Sensor, eye, slack and counter reads (R42, R43, R85, R320, R374, R378, R598, R641, R643). -/
namespace Sys2Proof.Machine

/-- Values of one length end to end. -/
theorem flatMap_length {α : Type} (l : List α) (f : α → Bytes) (n : Nat) (h : ∀ x ∈ l, (f x).length = n) :
    (l.flatMap f).length = n * l.length := by
  induction l with
  | nil => simp
  | cons x l ih =>
    rw [List.flatMap_cons, List.length_append, h x (by simp), ih fun y hy => h y (by simp [hy]), List.length_cons, Nat.mul_succ,
      Nat.add_comm]

@[simp] theorem leList_length (n : Nat) (l : List Nat) : (leList n l).length = n * l.length :=
  flatMap_length l _ n fun _ _ => leB_length n _

@[simp] theorem q16_length (t : Int) : (q16 t).length = 4 := leB_length 4 _

@[simp] theorem legBytes_length (n : Nat) (l : List Nat) : (legBytes n l).length = 24 * n := by
  induction n generalizing l with
  | zero => rfl
  | succ n ih => simp [legBytes, ih]; omega

/-- With no confidential context resident, no reader gets latched values. -/
theorem Mach.latched_of_notResident {m : Mach} (h : m.confResident = false) (cls : Nat) : m.latched cls = false := by
  simp [Mach.latched, h]

theorem mem_of_sget {α : Type} {s : SMap α} {k : Nat} {x : α} (h : sget s k = some x) : (k, x) ∈ s := by
  induction s with
  | nil => cases h
  | cons p r ih =>
    obtain ⟨j, y⟩ := p
    unfold sget at h
    split_ifs at h with hj
    · obtain rfl := Option.some.inj h
      rw [hj]; exact List.mem_cons_self
    · exact List.mem_cons_of_mem _ (ih h)

theorem Mach.confCtx_of_notResident {m : Mach} (h : m.confResident = false) (c : Nat) : m.confCtx c = false := by
  unfold Mach.confCtx
  split
  case h_1 x hx =>
    have := List.any_eq_false.mp h _ (mem_of_sget hx)
    simpa using this
  case h_2 => rfl

/-- The keys of the module-wide reads are of CMD entries that no item writes. -/
theorem isClassedKey_reads : [kSensorRead, kEyeHistoryRead, kMonitorSlackRead, kRingCounters, kStreamCounters,
    kLegCounters].all isClassedKey = true := by decide +kernel

theorem isClassedKey_read {k : Nat} (h : k ∈ [kSensorRead, kEyeHistoryRead, kMonitorSlackRead, kRingCounters, kStreamCounters,
    kLegCounters]) : isClassedKey k = true :=
  List.all_eq_true.mp isClassedKey_reads k h

/-- A row of a module-wide read whose action answers a value and leaves the module is answered so. -/
theorem isCommand.answersAt_read {i : Instr} {c : CmdReq} (hi : isCommand i c) (hkey : isClassedKey c.key = true) {s : State}
    (h : s.hw.takes i) {b : Bytes}
    (hact : rqClass c.rq ≠ 2 → (s.hw.opens c.rq).act s.fuses c.rq c.key c.value c.verif = { m := s.hw.opens c.rq, val := b })
    (hlen : b.length ≤ 65512) : Machine.answersAt i s fun o a v => v = b ∧ a = o :=
  hi.answersAt_classed hkey h fun hclass =>
    ⟨_, hact hclass, rfl, rfl, congrArg Fb.chans (s.hw.opens_fb c.rq), hlen, rfl, rfl⟩

/-! An item's own counters. -/

/-- An item's request is carried out in the context that it names. -/
theorem Mach.rqCtx_asker {m : Mach} {rq : Rq} (h : m.pathOpen rq) : rqCtx (m.asker rq) = rqCtx rq := by
  rcases m.asker_cases rq with e | ⟨ring, seq, ctx, i, rfl, hi, e⟩ <;> rw [e]
  simp only [Mach.pathOpen, hi, Bool.and_eq_true, decide_eq_true_eq] at h
  exact h.1.1.2

/-- Taking a request leaves the rings and the contexts. -/
theorem Mach.opens_rings (m : Mach) (rq : Rq) : (m.opens rq).rng.rings = m.rng.rings ∧ (m.opens rq).rng.ctxs = m.rng.ctxs := by
  cases rq with
  | item ring seq ctx => simp only [Mach.opens, Mach.startItem]; split <;> exact ⟨rfl, rfl⟩
  | _ => exact ⟨rfl, rfl⟩

/-- The counters of a core read by class C are the ones held now: nothing of a confidential context is latched for it. -/
theorem Mach.telemetry_core (m : Mach) {c k : Nat} (hc : c < 32) (hk : 1 ≤ k ∧ k ≤ 6) :
    m.telemetry 2 (key (0x9800 + c) k) = telemetryAt m.fb.ctr m.clk.us (key (0x9800 + c) k) := by
  have hidx : key (0x9800 + c) k / 256 = 0x9800 + c := by unfold key; omega
  have hlatch : key (0x9800 + c) k ≠ kCounterLatchTime := by unfold key kCounterLatchTime; omega
  have hrail : ¬ 0x9A00 ≤ 0x9800 + c := by omega
  simp [Mach.telemetry, hidx, hlatch, hrail]

theorem Mach.opens_telemetry_core (m : Mach) (rq : Rq) {c k : Nat} (hc : c < 32) (hk : 1 ≤ k ∧ k ≤ 6) :
    (m.opens rq).telemetry 2 (key (0x9800 + c) k) = m.telemetry 2 (key (0x9800 + c) k) := by
  rw [Mach.telemetry_core _ hc hk, Mach.telemetry_core _ hc hk, Mach.opens_fb, (m.opens_frame rq).2.2.2.2.2.2]

/-- The two entries that an item reads its own counters by. -/
theorem cmdRow_myCounters : ∀ k ∈ [kMyRingCounters, kMyCoreCounters], ∃ e, CmdRow k e := by
  intro k hk
  have hcmd : ([kMyRingCounters, kMyCoreCounters].all fun k =>
      (match entryRow k with | some e => decide (e.wr = 4) | none => false) && k % 256 ≠ 0) = true := by decide +kernel
  have hrow := List.all_eq_true.mp hcmd k hk
  cases he : entryRow k with
  | none => simp [he] at hrow
  | some e =>
    simp only [he, Bool.and_eq_true, decide_eq_true_eq] at hrow
    exact ⟨e, he, hrow⟩

/-- A row of these entries whose action answers the value `b`, in any context and on the path that takes it, is answered so. -/
theorem isCommand.answersAt_my {i : Instr} {c : CmdReq} (hi : isCommand i c) (hkey : c.key ∈ [kMyRingCounters, kMyCoreCounters])
    {s : State} (h : s.hw.takes i) {b : Bytes} (hact : ∀ rq, rqCtx rq = rqCtx c.rq →
      (s.hw.opens c.rq).act s.fuses rq c.key c.value c.verif = { m := s.hw.opens c.rq, val := b })
    (hlen : b.length ≤ 65512) : Machine.answersAt i s fun o a v => v = b ∧ a = o := by
  obtain ⟨e, hrow⟩ := cmdRow_myCounters c.key hkey
  obtain ⟨hasks, -, -⟩ := Mach.takes_row h hi.1 hrow
  simp only [Mach.asks, Bool.and_eq_true] at hasks
  have hchans : (s.hw.opens c.rq).fb.chans = s.hw.fb.chans := congrArg Fb.chans (s.hw.opens_fb c.rq)
  exact hi.answersAt hrow h (hact _ (Mach.rqCtx_asker hasks.1.2)) rfl rfl (hchans ▸ Mach.chans_of_takes h hi.1)
    (fun _ => hlen) ⟨rfl, rfl⟩

/-- Settles O55. -/
theorem countersAreReadAsTheyAre : Obligations.CountersAreReadAsTheyAre := by
  unfold Obligations.CountersAreReadAsTheyAre
  intro h rq q v f
  have hopens := h.opens_frame rq
  have hrng (hclass : rqClass rq ≠ 2) := h.opens_rng hclass
  have hnot (hconf : h.confResident = false) (hclass : rqClass rq ≠ 2) (cls : Nat) : (h.opens rq).latched cls = false := by
    apply Mach.latched_of_notResident
    rw [Mach.confResident, hrng hclass]
    exact hconf
  refine ⟨?_, ?_, ?_, ?_, ?_, ?_, ?_, ?_⟩
  · rintro i ht hconf hf l s rfl
    have hi : isCommand i ⟨rq, kSensorRead, q, v, f⟩ := ⟨rfl, fun _ => rfl⟩
    refine hi.answersAt_read (isClassedKey_read (by simp)) ht (fun hclass => ?_) ?_
    · show (s.hw.opens rq).sensorRead (rqClass rq) (leN v) = _
      simp only [Mach.sensorRead, hnot hconf hclass, Mach.heatAt, hopens.2.2.2.1]
      rw [if_neg (by omega)]
      rfl
    · rw [List.length_append, flatMap_length _ _ 4 fun _ _ => q16_length _, leB_length, List.length_range]
      omega
  · rintro i ht hconf hunit e s rfl
    have hi : isCommand i ⟨rq, kEyeHistoryRead, q, v, f⟩ := ⟨rfl, fun _ => rfl⟩
    refine hi.answersAt_read (isClassedKey_read (by simp)) ht (fun hclass => ?_) ?_
    · show (s.hw.opens rq).eyeRead (rqClass rq) v = _
      simp only [Mach.eyeRead, hnot hconf hclass, hopens.2.2.1]
      rw [if_neg (by omega)]
      rfl
    · simp only [List.length_append, leB_length]
      rw [flatMap_length _ _ 4 fun _ _ => by simp, List.length_range]
      omega
  · rintro i ht hconf hf s rfl
    have hi : isCommand i ⟨rq, kMonitorSlackRead, q, v, f⟩ := ⟨rfl, fun _ => rfl⟩
    refine hi.answersAt_read (isClassedKey_read (by simp)) ht (fun hclass => ?_) ?_
    · show (s.hw.opens rq).slackRead (rqClass rq) (leN v) = _
      simp only [Mach.slackRead, hnot hconf hclass, hopens.2.2.1]
      rw [if_neg (by omega)]
      rfl
    · rw [flatMap_length _ _ 2 fun _ _ => leB_length _ _, List.length_range]
      omega
  · rintro x i ht hconf hx s rfl
    have hi : isCommand i ⟨rq, kRingCounters, q, v, f⟩ := ⟨rfl, fun _ => rfl⟩
    refine hi.answersAt_read (isClassedKey_read (by simp)) ht (fun hclass => ?_) (by simp [Ring.counts])
    show (s.hw.opens rq).ringCounters (rqClass rq) (leN v) = _
    have hring : (s.hw.opens rq).ring? (leN v) = some x := by rw [Mach.ring?, hrng hclass]; exact hx
    have hctx : (s.hw.opens rq).confCtx x.ctx = false :=
      Mach.confCtx_of_notResident (by rw [Mach.confResident, hrng hclass]; exact hconf) _
    simp only [Mach.ringCounters, hring, hctx, hnot hconf hclass]
    rfl
  · rintro i ht hconf hport hdir htag s rfl
    have hi : isCommand i ⟨rq, kStreamCounters, q, v, f⟩ := ⟨rfl, fun _ => rfl⟩
    refine hi.answersAt_read (isClassedKey_read (by simp)) ht (fun hclass => ?_) (by simp [Mach.streamCounts])
    show (s.hw.opens rq).streamRead (rqClass rq) v = _
    simp only [Mach.streamRead, hnot hconf hclass, Mach.streamCounts, hopens.2.2.2.2.1]
    rw [if_neg (by simp; omega)]
    rfl
  · rintro t i ht hconf hlive hlen s rfl
    have hi : isCommand i ⟨rq, kLegCounters, q, v, f⟩ := ⟨rfl, fun _ => rfl⟩
    refine hi.answersAt_read (isClassedKey_read (by simp)) ht (fun hclass => ?_) (by simp; omega)
    show (s.hw.opens rq).legCounters (rqClass rq) v = _
    simp only [Mach.legCounters, hnot hconf hclass, hopens.2.2.2.2.1, hlive]
    rfl
  · rintro x i ht hx hctx s rfl
    have hi : isCommand i ⟨rq, kMyRingCounters, q, v, f⟩ := ⟨rfl, fun _ => rfl⟩
    refine hi.answersAt_my (by simp) ht (fun rq' hrq => ?_) (by simp [Ring.counts])
    show (s.hw.opens rq).myRing (rqCtx rq') (leN v) = _
    have hring : (s.hw.opens rq).ring? (leN v) = some x := by rw [Mach.ring?, (s.hw.opens_rings rq).1]; exact hx
    simp only [Mach.myRing, hring, hrq, hctx, if_true]
  · rintro i ht hc hctx s rfl
    have hi : isCommand i ⟨rq, kMyCoreCounters, q, v, f⟩ := ⟨rfl, fun _ => rfl⟩
    refine hi.answersAt_my (by simp) ht (fun rq' hrq => ?_) (by simp)
    show (s.hw.opens rq).myCore (rqCtx rq') (leN v) = _
    have hcore : ((s.hw.opens rq).coreAt (leN v)).ctx = rqCtx rq := ((s.hw.opens_units rq).2.2.1 _).trans hctx
    have hvals : ((List.range 6).map fun i => (s.hw.opens rq).telemetry 2 (key (0x9800 + leN v) (i + 1))) =
        (List.range 6).map fun i => s.hw.telemetry 2 (key (0x9800 + leN v) (i + 1)) :=
      List.map_congr_left fun i hi => s.hw.opens_telemetry_core rq hc (by rw [List.mem_range] at hi; omega)
    simp only [Mach.myCore, hvals, hrq, hcore]
    rw [if_neg (by simp; omega)]

end Sys2Proof.Machine
end

section
/-! PROOFS. READ and DESCRIBE of any requester (R76), mailboxes and FB_REQUEST items (R42, R43, R319, R320, R459, R476, R488). -/
namespace Sys2Proof.Machine

/-! Records that are read or described. -/

/-- The answer of a record of a READ (`ty` 2) or DESCRIBE frame. -/
def Mach.answerOf (m : Mach) (z : Fuses) (rq : Rq) (ty : Nat) (r : OpRec) : OpRec :=
  recAnswer r (if ty = 2 then m.opRead z rq r else opDescribe r)

theorem Mach.answersTo_eq (m : Mach) (z : Fuses) (rq : Rq) (f : Frame) :
    m.answersTo z rq f = ((opsOf 256 f.payload).getD []).map (m.answerOf z rq f.ty) := rfl

theorem foldl_add_eq (l : List Nat) (a : Nat) : l.foldl (· + ·) a = a + l.sum := by
  induction l generalizing a with
  | nil => rfl
  | cons x l ih => rw [List.foldl_cons, ih, List.sum_cons, Nat.add_assoc]

theorem le_opSize (r : OpRec) : 8 ≤ opSize r := by unfold opSize; omega

/-- Records still to come take at least the room of their headers. -/
theorem length_le_sum_opSize (l : List OpRec) : 8 * l.length ≤ (l.map opSize).sum := by
  induction l with
  | nil => simp
  | cons r l ih =>
    have := le_opSize r
    simp only [List.length_cons, List.map_cons, List.sum_cons]
    omega

/-- READ and DESCRIBE change nothing, and each record is answered by itself, while the reply has room (R76, R699). -/
theorem Mach.runOps_reads (m : Mach) (z : Fuses) (rq : Rq) {ty : Nat} (hty : ty = 2 ∨ ty = 4) (f : Verif) (ops done : List OpRec)
    (hfits : bounded rq = true → (done.map opSize).sum + ((ops.map (m.answerOf z rq ty)).map opSize).sum ≤ 65520) :
    Mach.runOps z rq ty f m done ops = (m, (ops.map (m.answerOf z rq ty)).reverse ++ done, none) := by
  induction ops generalizing done with
  | nil => rfl
  | cons r ops ih =>
    have hne : ty ≠ 3 := by omega
    have hrun : m.opRun z rq ty f r = (⟨m, (if ty = 2 then m.opRead z rq r else opDescribe r).1,
        (if ty = 2 then m.opRead z rq r else opDescribe r).2.2, none⟩,
        (if ty = 2 then m.opRead z rq r else opDescribe r).2.1) := by
      simp only [Mach.opRun, hne, if_false]
    have hlen := length_le_sum_opSize (ops.map (m.answerOf z rq ty))
    simp only [List.map_cons, List.sum_cons, List.length_map] at hfits hlen
    rw [Mach.runOps_answered hrun rfl]
    · rw [ih]
      · simp [Mach.answerOf, recAnswer]
      · intro hb
        have := hfits hb
        simp only [List.map_cons, List.sum_cons, Mach.answerOf, recAnswer] at this ⊢
        omega
    · intro hb
      have := hfits hb
      simp only [foldl_add_eq, Mach.answerOf, recAnswer] at this ⊢
      omega

/-- A READ or DESCRIBE frame whose answers fit, of a requester with nothing in its channel: the reply goes out. -/
theorem Mach.opsOn_reads {m : Mach} {z : Fuses} {rq : Rq} {f : Frame} (hty : f.ty = 2 ∨ f.ty = 4)
    (hchan : sget m.fb.chans (rqCode rq) = none) (hfits : fits rq (m.answersTo z rq f)) :
    m.opsOn z rq f.ty f.reqId f.verif [] ((opsOf 256 f.payload).getD []) =
      m.sendReply rq f.ty .done f.reqId ((m.answersTo z rq f).flatMap opBytes) := by
  have hroom : bounded rq = true → ((m.answersTo z rq f).map opSize).sum ≤ 65520 := by
    intro hb
    simpa [fits, hb] using hfits
  rw [Mach.opsOn_answered (Mach.runOps_reads m z rq hty f.verif _ [] ?_) hchan]
  · simp [Mach.answersTo_eq]
  · simpa [Mach.answersTo_eq] using hroom

/-- A request to READ or DESCRIBE on a path that takes it. -/
theorem Mach.request_reads {m : Mach} {rq : Rq} {f : Frame} (h : m.hears rq f) (hclass : rqClass rq ≠ 2)
    (hty : f.ty = 2 ∨ f.ty = 4) {z : Fuses} (hfits : fits rq ((m.opens rq).answersTo z rq f)) :
    m.request z rq f = (m.opens rq).sendReply rq f.ty .done f.reqId (((m.opens rq).answersTo z rq f).flatMap opBytes) := by
  have hchan : sget (m.opens rq).fb.chans (rqCode rq) = none := by
    simp only [Mach.hears, Mach.asks, Bool.and_eq_true, Option.isNone_iff_eq_none] at h
    rw [Mach.opens_fb]
    exact h.1.2
  rw [Mach.request_ops h (by omega), Mach.asker_eq hclass, Mach.opsOn_reads hty hchan hfits, Mach.drainHeld_of_quiet]
  exact Mach.sendReply_quiet (Mach.quiet_of_none hchan) ..

/-! Mailboxes. -/

/-- The reply to a mailbox whose request has just been taken is on its way. -/
theorem Mach.sendReply_core {m : Mach} {c : Nat} (hgo : (m.coreAt c).mbxGo = 1) (hchan : sget m.fb.chans (rqCode (.core c)) = none)
    (ty : Nat) (st : Status) (q : Nat) (b : Bytes) :
    m.sendReply (.core c) ty st q b = m.putChan (.core c) { reply := some (replyBytes ty st q b) } := by
  simp [Mach.sendReply, hgo, Mach.chanOf_none hchan]

theorem Mach.sendReply_hostPort {m : Mach} {n : Nat} (hgo : (m.hpAt n).mbxGo = 1)
    (hchan : sget m.fb.chans (rqCode (.hostPort n)) = none) (ty : Nat) (st : Status) (q : Nat) (b : Bytes) :
    m.sendReply (.hostPort n) ty st q b = m.putChan (.hostPort n) { reply := some (replyBytes ty st q b) } := by
  simp [Mach.sendReply, hgo, Mach.chanOf_none hchan]

theorem Mach.hpAt_setHpAt {m : Mach} {n : Nat} (h : n < m.hp.dev.length) (x : HostPort) : (m.setHpAt n x).hpAt n = x :=
  nth_setAt_self _ h x

theorem Mach.coreAt_setCoreAt {m : Mach} {c : Nat} (h : c < m.core.dev.length) (x : Core) : (m.setCoreAt c x).coreAt c = x :=
  nth_setAt_self _ h x

/-- What a core's or host port's request that is heard says of it. -/
theorem Mach.hears_asks {m : Mach} {rq : Rq} {f : Frame} (h : m.hears rq f) :
    m.pathOpen rq = true ∧ sget (m.opens rq).fb.chans (rqCode rq) = none := by
  simp only [Mach.hears, Mach.asks, Bool.and_eq_true, Option.isNone_iff_eq_none] at h
  rw [Mach.opens_fb]
  exact ⟨h.1.1.2, h.1.2⟩

/-- A frame sent over VC 2 changes link ports and counters, and the frames that the member itself is to take. -/
theorem Mach.sendVc2_frame (m : Mach) (dest chan req st : Nat) (b : Bytes) : (m.sendVc2 dest chan req st b).hp = m.hp ∧
    (m.sendVc2 dest chan req st b).rng = m.rng ∧ (m.sendVc2 dest chan req st b).trv.waits = m.trv.waits ∧
    (m.sendVc2 dest chan req st b).trv.reqId = m.trv.reqId := by
  have hframe (m : Mach) (p st : Nat) (d : Bytes) : (m.sendFrame p 2 st d).trv = m.trv := by
    simp only [Mach.sendFrame]
    split <;> simp
  have hforward (m : Mach) (tag : Nat) (d : Bytes) : (m.forwardVc2 none tag d).hp = m.hp ∧ (m.forwardVc2 none tag d).rng = m.rng ∧
      (m.forwardVc2 none tag d).trv.waits = m.trv.waits ∧ (m.forwardVc2 none tag d).trv.reqId = m.trv.reqId := by
    unfold Mach.forwardVc2
    dsimp only
    split
    · simp
    · split <;> simp [hframe]
  unfold Mach.sendVc2
  split
  case isTrue => simp
  case isFalse hmember =>
    clear hmember
    dsimp only
    generalize (if b.isEmpty then [[]] else chunks 240 (b.length / 240 + 1) b).zipIdx = l
    induction l generalizing m with
    | nil => exact ⟨rfl, rfl, rfl, rfl⟩
    | cons c l ih =>
      obtain ⟨hhp, hrng, hwaits, hreq⟩ := ih (m.forwardVc2 none (vc2Tag dest chan)
        (vc2Header m.member req b.length (240 * c.2) st ++ c.1))
      obtain ⟨fhp, frng, fwaits, freq⟩ := hforward m (vc2Tag dest chan) (vc2Header m.member req b.length (240 * c.2) st ++ c.1)
      exact ⟨hhp.trans fhp, hrng.trans frng, hwaits.trans fwaits, hreq.trans freq⟩

/-! FB_REQUEST items. -/

/-- What the path of an FB_REQUEST item says of it. -/
theorem Mach.pathOpen_item {m : Mach} {ring seq ctx : Nat} {i : Item} (h : m.pathOpen (.item ring seq ctx))
    (hi : m.item? (itemKey ring seq) = some i) : i.kind = kindFb ∧ i.started = false ∧ m.itemFree i = true ∧
      (i.skip && m.predecessorFailed i) = false := by
  simp only [Mach.pathOpen, hi, Bool.and_eq_true, decide_eq_true_eq, Bool.not_eq_true'] at h
  exact ⟨h.1.1.1.1, h.1.1.1.2, h.1.2, h.2⟩

theorem find?_of_head? {α : Type} {l : List α} {p : α → Bool} {x : α} (h : l.head? = some x) (hp : p x = true) :
    l.find? p = some x := by
  cases l with
  | nil => cases h
  | cons y l =>
    obtain rfl := Option.some.inj h
    simp [hp]

/-- A ring whose floor serves another now takes no descriptor of it; its oldest item, an FB_REQUEST that nothing holds, has no work to
start. -/
theorem Mach.takeOrStart_fb {m : Mach} {ring : Nat} {i : Item} (hring : m.nextRing (ringFloor ring) ≠ some ring)
    (hhead : (sortItems (m.itemsOf ring)).head? = some i) (hi : m.item? i.key = some i) (hkind : i.kind = kindFb)
    (hstart : i.started = false) (hfree : m.itemFree i = true) (hskip : (i.skip && m.predecessorFailed i) = false) :
    m.takeOrStart ring (· = kindFb) = m := by
  have hwaiting : m.startWaiting ring (· = kindFb) = m := by
    have hbegin : m.beginItem i = m := by
      simp [Mach.beginItem, hkind, kindFb, kindNop, kindSession, kindSave, kindLoad, kindSite, kindCore]
    have htraverse : i.kind ≠ kindTraverse := by simp [hkind, kindFb, kindTraverse]
    rw [Mach.startWaiting, find?_of_head? hhead (by simp [hkind, hstart])]
    simp [Mach.orderedStart, hi, hstart, hfree, hskip, htraverse, hbegin]
  unfold Mach.takeOrStart
  split
  · rw [if_neg (by simp [hring]), hwaiting]
  · exact hwaiting

/-- Settles O50. -/
theorem mailboxesAndRequestItemsAnswer : Obligations.MailboxesAndRequestItemsAnswer := by
  unfold Obligations.MailboxesAndRequestItemsAnswer
  refine ⟨?_, fun h => ⟨?_, ?_⟩, ?_, ?_, ?_⟩
  · intro s c f hc fr hhears hty o l hfits
    refine completes_runFzIf rfl (by simp [hc]) ?_
    obtain ⟨hopen, hchan⟩ := Mach.hears_asks hhears
    have hgo : (o.coreAt c).mbxGo = 1 := by
      simp only [Mach.pathOpen, Bool.and_eq_true, decide_eq_true_eq] at hopen
      simp only [o, Mach.opens, Mach.coreAt_setCoreAt hopen.1.1.1]
    have hreads := Mach.request_reads hhears (by simp [rqClass]) hty hfits
    rw [Mach.sendReply_core hgo hchan] at hreads
    exact hreads
  · rintro c b hc hlen hreply s rfl
    refine completes_run (f := fun m => m.mbxLands (.core c)) rfl ?_
    have hcore : c < s.hw.core.dev.length := by omega
    simp only [Mach.mbxLands, hreply]
    refine ⟨Mach.coreAt_setCoreAt hcore _, rfl, rfl, rfl⟩
  · rintro n b hn hlen hreply s rfl
    refine completes_run (f := fun m => m.mbxLands (.hostPort n)) rfl ?_
    have hport : n < s.hw.hp.dev.length := by omega
    simp only [Mach.mbxLands, hreply]
    refine ⟨Mach.hpAt_setHpAt hport _, rfl, rfl, rfl⟩
  · intro s n f hn hown fr hhears hty o l hfits
    refine completes_runFzIf rfl (by simp [hn]) ?_
    obtain ⟨hopen, hchan⟩ := Mach.hears_asks hhears
    have hgo : (o.hpAt n).mbxGo = 1 := by
      simp only [Mach.pathOpen, Bool.and_eq_true, decide_eq_true_eq] at hopen
      simp only [o, Mach.opens, Mach.hpAt_setHpAt hopen.1.1.1]
    have hreads := Mach.request_reads hhears (by simp [rqClass]) hty hfits
    rw [Mach.sendReply_hostPort hgo hchan] at hreads
    have hown : s.hw.hpMbx s.fuses n f = s.hw.request s.fuses (.hostPort n) fr := by
      simp only [Mach.hpMbx, hown, if_true]; rfl
    exact hown.trans hreads
  · rintro h n f hn hlen htarget hserves hpwr hgo s rfl
    refine completes_runFzIf rfl (by simp [hn]) ?_
    have hport : n < s.hw.hp.dev.length := by omega
    have hstays : (s.hw.setHpAt n { s.hw.hpAt n with mbxGo := 1 }).hpTarget n = s.hw.hpTarget n := by
      simp only [Mach.hpTarget, Mach.hpAt_setHpAt hport]; rfl
    have hwait : s.hw.hpMbx s.fuses n f = ((s.hw.setHpAt n { s.hw.hpAt n with mbxGo := 1 }).setTrv { s.hw.trv with
        reqId := (s.hw.trv.reqId + 1) % 65536
        waits := s.hw.trv.waits ++ [⟨(s.hw.trv.reqId + 1) % 65536, s.hw.hpTarget n, 0, n, 0⟩] }).sendVc2 (s.hw.hpTarget n) 0
        ((s.hw.trv.reqId + 1) % 65536) 0
        ((padTo (16 + num (s.hw.hpAt n).mbxReq 8 4) (s.hw.hpAt n).mbxReq).take 65536) := by
      simp only [Mach.hpMbx, htarget, if_false, hserves, hgo, Mach.wake_active hpwr, Bool.not_true, Bool.false_or,
        decide_false, Bool.false_eq_true]
      rw [hstays]
      rfl
    rw [hwait]
    generalize hm : Mach.setTrv _ _ = a
    obtain ⟨hhp, hrng, hwaits, hreq⟩ := Mach.sendVc2_frame a (s.hw.hpTarget n) 0 ((s.hw.trv.reqId + 1) % 65536) 0
      ((padTo (16 + num (s.hw.hpAt n).mbxReq 8 4) (s.hw.hpAt n).mbxReq).take 65536)
    refine ⟨?_, hwaits.trans (by rw [← hm]; rfl), hreq.trans (by rw [← hm]; rfl), hrng.trans (by rw [← hm]; rfl)⟩
    rw [Mach.hpAt, hhp, ← hm]
    exact congrArg HostPort.mbxGo (Mach.hpAt_setHpAt hport _)
  · intro s ring f i b hring hnext hhead hkind hir hi g hg rq fr hasks hhears hlen hty o
    refine completes_runFzIf rfl (by simp [hring]) ?_
    subst hir
    have hopen : s.hw.pathOpen rq = true := by
      simp only [Mach.asks, Bool.and_eq_true] at hasks
      exact hasks.1.2
    have hserves : s.hw.bookServes = true := by
      simp only [Mach.asks, Bool.and_eq_true] at hasks
      exact hasks.1.1
    obtain ⟨-, hstart, hfree, hskip⟩ := Mach.pathOpen_item hopen hi
    obtain ⟨-, hchan⟩ := Mach.hears_asks hhears
    rw [Mach.takeOrStart_fb hnext hhead hi hkind hstart hfree hskip]
    have hnow : s.hw.fbNext s.fuses i.ring f = Mach.drainHeld s.fuses rq 16 (o.frameNow s.fuses rq fr) := by
      have hfind := find?_of_head? (p := fun i => i.kind = kindFb && !i.started && s.hw.itemFree i) hhead
        (by simp [hkind, hstart, hfree])
      rw [Mach.fbNext, hfind]
      simp only [hskip, Bool.false_eq_true, if_false, hserves, if_true]
      rw [Mach.fbItem, hg]
      simp only [Mach.itemFrame, Mach.mailbox]
      rw [if_pos hlen]
      rfl
    have hbad : frameBad rq true fr = false := by
      simp only [Mach.hears, Bool.and_eq_true, Bool.not_eq_true'] at hhears
      exact hhears.2
    rw [hnow, Mach.frameNow_ops (fun n h => by simp [rq] at h) hbad (by omega), Mach.opsOn_reads hty hchan rfl,
      Mach.drainHeld_of_quiet]
    exact Mach.sendReply_quiet (Mach.quiet_of_none hchan) ..

end Sys2Proof.Machine
end

section
/-! PROOFS. A draft's owner, and an item's request (R50, R320): the number of an item's path is its ring's and its own, and two paths
may have one number. -/
namespace Sys2Proof.Machine

theorem Mach.sendReply_draft (m : Mach) (rq : Rq) (ty : Nat) (st : Status) (q : Nat) (b : Bytes) :
    (m.sendReply rq ty st q b).fb.draft = m.fb.draft := by
  rcases m.sendReply_cases rq ty st q b with h | h
  · exact congrArg Kept.draft h
  · rw [h]; rfl

/-- The path that names item 2 ^ 48 of ring 0, and with it the number of item 0 of ring 1. -/
def aliasPath : Rq := .item 0 (2 ^ 48) 5

/-- Its draft. -/
def aliasDraft : Draft := { owner := aliasPath }

/-- The module in survey step 5, where FB_REQUEST item 0 of ring 1 of context 5 has been accepted and that draft is open. -/
def aliasModule : Mach :=
  let m := State.reset.hw
  ((m.setCad { m.cad with step := 5 }).setRng { m.rng with
    items := [{ ring := 1, seq := 0, desc := 0, kind := kindFb, epoch := 0, ctx := 5, order := false, skip := false
                notify := false, user := 0, started := false }] }).setFb { m.fb with draft := some aliasDraft }

/-- A record that puts MY_EVENT_CLASSES in the draft. -/
def aliasRecord : OpRec := { index := 0x4820, sub := 3, target := 1, ty := 8, value := [2, 0] }

def aliasFrame : Frame := { ty := 3, length := 12, reqId := 1, payload := opBytes aliasRecord }

theorem aliasModule_takesWrite :
    ((entryAt kMyEventClasses).map fun e => aliasModule.takesWrite aliasPath aliasFrame aliasRecord e) = some true := by
  decide +kernel

/-- The item's request is carried out as that of item 0 of ring 1, which has no draft. -/
theorem aliasModule_request :
    (aliasModule.request State.reset.fuses aliasPath aliasFrame).fb.draft = some aliasDraft := by decide +kernel

/-- Refutes O48: it takes every requester, also an item whose sequence number is past 48 bits; there that path's number is
another item's too, and the request is that item's, who does not own the draft: the record is refused with FB_NO_DRAFT, and the draft
stays. -/
theorem not_readsAnswerAndWritesLand : ¬ Obligations.ReadsAnswerAndWritesLand := by
  unfold Obligations.ReadsAnswerAndWritesLand
  intro h
  obtain ⟨-, hwrites⟩ := h
  obtain ⟨-, -, -, hdraft, -, -⟩ := hwrites aliasModule
  obtain ⟨e, -, htakes⟩ := Option.map_eq_some_iff.mp aliasModule_takesWrite
  have hruns := hdraft aliasPath aliasFrame aliasRecord e aliasDraft htakes rfl rfl (State.reset.setHw aliasModule) rfl
  obtain ⟨a, hm, hent, -⟩ := completes_runFz_effect (f := fun z m => m.request z aliasPath aliasFrame) rfl hruns
  have hcarried : aliasModule.request State.reset.fuses aliasPath aliasFrame = _ := hm
  have hleft := (congrArg (fun m => m.fb.draft) hcarried).trans (Mach.sendReply_draft _ _ _ _ _ _)
  have hents := congrArg Draft.ents (Option.some.inj (aliasModule_request.symm.trans (hleft.trans hent)))
  exact absurd hents (by decide)

end Sys2Proof.Machine
end

section
/-! PROOFS. The end of an action that a CMD entry waits for (R79): who waited is answered, and a segment map record applies or is
refused (R143, R144). -/
namespace Sys2Proof.Machine

/-! Who waited. -/

/-- Where no frame is unanswered, none is answered. -/
theorem Mach.resumeAll_nil {m : Mach} (h : m.fb.chans = []) (z : Fuses) : m.resumeAll z = m := by
  simp [Mach.resumeAll, h, skeys]

theorem onlyWaits_iff {m : Mach} {c : CmdReq} {w : Wait} :
    m.onlyWaits c w = true ↔ m.fb.chans = [(rqCode c.rq, { cur := some (c.waiting w) })] := by
  simp [Mach.onlyWaits]

/-- The frame that alone waits goes, and nothing is left of the channels. -/
theorem Mach.chans_putChan_onlyWaits {m : Mach} {c : CmdReq} {w : Wait} (h : m.onlyWaits c w) :
    (m.putChan c.rq {}).fb.chans = [] := by
  rw [onlyWaits_iff] at h
  simp [Mach.putChan, h, sdel]

theorem Mach.chanOf_onlyWaits {m : Mach} {c : CmdReq} {w : Wait} (h : m.onlyWaits c w) :
    m.chanOf c.rq = { cur := some (c.waiting w) } := by
  rw [onlyWaits_iff] at h
  simp [Mach.chanOf, h, sgetD, sget]

/-- The action that the one frame waits for has ended: its record is answered, its reply goes out, and no other frame goes on (R79). -/
theorem Mach.resume_onlyWaits {m : Mach} {c : CmdReq} {w : Wait} {e : EntryRow} (h : m.onlyWaits c w) (hrow : CmdRow c.key e)
    (z : Fuses) (st : Status) (v : Bytes) : m.resume z c.rq st v = (m.putChan c.rq {}).replies c st v := by
  have hchan := Mach.chanOf_onlyWaits h
  have hnone := Mach.chans_putChan_onlyWaits h
  have hanswer : opAnswer (cmdRec c.key c.value) st e.ty v = { cmdRec c.key v with status := st.code } := by
    simp only [opAnswer, cmdRec, hrow.1, ite_self]
  rw [Mach.resume, hchan]
  simp only [CmdReq.waiting, opKey_cmdRec, hrow.entryAt, hanswer]
  have hops (a : OpRec) : m.opsOn z c.rq 3 c.reqId c.verif [a] [] = (m.putChan c.rq {}).sendReply c.rq 3 .done c.reqId (opBytes a) := by
    simp [Mach.opsOn, Mach.runOps, hchan]
  rw [hops, Mach.drainHeld_of_quiet]
  · rfl
  · exact Mach.sendReply_quiet (Mach.quiet_of_none (by rw [hnone]; rfl)) ..

/-- Of the frames that wait, the one there is is answered, once what it waits for has ended. -/
theorem Mach.resumeAll_onlyWaits {m a : Mach} {c : CmdReq} {w : Wait} {e : EntryRow} (h : m.onlyWaits c w) (hrow : CmdRow c.key e)
    {st : Status} {v : Bytes} (hover : m.waitOver c.rq w = some { m := a, st, val := v }) (ha : a.fb.chans = m.fb.chans)
    (z : Fuses) : m.resumeAll z = (a.putChan c.rq {}).replies c st v := by
  have hkeys : skeys m.fb.chans = [rqCode c.rq] := by rw [onlyWaits_iff.mp h]; rfl
  have hcur : (sgetD {} m.fb.chans (rqCode c.rq)).cur = some (c.waiting w) := congrArg Chan.cur (Mach.chanOf_onlyWaits h)
  have ha : a.onlyWaits c w = true := by rw [onlyWaits_iff, ha, onlyWaits_iff.mp h]
  rw [Mach.resumeAll, hkeys, List.foldl_cons, List.foldl_nil, Mach.resumeOne, hcur]
  have hover' : m.waitOver (c.waiting w).rq (c.waiting w).wait = some { m := a, st, val := v } := hover
  simp only [hover']
  exact Mach.resume_onlyWaits ha hrow z st v

/-! Segment map records. -/

/-- No fill is on its way into a remote line cache. -/
def Mach.noFill (m : Mach) : Prop := ∀ e ∈ m.die.rlc, match e.2 with | .shared _ _ => True | .fill _ _ => False

theorem Mach.noFill_of_calm {m : Mach} (h : m.calm) : m.noFill := by
  simp only [Mach.calm, Bool.and_eq_true] at h
  intro e he
  have := List.all_eq_true.mp h.2 e he
  split <;> simp_all

theorem Mach.landFills_of_noFill {m : Mach} (h : m.noFill) (e : SegEnt) : m.landFills e = m := by
  unfold Mach.landFills
  unfold Mach.noFill at h
  generalize m.die.rlc = l at h
  induction l with
  | nil => rfl
  | cons x l ih =>
    obtain ⟨k, x⟩ := x
    cases x with
    | shared a d => exact ih fun e he => h e (List.mem_cons_of_mem _ he)
    | fill a q => exact (h (k, .fill a q) List.mem_cons_self).elim

/-- `a` has the slots, the waiting writes, the rings and the Field Book of `b`. -/
def Mach.sameSlots (a b : Mach) : Prop :=
  a.rng = b.rng ∧ a.fb = b.fb ∧ a.grid.segWait = b.grid.segWait ∧ a.grid.seg = b.grid.seg

theorem Mach.sameSlots.trans {a b c : Mach} (h : a.sameSlots b) (k : b.sameSlots c) : a.sameSlots c :=
  ⟨h.1.trans k.1, h.2.1.trans k.2.1, h.2.2.1.trans k.2.2.1, h.2.2.2.trans k.2.2.2⟩

theorem Mach.dropFoot_sameSlots {m : Mach} (h : m.noFill) (e : SegEnt) : (m.dropFoot e).sameSlots m := by
  unfold Mach.dropFoot
  rw [Mach.landFills_of_noFill h]
  exact ⟨rfl, rfl, rfl, rfl⟩

theorem Mach.zeroFoot_sameSlots (m : Mach) (e : SegEnt) : (m.zeroFoot e).sameSlots m := by
  unfold Mach.zeroFoot
  split <;> exact ⟨rfl, rfl, rfl, rfl⟩

theorem Mach.sameSlots.ite {a b c : Mach} (p : Prop) [Decidable p] (h : a.sameSlots c) (k : b.sameSlots c) :
    (if p then a else b).sameSlots c := by
  split
  · exact h
  · exact k

/-- With no fill on its way, a slot's change is in the slots, and in memory, the remote line caches and the translation caches. -/
theorem Mach.putSlot_frame {m : Mach} (h : m.noFill) (slot : Nat) (ent : Option SegEnt) :
    (m.putSlot slot ent).rng = m.rng ∧ (m.putSlot slot ent).fb = m.fb ∧ (m.putSlot slot ent).grid.segWait = m.grid.segWait ∧
    (m.putSlot slot ent).grid.seg = (match ent with | some e => sput m.grid.seg slot e | none => sdel m.grid.seg slot) := by
  have hsame : m.sameSlots m := ⟨rfl, rfl, rfl, rfl⟩
  have hdrop (o : SegEnt) (p : Prop) [Decidable p] : (if p then m.dropFoot o else m).sameSlots m :=
    .ite p (Mach.dropFoot_sameSlots h o) hsame
  have hzero {a : Mach} (ha : a.sameSlots m) (o : SegEnt) (p : Prop) [Decidable p] :
      (if p then a.zeroFoot o else a).sameSlots m := .ite p ((Mach.zeroFoot_sameSlots a o).trans ha) ha
  have hends {a : Mach} (ha : a.sameSlots m) (f : SMap SegEnt → SMap SegEnt) :
      let b := (a.dropCached slot).setGrid { (a.dropCached slot).grid with seg := f (a.dropCached slot).grid.seg }
      b.rng = m.rng ∧ b.fb = m.fb ∧ b.grid.segWait = m.grid.segWait ∧ b.grid.seg = f m.grid.seg := by
    obtain ⟨hrng, hfb, hwait, hseg⟩ := ha
    exact ⟨hrng, hfb, hwait, congrArg f hseg⟩
  unfold Mach.putSlot
  cases ho : sget m.grid.seg slot with
  | none => cases ent with
    | none => exact hends hsame (sdel · slot)
    | some e => exact hends (hzero hsame e _) (sput · slot e)
  | some o => cases ent with
    | none => exact hends (hdrop o _) (sdel · slot)
    | some e => exact hends (hzero (hdrop o _) e _) (sput · slot e)

/-- Every record of the one waiting write is answered: the requester gets their statuses, and no write waits. -/
theorem Mach.resumeAll_segWrite {m : Mach} {c : CmdReq} {w : SegWait} {e : EntryRow} {l : List Status}
    (hwaits : m.onlyWaits c .segmap) (hrow : CmdRow c.key e) (hrole : m.fb.role = 0) (hseg : m.grid.segWait = []) (hrq : w.rq = c.rq)
    (hclear : w.clearAll = false) (z : Fuses) :
    (m.setGrid { m.grid with segWait := m.grid.segWait ++ [{ w with answered := l, finished := true }] }).resumeAll z =
      ((m.setGrid { m.grid with segWait := [] }).putChan c.rq {}).replies c .done (statusBytes l) := by
  have hover (a : Mach) (hrole : a.fb.role = 0)
      (hseg : a.grid.segWait = [{ w with answered := l, finished := true }]) :
      a.waitOver c.rq .segmap = some { m := a.setGrid { a.grid with segWait := [] }, val := statusBytes l } := by
    simp [Mach.waitOver, hrole, Mach.segReply, hseg, hrq, hclear, Mach.segTake]
  have hgrid : (m.setGrid { m.grid with
      segWait := m.grid.segWait ++ [{ w with answered := l, finished := true }] }).grid.segWait =
        [{ w with answered := l, finished := true }] := by simp [hseg]
  exact Mach.resumeAll_onlyWaits (m := m.setGrid { m.grid with
    segWait := m.grid.segWait ++ [{ w with answered := l, finished := true }] }) (w := .segmap) hwaits hrow (hover _ hrole hgrid) rfl z

/-- A waiting write among those that wait, alone there, is taken from them. -/
theorem Mach.segTake_only {m : Mach} {w : SegWait} (h : m.grid.segWait = [w]) : (m.segTake w).grid.segWait = [] := by
  simp [Mach.segTake, h]

theorem cmdRow_waits : ∀ k ∈ [kSegmapWrite, kPwrOff], ∃ e, CmdRow k e := by
  intro k hk
  have hcmd : ([kSegmapWrite, kPwrOff].all isClassedKey) = true := by decide +kernel
  obtain ⟨e, hrow, -⟩ := cmdRow_of_isClassedKey (List.all_eq_true.mp hcmd k hk)
  exact ⟨e, hrow⟩

/-- One record that no item holds up is written, and the write is through. -/
theorem Mach.segRun_one {m : Mach} {slot v : Nat} {e : SegEnt} {items : List Nat} (hjudge : m.segJudge slot v = .inr (some e))
    (hold : (sget m.grid.seg slot).all (fun o => !(m.itemsLeft o.ctx items)) = true) (rq : Rq) (l : List Status) :
    m.segRun rq items l [(slot, v)] = (m.putSlot slot (some e), some (.done :: l)) := by
  rw [Mach.segRun]
  simp only [hjudge]
  cases hslot : sget m.grid.seg slot with
  | none => rfl
  | some o =>
    have hnone : m.itemsLeft o.ctx items = false := by simpa [hslot] using hold
    simp only [hnone, Bool.false_eq_true, if_false]
    rfl

/-- A write that came through stands among those that wait, with its statuses. -/
theorem Mach.segGo_done {m a : Mach} {w : SegWait} {l k : List Status} {recs : List (Nat × Nat)}
    (h : m.segRun w.rq w.items l recs = (a, some k)) :
    m.segGo w l recs = a.setGrid { a.grid with segWait := a.grid.segWait ++ [{ w with answered := k, finished := true }] } := by
  rw [Mach.segGo, h]

/-- The record that waited applies (R143): the statuses of its write with DONE for it, and its slot holds its entry. -/
theorem Mach.segDrained_applies {m : Mach} {w : SegWait} {e : SegEnt} {rq : Rq} (hwait : m.segWaiting rq = some w)
    (hclear : w.clearAll = false) (hrest : w.rest = []) (hleft : m.itemsLeft w.ctx w.items = false)
    (hold : (sget m.grid.seg w.slot).all (fun o => !(m.itemsLeft o.ctx w.items)) = true)
    (hjudge : (m.segTake w).segJudge w.slot (match w.ent with | some e => e.bits | none => 0) = .inr (some e)) :
    let a := (m.segTake w).putSlot w.slot (some e)
    m.segDrained rq = a.setGrid { a.grid with
      segWait := a.grid.segWait ++ [{ w with answered := .done :: w.answered, finished := true }] } := by
  have hone := Mach.segRun_one (m := m.segTake w) (items := w.items) hjudge hold w.rq w.answered
  have hgo : m.segDrained rq =
      (m.segTake w).segGo w w.answered ((w.slot, match w.ent with | some e => e.bits | none => 0) :: w.rest) := by
    simp [Mach.segDrained, hwait, hclear, hleft] <;> rfl
  rw [hgo]
  exact Mach.segGo_done (by rw [hrest]; exact hone)

/-- A write that waited its limit has its record refused (R144). -/
theorem Mach.segLate_refuses {m : Mach} {w : SegWait} {rq : Rq} {us : Nat} (hwait : m.segWaiting rq = some w)
    (hrest : w.rest = []) (hlate : us > 1000 * m.cfg kSegmapDrainTimeout) :
    let a := m.segTake w
    m.segLate rq us = a.setGrid { a.grid with
      segWait := a.grid.segWait ++ [{ w with answered := .rejectBusy :: w.answered, finished := true }] } := by
  have hon : m.segLate rq us = (m.segTake w).segOn w .rejectBusy := by simp [Mach.segLate, hwait, hlate]
  rw [hon, Mach.segOn]
  exact Mach.segGo_done (by rw [hrest]; rfl)

/-- A segment map record that waited is written and answered (R143). -/
theorem segmapRecord_drained {h : Mach} {c : CmdReq} {w : SegWait} {e : SegEnt} (hwait : h.segWaiting c.rq = some w)
    (hkey : c.key = kSegmapWrite) (hseg : h.grid.segWait = [w]) (hrq : w.rq = c.rq) (hclear : w.clearAll = false)
    (hrest : w.rest = []) (hrole : h.fb.role = 0) (hcalm : h.calm) (hleft : h.itemsLeft w.ctx w.items = false)
    (hold : (sget h.grid.seg w.slot).all (fun o => !(h.itemsLeft o.ctx w.items)) = true)
    (hjudge : (h.segTake w).segJudge w.slot (match w.ent with | some e => e.bits | none => 0) = .inr (some e))
    (hwaits : h.onlyWaits c .segmap) :
    concludes (.segmapRecordDrained c.rq) h c .done fun a b => b = statusBytes (.done :: w.answered) ∧ sget
      a.grid.seg w.slot = some e ∧ a.grid.segWait = [] ∧ a.rng = h.rng := by
  intro s hs
  subst hs
  refine completes_runFz (f := fun z m => (m.segDrained c.rq).resumeAll z) rfl ?_
  have hnofill : (s.hw.segTake w).noFill := Mach.noFill_of_calm (m := s.hw) hcalm
  obtain ⟨hrng, hfb, hwaiting, hslots⟩ := Mach.putSlot_frame hnofill w.slot (some e)
  obtain ⟨row, hrow⟩ := cmdRow_waits c.key (by simp [hkey])
  rw [Mach.segDrained_applies hwait hclear hrest hleft hold hjudge]
  have hall := Mach.resumeAll_segWrite (m := (s.hw.segTake w).putSlot w.slot (some e)) (w := w) (l := .done :: w.answered)
    (by rw [onlyWaits_iff, hfb]; exact onlyWaits_iff.mp hwaits) hrow (by rw [hfb]; exact hrole)
    (by rw [hwaiting, Mach.segTake_only hseg]) hrq hclear s.fuses
  refine ⟨_, _, hall, ?_, rfl, ?_, rfl, hrng⟩
  · exact Mach.chans_putChan_onlyWaits (w := .segmap) (by rw [onlyWaits_iff, Mach.setGrid_fb, hfb]; exact onlyWaits_iff.mp hwaits)
  · exact (congrArg (sget · w.slot) hslots).trans (sget_sput_self _ _ _)

/-- A segment map record that waited its limit is refused (R144). -/
theorem segmapRecord_late {h : Mach} {c : CmdReq} {us : Nat} {w : SegWait} (hwait : h.segWaiting c.rq = some w)
    (hkey : c.key = kSegmapWrite) (hseg : h.grid.segWait = [w]) (hrq : w.rq = c.rq) (hclear : w.clearAll = false)
    (hrest : w.rest = []) (hrole : h.fb.role = 0) (hlate : us > 1000 * h.cfg kSegmapDrainTimeout) (hwaits : h.onlyWaits c .segmap) :
    concludes (.segmapDrainTimeout c.rq us) h c .done fun a b => b = statusBytes (.rejectBusy :: w.answered) ∧
      a.grid.seg = h.grid.seg ∧ a.grid.segWait = [] ∧ a.rng = h.rng := by
  intro s hs
  subst hs
  refine completes_runFz (f := fun z m => (m.segLate c.rq us).resumeAll z) rfl ?_
  obtain ⟨row, hrow⟩ := cmdRow_waits c.key (by simp [hkey])
  rw [Mach.segLate_refuses hwait hrest hlate]
  have hall := Mach.resumeAll_segWrite (m := s.hw.segTake w) (w := w) (l := .rejectBusy :: w.answered) hwaits hrow hrole
    (Mach.segTake_only hseg) hrq hclear s.fuses
  exact ⟨_, _, hall, Mach.chans_putChan_onlyWaits (w := .segmap) hwaits, rfl, rfl, rfl, rfl⟩

end Sys2Proof.Machine
end

section
/-! PROOFS. How a context, a fence and a closure end where no frame waits for another thing (R296, R444, R466, R498, R592). -/
namespace Sys2Proof.Machine

/-! Fences, of a module where no frame waits. -/

/-- What is kept, but for the draft, which a fence may end. -/
def Kept.undrafted (k : Kept) : Kept := { k with draft := none }

theorem Mach.discardDraft_undrafted (m : Mach) (code : Nat) : (m.discardDraft code).kept.undrafted = m.kept.undrafted := by
  unfold Mach.discardDraft
  split
  · rfl
  · split
    · rfl
    · simp only [Mach.event_kept, Mach.unhold_kept]; rfl

theorem Mach.draftOf_undrafted (m : Mach) (rq : Rq) (code : Nat) : (m.draftOf rq code).kept.undrafted = m.kept.undrafted := by
  unfold Mach.draftOf
  split
  · split
    · exact Mach.discardDraft_undrafted ..
    · rfl
  · rfl

theorem Mach.chans_of_undrafted {a b : Mach} (h : a.kept.undrafted = b.kept.undrafted) : a.fb.chans = b.fb.chans :=
  congrArg Kept.chans h

/-- Where no frame waits none is dropped. -/
theorem Mach.dropChan_of_nil {m : Mach} (h : m.fb.chans = []) (rq : Rq) : m.dropChan rq = m := by
  unfold Mach.dropChan
  rw [h]
  have : ({ m.fb with chans := sdel ([] : SMap Chan) (rqCode rq) } : Fb) = m.fb := by
    rw [show sdel ([] : SMap Chan) (rqCode rq) = m.fb.chans by rw [h]; rfl]
  rw [this]
  rfl

theorem Mach.dropParty_undrafted {m : Mach} (h : m.fb.chans = []) (rq : Rq) (code : Nat) :
    ((m.draftOf rq code).dropChan rq).kept.undrafted = m.kept.undrafted := by
  have hdraft := Mach.draftOf_undrafted m rq code
  rw [Mach.dropChan_of_nil ((Mach.chans_of_undrafted hdraft).trans h), hdraft]

theorem Mach.finishCoreFence_undrafted {m : Mach} (h : m.fb.chans = []) (c cause : Nat) (quiet : Bool) :
    (m.finishCoreFence c cause quiet).kept.undrafted = m.kept.undrafted := by
  have hkept (p : Origin → Bool) : ((m.drain p).reclaim ⟨2, c⟩).kept = m.kept := by simp
  unfold Mach.finishCoreFence
  simp only [Mach.reportFence_kept, Mach.setCoreAt_kept, Mach.closeRings_kept]
  rw [Mach.dropParty_undrafted ((congrArg Kept.chans (hkept _)).trans h), hkept]

theorem Mach.fenceCore_undrafted {m : Mach} (h : m.fb.chans = []) (c cause : Nat) (quiet : Bool) :
    (m.fenceCore c cause quiet).kept.undrafted = m.kept.undrafted := by
  have hend {a : Mach} (ha : a.kept = m.kept) (k : Nat) : (a.finishCoreFence c k quiet).kept.undrafted = m.kept.undrafted := by
    rw [Mach.finishCoreFence_undrafted ((congrArg Kept.chans ha).trans h), ha]
  have hstart : (m.startCoreFence c cause quiet).kept = m.kept := Mach.startCoreFence_kept ..
  unfold Mach.fenceCore
  split
  · exact hend (Mach.fenceEvent_kept ..) _
  · dsimp only
    split
    · exact hend hstart _
    · rw [hstart]

/-- The cores of a context that ends are fenced, one after another. -/
theorem Mach.foldl_fenceCore_undrafted {m : Mach} (h : m.fb.chans = []) (c cause : Nat) (quiet : Bool) (l : List Nat) :
    (l.foldl (fun m i => if (m.coreAt i).ctx = c then m.fenceCore i cause quiet else m) m).kept.undrafted = m.kept.undrafted := by
  induction l generalizing m with
  | nil => rfl
  | cons i l ih =>
    have hone : (if (m.coreAt i).ctx = c then m.fenceCore i cause quiet else m).kept.undrafted = m.kept.undrafted := by
      split
      · exact Mach.fenceCore_undrafted h ..
      · rfl
    exact (ih ((Mach.chans_of_undrafted hone).trans h)).trans hone

/-! The end of a context. -/

/-- A DESTROYING context without items is gone, and the others stay as they were (R296). -/
theorem Mach.ctxFinish_frame {m : Mach} {c : Nat} {x : Ctx} (hx : m.ctx? c = some x) (hst : x.st = .destroying)
    (hitems : m.rng.items.any (fun i => i.ctx = c) = false) (hchans : m.fb.chans = []) (hrise : rising m.rng.ctxs) :
    (m.ctxFinish c).fb.chans = [] ∧ (m.ctxFinish c).ctx? c = none ∧
    (∀ d, d ≠ c → ((m.ctxFinish c).ctx? d).map (·.st) = (m.ctx? d).map (·.st)) ∧ (m.ctxFinish c).fb.cur = m.fb.cur := by
  have hgo : (x.st ≠ .destroying || m.rng.items.any (fun i => i.ctx = c)) = false := by simp [hst, hitems]
  unfold Mach.ctxFinish
  simp only [hx, hgo, Bool.false_eq_true, if_false]
  generalize hb : Mach.event _ evSecurity 0x0A 1 _ _ _ = b
  have hkept : b.kept.undrafted = m.kept.undrafted := by
    rw [← hb]
    simp only [Mach.event_kept, Mach.foldl_kept (fun m r => Mach.ringGone_kept m r ⟨0x0B, c⟩), Mach.eraseKeys_kept, Mach.clearSlots_kept,
      Mach.reportFence_kept, Mach.reclaim_kept, Mach.endSessions_kept, Mach.dropXfers_kept]
    exact Mach.foldl_fenceCore_undrafted hchans ..
  generalize ha : Mach.debugChange _ _ = a
  have hdebug : a.kept = (b.setRng { b.rng with ctxs := sdel b.rng.ctxs c }).kept := by rw [← ha, Mach.debugChange_kept]
  have hbrise : rising b.rng.ctxs := (congrArg Kept.ctxsRise hkept).mpr hrise
  have hctx (d : Nat) : (a.ctx? d).map (·.st) = (sget (sdel b.rng.ctxs c) d).map (·.st) := congrFun (congrArg Kept.ctxSt hdebug) d
  refine ⟨?_, ?_, fun d hd => ?_, ?_⟩
  · exact (congrArg Kept.chans hdebug).trans ((Mach.chans_of_undrafted hkept).trans hchans)
  · exact Option.map_eq_none_iff.mp ((hctx c).trans (by rw [sget_sdel_self hbrise]; rfl))
  · rw [hctx d, sget_sdel_ne _ hd]
    exact congrFun (congrArg Kept.ctxSt hkept) d
  · exact (congrArg Kept.cur hdebug).trans (congrArg Kept.cur hkept)

theorem contextDestroy_finishes {h : Mach} {c : Nat} {x : Ctx} (hc : c < 4096) (hx : h.ctx? c = some x) (hst : x.st = .destroying)
    (hitems : h.rng.items.any (fun i => i.ctx = c) = false) (hchans : h.fb.chans = []) (hrise : (skeys h.rng.ctxs).Pairwise (· < ·)) :
    runs (.contextDestroyFinish c) h fun m => m.ctx? c = none ∧ (∀ d, d ≠ c → (m.ctx? d).map (·.st) = (h.ctx? d).map
      (·.st)) ∧ m.fb.cur = h.fb.cur := by
  intro s hs
  subst hs
  refine completes_runFzIf (ok := decide (c < 4096)) (f := fun z m => (m.ctxFinish c).resumeAll z) rfl (by simpa using hc) ?_
  obtain ⟨hnone, hframe⟩ := Mach.ctxFinish_frame hx hst hitems hchans hrise
  rw [Mach.resumeAll_nil hnone]
  exact hframe

/-! The end of a fence. -/

/-- `a` has the sites, the cores, the host ports, the cadastre and the running fences of `b`. -/
def Mach.sameParties (a b : Mach) : Prop :=
  a.site = b.site ∧ a.core = b.core ∧ a.hp = b.hp ∧ a.cad = b.cad ∧ a.flt.fencing = b.flt.fencing

theorem Mach.event_sameParties (m : Mach) (cls code sev : Nat) (unit : UnitRef) (data : Nat) :
    (m.event cls code sev unit 0 data).sameParties m := by
  rw [Mach.event_none]
  exact ⟨rfl, rfl, rfl, rfl, rfl⟩

theorem Mach.sameParties.trans {a b c : Mach} (h : a.sameParties b) (k : b.sameParties c) : a.sameParties c := by
  obtain ⟨hsite, hcore, hhp, hcad, hfencing⟩ := h
  obtain ⟨ksite, kcore, khp, kcad, kfencing⟩ := k
  exact ⟨hsite.trans ksite, hcore.trans kcore, hhp.trans khp, hcad.trans kcad, hfencing.trans kfencing⟩

theorem Mach.addHist_sameParties (m : Mach) (h : Hist) : (m.addHist h).sameParties m := by
  unfold Mach.addHist
  dsimp only
  split_ifs <;> exact ⟨rfl, rfl, rfl, rfl, rfl⟩

theorem Mach.driveAlert_sameParties (old m : Mach) : (old.driveAlert m).sameParties m := by
  unfold Mach.driveAlert
  split_ifs <;> exact ⟨rfl, rfl, rfl, rfl, rfl⟩

/-- A fault that names no context leaves the parties. -/
theorem Mach.ledger_sameParties (m : Mach) (cls cause outcome : Nat) (unit : UnitRef) (st items data phys : Nat) :
    (m.ledger cls cause outcome unit st items 0 data phys).sameParties m := by
  unfold Mach.ledger
  exact (Mach.event_sameParties ..).trans ((Mach.driveAlert_sameParties ..).trans
    ((Mach.addHist_sameParties ..).trans ⟨rfl, rfl, rfl, rfl, rfl⟩))

/-- The report of a fence that names no context ends it, and leaves the parties. -/
theorem Mach.reportFence_frame (m : Mach) {p : Party} (h : p.kind ≠ 3) (unit : UnitRef) (cause items : Nat) (quiet : Bool) :
    (m.reportFence p unit cause items quiet).sameParties
      (m.setFlt { m.flt with fencing := m.flt.fencing.filter fun f => f.party ≠ p }) := by
  unfold Mach.reportFence
  rw [if_neg h]
  generalize (if items = 0 then 0 else Status.failFenced.code) = st
  dsimp only
  split_ifs
  · exact ⟨rfl, rfl, rfl, rfl, rfl⟩
  · exact (Mach.event_sameParties ..).trans ⟨rfl, rfl, rfl, rfl, rfl⟩
  · exact (Mach.ledger_sameParties ..).trans ⟨rfl, rfl, rfl, rfl, rfl⟩

/-- No fence of the reported party runs any more. -/
theorem Mach.reportFence_fencing (m : Mach) {p : Party} (h : p.kind ≠ 3) (unit : UnitRef) (cause items : Nat) (quiet : Bool) :
    ((m.reportFence p unit cause items quiet).flt.fencing.all fun g => g.party ≠ p) = true := by
  obtain ⟨-, -, -, -, hfencing⟩ := Mach.reportFence_frame m h unit cause items quiet
  rw [hfencing]
  simp [List.all_eq_true]

theorem Mach.measureTile_sameParties (m : Mach) (t : Nat) : (m.measureTile t).sameParties m :=
  (Mach.event_sameParties ..).trans ⟨rfl, rfl, rfl, rfl, rfl⟩

theorem Mach.siteAt_setSiteAt {m : Mach} {t : Nat} (h : t < m.site.dev.length) (x : Site) : (m.setSiteAt t x).siteAt t = x :=
  nth_setAt_self _ h x

theorem Mach.finishSiteFence_kept (m : Mach) (t cause : Nat) (quiet : Bool) : (m.finishSiteFence t cause quiet).kept = m.kept := by
  simp [Mach.finishSiteFence]

/-- A site at the end of its fence. -/
def Site.fenced (x : Site) (cause : Nat) : Site :=
  let x := { x with
    bonds := smap (fun b => { b with rsp := 0, work := 0, req := 0, wrq := 0, waitOut := [], waitIn := [] }) x.bonds
    fencing := none, cause, state := if cause = 7 then 7 else 6, srstReleased := false, hello := false, challenge := none
    sbOut := none, sbWait := [], stale := [], readmitting := false }
  if [7, 8, 10, 11, 12].contains cause then x.powerDown else x

theorem Site.fenced_frame (x : Site) (cause : Nat) : (x.fenced cause).fencing = none ∧
    (x.fenced cause).state = (if cause = 7 then 7 else 6) ∧ (x.fenced cause).cause = cause ∧ (x.fenced cause).srstReleased = false := by
  unfold Site.fenced
  dsimp only
  split
  · exact ⟨rfl, rfl, rfl, rfl⟩
  · exact ⟨rfl, rfl, rfl, rfl⟩

theorem Mach.finishSiteFence_eq (m : Mach) (t cause : Nat) (quiet : Bool) : ∃ (a : Mach) (items : Nat), a.kept = m.kept ∧
    m.finishSiteFence t cause quiet = (((a.setSiteAt t ((a.siteAt t).fenced cause)).emit (.pin 1 t false)).event evTile 0x04 2
      ⟨0x06, t⟩ 0 (cause * 2 ^ 56)).reportFence ⟨1, t⟩ ⟨0x06, t⟩ cause items quiet := by
  let b := (m.drain (siteOrigin t)).reclaim ⟨1, t⟩
  let r := b.closeRings (b.ringsTo 1 (siteRing t)) .failFenced ⟨0x06, t⟩
  refine ⟨r.1, r.2, by simp [r, b], ?_⟩
  unfold Mach.finishSiteFence Site.fenced
  rfl

/-- A site whose fence ends is FENCED, or REFUSED for cause 7, and held in reset (R444). -/
theorem Mach.finishSiteFence_frame {m : Mach} {t : Nat} (h : t < m.site.dev.length) (cause : Nat) (quiet : Bool) :
    let a := m.finishSiteFence t cause quiet
    (∃ x : Site, a.siteAt t = x.fenced cause) ∧ (a.flt.fencing.all fun g => g.party ≠ ⟨1, t⟩) = true := by
  obtain ⟨a, items, hkept, heq⟩ := m.finishSiteFence_eq t cause quiet
  have hlen : t < a.site.dev.length := by rwa [show a.site.dev.length = m.site.dev.length from congrArg Kept.sites hkept]
  have hkind : (⟨1, t⟩ : Party).kind ≠ 3 := by simp
  rw [heq]
  refine ⟨⟨a.siteAt t, ?_⟩, Mach.reportFence_fencing _ hkind ..⟩
  have hreport := (Mach.reportFence_frame (((a.setSiteAt t ((a.siteAt t).fenced cause)).emit (.pin 1 t false)).event evTile 0x04 2
    ⟨0x06, t⟩ 0 (cause * 2 ^ 56)) hkind ⟨0x06, t⟩ cause items quiet).1
  have hevent := (Mach.event_sameParties ((a.setSiteAt t ((a.siteAt t).fenced cause)).emit (.pin 1 t false)) evTile 0x04 2
    ⟨0x06, t⟩ (cause * 2 ^ 56)).1
  exact (congrArg (fun x : Sites => nth ({} : Site) x.dev t) (hreport.trans hevent)).trans (Mach.siteAt_setSiteAt hlen _)

/-- A core at the end of its fence. -/
def Core.fenced (x : Core) (gone : Bool) (cause : Nat) : Core :=
  { x with
    fencing := none, state := if gone then 4 else 3, cause, work := [], mbxGo := 0, heldBells := []
    cacheOp := none, cacheWait := [], ctx := if cause = 5 then 0 else x.ctx }

theorem Mach.finishCoreFence_eq {m : Mach} (h : m.fb.chans = []) (c cause : Nat) (quiet : Bool) : ∃ (a : Mach) (items : Nat),
    a.kept.undrafted = m.kept.undrafted ∧ m.finishCoreFence c cause quiet =
      (a.setCoreAt c ((a.coreAt c).fenced (shas a.cad.cur.gone (UnitRef.code ⟨0x09, c⟩)) cause)).reportFence ⟨2, c⟩ ⟨0x09, c⟩ cause
        items quiet := by
  have hkept (p : Origin → Bool) : ((m.drain p).reclaim ⟨2, c⟩).kept = m.kept := by simp
  refine ⟨_, _, ?_, rfl⟩
  rw [Mach.closeRings_kept, Mach.dropParty_undrafted ((congrArg Kept.chans (hkept _)).trans h), hkept]

/-- A core whose fence ends has no work, and is OUT OF SERVICE where the cadastre has lost it (R466). -/
theorem Mach.finishCoreFence_frame {m : Mach} {c : Nat} (h : c < m.core.dev.length) (hchans : m.fb.chans = []) (cause : Nat)
    (quiet : Bool) :
    let a := m.finishCoreFence c cause quiet
    a.fb.chans = [] ∧ (∃ x : Core, a.coreAt c = x.fenced (shas a.cad.cur.gone (UnitRef.code ⟨0x09, c⟩)) cause) ∧
    (a.flt.fencing.all fun g => g.party ≠ ⟨2, c⟩) = true := by
  obtain ⟨a, items, hkept, heq⟩ := Mach.finishCoreFence_eq hchans c cause quiet
  have hlen : c < a.core.dev.length := by rwa [show a.core.dev.length = m.core.dev.length from congrArg Kept.cores hkept]
  have hkind : (⟨2, c⟩ : Party).kind ≠ 3 := by simp
  refine ⟨(Mach.chans_of_undrafted (Mach.finishCoreFence_undrafted hchans ..)).trans hchans, ?_⟩
  rw [heq]
  obtain ⟨-, hcore, -, hcad, -⟩ := Mach.reportFence_frame (a.setCoreAt c ((a.coreAt c).fenced
    (shas a.cad.cur.gone (UnitRef.code ⟨0x09, c⟩)) cause)) hkind ⟨0x09, c⟩ cause items quiet
  refine ⟨⟨a.coreAt c, ?_⟩, Mach.reportFence_fencing _ hkind ..⟩
  rw [hcad]
  exact (congrArg (fun x : Cores => nth ({} : Core) x.dev c) hcore).trans (Mach.coreAt_setCoreAt hlen _)

/-- A host port at the end of its fence. -/
def HostPort.fenced (x : HostPort) (cause : Nat) : HostPort :=
  { x with fencing := none, cause, sessions := [], mbxGo := 0, heldBells := [], atomWait := [] }

theorem Mach.finishHpFence_eq {m : Mach} (h : m.fb.chans = []) (n cause : Nat) (quiet : Bool) : ∃ (a : Mach) (items : Nat),
    a.kept.undrafted = m.kept.undrafted ∧ m.finishHpFence n cause quiet =
      (a.setHpAt n ((a.hpAt n).fenced cause)).reportFence ⟨5, n⟩ ⟨0x0A, n⟩ cause items quiet := by
  have hends (a : Mach) (l : List Nat) : (l.foldl (fun m k => m.endXfer n k .failFenced) a).kept = a.kept :=
    Mach.foldl_kept (fun m k => Mach.endXfer_kept m n k .failFenced) l a
  have hunbinds (a : Mach) (l : List Nat) : (l.foldl (fun m k => m.unbind n k) a).kept = a.kept :=
    Mach.foldl_kept (fun m k => Mach.unbind_kept m n k) l a
  refine ⟨_, _, ?_, rfl⟩
  refine (congrArg Kept.undrafted (Mach.setTrv_kept ..)).trans ?_
  have hkept (p : Origin → Bool) (l k : List Nat) : ((k.foldl (fun m k => m.unbind n k) (l.foldl (fun m k => m.endXfer n k .failFenced)
      (m.drain p))).reclaim ⟨5, n⟩).kept = m.kept := by
    rw [Mach.reclaim_kept, hunbinds, hends, Mach.drain_kept]
  rw [Mach.dropParty_undrafted ((congrArg Kept.chans (hkept ..)).trans h), hkept]

/-- A host port whose fence ends has no sessions left (R498). -/
theorem Mach.finishHpFence_frame {m : Mach} {n : Nat} (h : n < m.hp.dev.length) (hchans : m.fb.chans = []) (cause : Nat)
    (quiet : Bool) :
    let a := m.finishHpFence n cause quiet
    a.fb.chans = [] ∧ (∃ x : HostPort, a.hpAt n = x.fenced cause) ∧ (a.flt.fencing.all fun g => g.party ≠ ⟨5, n⟩) = true := by
  obtain ⟨a, items, hkept, heq⟩ := Mach.finishHpFence_eq hchans n cause quiet
  have hlen : n < a.hp.dev.length := by rwa [show a.hp.dev.length = m.hp.dev.length from congrArg Kept.ports hkept]
  have hkind : (⟨5, n⟩ : Party).kind ≠ 3 := by simp
  rw [heq]
  have hreport : ((a.setHpAt n ((a.hpAt n).fenced cause)).reportFence ⟨5, n⟩ ⟨0x0A, n⟩ cause items quiet).kept.undrafted =
      m.kept.undrafted := by rw [Mach.reportFence_kept, Mach.setHpAt_kept, hkept]
  obtain ⟨-, -, hhp, -, -⟩ := Mach.reportFence_frame (a.setHpAt n ((a.hpAt n).fenced cause)) hkind ⟨0x0A, n⟩ cause items quiet
  refine ⟨(Mach.chans_of_undrafted hreport).trans hchans, ⟨a.hpAt n, ?_⟩, Mach.reportFence_fencing _ hkind ..⟩
  exact (congrArg (fun x : Hps => nth ({} : HostPort) x.dev n) hhp).trans (Mach.hpAt_setHpAt hlen _)

/-! The end of a fence, as its command. -/

theorem Mach.fenceHeld_congr {m : Mach} {p q : Origin → Bool} (h : ∀ o, p o = q o) : m.fenceHeld p = m.fenceHeld q := by
  rw [funext h]

/-- A site's fence that nothing holds up ends. -/
theorem Mach.fenceDrained_site {m : Mach} {t : Nat} {f : Fence} (hf : m.flt.fencing.find? (fun f => f.party = ⟨1, t⟩) = some f)
    (hheld : m.fenceHeld (siteOrigin t) = false) :
    m.fenceDrained ⟨1, t⟩ = (m.finishSiteFence t f.cause f.quiet).measureTile t := by
  unfold Mach.fenceDrained
  rw [hf]
  exact if_neg (Bool.eq_false_iff.mp ((Mach.fenceHeld_congr fun o => by cases o <;> rfl).trans hheld))

theorem Mach.fenceDrained_core {m : Mach} {c : Nat} {f : Fence} (hf : m.flt.fencing.find? (fun f => f.party = ⟨2, c⟩) = some f)
    (hheld : (m.fenceHeld fun o => match o with | .core d _ => d = c | _ => false) = false) :
    m.fenceDrained ⟨2, c⟩ = m.finishCoreFence c f.cause f.quiet := by
  unfold Mach.fenceDrained
  rw [hf]
  exact if_neg (Bool.eq_false_iff.mp ((Mach.fenceHeld_congr fun o => by cases o <;> rfl).trans hheld))

theorem Mach.fenceDrained_hp {m : Mach} {n : Nat} {f : Fence} (hf : m.flt.fencing.find? (fun f => f.party = ⟨5, n⟩) = some f)
    (hheld : (m.fenceHeld fun o => match o with | .bar2 k _ => k = n | _ => false) = false) :
    m.fenceDrained ⟨5, n⟩ = m.finishHpFence n f.cause f.quiet := by
  unfold Mach.fenceDrained
  rw [hf]
  exact if_neg (Bool.eq_false_iff.mp ((Mach.fenceHeld_congr fun o => by cases o <;> rfl).trans hheld))

/-- The end of a fence that leaves no frame waiting is what its command does, but for what the sessions are told of the entries. -/
theorem Mach.resumeAll_noteAll {m : Mach} (h : m.fb.chans = []) (z : Fuses) : (m.noteAll z).resumeAll z = m.noteAll z :=
  Mach.resumeAll_nil (m := m.noteAll z) h z

theorem siteFence_drained {h : Mach} {t : Nat} {f : Fence} (ht : t < 4) (hlen : h.site.dev.length = 4)
    (hf : h.flt.fencing.find? (fun f => f.party = ⟨1, t⟩) = some f) (hchans : h.fb.chans = [])
    (hheld : h.fenceHeld (siteOrigin t) = false) :
    runs (.partyFenceDrained 1 t) h fun m => (m.siteAt t).fencing = none ∧ (m.siteAt t).state = (if f.cause = 7 then
      7 else 6) ∧ (m.siteAt t).cause = f.cause ∧ (m.siteAt t).srstReleased = false ∧ (m.flt.fencing.all fun g =>
      g.party ≠ ⟨1, t⟩) = true := by
  intro s hs
  subst hs
  refine completes_runFzIf (ok := decide (t < 4)) (f := fun z m => ((m.fenceDrained ⟨1, t⟩).noteAll z).resumeAll z) rfl
    (by simpa using ht) ?_
  obtain ⟨⟨x, hx⟩, hfencing⟩ := Mach.finishSiteFence_frame (m := s.hw) (t := t) (by omega) f.cause f.quiet
  obtain ⟨hsite, -, -, -, hflt⟩ := Mach.measureTile_sameParties (s.hw.finishSiteFence t f.cause f.quiet) t
  have hkept : ((s.hw.finishSiteFence t f.cause f.quiet).measureTile t).kept = s.hw.kept := by
    rw [Mach.measureTile_kept, Mach.finishSiteFence_kept]
  have hat : ((s.hw.finishSiteFence t f.cause f.quiet).measureTile t).siteAt t = x.fenced f.cause :=
    (congrArg (fun x : Sites => nth ({} : Site) x.dev t) hsite).trans hx
  rw [Mach.fenceDrained_site hf hheld, Mach.resumeAll_noteAll ((congrArg Kept.chans hkept).trans hchans)]
  obtain ⟨hfree, hstate, hcause, hreset⟩ := x.fenced_frame f.cause
  refine ⟨?_, ?_, ?_, ?_, ?_⟩
  · exact (congrArg Site.fencing hat).trans hfree
  · exact (congrArg Site.state hat).trans hstate
  · exact (congrArg Site.cause hat).trans hcause
  · exact (congrArg Site.srstReleased hat).trans hreset
  · exact (congrArg (fun l : List Fence => l.all fun g => g.party ≠ ⟨1, t⟩) hflt).trans hfencing

theorem coreFence_drained {h : Mach} {c : Nat} {f : Fence} (hc : c < 32) (hlen : h.core.dev.length = 32)
    (hf : h.flt.fencing.find? (fun f => f.party = ⟨2, c⟩) = some f) (hchans : h.fb.chans = [])
    (hheld : (h.fenceHeld fun o => match o with | .core d _ => d = c | _ => false) = false) :
    runs (.partyFenceDrained 2 c) h fun m => (m.coreAt c).fencing = none ∧ (m.coreAt c).state = (if shas
      m.cad.cur.gone (UnitRef.code ⟨0x09, c⟩) then 4 else 3) ∧ (m.coreAt c).cause = f.cause ∧ (m.coreAt c).work = []
      ∧ (m.flt.fencing.all fun g => g.party ≠ ⟨2, c⟩) = true := by
  intro s hs
  subst hs
  refine completes_runFzIf (ok := decide (c < 32)) (f := fun z m => ((m.fenceDrained ⟨2, c⟩).noteAll z).resumeAll z) rfl
    (by simpa using hc) ?_
  obtain ⟨hnone, ⟨x, hat⟩, hfencing⟩ := Mach.finishCoreFence_frame (m := s.hw) (c := c) (by omega) hchans f.cause f.quiet
  rw [Mach.fenceDrained_core hf hheld, Mach.resumeAll_noteAll hnone]
  exact ⟨congrArg Core.fencing hat, congrArg Core.state hat, congrArg Core.cause hat, congrArg Core.work hat, hfencing⟩

theorem hpFence_drained {h : Mach} {n : Nat} {f : Fence} (hn : n < 2) (hlen : h.hp.dev.length = 2)
    (hf : h.flt.fencing.find? (fun f => f.party = ⟨5, n⟩) = some f) (hchans : h.fb.chans = [])
    (hheld : (h.fenceHeld fun o => match o with | .bar2 k _ => k = n | _ => false) = false) :
    runs (.partyFenceDrained 5 n) h fun m => (m.hpAt n).fencing = none ∧ (m.hpAt n).cause = f.cause ∧ (m.hpAt
      n).sessions = [] ∧ (m.hpAt n).mbxGo = 0 ∧ (m.flt.fencing.all fun g => g.party ≠ ⟨5, n⟩) = true := by
  intro s hs
  subst hs
  refine completes_runFzIf (ok := decide (n < 2)) (f := fun z m => ((m.fenceDrained ⟨5, n⟩).noteAll z).resumeAll z) rfl
    (by simpa using hn) ?_
  obtain ⟨hnone, ⟨x, hat⟩, hfencing⟩ := Mach.finishHpFence_frame (m := s.hw) (n := n) (by omega) hchans f.cause f.quiet
  rw [Mach.fenceDrained_hp hf hheld, Mach.resumeAll_noteAll hnone]
  exact ⟨congrArg HostPort.fencing hat, congrArg HostPort.cause hat, congrArg HostPort.sessions hat, congrArg HostPort.mbxGo hat,
    hfencing⟩

/-! The end of a closure. -/

theorem Mach.sendReply_pwr (m : Mach) (rq : Rq) (ty : Nat) (st : Status) (q : Nat) (b : Bytes) :
    (m.sendReply rq ty st q b).pwr = m.pwr := by
  rcases m.sendReply_cases rq ty st q b with h | h
  · exact congrArg Kept.pwr h
  · rw [h]; rfl

/-- A command's closure that is over switches the module off, after who waited for it is answered (R592). -/
theorem closure_completes {h : Mach} {c : CmdReq} {us at_ : Nat} (hclosure : h.pwr.closure = some ⟨2, at_⟩) (hkey : c.key = kPwrOff)
    (hwaits : h.onlyWaits c .pwrOff) :
    runs (.closureComplete us) h fun m => m = ((h.putChan c.rq {}).replies c .done []).closureEnds us ∧
      m.pwr.closure = none ∧ m.pwr.off = true ∧ m.pwr.floorOn = [false, false] := by
  intro s hs
  subst hs
  refine completes_runFz (f := fun z m => m.closureDone z us) rfl ?_
  obtain ⟨row, hrow⟩ := cmdRow_waits c.key (by simp [hkey])
  have hanswer : s.hw.resumeFor s.fuses c.rq .pwrOff .done [] = (s.hw.putChan c.rq {}).replies c .done [] := by
    rw [Mach.resumeFor, Mach.chanOf_onlyWaits hwaits]
    exact Mach.resume_onlyWaits hwaits hrow s.fuses .done []
  have hdone : s.hw.closureDone s.fuses us = ((s.hw.putChan c.rq {}).replies c .done []).closureEnds us := by
    rw [← hanswer, Mach.closureDone, onlyWaits_iff.mp hwaits]
    rfl
  have hpwr : ((s.hw.putChan c.rq {}).replies c .done []).pwr.closure = some ⟨2, at_⟩ :=
    (congrArg Pwr.closure (Mach.sendReply_pwr ..)).trans hclosure
  refine ⟨hdone, ?_⟩
  rw [hdone, Mach.closureEnds, hpwr]
  exact ⟨rfl, rfl, rfl⟩

/-- Settles O51: each action's end is its command's, and of a command where no frame waits nothing follows but that; where one waits,
its record is answered. -/
theorem waitingActionsEndAndAnswer : Obligations.WaitingActionsEndAndAnswer := by
  unfold Obligations.WaitingActionsEndAndAnswer
  intro h
  refine ⟨?_, ?_, ?_, ?_, ?_, ?_, ?_⟩
  · intro c w e hwait hkey hseg hrq hclear hrest hrole hcalm hleft hold hjudge hwaits
    exact segmapRecord_drained hwait hkey hseg hrq hclear hrest hrole hcalm hleft hold hjudge hwaits
  · intro c us w hwait hkey hseg hrq hclear hrest hrole hlate hwaits
    exact segmapRecord_late hwait hkey hseg hrq hclear hrest hrole hlate hwaits
  · intro c x hc hx hst hitems hchans hrise _
    exact contextDestroy_finishes hc hx hst hitems hchans hrise
  · intro t f ht hlen hf hchans hheld
    exact siteFence_drained ht hlen hf hchans hheld
  · intro c f hc hlen hf hchans hheld
    exact coreFence_drained hc hlen hf hchans hheld
  · intro n f hn hlen hf hchans hheld
    exact hpFence_drained hn hlen hf hchans hheld
  · intro c us at_ hclosure hkey hwaits
    exact closure_completes hclosure hkey hwaits

end Sys2Proof.Machine
end

section
/-! PROOFS. The floors of a SPLIT segment's granules (R87), and the commands of the segment map, the remote line caches, the stacks'
lists, and rings (R119, R138, R142 to R144, R171, R187, R302, R329 to R331). -/
namespace Sys2Proof.Machine

/-! Granules. -/

/-- FINE placement keeps the floor it is asked for. -/
@[simp] theorem SegEnt.fine_floor (e : SegEnt) (f l : Nat) : (e.fine f l).floor = f := by
  unfold SegEnt.fine
  split <;> rfl

/-- In a SPLIT segment the number of an offset's granule says its floor. -/
theorem SegEnt.place_floor_of_split {e : SegEnt} (h : e.policy = 3) (off f : Nat) : (e.place off f).floor = off / 4096 % 2 := by
  simp [SegEnt.place, h]

/-- Settles O12. -/
theorem splitGranulesAlternateFloors : Obligations.SplitGranulesAlternateFloors := by
  unfold Obligations.SplitGranulesAlternateFloors
  rintro e va f n hpolicy - rfl
  rw [SegEnt.place_floor_of_split hpolicy]
  exact ⟨id, id⟩

/-! The commands. -/

/-- The keys of these commands are of CMD entries that no item writes. -/
theorem isClassedKey_gridCommands : [kRlcFlush, kSegmapWrite, kSegmapRead, kSegmapClearContext, kStackRetireList, kRekeyQuery,
    kRingQuery, kRingLastMarks, kRingDelete, kRingReopen].all isClassedKey = true := by decide +kernel

theorem isClassedKey_gridCommand {k : Nat} (h : k ∈ [kRlcFlush, kSegmapWrite, kSegmapRead, kSegmapClearContext, kStackRetireList,
    kRekeyQuery, kRingQuery, kRingLastMarks, kRingDelete, kRingReopen]) : isClassedKey k = true :=
  List.all_eq_true.mp isClassedKey_gridCommands k h

/-- Taking a request of no item leaves what these commands look at. -/
theorem Mach.opens_stk_die (m : Mach) (rq : Rq) : (m.opens rq).stk = m.stk ∧ (m.opens rq).die = m.die := by
  cases rq with
  | item ring seq ctx => simp only [Mach.opens, Mach.startItem]; split <;> exact ⟨rfl, rfl⟩
  | _ => exact ⟨rfl, rfl⟩

theorem Mach.opens_segJudge (m : Mach) {rq : Rq} (h : rqClass rq ≠ 2) (slot v : Nat) :
    (m.opens rq).segJudge slot v = m.segJudge slot v := by
  cases rq with
  | item ring seq ctx => exact absurd rfl h
  | _ => rfl

/-- A core keeps its state and its fence when a request of it is taken. -/
theorem Mach.opens_coreAt (m : Mach) (rq : Rq) (c : Nat) : ((m.opens rq).coreAt c).state = (m.coreAt c).state ∧
    ((m.opens rq).coreAt c).fencing = (m.coreAt c).fencing := by
  cases rq with
  | core n => exact ⟨m.coreAt_setCoreAt_keep n c _ Core.state rfl, m.coreAt_setCoreAt_keep n c _ Core.fencing rfl⟩
  | item ring seq ctx => simp only [Mach.opens, Mach.startItem]; split <;> exact ⟨rfl, rfl⟩
  | _ => exact ⟨rfl, rfl⟩

theorem chunks_one {n k : Nat} {v : Bytes} (h : v.length = n) (hn : 0 < n) : chunks n (k + 2) v = [v] := by
  subst h
  cases v with
  | nil => cases hn
  | cons b v => simp [chunks]

/-- No item holds up the slots of a context that none is of (R143). -/
theorem Mach.itemsLeft_of_none {m : Mach} {ctx : Nat} (h : m.rng.items.any (fun i => i.ctx = ctx) = false) (items : List Nat) :
    m.itemsLeft ctx items = false := by
  rw [List.any_eq_false] at h
  simp only [Mach.itemsLeft, List.any_eq_false]
  intro i hi
  simp_all

/-- A ring without items or records that wait is closed and goes, with its holding (R302, R329). -/
theorem Mach.ringGone_idle {m : Mach} {r : Nat} {x : Ring} (hring : m.ring? r = some x) (hitems : m.itemsOf r = [])
    (hwait : m.rng.recWait.any (fun y => y.ring = r) = false) (unit : UnitRef) : m.ringGone r unit =
      (m.setRng { m.rng with rings := sdel (sput m.rng.rings r { x with closed := true }) r }).unhold
        fun y => y.kind = 4 && y.object = r := by
  have hclose : m.closeRing r .failAborted unit = m.setRing r { x with closed := true } := by
    have hnone : (m.setRing r { x with closed := true }).itemsOf r = [] := hitems
    simp only [Mach.closeRing, hring, hnone]
    rfl
  have hrecords : (m.setRing r { x with closed := true }).recordsOut r = m.setRing r { x with closed := true } := by
    unfold Mach.recordsOut
    exact if_neg (by rw [show (m.setRing r { x with closed := true }).rng.recWait = m.rng.recWait from rfl, hwait]; simp)
  unfold Mach.ringGone
  rw [hclose, hrecords]
  rfl

/-- Settles O56. -/
theorem gridStackAndRingCommands : Obligations.GridStackAndRingCommands := by
  unfold Obligations.GridStackAndRingCommands
  intro h rq q v f
  have hstk := (h.opens_stk_die rq).1
  have hgrid := (h.opens_frame rq).1
  have hchans : (h.opens rq).fb.chans = h.fb.chans := congrArg Fb.chans (h.opens_fb rq)
  have hring (r : Nat) : (h.opens rq).ring? r = h.ring? r := by rw [Mach.ring?, (h.opens_rings rq).1]; rfl
  refine ⟨?_, ?_, ?_, ?_, ?_, ?_, ?_, ?_, ?_, ?_⟩
  · rintro i ht s rfl
    have hi : isCommand i ⟨rq, kRlcFlush, q, v, f⟩ := ⟨rfl, fun _ => rfl⟩
    refine hi.answersAt_classed (isClassedKey_gridCommand (by simp)) ht fun _ =>
      ⟨{ m := (s.hw.opens rq).rlcFlush }, rfl, rfl, rfl, hchans, by simp, rfl, rfl, ?_, ?_⟩
    · exact List.all_eq_true.mpr fun e he => (List.mem_filter.mp he).2
    · exact List.all_eq_true.mpr fun e he => (List.mem_filter.mp he).2
  · rintro e i ht hlen hjudge hfree s rfl
    have hi : isCommand i ⟨rq, kSegmapWrite, q, v, f⟩ := ⟨rfl, fun _ => rfl⟩
    refine hi.answersAt_classed (isClassedKey_gridCommand (by simp)) ht fun hclass =>
      ⟨{ m := (s.hw.opens rq).putSlot (num v 0 2) (some e), val := [0] }, ?_, rfl, rfl, ?_, by simp, rfl, rfl, ?_⟩
    · show (s.hw.opens rq).segWrite rq v = _
      have hrun := Mach.segRun_one (m := s.hw.opens rq) (items := (s.hw.opens rq).rng.items.map Item.key)
        ((s.hw.opens_segJudge hclass _ _).trans hjudge) (by
          simp only [Mach.itemsLeft, hgrid, Mach.opens_rng _ hclass] at hfree ⊢
          cases ho : sget s.hw.grid.seg (num v 0 2) with
          | none => rfl
          | some o => simpa [ho] using hfree) rq []
      simp only [Mach.segWrite, chunks_one hlen (by omega), List.map_cons, List.map_nil, hrun]
      rfl
    · exact (congrArg Kept.chans (Mach.putSlot_kept (s.hw.opens rq) (num v 0 2) (some e))).trans hchans
    · exact sget_sput_self _ _ _
  · rintro i ht hpos hle hlast s rfl
    have hi : isCommand i ⟨rq, kSegmapRead, q, v, f⟩ := ⟨rfl, fun _ => rfl⟩
    refine hi.answersAt_read (isClassedKey_gridCommand (by simp)) ht (fun _ => ?_) ?_
    · show (s.hw.opens rq).segRead v = _
      simp only [Mach.segRead, hgrid]
      rw [if_neg (by simp; omega)]
    · rw [flatMap_length _ _ 16 fun i _ => by split <;> simp, List.length_range]
      omega
  · rintro i ht hfree hitems s rfl
    have hi : isCommand i ⟨rq, kSegmapClearContext, q, v, f⟩ := ⟨rfl, fun _ => rfl⟩
    refine hi.answersAt_classed (isClassedKey_gridCommand (by simp)) ht fun hclass =>
      ⟨{ m := ((s.hw.opens rq).segsOf (leN v)).foldl (fun m x => m.putSlot x.1 none) (s.hw.opens rq) }, ?_, rfl, rfl, ?_, by simp,
        rfl, rfl⟩
    · show (s.hw.opens rq).segClear rq (leN v) = _
      have hsegs : (s.hw.opens rq).segsOf (leN v) = s.hw.segsOf (leN v) := by rw [Mach.segsOf, hgrid]; rfl
      have hhold (e : SegEnt) : (s.hw.opens rq).holdsRing e = s.hw.holdsRing e := by rw [Mach.holdsRing, Mach.opens_rng _ hclass]; rfl
      have hleft := Mach.itemsLeft_of_none (m := s.hw.opens rq) (ctx := leN v) (by rw [Mach.opens_rng _ hclass]; exact hitems)
      simp only [Mach.segClear, hsegs, hhold, hfree, hleft]
      rfl
    · exact (congrArg Kept.chans (Mach.foldl_kept (fun m x => Mach.putSlot_kept m x.1 none)
        ((s.hw.opens rq).segsOf (leN v)) (s.hw.opens rq))).trans hchans
  · rintro i ht hs hlen s rfl
    have hi : isCommand i ⟨rq, kStackRetireList, q, v, f⟩ := ⟨rfl, fun _ => rfl⟩
    refine hi.answersAt_read (isClassedKey_gridCommand (by simp)) ht (fun _ => ?_) ?_
    · show (s.hw.opens rq).retireList (leN v) = _
      simp only [Mach.retireList, Mach.stackAt, hstk]
      rw [if_neg (by omega)]
    · rw [flatMap_length _ _ 8 fun r _ => by simp]
      omega
  · rintro i ht hc k s rfl
    have hi : isCommand i ⟨rq, kRekeyQuery, q, v, f⟩ := ⟨rfl, fun _ => rfl⟩
    refine hi.answersAt_read (isClassedKey_gridCommand (by simp)) ht (fun _ => ?_) (by simp)
    show (s.hw.opens rq).rekeyQuery (leN v) = _
    simp only [Mach.rekeyQuery, Mach.keysOf, hstk]
    rw [if_neg (by omega)]
    rfl
  · rintro x i ht hx s rfl
    have hi : isCommand i ⟨rq, kRingQuery, q, v, f⟩ := ⟨rfl, fun _ => rfl⟩
    refine hi.answersAt_read (isClassedKey_gridCommand (by simp)) ht (fun _ => ?_) (by simp)
    show (s.hw.opens rq).ringQuery (leN v) = _
    simp only [Mach.ringQuery, hring, hx]
    cases x.lost <;> rfl
  · rintro x i ht hx s rfl
    have hi : isCommand i ⟨rq, kRingLastMarks, q, v, f⟩ := ⟨rfl, fun _ => rfl⟩
    refine hi.answersAt_read (isClassedKey_gridCommand (by simp)) ht (fun hclass => ?_) (by simp [Marks.bytes])
    show (s.hw.opens rq).ringMarks (leN v) = _
    simp only [Mach.ringMarks, Mach.opens_rng _ hclass, hx]
  · rintro x i ht hx hitems hwait s rfl
    have hi : isCommand i ⟨rq, kRingDelete, q, v, f⟩ := ⟨rfl, fun _ => rfl⟩
    refine hi.answersAt_classed (isClassedKey_gridCommand (by simp)) ht fun hclass => ⟨_, rfl, ?_⟩
    have hgone := Mach.ringGone_idle (m := s.hw.opens rq) ((hring _).trans hx)
      (by rw [Mach.itemsOf, Mach.opens_rng _ hclass]; exact hitems) (by rw [Mach.opens_rng _ hclass]; exact hwait) ⟨0x0C, leN v⟩
    have hact : (s.hw.opens rq).act s.fuses rq kRingDelete v f = { m := (s.hw.opens rq).ringGone (leN v) ⟨0x0C, leN v⟩ } := by
      show (s.hw.opens rq).ringDelete (leN v) = _
      simp only [Mach.ringDelete, hring, hx]
    rw [hact, hgone]
    exact ⟨rfl, rfl, hchans, by simp, rfl, rfl⟩
  · rintro x c i ht hx hc hclosed hlive hsite hcore s rfl
    have hi : isCommand i ⟨rq, kRingReopen, q, v, f⟩ := ⟨rfl, fun _ => rfl⟩
    refine hi.answersAt_classed (isClassedKey_gridCommand (by simp)) ht fun hclass =>
      ⟨{ m := (s.hw.opens rq).setRing (leN v) { x with closed := false, lost := none } }, ?_, rfl, rfl, hchans, by simp, rfl, rfl⟩
    show (s.hw.opens rq).ringReopen (leN v) = _
    obtain ⟨hstate, hfence⟩ := s.hw.opens_coreAt rq (ringCore (leN v) x)
    have hctx : (s.hw.opens rq).ctx? x.ctx = some c := by rw [Mach.ctx?, Mach.opens_rng _ hclass]; exact hc
    have hfixed : (s.hw.opens rq).siteAt x.target = s.hw.siteAt x.target := by
      rw [Mach.siteAt, (s.hw.opens_units rq).2.2.2]; rfl
    simp only [Mach.ringReopen, hring, hx, hctx, hfixed, hstate, hfence]
    rw [if_neg (by simp [hclosed]), if_neg ?_]
    rcases hcore with hty | ⟨hrun, hnone⟩
    · by_cases h1 : x.ty = 1 <;> simp_all
    · by_cases h1 : x.ty = 1
      · simp_all
      · simp [hlive, h1, hnone]; omega

end Sys2Proof.Machine
end

section
/-! PROOFS. Waiting transactions and the bridge messages of a remote line (R91 to R94, R124, R154): what an access to the arrays leaves as
it was, and what ends where nothing waits. -/
namespace Sys2Proof.Machine

/-- A module without what its channels and counters record of the bytes that have moved: the windows, rows and write queues. -/
def Mach.still (m : Mach) : Mach :=
  (m.setFb { m.fb with ctr := [] }).setStk { m.stk with
    window := [], gridWin := [], backNow := [], debt := [], path := [], acts := [], openRow := [], writeQ := [], agedW := [] }

/-! What an access to the arrays records, and nothing else. -/

@[simp] theorem Mach.bump_still (m : Mach) (k n : Nat) : (m.bump k n).still = m.still := rfl

theorem Mach.rowActivated_still (m : Mach) (pa n : Nat) : (m.rowActivated pa n).still = m.still := by
  unfold Mach.rowActivated
  dsimp only
  split <;> rfl

theorem Mach.openRowOf_still (m : Mach) (pa : Nat) (read : Bool) : (m.openRowOf pa read).still = m.still := by
  unfold Mach.openRowOf
  split
  · split <;> rfl
  · exact m.rowActivated_still pa 1

theorem Mach.moved_still (m : Mach) (c n : Nat) (by_ : Mover) : (m.moved c n by_).still = m.still := by
  unfold Mach.moved
  split
  · rfl
  · cases by_ <;> rfl

theorem Mach.issueWrite_still (m : Mach) (c : Nat) (w : Nat × Nat) : (m.issueWrite c w).still = m.still := by
  unfold Mach.issueWrite
  dsimp only
  rw [Mach.bump_still, Mach.moved_still, Mach.openRowOf_still]
  rfl

theorem Mach.issueAged_still (fuel : Nat) (m : Mach) (c : Nat) : (Mach.issueAged fuel m c).still = m.still := by
  induction fuel generalizing m with
  | zero => rfl
  | succ fuel ih =>
    unfold Mach.issueAged
    split
    · split
      · rfl
      · exact (ih _).trans (m.issueWrite_still c _)
    · rfl

theorem Mach.eccMeet_sound {m : Mach} {l : List Nat} (h : (l.all fun a => m.errsAt a = 0) = true) (epoch st : Nat) (back : Bool)
    (by_ : Mover) : m.eccMeet epoch st back l by_ = m := by
  unfold Mach.eccMeet
  split
  · rfl
  · induction l with
    | nil => rfl
    | cons a r ih =>
      simp only [List.all_cons, Bool.and_eq_true, decide_eq_true_eq] at h
      rw [List.foldl_cons, if_pos (by simp [h.1])]
      exact ih h.2

theorem Mach.errsAt_of_still {m h : Mach} (hstill : m.still = h.still) (a : Nat) : m.errsAt a = h.errsAt a := by
  show m.still.errsAt a = h.still.errsAt a
  rw [hstill]

theorem Mach.lineFor_of_still {m h : Mach} (hstill : m.still = h.still) (epoch ctx pa : Nat) :
    m.lineFor epoch ctx pa = h.lineFor epoch ctx pa := by
  show m.still.lineFor epoch ctx pa = h.still.lineFor epoch ctx pa
  rw [hstill]

/-- What stays with it: all but the counters and the channels' windows, rows and queues. -/
theorem Mach.parts_of_still {m h : Mach} (hstill : m.still = h.still) :
    m.die = h.die ∧ m.grid = h.grid ∧ m.mem = h.mem ∧ m.rng = h.rng ∧ m.out = h.out ∧ m.stk.poison = h.stk.poison :=
  ⟨(congrArg Mach.die hstill :), (congrArg Mach.grid hstill :), (congrArg Mach.mem hstill :), (congrArg Mach.rng hstill :),
    (congrArg Mach.out hstill :), (congrArg (fun m : Mach => m.stk.poison) hstill :)⟩

/-- A read of sound bytes leaves all but what the channel and the counters record of it. -/
theorem Mach.arrayRead_still {m : Mach} {pa n : Nat} (hsound : m.sound pa n = true) (epoch : Nat) :
    (m.arrayRead epoch pa n).still = m.still := by
  unfold Mach.arrayRead
  split
  · rfl
  · have hm : ∀ x : Mach, x.still = m.still → (x.eccMeet epoch Status.failMemLost.code false (readGrains pa n)).still = m.still := by
      intro x hx
      rw [Mach.eccMeet_sound, hx]
      simp only [Mach.sound, List.all_append, Bool.and_eq_true] at hsound
      simpa only [Mach.errsAt_of_still hx] using hsound.1
    dsimp only
    refine hm _ ?_
    split
    · rfl
    · rw [Mach.bump_still, Mach.movedBy, if_neg (by simp), Mach.moved_still, Mach.openRowOf_still]

/-! Where nothing waits behind a line. -/

/-- With no RELEASE write and no completion record held, nothing goes. -/
theorem Mach.relSettle_idle {m : Mach} (hrel : m.grid.relWait = []) (hrec : m.rng.recWait = []) : m.relSettle = m := by
  have hnone : m.relSettle = m.recordsGo := by rw [Mach.relSettle, hrel]; rfl
  rw [hnone, Mach.recordsGo, hrec]
  rfl

theorem Mach.takeIn_wait (fuel : Nat) (m : Mach) (target : Nat) :
    ∃ w, Mach.takeIn fuel m target = m.setGrid { m.grid with wait := w } := by
  induction fuel generalizing m with
  | zero => exact ⟨m.grid.wait, rfl⟩
  | succ fuel ih =>
    unfold Mach.takeIn
    dsimp only
    split
    · exact ⟨m.grid.wait, rfl⟩
    · split
      · exact ⟨m.grid.wait, rfl⟩
      · obtain ⟨w, hw⟩ := ih (m.setGrid { m.grid with wait := _ })
        exact ⟨w, hw⟩

/-- Where a target can serve nothing, no aged transaction of it is served. -/
theorem Mach.serveAged_none {m : Mach} {target : Nat} (h : m.nextTxn target = none) (fuel : Nat) :
    Mach.serveAged fuel m target = m := by
  cases fuel with
  | zero => rfl
  | succ fuel => rw [Mach.serveAged, h]

/-- A transaction ages behind a target that can serve nothing: it is marked, and reads are taken in. -/
theorem Mach.promoteTxn_idle {m : Mach} {target i : Nat} {x : Txn} (hx : (sgetD [] m.grid.wait target)[i]? = some x)
    (hrel : m.grid.relWait = []) (hrec : m.rng.recWait = [])
    (hnext : (Mach.takeIn 64 (m.setGrid { m.grid with wait := smod [] m.grid.wait target fun q => setAt q i { x with aged := true } })
      target).nextTxn target = none) :
    m.promoteTxn target i =
      Mach.takeIn 64 (m.setGrid { m.grid with wait := smod [] m.grid.wait target fun q => setAt q i { x with aged := true } }) target := by
  unfold Mach.promoteTxn
  dsimp only
  rw [hx]
  refine (congrArg Mach.relSettle (Mach.serveAged_none hnext _)).trans ?_
  obtain ⟨w, hw⟩ := Mach.takeIn_wait 64
    (m.setGrid { m.grid with wait := smod [] m.grid.wait target fun q => setAt q i { x with aged := true } }) target
  rw [hw]
  exact Mach.relSettle_idle hrel hrec

/-- With no transaction waiting at its target, DATA of a line sends at most aged writes to their array. -/
theorem Mach.serveLine_still {m : Mach} {pa : Nat} (hwait : sgetD [] m.grid.wait (Place.ofPa pa).target = [])
    (hrel : m.grid.relWait = []) (hrec : m.rng.recWait = []) : (m.serveLine pa).still = m.still := by
  have hstill : ∀ x : Mach, x.still = m.still → x.relSettle.still = m.still := fun x hx => by
    obtain ⟨-, hg, -, hr, -⟩ := Mach.parts_of_still hx
    rw [Mach.relSettle_idle (by rw [hg, hrel]) (by rw [hr, hrec]), hx]
  unfold Mach.serveLine Mach.serveTarget
  dsimp only
  rw [hwait]
  refine hstill _ ?_
  simp only [List.length_nil, Mach.serveNext]
  split
  · rfl
  · exact Mach.issueAged_still ..

/-! The bridge and the directory. -/

/-- A flit on the bridge leaves the remote lines and the directory as they were. -/
theorem Mach.putBridge_lines (m : Mach) (f c l a : Nat) (d : Bytes) :
    (m.putBridge f c l a d).die.dir = m.die.dir ∧ (m.putBridge f c l a d).die.rlc = m.die.rlc := by
  unfold Mach.putBridge
  dsimp only
  split
  · exact ⟨rfl, rfl⟩
  · split <;> exact ⟨rfl, rfl⟩

/-- On a bridge that is free a flit leaves at once (R98). -/
theorem Mach.putBridge_out {m : Mach} {f : Nat} (hfree : m.bridgeFree f = true) (c l a : Nat) (d : Bytes) :
    (m.putBridge f c l a d).out = .bridge f c l a d :: m.out := by
  simp only [Mach.bridgeFree, Bool.and_eq_true, decide_eq_true_eq] at hfree
  obtain ⟨⟨hopen, hroom⟩, hnone⟩ := hfree
  unfold Mach.putBridge
  dsimp only
  rw [if_neg (by simp only [hnone]; simpa using hroom), if_pos hopen]
  rfl

/-- A FILL of a sound line in state N that a context may read sends it and records the way (Table 3.2). -/
theorem Mach.answerFill_sends {m : Mach} {epoch ctx pa : Nat} {d : Bytes} (way : Nat) (hfree : m.bridgeFree (paFloor pa) = true)
    (hsound : m.sound (pa / 256 * 256) 256 = true) (hline : m.lineFor epoch ctx (pa / 256 * 256) = .ok d) :
    (m.answerFill epoch ctx pa way).out.head? = some (.bridge (paFloor pa) bData (pa / 256) 0 d) ∧
    sget (m.answerFill epoch ctx pa way).die.dir (pa / 256 * 256) = some (.held way) ∧
    (m.answerFill epoch ctx pa way).mem = m.mem ∧ (m.answerFill epoch ctx pa way).stk.poison = m.stk.poison := by
  have hread : (m.arrayRead epoch (pa / 256 * 256) 256).still = m.still := Mach.arrayRead_still hsound epoch
  obtain ⟨hdie, -, hmem, -, -, hpoison⟩ := Mach.parts_of_still hread
  have hfill : m.answerFill epoch ctx pa way =
      ((m.arrayRead epoch (pa / 256 * 256) 256).setDie
        { m.die with dir := sput m.die.dir (pa / 256 * 256) (.held way) }).putBridge (paFloor pa) bData (pa / 256) 0 d := by
    unfold Mach.answerFill
    dsimp only
    rw [(Mach.lineFor_of_still hread ..).trans hline, hdie]
  have hgo : ((m.arrayRead epoch (pa / 256 * 256) 256).setDie
      { m.die with dir := sput m.die.dir (pa / 256 * 256) (.held way) }).bridgeFree (paFloor pa) = true := by
    have hbridge : (m.arrayRead epoch (pa / 256 * 256) 256).still.bridgeFree (paFloor pa) = true := by rw [hread]; exact hfree
    rw [← hdie]
    exact hbridge
  have hlines := Mach.putBridge_lines ((m.arrayRead epoch (pa / 256 * 256) 256).setDie
    { m.die with dir := sput m.die.dir (pa / 256 * 256) (.held way) }) (paFloor pa) bData (pa / 256) 0 d
  rw [hfill]
  refine ⟨?_, ?_, ?_, ?_⟩
  · rw [Mach.putBridge_out hgo]
    rfl
  · rw [hlines.1]
    exact sget_sput_self ..
  · simpa using hmem
  · simpa using hpoison

/-- DATA installs the line in the way that waits for it and answers the one requester there (Table 3.1). -/
theorem Mach.dataAt_installs {m : Mach} {fl pa w a f p tag off len : Nat} (data : Bytes)
    (hfind : m.rlcFind fl pa = some (w, .fill a [(.port f p tag, off, len)])) (hdir : shas m.die.dir a = true) :
    (m.dataAt fl pa .done data).out = .readData (.port f p tag) .done ((data.drop off).take len) :: m.out ∧
    sget (m.dataAt fl pa .done data).die.rlc (rlcKey fl pa w) = some (.shared a data) ∧
    (m.dataAt fl pa .done data).mem = m.mem ∧ (m.dataAt fl pa .done data).grid = m.grid ∧
    (m.dataAt fl pa .done data).rng = m.rng := by
  have hcount : ∀ (x : Mach) (o : Origin) (k n : Nat), (x.readCount o k n).out = x.out ∧ (x.readCount o k n).die = x.die ∧
      (x.readCount o k n).mem = x.mem ∧ (x.readCount o k n).grid = x.grid ∧ (x.readCount o k n).rng = x.rng := fun x o k n => by
    unfold Mach.readCount Mach.regCount
    split <;> simp
  have hat : m.dataAt fl pa .done data =
      ((m.setDie { m.die with rlc := sput m.die.rlc (rlcKey fl pa w) (.shared a data) }).readCount (.port f p tag) (paMedium a)
        ((data.drop off).take len).length).emit (.readData (.port f p tag) .done ((data.drop off).take len)) := by
    unfold Mach.dataAt
    rw [hfind]
    simp only [hdir, Bool.and_true, show Status.done.isDone = true from rfl, if_true, List.foldl_cons, List.foldl_nil]
    rfl
  obtain ⟨hout, hdie, hmem, hgrid, hrng⟩ :=
    hcount (m.setDie { m.die with rlc := sput m.die.rlc (rlcKey fl pa w) (.shared a data) }) (.port f p tag) (paMedium a)
      ((data.drop off).take len).length
  rw [hat]
  refine ⟨?_, ?_, hmem, hgrid, hrng⟩
  · exact congrArg _ hout
  · exact (congrArg (fun x : Die => sget x.rlc (rlcKey fl pa w)) hdie).trans (sget_sput_self ..)

/-- DATA, with nothing waiting at the line's target, does no more than install the line and answer (R91). -/
theorem Mach.dataIn_installs {m : Mach} {fl pa w a f p tag off len : Nat} (data : Bytes)
    (hfind : m.rlcFind fl pa = some (w, .fill a [(.port f p tag, off, len)])) (hdir : shas m.die.dir a = true)
    (hwait : sgetD [] m.grid.wait (Place.ofPa pa).target = []) (hrel : m.grid.relWait = []) (hrec : m.rng.recWait = []) :
    (m.dataIn fl pa .done data).out = .readData (.port f p tag) .done ((data.drop off).take len) :: m.out ∧
    sget (m.dataIn fl pa .done data).die.rlc (rlcKey fl pa w) = some (.shared a data) ∧ (m.dataIn fl pa .done data).mem = m.mem := by
  obtain ⟨hout, hrlc, hmem, hgrid, hrng⟩ := Mach.dataAt_installs data hfind hdir
  have hline : (m.dataIn fl pa .done data).still = (m.dataAt fl pa .done data).still :=
    Mach.serveLine_still (by rw [hgrid, hwait]) (by rw [hgrid, hrel]) (by rw [hrng, hrec])
  obtain ⟨kdie, -, kmem, -, kout, -⟩ := Mach.parts_of_still hline
  exact ⟨kout.trans hout, by rw [kdie, hrlc], kmem.trans hmem⟩

/-- INV_ACK of a line that no access took it for ends the line's invalidation, and nothing waits behind it. -/
theorem Mach.invAckAt_ends {m : Mach} {pa : Nat} {held : List HeldRsp}
    (hdir : sget m.die.dir (pa / 256 * 256) = some (.inval held [])) (hearly : sgetD 0 m.die.ackEarly (pa / 256 * 256) = 0) :
    m.invAckAt pa = (held.foldl (fun m h => m.heldDone (pa / 256 * 256) h)
      (m.setDie { m.die with dir := sdel m.die.dir (pa / 256 * 256) })).relSettle := by
  unfold Mach.invAckAt Mach.ackLine
  dsimp only
  rw [hearly, hdir]
  rfl

/-- Settles O18: a promotion marks its transaction and serves nothing where its target can serve nothing; the four messages by what the
line's fill, copy or invalidation comes to, with nothing waiting behind it. -/
theorem waitsAgeAndLinesCrossTheBridge : Obligations.WaitsAgeAndLinesCrossTheBridge := by
  unfold Obligations.WaitsAgeAndLinesCrossTheBridge
  intro h
  refine ⟨?agesAtGrid, ?waitsAtGrid, ?agesAtStack, ?fill, ?data, ?inv, ?ack, ?ackHeld⟩
  case agesAtGrid =>
    intro target i ns x ht hns hx hrel m1 hnext hrec s hs
    subst hs
    refine completes_runIf rfl (by simpa using ht) ?_
    rw [if_pos hns]
    exact Mach.promoteTxn_idle hx hrel hrec hnext
  case waitsAtGrid =>
    intro target i ns ht hns s hs
    subst hs
    exact completes_runIf rfl (by simpa using ht) (if_neg (by omega))
  case agesAtStack =>
    intro chan i ns x hc hns hx hrel m1 hnext hrec s hs
    subst hs
    refine completes_runIf rfl (by simpa using hc) ?_
    have hi : i < (sgetD [] s.hw.grid.wait (128 + chan)).length := (List.getElem?_eq_some_iff.mp hx).1
    dsimp only
    rw [if_neg (by omega), if_pos hi]
    exact Mach.promoteTxn_idle hx hrel hrec hnext
  case fill =>
    intro ctx epoch pa way d hctx hpa hway hfree line hsound hdir hline s hs
    subst hs
    refine completes_runIf rfl (by simp only [hctx, hpa, hway, decide_true, Bool.and_self]) ?_
    have hfill : s.hw.fillAt ctx epoch pa way .clean = (s.hw.dropVictim pa way).answerFill epoch ctx pa way := by
      unfold Mach.fillAt
      dsimp only
      rw [show s.hw.plant (pa / 256 * 256) .clean = s.hw from rfl, hdir]
    rw [hfill]
    exact Mach.answerFill_sends (m := s.hw.dropVictim pa way) way hfree hsound hline
  case data =>
    intro fl pa w f p tag off len a data hfl hpa hfind hdir hwait hrel hrec s hs
    subst hs
    refine completes_runIf rfl (by simp only [hfl, hpa, decide_true, Bool.and_self]) ?_
    exact Mach.dataIn_installs (padTo 256 data) hfind hdir hwait hrel hrec
  case inv =>
    intro fl pa w a d hfl hpa hfree hfind s hs
    subst hs
    refine completes_runIf rfl (by simp only [hfl, hpa, decide_true, Bool.and_self]) ?_
    have hinv : s.hw.rlcInvalidate fl pa = s.hw.setDie { s.hw.die with rlc := sdel s.hw.die.rlc (rlcKey fl pa w) } := by
      rw [Mach.rlcInvalidate, hfind]
    obtain ⟨hkdir, hkrlc⟩ := Mach.putBridge_lines
      (s.hw.setDie { s.hw.die with rlc := sdel s.hw.die.rlc (rlcKey fl pa w) }) fl bInvAck (pa / 256) 0 []
    rw [Mach.invAt, hinv]
    exact ⟨Mach.putBridge_out (m := s.hw.setDie { s.hw.die with rlc := sdel s.hw.die.rlc (rlcKey fl pa w) }) hfree ..,
      hkrlc, hkdir, by simp⟩
  case ack =>
    intro fl pa hfl hpa hother hdir hrel hrec hearly s hs
    subst hs
    refine completes_runIf rfl (by simp only [hfl, hpa, decide_true, Bool.and_self]) ?_
    rw [if_neg hother, Mach.invAckAt_ends hdir hearly]
    exact Mach.relSettle_idle hrel hrec
  case ackHeld =>
    intro fl pa f p tag c hfl hpa hother hdir hrel hrec hearly s hs
    subst hs
    refine completes_runIf rfl (by simp only [hfl, hpa, decide_true, Bool.and_self]) ?_
    rw [if_neg hother, Mach.invAckAt_ends hdir hearly, List.foldl_cons, List.foldl_nil, Mach.relSettle_idle]
    · exact ⟨rfl, rfl, rfl, rfl⟩
    · exact hrel
    · exact hrec

end Sys2Proof.Machine
end

section
/-! PROOFS. What each floor knows of the other (R102 to R108): it stays through what the grid, the items, the ports, the fences and the
survey do. -/
namespace Sys2Proof.Machine

/-- Which floor is lost and how DIE_STATE and the sideband say so, who serves, and what the floors' islands have been told. -/
structure DieView where
  lost : Option Nat
  state : Nat
  fenced : Bool
  sideMsg : List Nat
  role : Nat
  islands : Nat → Nat → Prop

def Mach.view (m : Mach) : DieView :=
  { lost := m.die.lost, state := m.die.state, fenced := m.die.bridgeFenced, sideMsg := m.die.sideMsg, role := m.fb.role
    islands := fun f k => Emit.island f k ∈ m.out }

/-! The parts of the module that are no part of it, or whose part of it stays. -/

@[simp] theorem Mach.setGrid_view (m : Mach) (x : Grid) : (m.setGrid x).view = m.view := rfl
@[simp] theorem Mach.setMem_view (m : Mach) (x : Mem) : (m.setMem x).view = m.view := rfl
@[simp] theorem Mach.setStk_view (m : Mach) (x : Stk) : (m.setStk x).view = m.view := rfl
@[simp] theorem Mach.setReg_view (m : Mach) (x : Reg) : (m.setReg x).view = m.view := rfl
@[simp] theorem Mach.setRng_view (m : Mach) (x : Rings) : (m.setRng x).view = m.view := rfl
@[simp] theorem Mach.setCad_view (m : Mach) (x : Cad) : (m.setCad x).view = m.view := rfl
@[simp] theorem Mach.setSite_view (m : Mach) (x : Sites) : (m.setSite x).view = m.view := rfl
@[simp] theorem Mach.setCore_view (m : Mach) (x : Cores) : (m.setCore x).view = m.view := rfl
@[simp] theorem Mach.setClk_view (m : Mach) (x : Clk) : (m.setClk x).view = m.view := rfl
@[simp] theorem Mach.setFlt_view (m : Mach) (x : Flt) : (m.setFlt x).view = m.view := rfl
@[simp] theorem Mach.setSwp_view (m : Mach) (x : Swp) : (m.setSwp x).view = m.view := rfl
@[simp] theorem Mach.setLnk_view (m : Mach) (x : Links) : (m.setLnk x).view = m.view := rfl
@[simp] theorem Mach.setTrv_view (m : Mach) (x : Travs) : (m.setTrv x).view = m.view := rfl
@[simp] theorem Mach.setHp_view (m : Mach) (x : Hps) : (m.setHp x).view = m.view := rfl
@[simp] theorem Mach.setSec_view (m : Mach) (x : Sec) : (m.setSec x).view = m.view := rfl
@[simp] theorem Mach.setPwr_view (m : Mach) (x : Pwr) : (m.setPwr x).view = m.view := rfl
@[simp] theorem Mach.setAge_view (m : Mach) (x : Age) : (m.setAge x).view = m.view := rfl

@[simp] theorem Mach.setFb_view {m : Mach} {x : Fb} (h : x.role = m.fb.role) : (m.setFb x).view = m.view := by
  simp only [Mach.view, Mach.setFb_fb, h]; rfl

@[simp] theorem Mach.setDie_view {m : Mach} {x : Die} (hlost : x.lost = m.die.lost) (hstate : x.state = m.die.state)
    (hfenced : x.bridgeFenced = m.die.bridgeFenced) (hside : x.sideMsg = m.die.sideMsg) : (m.setDie x).view = m.view := by
  simp only [Mach.view, Mach.setDie_die, hlost, hstate, hfenced, hside]; rfl

@[simp] theorem Mach.emit_view {m : Mach} {e : Emit} (h : ∀ f k, e ≠ .island f k) : (m.emit e).view = m.view := by
  have hout : (fun f k => Emit.island f k ∈ (m.emit e).out) = fun f k => Emit.island f k ∈ m.out := by
    funext f k
    simp [Ne.symm (h f k)]
  simp only [Mach.view, hout]; rfl

@[simp] theorem Mach.ite_view (c : Prop) [Decidable c] (a b : Mach) :
    (if c then a else b).view = if c then a.view else b.view := apply_ite Mach.view c a b

/-- A fold of operations that each keep it keeps it. -/
@[simp] theorem Mach.foldl_view {α : Type} {f : Mach → α → Mach} (h : ∀ m x, (f m x).view = m.view) (l : List α) (m : Mach) :
    (l.foldl f m).view = m.view := by
  induction l generalizing m with
  | nil => rfl
  | cons x r ih => exact (ih _).trans (h m x)

@[simp] theorem Mach.setCount_view (m : Mach) (k v : Nat) : (m.setCount k v).view = m.view := by
  simp [Mach.setCount]

@[simp] theorem Mach.bump_view (m : Mach) (k : Nat) (n : Nat) : (m.bump k n).view = m.view := by
  simp [Mach.bump]

@[simp] theorem Mach.setPort_view (m : Mach) (p : Nat) (x : Port) : (m.setPort p x).view = m.view := by
  simp [Mach.setPort]

@[simp] theorem Mach.startTraining_view (m : Mach) (p : Nat) : (m.startTraining p).view = m.view := by
  simp [Mach.startTraining]

@[simp] theorem Mach.showFrame_view (m : Mach) (p : Nat) (s : Sent) (nak : Bool) : (m.showFrame p s nak).view = m.view := by
  simp [Mach.showFrame]

@[simp] theorem Mach.putFrame_view (m : Mach) (p code : Nat) (fields : List Nat) (payload : Bytes) :
    (m.putFrame p code fields payload).view = m.view := by
  simp [Mach.putFrame]

@[simp] theorem Mach.countStream_view (m : Mach) (p dir tag bytes : Nat) : (m.countStream p dir tag bytes).view = m.view := by
  simp [Mach.countStream]

@[simp] theorem Mach.sendFrame_view (m : Mach) (p vc stream : Nat) (payload : Bytes) :
    (m.sendFrame p vc stream payload).view = m.view := by
  simp [Mach.sendFrame]

@[simp] theorem Mach.putMsg_view (m : Mach) (p : Nat) (b : Bytes) : (m.putMsg p b).view = m.view := by
  simp [Mach.putMsg]

@[simp] theorem Mach.sendMsg_view (m : Mach) (p ty : Nat) (body : List Nat) : (m.sendMsg p ty body).view = m.view := by
  simp [Mach.sendMsg]

@[simp] theorem Mach.sendAll_view (m : Mach) (ty : Nat) (body : List Nat) : (m.sendAll ty body).view = m.view := by
  simp [Mach.sendAll]

@[simp] theorem Mach.forwardVc2_view (m : Mach) (from_ : Option Nat) (tag : Nat) (payload : Bytes) :
    (m.forwardVc2 from_ tag payload).view = m.view := by
  simp [Mach.forwardVc2]

@[simp] theorem Mach.sendVc2_view (m : Mach) (dest chan req st : Nat) (content : Bytes) :
    (m.sendVc2 dest chan req st content).view = m.view := by
  simp [Mach.sendVc2]

@[simp] theorem Mach.putBridge_view (m : Mach) (f c l a : Nat) (d : Bytes) : (m.putBridge f c l a d).view = m.view := by
  unfold Mach.putBridge
  dsimp only
  repeat' split
  all_goals simp

@[simp] theorem Mach.promote_view (m : Mach) (ctx page : Nat) : (m.promote ctx page).view = m.view := by
  unfold Mach.promote
  dsimp only
  repeat' split
  all_goals simp

@[simp] theorem Mach.wrLine_view (m : Mach) (c pa : Nat) (d : Bytes) : (m.wrLine c pa d).view = m.view := by
  unfold Mach.wrLine
  dsimp only
  repeat' split
  all_goals simp

@[simp] theorem Mach.setErrs_view (m : Mach) (pa n : Nat) : (m.setErrs pa n).view = m.view := by
  simp [Mach.setErrs]

@[simp] theorem Mach.closeMerge_view (m : Mach) (pa : Nat) : (m.closeMerge pa).view = m.view := by
  simp [Mach.closeMerge]

@[simp] theorem Mach.setStack_view (m : Mach) (s : Nat) (x : Stack) : (m.setStack s x).view = m.view := by
  simp [Mach.setStack]

@[simp] theorem Mach.clearPoison_view (m : Mach) (pa n : Nat) : (m.clearPoison pa n).view = m.view := by
  unfold Mach.clearPoison
  dsimp only
  repeat' split
  all_goals simp

@[simp] theorem Mach.addPoison_view (m : Mach) (pa : Nat) : (m.addPoison pa).view = m.view := by
  simp [Mach.addPoison]

@[simp] theorem Mach.rlcInvalidate_view (m : Mach) (f pa : Nat) : (m.rlcInvalidate f pa).view = m.view := by
  unfold Mach.rlcInvalidate
  split <;> simp

@[simp] theorem Mach.dropRemote_view (m : Mach) (f pa : Nat) : (m.dropRemote f pa).view = m.view := by
  unfold Mach.dropRemote
  dsimp only
  repeat' split
  all_goals simp

@[simp] theorem Mach.crossWrite_view (m : Mach) (f pa c : Nat) (d : Bytes) : (m.crossWrite f pa c d).view = m.view := by
  simp [Mach.crossWrite]

@[simp] theorem Mach.putPiece_view (m : Mach) (e c : Nat) (p : Piece) (d : Bytes) : (m.putPiece e c p d).1.view = m.view := by
  unfold Mach.putPiece
  dsimp only
  repeat' split
  all_goals simp

@[simp] theorem Mach.writePiece_view (m : Mach) (e c f : Nat) (p : Piece) (d : Bytes) : (m.writePiece e c f p d).1.view = m.view := by
  unfold Mach.writePiece
  dsimp only
  repeat' split
  all_goals simp

@[simp] theorem Mach.writePieces_view (m : Mach) (e c fl : Nat) (ps : List (Nat × Nat)) (d : Bytes) (f : Option Fail) :
    (m.writePieces e c fl ps d f).1.view = m.view := by
  induction ps generalizing m d f with
  | nil => rfl
  | cons p ps ih =>
    unfold Mach.writePieces
    refine (ih _ _ _).trans ?_
    split <;> simp

@[simp] theorem Mach.writeMem_view (m : Mach) (e fl c va : Nat) (d : Bytes) : (m.writeMem e fl c va d).1.view = m.view := by
  simp [Mach.writeMem]

@[simp] theorem Mach.xlate_view (m : Mach) (o : Origin) (ctx va : Nat) : (m.xlate o ctx va).1.view = m.view := by
  unfold Mach.xlate
  split <;> simp

@[simp] theorem Mach.recordWrite_view (m : Mach) (epoch fl ctx va : Nat) (data : Bytes) :
    (m.recordWrite epoch fl ctx va data).1.view = m.view := by
  unfold Mach.recordWrite
  dsimp only
  repeat' split
  all_goals simp

@[simp] theorem Mach.setCoreAt_view (m : Mach) (c : Nat) (x : Core) : (m.setCoreAt c x).view = m.view := by
  simp [Mach.setCoreAt]

@[simp] theorem Mach.interruptBound_view (m : Mach) (c b : Nat) : (m.interruptBound c b).view = m.view := by
  simp [Mach.interruptBound]

@[simp] theorem Mach.eventToArea_view (m : Mach) (e : Event) : (m.eventToArea e).view = m.view := by
  unfold Mach.eventToArea
  split
  · rfl
  · dsimp only
    split
    · rfl
    · split <;> simp

@[simp] theorem Mach.event_view (m : Mach) (cls code sev : Nat) (unit : UnitRef) (ctx : Nat) (data : Nat) :
    (m.event cls code sev unit ctx data).view = m.view := by
  simp [Mach.event]

@[simp] theorem Mach.driveAlert_view (old m : Mach) : (old.driveAlert m).view = m.view := by
  simp [Mach.driveAlert]

@[simp] theorem Mach.alert_view (m : Mach) (b : Nat) (on : Bool) : (m.alert b on).view = m.view := by
  simp [Mach.alert]

@[simp] theorem Mach.addHist_view (m : Mach) (h : Hist) : (m.addHist h).view = m.view := by
  simp [Mach.addHist]

@[simp] theorem Mach.ledger_view (m : Mach) (cls cause outcome : Nat) (unit : UnitRef) (st items ctx data phys : Nat) :
    (m.ledger cls cause outcome unit st items ctx data phys).view = m.view := by
  simp [Mach.ledger]

@[simp] theorem Mach.addStanding_view (m : Mach) (x : Standing) : (m.addStanding x).view = m.view := by
  simp [Mach.addStanding]

@[simp] theorem Mach.hold_view (m : Mach) (floor kind : Nat) (party : Party) (ctx object : Nat) :
    (m.hold floor kind party ctx object).view = m.view := by
  simp [Mach.hold]

@[simp] theorem Mach.unhold_view (m : Mach) (p : Holding → Bool) : (m.unhold p).view = m.view := by
  simp [Mach.unhold]

@[simp] theorem Mach.unholdFirst_view (m : Mach) (p : Holding → Bool) : (m.unholdFirst p).view = m.view := by
  unfold Mach.unholdFirst
  split <;> simp

@[simp] theorem Mach.setSiteAt_view (m : Mach) (t : Nat) (x : Site) : (m.setSiteAt t x).view = m.view := by
  simp [Mach.setSiteAt]

@[simp] theorem Mach.showFlit_view (m : Mach) (t b : Nat) (s : Sent) (nak : Bool) : (m.showFlit t b s nak).view = m.view := by
  simp [Mach.showFlit]

@[simp] theorem Mach.putFlit_view (m : Mach) (t b op : Nat) (fields : List Nat) (data : Bytes) :
    (m.putFlit t b op fields data).view = m.view := by
  simp [Mach.putFlit]

@[simp] theorem Mach.sendFlit_view (m : Mach) (t b op : Nat) (fields : List Nat) (data : Bytes) :
    (m.sendFlit t b op fields data).view = m.view := by
  simp [Mach.sendFlit]

@[simp] theorem Mach.sbSend_view (m : Mach) (t ty : Nat) (payload : Bytes) : (m.sbSend t ty payload).view = m.view := by
  simp [Mach.sbSend]

@[simp] theorem Mach.coreNotice_view (m : Mach) (c vector : Nat) : (m.coreNotice c vector).view = m.view := by
  simp [Mach.coreNotice]

@[simp] theorem Mach.hpNotice_view (m : Mach) (n vector : Nat) : (m.hpNotice n vector).view = m.view := by
  simp [Mach.hpNotice]

@[simp] theorem Mach.notice_view (m : Mach) (r : Ring) : (m.notice r).view = m.view := by
  unfold Mach.notice
  split
  · split
    · split <;> simp
    · rfl
  all_goals simp

@[simp] theorem Mach.countAtomic_view (m : Mach) (w : AtomWord) (p : Place) (flagged : Bool) :
    (m.countAtomic w p flagged).view = m.view := by
  simp [Mach.countAtomic]

@[simp] theorem Mach.atomTarget_view (m : Mach) (epoch : Nat) (p : Party) (ctx : Nat) (w : AtomWord) (operand : Bytes) (q : Piece) :
    (m.atomTarget epoch p ctx w operand q).m.view = m.view := by
  unfold Mach.atomTarget
  dsimp only
  repeat' split
  all_goals simp

@[simp] theorem Mach.atomic_view (m : Mach) (epoch : Nat) (p : Party) (floor ctx va : Nat) (w : AtomWord) (operand : Bytes) :
    (m.atomic epoch p floor ctx va w operand).m.view = m.view := by
  unfold Mach.atomic
  split
  · simp
  · split <;> simp

@[simp] theorem Mach.fenceLocks_view (m : Mach) (p : Party) (on : Nat → Bool) : (m.fenceLocks p on).view = m.view := by
  simp [Mach.fenceLocks]

@[simp] theorem Mach.setRing_view (m : Mach) (r : Nat) (x : Ring) : (m.setRing r x).view = m.view := by
  simp [Mach.setRing]

@[simp] theorem Mach.answerNow_view (m : Mach) (r seq kind user epoch : Nat) (notify : Bool) (st : Status)
    (unit : UnitRef) (flags result : Nat) : (m.answerNow r seq kind user epoch notify st unit flags result).view = m.view := by
  unfold Mach.answerNow
  dsimp only
  repeat' split
  all_goals simp

@[simp] theorem Mach.answer_view (m : Mach) (r seq kind user epoch : Nat) (notify : Bool) (st : Status)
    (unit : UnitRef) (flags result : Nat) : (m.answer r seq kind user epoch notify st unit flags result).view = m.view := by
  unfold Mach.answer
  split <;> simp

@[simp] theorem Mach.recordsGo_view (m : Mach) : m.recordsGo.view = m.view := by
  simp [Mach.recordsGo]

@[simp] theorem Mach.retireEpoch_view (m : Mach) : m.retireEpoch.view = m.view := by
  unfold Mach.retireEpoch
  split <;> simp

@[simp] theorem Mach.dropTraverse_view (m : Mach) (k ctx : Nat) (st : Status) : (m.dropTraverse k ctx st).view = m.view := by
  unfold Mach.dropTraverse
  split <;> simp

@[simp] theorem Mach.setSessions_view (m : Mach) (l : List SwpSess) : (m.setSessions l).view = m.view := by
  simp [Mach.setSessions]

@[simp] theorem Mach.runOver_view (m : Mach) (k : Nat) : (m.runOver k).view = m.view := by
  unfold Mach.runOver
  split <;> simp

@[simp] theorem Mach.dropSweep_view (m : Mach) (k : Nat) (st : Status) : (m.dropSweep k st).view = m.view := by
  simp [Mach.dropSweep]

@[simp] theorem Mach.countItem_view (m : Mach) (i : Item) : (m.countItem i).view = m.view := by
  simp [Mach.countItem]

@[simp] theorem Mach.dropHanded_view (m : Mach) (k : Nat) : (m.dropHanded k).view = m.view := by
  unfold Mach.dropHanded
  split <;> simp

@[simp] theorem Mach.spoilPieces_view (m : Mach) (e c fl : Nat) (ps : List (Nat × Nat)) (d : Bytes) :
    (m.spoilPieces e c fl ps d).view = m.view := by
  induction ps generalizing m d with
  | nil => rfl
  | cons p ps ih =>
    unfold Mach.spoilPieces
    refine (ih _ _).trans ?_
    dsimp only
    repeat' split
    all_goals simp

@[simp] theorem Mach.spoil_view (m : Mach) (i : Item) : (m.spoil i).view = m.view := by
  simp [Mach.spoil]

@[simp] theorem Mach.finish_view (m : Mach) (k : Nat) (st : Status)
    (unit : UnitRef) (flags result : Nat) : (m.finish k st unit flags result).view = m.view := by
  unfold Mach.finish
  split <;> simp

@[simp] theorem Mach.finishAll_view (m : Mach) (ks : List Nat) (st : Status) (unit : UnitRef) :
    (m.finishAll ks st unit).view = m.view := by
  simp [Mach.finishAll]

@[simp] theorem Mach.closeRing_view (m : Mach) (r : Nat) (st : Status) (unit : UnitRef) :
    (m.closeRing r st unit).view = m.view := by
  unfold Mach.closeRing
  split <;> simp

@[simp] theorem Mach.surveyLog_view (m : Mach) (ty : Nat) (unit : UnitRef) (data : Nat) (st : Nat) (path : Nat) (phys : Nat) (attempt : Nat) :
    (m.surveyLog ty unit data st path phys attempt).view = m.view := by
  simp [Mach.surveyLog]

@[simp] theorem Mach.setPhys_view (m : Mach) (kind parent idx x : Nat) : (m.setPhys kind parent idx x).view = m.view := by
  simp [Mach.setPhys]

@[simp] theorem Mach.eachBank_view (m : Mach) (f : CadBank → CadBank) : (m.eachBank f).view = m.view := by
  simp [Mach.eachBank]

@[simp] theorem Mach.endPhys_view (m : Mach) (u : UnitRef) (i st : Nat) : (m.endPhys u i st).view = m.view := by
  simp [Mach.endPhys]

@[simp] theorem Mach.withdraw_view (m : Mach) (u : UnitRef) (st : Nat) : (m.withdraw u st).view = m.view := by
  simp [Mach.withdraw]

@[simp] theorem Mach.spareTaken_view (m : Mach) (u : UnitRef) (old new st : Nat) :
    (m.spareTaken u old new st).view = m.view := by
  unfold Mach.spareTaken
  split <;> simp

@[simp] theorem Mach.marginEvent_view (m : Mach) (code sev : Nat) (unit : UnitRef) (floor what old new : Nat) :
    (m.marginEvent code sev unit floor what old new).view = m.view := by
  simp [Mach.marginEvent]

@[simp] theorem Mach.abandonRuns_view (m : Mach) (p : Nat → Bool) : (m.abandonRuns p).view = m.view := by
  simp [Mach.abandonRuns]

@[simp] theorem Mach.spareRuns_view (m : Mach) (kind parent i : Nat) : (m.spareRuns kind parent i).view = m.view := by
  simp [Mach.spareRuns]

@[simp] theorem Mach.loseContents_view (m : Mach) (u : UnitRef) : (m.loseContents u).view = m.view := by
  simp [Mach.loseContents]

@[simp] theorem Mach.loadStanding_view (m : Mach) (c : Nat) (x : Standing) : (m.loadStanding c x).view = m.view := by
  unfold Mach.loadStanding
  split <;> simp

@[simp] theorem Mach.reloadChan_view (m : Mach) (c : Nat) : (m.reloadChan c).view = m.view := by
  simp [Mach.reloadChan]

@[simp] theorem Mach.clearRetired_view (m : Mach) (u : UnitRef) : (m.clearRetired u).view = m.view := by
  simp [Mach.clearRetired]

@[simp] theorem Mach.moveUnit_view (m : Mach) (u : UnitRef) (st : Nat) (serves : Bool) :
    (m.moveUnit u st serves).view = m.view := by
  unfold Mach.moveUnit
  split <;> simp

@[simp] theorem Mach.placeUnit_view (m : Mach) (u : UnitRef) (st : Nat) : (m.placeUnit u st).view = m.view := by
  unfold Mach.placeUnit
  dsimp only
  repeat' split
  all_goals simp

@[simp] theorem Mach.unitRetires_view (m : Mach) (u : UnitRef) (cause : Nat) : (m.unitRetires u cause).view = m.view := by
  simp [Mach.unitRetires]

@[simp] theorem Mach.switchEpoch_view (m : Mach) (bank : Bank) (cad : CadBank) (entries by_ : Nat) :
    (m.switchEpoch bank cad entries by_).view = m.view := by
  simp [Mach.switchEpoch]

@[simp] theorem Mach.openSites_view (m : Mach) : m.openSites.view = m.view := by
  simp [Mach.openSites]

@[simp] theorem Mach.surveyorCommit_view (m : Mach) (entries : Nat) (back : Option (Nat × CadBank)) :
    (m.surveyorCommit entries back).view = m.view := by
  simp [Mach.surveyorCommit]

@[simp] theorem Mach.moved_view (m : Mach) (c n : Nat) (by_ : Mover) : (m.moved c n by_).view = m.view := by
  simp [Mach.moved]

@[simp] theorem Mach.movedAt_view (m : Mach) (pa n : Nat) (by_ : Mover) : (m.movedAt pa n by_).view = m.view := by
  simp [Mach.movedAt]

@[simp] theorem Mach.copyBytes_view (m : Mach) (ctx src dst n : Nat) : (m.copyBytes ctx src dst n).view = m.view := by
  simp [Mach.copyBytes]

@[simp] theorem Mach.cleanErrs_view (m : Mach) (here : Nat → Bool) : (m.cleanErrs here).view = m.view := by
  refine Mach.foldl_view (fun m e => ?_) _ m
  dsimp only
  split
  · simp
  · split
    · split <;> simp
    · simp

@[simp] theorem Mach.rowActivated_view (m : Mach) (pa n : Nat) : (m.rowActivated pa n).view = m.view := by
  simp [Mach.rowActivated]

@[simp] theorem Mach.openRowOf_view (m : Mach) (pa : Nat) (read : Bool) : (m.openRowOf pa read).view = m.view := by
  simp [Mach.openRowOf]

@[simp] theorem Mach.openPage_view (m : Mach) (pa : Nat) : (m.openPage pa).view = m.view := by
  simp [Mach.openPage]

@[simp] theorem Mach.retirePage_view (m : Mach) (pa cause : Nat) : (m.retirePage pa cause).view = m.view := by
  simp [Mach.retirePage]

@[simp] theorem Mach.rowFails_view (m : Mach) (pa cause : Nat) : (m.rowFails pa cause).view = m.view := by
  simp [Mach.rowFails]

@[simp] theorem Mach.sectorCorrected_view (m : Mach) (pa : Nat) : (m.sectorCorrected pa).view = m.view := by
  simp [Mach.sectorCorrected]

@[simp] theorem Mach.sectorBad_view (m : Mach) (pa : Nat) : (m.sectorBad pa).view = m.view := by
  simp [Mach.sectorBad]

@[simp] theorem Mach.setRefresh_view (m : Mach) (s : Nat) : (m.setRefresh s).view = m.view := by
  simp [Mach.setRefresh]

@[simp] theorem Mach.leaveRefresh_view (m : Mach) (p : Nat → Bool) : (m.leaveRefresh p).view = m.view := by
  simp [Mach.leaveRefresh]

@[simp] theorem Mach.movedLater_view (m : Mach) (c n : Nat) (by_ : Mover) : (m.movedLater c n by_).view = m.view := by
  unfold Mach.movedLater
  split <;> simp

@[simp] theorem Mach.regCount_view (m : Mach) (o : Origin) (medium n : Nat) : (m.regCount o medium n).view = m.view := by
  unfold Mach.regCount
  split <;> simp

@[simp] theorem Mach.readCount_view (m : Mach) (o : Origin) (medium n : Nat) : (m.readCount o medium n).view = m.view := by
  simp [Mach.readCount]

@[simp] theorem Mach.writeCount_view (m : Mach) (o : Origin) (medium n : Nat) : (m.writeCount o medium n).view = m.view := by
  simp [Mach.writeCount]

@[simp] theorem Mach.eccFixed_view (m : Mach) (a : Nat) (back : Bool) (by_ : Mover) :
    (m.eccFixed a back by_).view = m.view := by
  simp [Mach.eccFixed]

@[simp] theorem Mach.eccLost_view (m : Mach) (epoch st a : Nat) : (m.eccLost epoch st a).view = m.view := by
  simp [Mach.eccLost]

@[simp] theorem Mach.eccMeet_view (m : Mach) (epoch st : Nat) (back : Bool) (l : List Nat) (by_ : Mover) :
    (m.eccMeet epoch st back l by_).view = m.view := by
  simp [Mach.eccMeet]

@[simp] theorem Mach.movedBy_view (m : Mach) (item : Bool) (c n : Nat) (by_ : Mover) :
    (m.movedBy item c n by_).view = m.view := by
  simp [Mach.movedBy]

@[simp] theorem Mach.arrayRead_view (m : Mach) (epoch pa n : Nat) (by_ : Mover) (item : Bool) :
    (m.arrayRead epoch pa n by_ item).view = m.view := by
  simp [Mach.arrayRead]

@[simp] theorem Mach.writeReads_view (m : Mach) (epoch ctx pa n : Nat) : (m.writeReads epoch ctx pa n).view = m.view := by
  simp [Mach.writeReads]

@[simp] theorem Mach.siteRsp_view (m : Mach) (t b op tag : Nat) (st : Status) (data : Bytes) :
    (m.siteRsp t b op tag st data).view = m.view := by
  simp [Mach.siteRsp]

@[simp] theorem Mach.replyRead_view (m : Mach) (o : Origin) (st : Status) (data : Bytes) :
    (m.replyRead o st data).view = m.view := by
  unfold Mach.replyRead
  split <;> simp

@[simp] theorem Mach.readEnds_view (m : Mach) (o : Origin) (medium : Nat) (r : Except Fail Bytes) :
    (m.readEnds o medium r).view = m.view := by
  unfold Mach.readEnds
  split <;> simp

@[simp] theorem Mach.replyWrite_view (m : Mach) (o : Origin) (st : Status) : (m.replyWrite o st).view = m.view := by
  unfold Mach.replyWrite
  split <;> simp

@[simp] theorem Mach.replyAtomic_view (m : Mach) (o : Origin) (st : Status) (data : Bytes) :
    (m.replyAtomic o st data).view = m.view := by
  unfold Mach.replyAtomic
  split <;> simp

@[simp] theorem Mach.heldDone_view (m : Mach) (line : Nat) (h : HeldRsp) (lost : Option Status) :
    (m.heldDone line h lost).view = m.view := by
  unfold Mach.heldDone
  split <;> simp

@[simp] theorem Mach.served_view (m : Mach) (target g : Nat) : (m.served target g).view = m.view := by
  simp [Mach.served]

@[simp] theorem Mach.answerFill_view (m : Mach) (epoch ctx pa way : Nat) (item : Bool) :
    (m.answerFill epoch ctx pa way item).view = m.view := by
  unfold Mach.answerFill
  dsimp only
  repeat' split
  all_goals simp

@[simp] theorem Mach.dirWrite_view (m : Mach) (d : Option DirLine) (fl pa : Nat) (h : HeldRsp) :
    (m.dirWrite d fl pa h).view = m.view := by
  unfold Mach.dirWrite
  split <;> simp

@[simp] theorem Mach.dirFailed_view (m : Mach) (fl pa : Nat) : (m.dirFailed fl pa).view = m.view := by
  unfold Mach.dirFailed
  split <;> simp

@[simp] theorem Mach.readTarget_view (m : Mach) (t : Txn) (epoch len slot : Nat) (e : SegEnt) (p : Place) :
    (m.readTarget t epoch len slot e p).view = m.view := by
  simp [Mach.readTarget]

@[simp] theorem Mach.performRead_view (m : Mach) (t : Txn) (len : Nat) : (m.performRead t len).view = m.view := by
  unfold Mach.performRead
  dsimp only
  have hx := Mach.xlate_view m t.org t.ctx t.va
  generalize m.xlate t.org t.ctx t.va = r at hx ⊢
  obtain ⟨a, _ | ⟨slot, e⟩⟩ := r
  · simpa using hx
  · dsimp only at hx ⊢
    rw [← hx]
    split
    · simp
    · split
      · simp
      · split
        · simp
        · simp
        · split <;> simp

@[simp] theorem Mach.queueWrite_view (m : Mach) (ps : List Place) (b n : Nat) : (m.queueWrite ps b n).view = m.view := by
  simp [Mach.queueWrite]

@[simp] theorem Mach.performWrite_view (m : Mach) (t : Txn) (data : Bytes) : (m.performWrite t data).view = m.view := by
  unfold Mach.performWrite
  dsimp only
  have hx := Mach.xlate_view m t.org t.ctx t.va
  generalize m.xlate t.org t.ctx t.va = r at hx ⊢
  obtain ⟨a, _ | ⟨slot, e⟩⟩ := r
  · simpa using hx
  · dsimp only at hx ⊢
    rw [← hx]
    split
    · simp
    · split <;> simp

@[simp] theorem Mach.atomicAt_view (m : Mach) (epoch : Nat) (p : Party) (floor ctx va word : Nat) (operand : Bytes) (item : Bool) :
    (m.atomicAt epoch p floor ctx va word operand item).m.view = m.view := by
  unfold Mach.atomicAt
  dsimp only
  repeat' split
  all_goals simp

@[simp] theorem Mach.atomicBytes_view (m : Mach) (o : Origin) (ctx va word : Nat) :
    (m.atomicBytes o ctx va word).view = m.view := by
  unfold Mach.atomicBytes
  split <;> simp

@[simp] theorem Mach.performAtomic_view (m : Mach) (t : Txn) (word : Nat) (operand : Bytes) :
    (m.performAtomic t word operand).view = m.view := by
  unfold Mach.performAtomic
  dsimp only
  repeat' split
  all_goals simp

@[simp] theorem Mach.perform_view (m : Mach) (t : Txn) : (m.perform t).view = m.view := by
  unfold Mach.perform
  split <;> simp

@[simp] theorem Mach.enqueue_view (m : Mach) (target : Nat) (t : Txn) : (m.enqueue target t).view = m.view := by
  simp [Mach.enqueue]

@[simp] theorem Mach.issueWrite_view (m : Mach) (c : Nat) (w : Nat × Nat) : (m.issueWrite c w).view = m.view := by
  simp [Mach.issueWrite]

@[simp] theorem Mach.takeIn_view (fuel : Nat) (m : Mach) (t : Nat) : (Mach.takeIn fuel m t).view = m.view := by
  induction fuel generalizing m with
  | zero => rfl
  | succ fuel ih =>
    unfold Mach.takeIn
    dsimp only
    split
    · rfl
    · split <;> simp [ih]

@[simp] theorem Mach.serveTxn_view (m : Mach) (target : Nat) (t : Txn) : (m.serveTxn target t).view = m.view := by
  simp [Mach.serveTxn]

@[simp] theorem Mach.issueAged_view (fuel : Nat) (m : Mach) (c : Nat) : (Mach.issueAged fuel m c).view = m.view := by
  induction fuel generalizing m with
  | zero => rfl
  | succ fuel ih =>
    unfold Mach.issueAged
    split
    · split
      · rfl
      · exact (ih _).trans (Mach.issueWrite_view ..)
    · rfl

@[simp] theorem Mach.serveNext_view (fuel : Nat) (m : Mach) (target : Nat) : (Mach.serveNext fuel m target).view = m.view := by
  induction fuel generalizing m with
  | zero => rfl
  | succ fuel ih =>
    unfold Mach.serveNext
    split
    · rfl
    · exact (ih _).trans (Mach.serveTxn_view ..)

@[simp] theorem Mach.serveTarget_view (fuel : Nat) (m : Mach) (target : Nat) :
    (m.serveTarget fuel target).view = m.view := by
  unfold Mach.serveTarget
  split <;> simp

@[simp] theorem Mach.enter_view (m : Mach) (t : Txn) (wait : Bool) : (m.enter t wait).view = m.view := by
  unfold Mach.enter
  dsimp only
  repeat' split
  all_goals simp

@[simp] theorem Mach.releaseReady_view (fuel : Nat) (m : Mach) : (Mach.releaseReady fuel m).view = m.view := by
  induction fuel generalizing m with
  | zero => rfl
  | succ fuel ih =>
    unfold Mach.releaseReady
    split
    · rfl
    · exact (ih _).trans (by simp)

@[simp] theorem Mach.relSettle_view (m : Mach) : m.relSettle.view = m.view := by
  simp [Mach.relSettle]

@[simp] theorem Mach.ackLine_view (m : Mach) (pa : Nat) : (m.ackLine pa).view = m.view := by
  unfold Mach.ackLine
  dsimp only
  repeat' split
  all_goals simp

@[simp] theorem Mach.ackNow_view (m : Mach) (pa : Nat) : (m.ackNow pa).view = m.view := by
  unfold Mach.ackNow
  dsimp only
  repeat' split
  all_goals simp

@[simp] theorem Mach.serveThose_view (m : Mach) (p : Txn → Bool) : (m.serveThose p).view = m.view := by
  simp [Mach.serveThose]

/-- Some of what a later module has shown, put before what an earlier one with the same view had. -/
theorem Mach.setOut_view {m h : Mach} {l : List Emit} (hview : m.view = h.view) (hl : ∀ e ∈ l, e ∈ m.out) :
    (m.setOut (l ++ h.out)).view = h.view := by
  have hislands : m.view.islands = h.view.islands := congrArg DieView.islands hview
  have hout : (fun f k => Emit.island f k ∈ l ++ h.out) = h.view.islands := by
    funext f k
    have hfk : (Emit.island f k ∈ m.out) = (Emit.island f k ∈ h.out) := congrFun (congrFun hislands f) k
    exact propext ⟨fun hmem => (List.mem_append.mp hmem).elim (fun hm => hfk.mp (hl _ hm)) id, List.mem_append_right l⟩
  exact (congrArg (fun i => { m.view with islands := i }) (hout.trans hislands.symm)).trans hview

/-- A drain takes back answers alone: an island has been told what it had. -/
@[simp] theorem Mach.drain_view (m : Mach) (p : Origin → Bool) : (m.drain p).view = m.view := by
  unfold Mach.drain
  dsimp only
  refine Mach.setOut_view ?_ fun e he => List.mem_of_mem_take (List.mem_of_mem_filter he)
  simp

@[simp] theorem Mach.discardDraft_view (m : Mach) (code : Nat) : (m.discardDraft code).view = m.view := by
  unfold Mach.discardDraft
  dsimp only
  repeat' split
  all_goals simp

@[simp] theorem Mach.draftOf_view (m : Mach) (rq : Rq) (code : Nat) : (m.draftOf rq code).view = m.view := by
  unfold Mach.draftOf
  split <;> simp

@[simp] theorem Mach.dropChan_view (m : Mach) (rq : Rq) : (m.dropChan rq).view = m.view := by
  simp [Mach.dropChan]

@[simp] theorem Mach.closeRings_view (m : Mach) (rs : List Nat) (st : Status) (unit : UnitRef) :
    (m.closeRings rs st unit).1.view = m.view := by
  simp [Mach.closeRings]

@[simp] theorem Mach.fenceEvent_view (m : Mach) (unit : UnitRef) : (m.fenceEvent unit).view = m.view := by
  simp [Mach.fenceEvent]

@[simp] theorem Mach.reportFence_view (m : Mach) (p : Party) (unit : UnitRef) (cause items : Nat) (quiet : Bool) :
    (m.reportFence p unit cause items quiet).view = m.view := by
  simp [Mach.reportFence]

@[simp] theorem Mach.reclaim_view (m : Mach) (p : Party) : (m.reclaim p).view = m.view := by
  simp [Mach.reclaim]

@[simp] theorem Mach.clockSites_view (m : Mach) : m.clockSites.view = m.view := by
  simp [Mach.clockSites]

@[simp] theorem Mach.startSiteFence_view (m : Mach) (t cause : Nat) (quiet : Bool) :
    (m.startSiteFence t cause quiet).view = m.view := by
  unfold Mach.startSiteFence
  dsimp only
  repeat' split
  all_goals simp

@[simp] theorem Mach.finishSiteFence_view (m : Mach) (t cause : Nat) (quiet : Bool) :
    (m.finishSiteFence t cause quiet).view = m.view := by
  simp [Mach.finishSiteFence]

@[simp] theorem Mach.fenceSite_view (m : Mach) (t cause : Nat) (quiet : Bool) :
    (m.fenceSite t cause quiet).view = m.view := by
  unfold Mach.fenceSite
  split
  · simp
  · dsimp only
    split <;> simp

@[simp] theorem Mach.dropLines_view (m : Mach) (c : Nat) : (m.dropLines c).view = m.view := by
  simp [Mach.dropLines]

@[simp] theorem Mach.startCoreFence_view (m : Mach) (c cause : Nat) (quiet : Bool) :
    (m.startCoreFence c cause quiet).view = m.view := by
  simp [Mach.startCoreFence]

@[simp] theorem Mach.finishCoreFence_view (m : Mach) (c cause : Nat) (quiet : Bool) :
    (m.finishCoreFence c cause quiet).view = m.view := by
  simp [Mach.finishCoreFence]

@[simp] theorem Mach.fenceCore_view (m : Mach) (c cause : Nat) (quiet : Bool) :
    (m.fenceCore c cause quiet).view = m.view := by
  unfold Mach.fenceCore
  dsimp only
  repeat' split
  all_goals simp

@[simp] theorem Mach.setHpAt_view (m : Mach) (n : Nat) (x : HostPort) : (m.setHpAt n x).view = m.view := by
  simp [Mach.setHpAt]

@[simp] theorem Mach.endXfer_view (m : Mach) (n k : Nat) (st : Status) : (m.endXfer n k st).view = m.view := by
  simp [Mach.endXfer]

@[simp] theorem Mach.unbind_view (m : Mach) (n k : Nat) : (m.unbind n k).view = m.view := by
  simp [Mach.unbind]

@[simp] theorem Mach.startHpFence_view (m : Mach) (n cause : Nat) (quiet : Bool) :
    (m.startHpFence n cause quiet).view = m.view := by
  simp [Mach.startHpFence]

@[simp] theorem Mach.disown_view (m : Mach) (p : GroupWait → Bool) : (m.disown p).view = m.view := by
  simp [Mach.disown]

@[simp] theorem Mach.finishHpFence_view (m : Mach) (n cause : Nat) (quiet : Bool) :
    (m.finishHpFence n cause quiet).view = m.view := by
  simp [Mach.finishHpFence]

@[simp] theorem Mach.fenceHp_view (m : Mach) (n cause : Nat) (quiet : Bool) :
    (m.fenceHp n cause quiet).view = m.view := by
  unfold Mach.fenceHp
  dsimp only
  repeat' split
  all_goals simp

@[simp] theorem Mach.fenceStation_view (m : Mach) (st : Nat) (quiet : Bool) :
    (m.fenceStation st quiet).view = m.view := by
  simp [Mach.fenceStation]

@[simp] theorem Mach.zoneEvent_view (m : Mach) (p kind zone step cap st : Nat) :
    (m.zoneEvent p kind zone step cap st).view = m.view := by
  simp [Mach.zoneEvent]

@[simp] theorem Mach.portStops_view (m : Mach) (p cause : Nat) : (m.portStops p cause).view = m.view := by
  unfold Mach.portStops
  dsimp only
  repeat' split
  all_goals simp

@[simp] theorem Mach.portDown_view (m : Mach) (p cause : Nat) (st : Status) (quiet : Bool) :
    (m.portDown p cause st quiet).view = m.view := by
  unfold Mach.portDown
  dsimp only
  repeat' split
  all_goals simp

@[simp] theorem Mach.loseLine_view (m : Mach) (pa : Nat) : (m.loseLine pa).view = m.view := by
  simp [Mach.loseLine]

@[simp] theorem Mach.loseSlices_view (m : Mach) (gone : Nat → Nat → Bool) (keepMirror : Bool) :
    (m.loseSlices gone keepMirror).view = m.view := by
  refine Mach.foldl_view (fun m s => ?_) _ m
  split
  · rfl
  · exact Mach.foldl_view (fun m i => Mach.foldl_view (fun m p => by split <;> simp) _ m) _ m

@[simp] theorem Mach.wake_view (m : Mach) (code : Nat) : (m.wake code).view = m.view := by
  simp [Mach.wake]

@[simp] theorem Mach.measure_view (m : Mach) (i : Nat) (d : Bytes) : (m.measure i d).view = m.view := by
  simp [Mach.measure]

@[simp] theorem Mach.measureTile_view (m : Mach) (t : Nat) : (m.measureTile t).view = m.view := by
  simp [Mach.measureTile]

@[simp] theorem Mach.siteFails_view (m : Mach) (t cause : Nat) : (m.siteFails t cause).view = m.view := by
  simp [Mach.siteFails]

@[simp] theorem Mach.sitePowerUp_view (m : Mach) (t : Nat) : (m.sitePowerUp t).view = m.view := by
  simp [Mach.sitePowerUp]

@[simp] theorem Mach.siteReadmit_view (m : Mach) (t : Nat) : (m.siteReadmit t).view = m.view := by
  simp [Mach.siteReadmit]

@[simp] theorem Mach.endBridgeWaits_view (m : Mach) (f : Nat) : (m.endBridgeWaits f).view = m.view := by
  unfold Mach.endBridgeWaits
  dsimp only
  refine (Mach.foldl_view (fun m h => by simp) _ _).trans ((Mach.foldl_view (fun m t => ?_) _ _).trans ?_)
  · split <;> simp
  · simp

@[simp] theorem Mach.dropCoherence_view (m : Mach) (f : Nat) : (m.dropCoherence f).view = m.view := by
  simp [Mach.dropCoherence]

@[simp] theorem Mach.strand_view (m : Mach) (f : Nat) : (m.strand f).view = m.view := by
  simp [Mach.strand]

@[simp] theorem Mach.dropSession_view (m : Mach) (n : Nat) : (m.dropSession n).view = m.view := by
  simp [Mach.dropSession]

@[simp] theorem Mach.dropSessionsOn_view (m : Mach) (p : Nat) : (m.dropSessionsOn p).view = m.view := by
  simp [Mach.dropSessionsOn]

@[simp] theorem Mach.dropFieldBook_view (m : Mach) : m.dropFieldBook.view = m.view := by
  unfold Mach.dropFieldBook
  dsimp only
  all_goals simp

/-- F1 serves alone (R112). -/
theorem Mach.leads_view (m : Mach) : ((m.setFb { m.fb with role := 1 }).setDie { m.die with f1Stopped := true }).view =
    { m.view with role := 1 } := rfl

/-- A floor that is declared lost: what the survivor holds of it (R102, R107, Table 3.5). -/
theorem Mach.dieLost_view {m : Mach} {f : Nat} (hlost : m.die.lost = none) (hgone : m.floorGone f = false)
    (hstands : m.floorGone (1 - f) = false) (hclock : nth false m.clk.loss (1 - f) = false) (cause : Nat) (st : Status) :
    (m.dieLost f cause st).view = { m.view with
      lost := some f, state := if f = 1 then 1 else 2, fenced := true, role := if f = 0 then 1 else m.fb.role } := by
  unfold Mach.dieLost
  rw [if_neg (by simp [hlost, hgone, hstands, hclock])]
  extract_lets awake before stranded own _ severed dropped downs told hit ended siteless coreless portless _ unmoved sessionless _
    stackless _ named _ _ served booked heat n
  have hstranded : stranded.view = m.view := (Mach.strand_view ..).trans (Mach.wake_view ..)
  have hsevered : severed.view = { stranded.view with lost := some f, fenced := true } := rfl
  have hdropped : dropped.view = severed.view := (Mach.dropCoherence_view ..).trans (Mach.endBridgeWaits_view ..)
  have hdowns : downs.view = dropped.view := Mach.foldl_view (fun _ _ => Mach.portDown_view ..) _ _
  have hended : ended.view = downs.view := (Mach.finishAll_view ..).trans (Mach.sendAll_view ..)
  have hsiteless : siteless.view = ended.view := Mach.foldl_view (fun _ _ => Mach.siteFails_view ..) _ _
  have hcoreless : coreless.view = siteless.view := Mach.foldl_view (fun _ _ => Mach.fenceCore_view ..) _ _
  have hportless : portless.view = coreless.view := Mach.fenceHp_view ..
  have hstackless : stackless.view = portless.view :=
    (Mach.setStk_view sessionless _).trans ((Mach.dropSessionsOn_view unmoved f).trans (Mach.setCad_view ..))
  have hnamed : named.view = { stackless.view with state := if f = 1 then 1 else 2 } := by
    have hstate : ∀ (m : Mach) (s : Nat), (m.setDie { m.die with state := s }).view = { m.view with state := s } := fun _ _ => rfl
    exact (Mach.bump_view ..).trans (hstate stackless _)
  have hserved : served.view = if f = 0 then { named.view with role := 1 } else named.view := by
    simp only [served]
    split
    · exact Mach.leads_view named
    · rfl
  have hbooked : booked.view = served.view := by
    simp only [booked]
    split
    · exact Mach.dropFieldBook_view ..
    · rfl
  rw [Mach.ledger_view, Mach.setPwr_view, hbooked, hserved, hnamed, hstackless, hportless, hcoreless, hsiteless, hended, hdowns,
    hdropped, hsevered, hstranded]
  split <;> rfl

@[simp] theorem Mach.askClock_view (m : Mach) (f : Nat) : (m.askClock f).view = m.view := by
  simp [Mach.askClock]

@[simp] theorem Mach.setHeat_view (m : Mach) (f : Nat) (x : Heat) : (m.setHeat f x).view = m.view := by
  simp [Mach.setHeat]

@[simp] theorem Mach.sensorEvents_view (m : Mach) (f : Nat) (old new : Heat) :
    (m.sensorEvents f old new).view = m.view := by
  simp [Mach.sensorEvents]

@[simp] theorem Mach.markCores_view (m : Mach) : m.markCores.view = m.view := by
  simp [Mach.markCores]

@[simp] theorem Mach.calibrate_view (m : Mach) (f : Nat) (settled : Bool) (bench : Int) (raws : List Int) :
    (m.calibrate f settled bench raws).view = m.view := by
  unfold Mach.calibrate
  dsimp only
  repeat' split
  all_goals simp

@[simp] theorem Mach.switched_view (m : Mach) (f dom src dst : Nat) : (m.switched f dom src dst).view = m.view := by
  simp [Mach.switched]

@[simp] theorem Mach.switchIsland_view (m : Mach) (f : Nat) : (m.switchIsland f).view = m.view := by
  unfold Mach.switchIsland
  dsimp only
  repeat' split
  all_goals simp

@[simp] theorem Mach.planHigh_view (m : Mach) (f d : Nat) : (m.planHigh f d).view = m.view := by
  unfold Mach.planHigh
  dsimp only
  rw [Mach.ite_view, Mach.marginEvent_view, ite_self]
  refine Mach.foldl_view (fun m i => ?_) _ _
  repeat' split
  all_goals rfl

@[simp] theorem Mach.planDomain_view (m : Mach) (f d : Nat) (survey : Bool) :
    (m.planDomain f d survey).view = m.view := by
  unfold Mach.planDomain
  dsimp only
  repeat' split
  all_goals simp

@[simp] theorem Mach.planStack_view (m : Mach) (s : Nat) : (m.planStack s).view = m.view := by
  unfold Mach.planStack
  dsimp only
  repeat' split
  all_goals simp

@[simp] theorem Mach.runsAgain_view (m : Mach) (f : Nat) : (m.runsAgain f).view = m.view := by
  simp [Mach.runsAgain]

@[simp] theorem Mach.replanFloor_view (m : Mach) (f : Nat) (survey : Bool) :
    (m.replanFloor f survey).view = m.view := by
  simp [Mach.replanFloor]

@[simp] theorem Mach.surveyEyes_view (m : Mach) (l : List (Nat × Nat × Nat × Nat × Nat)) :
    (m.surveyEyes l).view = m.view := by
  unfold Mach.surveyEyes
  exact Mach.foldl_view (fun _ _ => by rfl) _ _

@[simp] theorem Mach.settleMoves_view (m : Mach) (p : UnitRef → Bool) : (m.settleMoves p).view = m.view := by
  simp [Mach.settleMoves]

@[simp] theorem Mach.unitBad_view (m : Mach) (u : Nat × Nat × Nat) : (m.unitBad u).view = m.view := by
  simp [Mach.unitBad]

@[simp] theorem Mach.testedBad_view (m : Mach) (kind : Nat) (us : List (Nat × Nat × Nat)) :
    (m.testedBad kind us).view = m.view := by
  simp [Mach.testedBad]

@[simp] theorem Mach.trainChannels_view (m : Mach) (fl : Nat → Bool) (warm : Bool) (units fell : List (Nat × Nat × Nat)) (eyes : List (Nat × Nat × Nat × Nat × Nat)) :
    (m.trainChannels fl warm units fell eyes).view = m.view := by
  simp [Mach.trainChannels]

@[simp] theorem Mach.markMirrors_view (m : Mach) : m.markMirrors.view = m.view := by
  simp [Mach.markMirrors]

@[simp] theorem Mach.resyncLine_view (m : Mach) (e : SegEnt) (f i : Nat) : (m.resyncLine e f i).view = m.view := by
  simp [Mach.resyncLine]

@[simp] theorem Mach.resyncAll_view (m : Mach) (f : Nat) : (m.resyncAll f).view = m.view := by
  unfold Mach.resyncAll
  refine (Mach.setDie_view rfl rfl rfl rfl).trans (Mach.foldl_view (fun m slot => ?_) _ _)
  split <;> simp

@[simp] theorem Mach.owedRecords_view (m : Mach) (f : Nat) : (m.owedRecords f).view = m.view := by
  simp [Mach.owedRecords]

@[simp] theorem Mach.placeFloor_view (m : Mach) (f : Nat) : (m.placeFloor f).view = m.view := by
  simp [Mach.placeFloor]

@[simp] theorem Mach.floorStarts_view (m : Mach) (f : Nat) : (m.floorStarts f).view = m.view := by
  simp [Mach.floorStarts]

@[simp] theorem Mach.floorSteps_view (m : Mach) (f a b : Nat) : (m.floorSteps f a b).view = m.view := by
  simp [Mach.floorSteps]

@[simp] theorem Mach.testFloor_view (m : Mach) (f : Nat) (g : Found) : (m.testFloor f g).view = m.view := by
  simp [Mach.testFloor]

@[simp] theorem Mach.commitFloor_view (m : Mach) (f : Nat) : (m.commitFloor f).view = m.view := by
  simp [Mach.commitFloor]

end Sys2Proof.Machine
end

section
/-! PROOFS. The bridge's flits, lanes and retraining, and the sideband (R97 to R104, R113). -/
namespace Sys2Proof.Machine

/-! Lists and bits. -/

theorem foldl_same {α β : Type} {f : β → α → β} {m : β} {l : List α} (h : ∀ x ∈ l, f m x = m) : l.foldl f m = m := by
  induction l with
  | nil => rfl
  | cons x r ih =>
    rw [List.foldl_cons, h x (List.mem_cons_self ..)]
    exact ih fun y hy => h y (List.mem_cons_of_mem _ hy)

theorem foldl_keeps {α β γ : Type} (g : β → γ) {f : β → α → β} (h : ∀ m x, g (f m x) = g m) (l : List α) (m : β) :
    g (l.foldl f m) = g m := by
  induction l generalizing m with
  | nil => rfl
  | cons x r ih => exact (ih _).trans (h m x)

/-- An element put where it stands changes nothing. -/
theorem setAt_nth {α : Type} (d : α) (l : List α) (i : Nat) : setAt l i (nth d l i) = l := by
  induction l generalizing i with
  | nil => rfl
  | cons x r ih =>
    cases i with
    | zero => rfl
    | succ i => exact congrArg (x :: ·) (ih i)

theorem bitOf_putBit_true (v i : Nat) : bitOf (putBit v i true) i = true := by
  unfold putBit
  split
  · assumption
  · rename_i hclear
    simp only [bitOf, decide_eq_true_eq] at hclear ⊢
    simp only [if_true, Nat.add_div_right _ (Nat.two_pow_pos i)]
    omega

/-! What is shown outside. -/

/-- A run of outputs leaves nothing else changed. -/
theorem Mach.foldl_emit {α : Type} (g : α → Emit) (l : List α) (m : Mach) :
    l.foldl (fun m x => m.emit (g x)) m = m.setOut ((l.map g).reverse ++ m.out) := by
  induction l generalizing m with
  | nil => rfl
  | cons x r ih =>
    refine (ih (m.emit (g x))).trans ?_
    simp only [List.map_cons, List.reverse_cons, List.append_assoc, List.singleton_append]
    rfl

/-- The flit of a replay buffer's entry (R98). -/
def resent (f : Nat) (x : Sent) : Emit := .bridge f x.code (nth 0 x.fields 0) (nth 0 x.fields 1) x.data

theorem Mach.bridgeResend_eq (m : Mach) (f : Nat) :
    m.bridgeResend f = m.setOut (((nth [] m.die.replay f).map (resent f)).reverse ++ m.out) :=
  Mach.foldl_emit (resent f) _ m

/-! Flits that wait for room. -/

theorem Mach.putBridge_die (m : Mach) (f c l a : Nat) (d : Bytes) :
    ∃ tx r w, (m.putBridge f c l a d).die = { m.die with txSeq := tx, replay := r, waitTx := w } := by
  unfold Mach.putBridge
  dsimp only
  split
  · exact ⟨m.die.txSeq, m.die.replay, _, rfl⟩
  · split <;> exact ⟨_, _, m.die.waitTx, rfl⟩

theorem Mach.drainBridge_die (fuel : Nat) (m : Mach) (f : Nat) : (Mach.drainBridge fuel m f).mem = m.mem ∧
    ∃ tx r w, (Mach.drainBridge fuel m f).die = { m.die with txSeq := tx, replay := r, waitTx := w } := by
  induction fuel generalizing m with
  | zero => exact ⟨rfl, m.die.txSeq, m.die.replay, m.die.waitTx, rfl⟩
  | succ fuel ih =>
    unfold Mach.drainBridge
    split
    · exact ⟨rfl, m.die.txSeq, m.die.replay, m.die.waitTx, rfl⟩
    · split
      · exact ⟨rfl, m.die.txSeq, m.die.replay, m.die.waitTx, rfl⟩
      · dsimp only
        generalize hput : (m.setDie { m.die with waitTx := setAt m.die.waitTx f [] }).putBridge f _ _ _ _ = p
        obtain ⟨tx, r, w, hdie⟩ := Mach.putBridge_die (m.setDie { m.die with waitTx := setAt m.die.waitTx f [] }) f _ _ _ _
        rw [hput] at hdie
        have hmem : p.mem = m.mem := by simp [← hput]
        obtain ⟨kmem, ktx, kr, kw, kdie⟩ := ih (p.setDie { p.die with waitTx := setAt p.die.waitTx f _ })
        exact ⟨kmem.trans hmem, ktx, kr, kw, by rw [kdie, Mach.setDie_die, hdie]; rfl⟩

theorem Mach.bridgeGoes_none {m : Mach} {f : Nat} (h : nth [] m.die.waitTx f = []) : m.bridgeGoes f = m := by
  rw [Mach.bridgeGoes, h]; rfl

/-! A NAK (R98, R99). -/

/-- A NAK that is not the eighth in a row, with nothing waiting for room: what it acknowledges goes and the rest is sent again. -/
theorem Mach.bridgeNak_replays {m : Mach} {f ack n : Nat} (hopen : m.bridgeOpen = true) (hf : f < m.die.replay.length)
    (hwait : nth [] m.die.waitTx f = [])
    (hn : n = if nth 0 m.die.nakSeq f = ack ∧ nth 0 m.die.naks f > 0 then nth 0 m.die.naks f + 1 else 1) (hfew : n < 8) :
    m.bridgeNak f ack = ((m.setDie { m.die with
        naks := setAt m.die.naks f n, nakSeq := setAt m.die.nakSeq f ack
        replay := setAt m.die.replay f (acked (nth [] m.die.replay f) ack) }).setOut
      (((acked (nth [] m.die.replay f) ack).map (resent f)).reverse ++ m.out)).bump kBridgeReplays := by
  unfold Mach.bridgeNak
  have hcount : (if nth 0 m.die.nakSeq f = ack && nth 0 m.die.naks f > 0 then nth 0 m.die.naks f + 1 else 1) = n := by
    rw [hn]
    simp only [Bool.and_eq_true, decide_eq_true_eq]
  rw [if_neg (by simp [hopen])]
  dsimp only
  rw [hcount, if_neg (by omega), Mach.bridgeGoes_none, Mach.bridgeResend_eq]
  · simp only [Mach.setDie_die, nth_setAt_self [] hf]
    rfl
  · rw [Mach.bridgeResend_eq]
    simpa using hwait

/-- What is sent again, and what then finds room, leaves what the floor receives as it was. -/
theorem Mach.bridgeReplay_receives (m : Mach) (f : Nat) : (((m.bridgeResend f).bump kBridgeReplays).bridgeGoes f).mem = m.mem ∧
    (((m.bridgeResend f).bump kBridgeReplays).bridgeGoes f).die.rxSeq = m.die.rxSeq ∧
    (((m.bridgeResend f).bump kBridgeReplays).bridgeGoes f).die.rxDiscard = m.die.rxDiscard := by
  obtain ⟨hmem, tx, r, w, hdie⟩ := Mach.drainBridge_die (nth [] ((m.bridgeResend f).bump kBridgeReplays).die.waitTx f).length
    ((m.bridgeResend f).bump kBridgeReplays) f
  unfold Mach.bridgeGoes
  rw [hmem, hdie, Mach.bridgeResend_eq]
  simp

theorem Mach.bridgeNak_receives (m : Mach) (f ack : Nat) : (m.bridgeNak f ack).mem = m.mem ∧
    (m.bridgeNak f ack).die.rxSeq = m.die.rxSeq ∧ (m.bridgeNak f ack).die.rxDiscard = m.die.rxDiscard := by
  unfold Mach.bridgeNak
  generalize (if nth 0 m.die.nakSeq f = ack && nth 0 m.die.naks f > 0 then nth 0 m.die.naks f + 1 else 1) = n
  dsimp only
  split_ifs
  · exact ⟨rfl, rfl, rfl⟩
  · exact ⟨rfl, rfl, rfl⟩
  · exact Mach.bridgeReplay_receives ..

/-! A flit (R97). -/

/-- What a good flit in order leaves of the floor that receives it, before a NAK in it or what waits for room is looked at. -/
def Die.received (y : Die) (f head : Nat) : Die :=
  { y with
    rxSeq := setAt y.rxSeq f ((fld head 116 12 + 1) % 4096), rxDiscard := setAt y.rxDiscard f false
    replay := setAt y.replay f (acked (nth [] y.replay f) (fld head 104 12))
    naks := if fld head 104 12 = nth 0 y.nakSeq f then y.naks else setAt y.naks f 0 }

theorem Mach.bridgeFlit_received {m : Mach} {f head crc : Nat} {payload : Bytes} (hopen : m.bridgeOpen = true)
    (hcrc : flitCrc head payload crc = true) (hhead : headBad head = false) (hseq : fld head 116 12 = nth 0 m.die.rxSeq f) :
    m.bridgeFlit f head payload crc = if bitOf head 103 then (m.setDie (m.die.received f head)).bridgeNak f (fld head 104 12)
      else (m.setDie (m.die.received f head)).bridgeGoes f := by
  unfold Mach.bridgeFlit
  rw [if_neg (by simp [hopen]), if_neg (by simp [hcrc, hhead]), if_neg (by simp [hseq])]
  rfl

/-- Neither a NAK nor what waits for room changes what the floor has received. -/
theorem Mach.received_receives (m : Mach) (f head : Nat) :
    let r := if bitOf head 103 then (m.setDie (m.die.received f head)).bridgeNak f (fld head 104 12)
      else (m.setDie (m.die.received f head)).bridgeGoes f
    r.die.rxSeq = setAt m.die.rxSeq f ((fld head 116 12 + 1) % 4096) ∧ r.die.rxDiscard = setAt m.die.rxDiscard f false ∧
      r.mem = m.mem := by
  dsimp only
  split
  · obtain ⟨hmem, hseq, hdiscard⟩ := Mach.bridgeNak_receives (m.setDie (m.die.received f head)) f (fld head 104 12)
    exact ⟨hseq, hdiscard, hmem⟩
  · obtain ⟨hmem, tx, r, w, hdie⟩ :=
      Mach.drainBridge_die (nth [] m.die.waitTx f).length (m.setDie (m.die.received f head)) f
    exact ⟨congrArg Die.rxSeq hdie, congrArg Die.rxDiscard hdie, hmem⟩

/-! Retraining (R99, R101). -/

/-- Training that finds no new bad lane, with every lane on a good one, changes nothing. -/
theorem Mach.trainLanes_good {m : Mach} (h : ∀ d < 2, ∀ l < 64,
    shas m.die.badLanes (128 * d + sgetD l m.die.laneMap (128 * d + l)) = false) : m.trainLanes [] = m := by
  refine foldl_same (m := m) fun d hd => foldl_same fun l hl => ?_
  have hdir : d < 2 := by
    simp only [List.mem_cons, List.not_mem_nil, or_false] at hd
    omega
  exact if_pos (by simp [h d hdir l (List.mem_range.mp hl)])

/-- A direction whose good lanes allow the width it has keeps it. -/
theorem Mach.bridgeWidth_same {m : Mach} {d : Nat} (hsame : nth 0 m.die.width d = m.laneWidth d) (hruns : m.laneWidth d ≠ 0) :
    m.bridgeWidth d = m := by
  have htake : m.takeWidth d false = m := by
    unfold Mach.takeWidth
    dsimp only
    rw [if_pos (by simp [hsame]), ← hsame, setAt_nth]
    rfl
  unfold Mach.bridgeWidth
  rw [htake]
  exact if_neg (by rw [hsame]; exact hruns)

/-- A retraining that finds no new bad lane sends both replay buffers again. -/
theorem Mach.bridgeRetrained_same {m : Mach} (hretrains : m.die.retraining = true) (hup : m.die.bridgeDown = false)
    (hwidth : ∀ d < 2, nth 0 m.die.width d = m.laneWidth d ∧ m.laneWidth d ≠ 0 ∧ nth [] m.die.waitTx d = [])
    (hlanes : ∀ d < 2, ∀ l < 64, shas m.die.badLanes (128 * d + sgetD l m.die.laneMap (128 * d + l)) = false) :
    m.bridgeRetrained true [] =
      (m.setDie { m.die with retraining := false, naks := [0, 0], rxDiscard := [false, false] }).setOut
        (([0, 1].flatMap fun f => (nth [] m.die.replay f).map (resent f)).reverse ++ m.out) := by
  obtain ⟨hw0, hr0, hq0⟩ := hwidth 0 (by omega)
  obtain ⟨hw1, hr1, hq1⟩ := hwidth 1 (by omega)
  unfold Mach.bridgeRetrained
  generalize hx : m.setDie { m.die with retraining := false, naks := [0, 0], rxDiscard := [false, false] } = x
  have htrain : x.trainLanes [] = x := by subst hx; exact Mach.trainLanes_good hlanes
  have hwide0 : x.bridgeWidth 0 = x := by subst hx; exact Mach.bridgeWidth_same hw0 hr0
  have hwide1 : x.bridgeWidth 1 = x := by subst hx; exact Mach.bridgeWidth_same hw1 hr1
  have hdown : x.die.bridgeDown = false := by subst hx; exact hup
  have hwait : x.die.waitTx = m.die.waitTx := by subst hx; rfl
  have hreplay : x.die.replay = m.die.replay := by subst hx; rfl
  have hout : x.out = m.out := by subst hx; rfl
  rw [if_neg (by simp [hretrains])]
  dsimp only
  rw [if_neg (by simp), htrain, hwide0, hwide1, if_neg (by simp [hdown])]
  rw [Mach.bridgeResend_eq, Mach.bridgeResend_eq]
  simp only [Mach.setOut_die]
  rw [Mach.bridgeGoes_none (f := 0) (by simpa [hwait] using hq0), Mach.bridgeGoes_none (f := 1) (by simpa [hwait] using hq1)]
  simp [hreplay, hout]

/-! Lanes (R100). -/

/-- An event or a fault that names no context leaves the bridge, the rings and memory as they were. -/
theorem Mach.event_none_frame (m : Mach) (c k v : Nat) (u : UnitRef) (d : Nat) :
    (m.event c k v u 0 d).die = m.die ∧ (m.event c k v u 0 d).rng = m.rng := by
  rw [Mach.event_none]
  exact ⟨rfl, rfl⟩

theorem Mach.ledger_none_frame (m : Mach) (c k o : Nat) (u : UnitRef) (s i d p : Nat) :
    (m.ledger c k o u s i 0 d p).die = m.die ∧ (m.ledger c k o u s i 0 d p).rng = m.rng := by
  unfold Mach.ledger
  dsimp only
  obtain ⟨hdie, hrng⟩ := Mach.event_none_frame (Mach.driveAlert m (Mach.addHist (Mach.setFlt m _) _)) evLedger c (faultSev c) u
    ((m.flt.lseq + 1) % 2 ^ 32 * 2 ^ 32 + k * 2 ^ 16 + o * 2 ^ 8 + s)
  exact ⟨hdie.trans (by simp), hrng.trans (by simp)⟩

theorem Mach.abandonRuns_frame (m : Mach) (p : Nat → Bool) : (m.abandonRuns p).die = m.die ∧ (m.abandonRuns p).rng = m.rng := by
  have hevent : ∀ (m : Mach) (u : UnitRef), (m.marginEvent 0x06 0 u u.floor u.kind 0 0).die = m.die ∧
      (m.marginEvent 0x06 0 u u.floor u.kind 0 0).rng = m.rng := fun m u => Mach.event_none_frame m ..
  exact ⟨foldl_keeps Mach.die (fun m _ => (hevent m _).1) _ _, foldl_keeps Mach.rng (fun m _ => (hevent m _).2) _ _⟩

theorem Mach.moveLane_frame (m : Mach) (d lane old l : Nat) : (m.moveLane d lane old l).rng = m.rng ∧
    (m.moveLane d lane old l).die = { m.die with
      badLanes := sput m.die.badLanes (128 * d + old) (), laneMap := sput m.die.laneMap (128 * d + lane) l } := by
  unfold Mach.moveLane
  dsimp only
  rw [(Mach.event_none_frame ..).1, (Mach.event_none_frame ..).2, (Mach.abandonRuns_frame ..).1, (Mach.abandonRuns_frame ..).2]
  exact ⟨rfl, rfl⟩

/-- A lane blamed beyond its limit moves to the spare. -/
theorem Mach.laneSpare_moves {m : Mach} {d lane n us l : Nat} (hus : us ≤ 1000) (hn : n ≥ m.cfg kBridgeLaneErrLimit)
    (hopen : m.bridgeOpen = true) (hspare : m.spareLane d = some l) :
    m.laneSpare d lane n us = (m.moveLane d lane (sgetD lane m.die.laneMap (128 * d + lane)) l).ledger 0x02 0x04 0x03 (dieRef d) := by
  unfold Mach.laneSpare
  rw [if_neg (by simp [hopen]; omega), hspare]

/-! The sideband (R102 to R104, R113). -/

theorem Mach.alert_frame (m : Mach) (b : Nat) (on : Bool) : (m.alert b on).die = m.die ∧ (m.alert b on).clk = m.clk ∧
    (m.alert b on).rng = m.rng ∧ (m.alert b on).mem = m.mem ∧ (m.alert b on).flt = { m.flt with alert := putBit m.flt.alert b on } := by
  unfold Mach.alert
  simp

/-- An asserted cause of ALERT_N reads so. -/
theorem Mach.alert_bit (m : Mach) (b : Nat) : bitOf (m.alert b true).flt.alert b = true := by
  obtain ⟨-, -, -, -, hflt⟩ := m.alert_frame b true
  rw [hflt]
  exact bitOf_putBit_true ..

/-- A RESET message of a floor's island: the other floor declares it lost. -/
theorem Mach.sideMessage_reset {m : Mach} {f : Nat} (hf : f < 2) (hlost : m.die.lost = none) (hgone : m.floorGone 0 = false ∧ m.floorGone 1 = false)
    (hclock : nth false m.clk.loss (1 - f) = false) : (m.sideMessage f 1).view = { m.view with
      lost := some f, state := if f = 1 then 1 else 2, fenced := true, role := if f = 0 then 1 else m.fb.role
      sideMsg := setAt m.die.sideMsg f 1 } := by
  have hgo : ∀ g < 2, m.floorGone g = false := fun g hg => by
    rcases (by omega : g = 0 ∨ g = 1) with rfl | rfl
    exacts [hgone.1, hgone.2]
  unfold Mach.sideMessage
  extract_lets _ said _ heard
  have hsaid : said.view = { m.view with sideMsg := setAt m.die.sideMsg f 1 } := rfl
  have hheard : heard.view = said.view ∧ heard.die.withdrawn = m.die.withdrawn ∧ heard.clk = m.clk := by
    simp only [heard]
    split
    · obtain ⟨hdie, hclk, -⟩ := Mach.alert_frame (said.setDie { said.die with f1Stopped := false }) 4 false
      exact ⟨(Mach.alert_view ..).trans (Mach.setDie_view rfl rfl rfl rfl), (congrArg Die.withdrawn hdie :), hclk⟩
    · exact ⟨rfl, rfl, rfl⟩
  obtain ⟨hview, hstands, hclk⟩ := hheard
  have hnone : heard.die.lost = none := (congrArg DieView.lost hview).trans hlost
  have hrole : heard.fb.role = m.fb.role := congrArg DieView.role hview
  have hon : ∀ g < 2, heard.floorGone g = false := fun g hg => by
    rw [Mach.floorGone, hstands]
    exact hgo g hg
  refine (Mach.dieLost_view hnone (hon f hf) (hon (1 - f) (by omega)) (by rw [hclk]; exact hclock) 0x03 .failDie).trans ?_
  rw [hview, hsaid, hrole]

/-- Settles O40: the bridge's flits by what a flit in order, a NAK, a retraining and a blamed lane each come to, the sideband by what a
floor knows of the other once that is declared lost. -/
theorem bridgeFlitsLanesAndSideband : Obligations.BridgeFlitsLanesAndSideband := by
  unfold Obligations.BridgeFlitsLanesAndSideband
  intro h
  refine ⟨?flit, ?nak, ?retrain, ?lane, ?reset, ?silent, ?late⟩
  case flit =>
    intro f head body y hf hhead hopen hcrc hgood hseq s hs
    subst hs
    refine completes_runIf rfl (by simp only [hf, hhead, decide_true, Bool.and_self]) ?_
    rw [Mach.bridgeFlit_received hopen hcrc hgood hseq]
    obtain ⟨hseqs, hdiscards, hmem⟩ := Mach.received_receives s.hw f head
    refine ⟨hseqs, hdiscards, hmem, ?_⟩
    rintro ⟨hplain, hnone⟩
    rw [if_neg (by simp [hplain])]
    exact Mach.bridgeGoes_none (List.isEmpty_iff.mp hnone)
  case nak =>
    intro f ack n left hf hack hopen hlen hwait hn s hs
    subst hs
    refine completes_runIf rfl (by simp only [hf, hack, decide_true, Bool.and_self]) ?_
    rw [Mach.bridgeNak_replays hopen hlen hwait rfl hn]
    refine ⟨?_, ?_, ?_, ?_⟩
    · simp [n, left]
    · simp [left, resent]
    · simp
    · simp
  case retrain =>
    intro hretrains hup hwidth hlanes s hs
    subst hs
    refine completes_run (f := fun m => m.bridgeRetrained true []) rfl ?_
    rw [Mach.bridgeRetrained_same hretrains hup hwidth hlanes]
    exact ⟨rfl, rfl, rfl, rfl⟩
  case lane =>
    intro d lane n us l old hd hlane hus hn hopen hspare s hs
    subst hs
    refine completes_runIf rfl (by simp only [hd, hlane, decide_true, Bool.and_self]) ?_
    rw [Mach.laneSpare_moves hus hn hopen hspare, (Mach.ledger_none_frame ..).1, (Mach.ledger_none_frame ..).2,
      (Mach.moveLane_frame ..).1, (Mach.moveLane_frame ..).2]
    exact ⟨rfl, rfl, rfl, rfl⟩
  case reset =>
    intro f hf hlost hgone hclock s hs
    subst hs
    refine completes_runIf rfl (by simp only [hf]; rfl) ?_
    have hview := Mach.sideMessage_reset hf hlost hgone hclock
    exact ⟨congrArg DieView.lost hview, congrArg DieView.state hview, congrArg DieView.fenced hview, congrArg DieView.sideMsg hview⟩
  case silent =>
    intro us hus hlost s hs
    subst hs
    refine completes_run (f := fun m => m.sideSilent us) rfl ?_
    have hasserts : s.hw.sideSilent us =
        (s.hw.setDie { s.hw.die with sideMsg := setAt s.hw.die.sideMsg 0 5, f1Stopped := true }).alert 4 true :=
      if_neg (by simp [hlost]; omega)
    obtain ⟨hdie, -, hrng, hmem, -⟩ := Mach.alert_frame
      (s.hw.setDie { s.hw.die with sideMsg := setAt s.hw.die.sideMsg 0 5, f1Stopped := true }) 4 true
    rw [hasserts]
    exact ⟨hdie, Mach.alert_bit .., hrng, hmem⟩
  case late =>
    intro ms hlost hms s hs
    subst hs
    refine completes_run (f := fun m => m.f0Late ms) rfl ?_
    have hasserts : s.hw.f0Late ms = s.hw.alert 5 true := if_pos (by simp [hlost, hms])
    obtain ⟨hdie, -, hrng, hmem, -⟩ := Mach.alert_frame s.hw 5 true
    rw [hasserts]
    exact ⟨Mach.alert_bit .., hdie, hrng, hmem⟩

end Sys2Proof.Machine
end

section
/-! PROOFS. What the end of an item leaves of the units' places and of the other items. -/
namespace Sys2Proof.Machine

/-- Where the units in force stand, and the items that are accepted. -/
def Mach.places (m : Mach) : CadBank × List Item := (m.cad.cur, m.rng.items)

@[simp] theorem Mach.setFb_places (m : Mach) (x : Fb) : (m.setFb x).places = m.places := rfl
@[simp] theorem Mach.setFlt_places (m : Mach) (x : Flt) : (m.setFlt x).places = m.places := rfl
@[simp] theorem Mach.setSwp_places (m : Mach) (x : Swp) : (m.setSwp x).places = m.places := rfl
@[simp] theorem Mach.setTrv_places (m : Mach) (x : Travs) : (m.setTrv x).places = m.places := rfl
@[simp] theorem Mach.setHp_places (m : Mach) (x : Hps) : (m.setHp x).places = m.places := rfl
@[simp] theorem Mach.emit_places (m : Mach) (e : Emit) : (m.emit e).places = m.places := rfl
@[simp] theorem Mach.setCoreAt_places (m : Mach) (c : Nat) (x : Core) : (m.setCoreAt c x).places = m.places := rfl

@[simp] theorem Mach.setRng_places {m : Mach} {x : Rings} (h : x.items = m.rng.items) : (m.setRng x).places = m.places := by
  simp only [Mach.places, Mach.setRng_rng, h]; rfl

@[simp] theorem Mach.setCad_places {m : Mach} {x : Cad} (h : x.cur = m.cad.cur) : (m.setCad x).places = m.places := by
  simp only [Mach.places, Mach.setCad_cad, h]; rfl

@[simp] theorem Mach.ite_places (c : Prop) [Decidable c] (a b : Mach) :
    (if c then a else b).places = if c then a.places else b.places := apply_ite Mach.places c a b

@[simp] theorem Mach.foldl_places {α : Type} {f : Mach → α → Mach} (h : ∀ m x, (f m x).places = m.places) (l : List α) (m : Mach) :
    (l.foldl f m).places = m.places := by
  induction l generalizing m with
  | nil => rfl
  | cons x r ih => exact (ih _).trans (h m x)

theorem Mach.places_eq {a b : Mach} (hcad : a.cad = b.cad) (hrng : a.rng = b.rng) : a.places = b.places := by
  rw [Mach.places, hcad, hrng]; rfl

theorem Mach.sameButMem.places_eq {a b : Mach} (h : a.sameButMem b) : a.places = b.places := by
  obtain ⟨⟨-, -, hrng, hcad, -⟩, -⟩ := h
  exact Mach.places_eq hcad hrng

@[simp] theorem Mach.bump_places (m : Mach) (k n : Nat) : (m.bump k n).places = m.places := rfl

@[simp] theorem Mach.unhold_places (m : Mach) (p : Holding → Bool) : (m.unhold p).places = m.places := rfl

@[simp] theorem Mach.unholdFirst_places (m : Mach) (p : Holding → Bool) : (m.unholdFirst p).places = m.places :=
  Mach.places_eq (by simp) (by simp)

@[simp] theorem Mach.event_places (m : Mach) (c k v : Nat) (u : UnitRef) (x d : Nat) : (m.event c k v u x d).places = m.places := by
  have h := m.event_frame c k v u x d
  simp only [Mach.places, h]

@[simp] theorem Mach.ledger_places (m : Mach) (c k o : Nat) (u : UnitRef) (s i x d p : Nat) :
    (m.ledger c k o u s i x d p).places = m.places := by
  have h := m.ledger_frame c k o u s i x d p
  simp only [Mach.places, h]

@[simp] theorem Mach.recordWrite_places (m : Mach) (e fl c va : Nat) (d : Bytes) : (m.recordWrite e fl c va d).1.places = m.places := by
  obtain ⟨ctr, tc, h⟩ := m.recordWrite_frame e fl c va d
  exact h.places_eq

@[simp] theorem Mach.sendFlit_places (m : Mach) (t b op : Nat) (f : List Nat) (d : Bytes) : (m.sendFlit t b op f d).places = m.places :=
  Mach.places_eq (by simp) (by simp)

@[simp] theorem Mach.sendFrame_places (m : Mach) (p vc st : Nat) (d : Bytes) : (m.sendFrame p vc st d).places = m.places :=
  Mach.places_eq (by simp) (by simp)

@[simp] theorem Mach.sendMsg_places (m : Mach) (p ty : Nat) (b : List Nat) : (m.sendMsg p ty b).places = m.places :=
  Mach.places_eq (by simp) (by simp)

@[simp] theorem Mach.sendVc2_places (m : Mach) (dest chan req st : Nat) (content : Bytes) :
    (m.sendVc2 dest chan req st content).places = m.places := by
  have hforward : ∀ (m : Mach) (tag : Nat) (b : Bytes), (m.forwardVc2 none tag b).places = m.places := fun m tag b => by
    simp [Mach.forwardVc2]
  simp [Mach.sendVc2, hforward]

@[simp] theorem Mach.notice_places (m : Mach) (r : Ring) : (m.notice r).places = m.places := by
  unfold Mach.notice
  split
  · split <;> simp
  · simp [Mach.coreNotice]
  · simp [Mach.hpNotice]
  · rfl

@[simp] theorem Mach.answer_places (m : Mach) (r seq kind user epoch : Nat) (notify : Bool) (st : Status) (unit : UnitRef)
    (flags result : Nat) : (m.answer r seq kind user epoch notify st unit flags result).places = m.places := by
  have hring : ∀ (m : Mach) (r : Nat) (x : Ring), (m.setRing r x).places = m.places := fun _ _ _ => rfl
  have hnow : (m.answerNow r seq kind user epoch notify st unit flags result).places = m.places := by
    unfold Mach.answerNow
    split
    · rfl
    · dsimp only
      split <;> simp [hring]
  unfold Mach.answer
  split
  · rfl
  · simp [hnow]

@[simp] theorem Mach.retireEpoch_places (m : Mach) : m.retireEpoch.places = m.places := by
  unfold Mach.retireEpoch
  split <;> simp

@[simp] theorem Mach.dropTraverse_places (m : Mach) (k ctx : Nat) (st : Status) : (m.dropTraverse k ctx st).places = m.places := by
  unfold Mach.dropTraverse
  split <;> simp

@[simp] theorem Mach.dropSweep_places (m : Mach) (k : Nat) (st : Status) : (m.dropSweep k st).places = m.places := by
  have hrun : ∀ (m : Mach) (k : Nat), (m.runOver k).places = m.places := fun m k => by
    unfold Mach.runOver
    split <;> simp [Mach.setSessions]
  exact (hrun _ k).trans ((Mach.foldl_places (fun _ _ => by rfl) _ _).trans rfl)

@[simp] theorem Mach.dropHanded_places (m : Mach) (k : Nat) : (m.dropHanded k).places = m.places := by
  unfold Mach.dropHanded
  split <;> simp

@[simp] theorem Mach.countItem_places (m : Mach) (i : Item) : (m.countItem i).places = m.places := by
  simp [Mach.countItem]

/-- An item that ends takes itself from the items, and no unit from its place. -/
theorem Mach.finish_places (m : Mach) (k : Nat) (st : Status) (unit : UnitRef) (flags result : Nat) :
    (m.finish k st unit flags result).places = (m.cad.cur, m.rng.items.filter fun j => j.key ≠ k) := by
  unfold Mach.finish
  split
  case h_1 hnone =>
    have hall : m.rng.items.filter (fun j => j.key ≠ k) = m.rng.items :=
      List.filter_eq_self.mpr fun j hj => by simpa using List.find?_eq_none.mp hnone j hj
    rw [hall]
    rfl
  case h_2 i _ =>
    have hends : ∀ x : Mach, x.places = (m.cad.cur, m.rng.items.filter fun j => j.key ≠ k) →
        (if (m.endCause k ⟨st, unit⟩).st.isFail then x.spoil i else x).places =
          (m.cad.cur, m.rng.items.filter fun j => j.key ≠ k) := fun x hx => by
      split
      · rw [(x.spoil_frame i).1.places_eq, hx]
      · exact hx
    dsimp only
    rw [Mach.retireEpoch_places, Mach.answer_places, Mach.countItem_places, Mach.dropHanded_places, Mach.dropSweep_places,
      Mach.dropTraverse_places]
    exact hends _ rfl

/-- Items that end together leave the units where they stand, and are items no longer. -/
theorem Mach.finishAll_places (m : Mach) (ks : List Nat) (st : Status) (unit : UnitRef) :
    (m.finishAll ks st unit).cad.cur = m.cad.cur ∧
    ∀ j ∈ (m.finishAll ks st unit).rng.items, j ∈ m.rng.items ∧ j.key ∉ ks := by
  induction ks generalizing m with
  | nil => exact ⟨rfl, fun j hj => ⟨hj, List.not_mem_nil⟩⟩
  | cons k r ih =>
    obtain ⟨hcur, hitems⟩ := ih (m.finish k st unit)
    have hplaces := m.finish_places k st unit 0 0
    have hrest : (m.finish k st unit).rng.items = m.rng.items.filter fun j => j.key ≠ k := congrArg Prod.snd hplaces
    refine ⟨hcur.trans (congrArg Prod.fst hplaces), fun j hj => ?_⟩
    obtain ⟨hmem, hout⟩ := hitems j hj
    rw [hrest, List.mem_filter] at hmem
    simp only [ne_eq, decide_eq_true_eq] at hmem
    exact ⟨hmem.1, fun h => (List.mem_cons.mp h).elim hmem.2 hout⟩

theorem Mach.item?_finishAll {m : Mach} {ks : List Nat} {k : Nat} (hk : k ∈ ks) (st : Status) (unit : UnitRef) :
    (m.finishAll ks st unit).item? k = none :=
  List.find?_eq_none.mpr fun j hj hkey => ((m.finishAll_places ks st unit).2 j hj).2 (by rwa [of_decide_eq_true hkey])

end Sys2Proof.Machine
end

section
/-! PROOFS. Moves of units, and the survey's starts and sources (R611, R619 to R622, R635 to R637, R685). -/
namespace Sys2Proof.Machine

/-! Where nothing waits. -/

theorem Mach.serveAll_idle {m : Mach} (hwait : m.grid.wait = []) (hrel : m.grid.relWait = []) (hrec : m.rng.recWait = []) :
    m.serveAll = m := by
  unfold Mach.serveAll
  rw [hwait]
  exact Mach.relSettle_idle hrel hrec

/-- What `calm` says of the queues. -/
theorem Mach.calm_queues {m : Mach} (h : m.calm = true) : m.grid.wait = [] ∧ m.grid.relWait = [] ∧ m.rng.recWait = [] := by
  simp only [Mach.calm, Bool.and_eq_true, List.isEmpty_iff] at h
  obtain ⟨⟨⟨⟨⟨-, hwait⟩, hrel⟩, hrec⟩, -⟩, -⟩ := h
  exact ⟨hwait, hrel, hrec⟩

/-! Moves (R635 to R637). -/

/-- A fault's record and an event that names no context leave the units and the items as they were. -/
theorem Mach.ledger_units (m : Mach) (c k o : Nat) (u : UnitRef) (s i x d p : Nat) :
    (m.ledger c k o u s i x d p).cad = m.cad ∧ (m.ledger c k o u s i x d p).rng.items = m.rng.items := by
  have h := m.ledger_frame c k o u s i x d p
  simp only [h, and_self]

/-- The move of a slice or channel to its spare while it can still serve, with no other copying (Table 19.9 step 1). -/
theorem Mach.moveUnit_starts {m : Mach} {u : UnitRef} {i : Nat} (hspare : m.spareFor u = some i) (hplace : m.cad.cur.physOf u ≠ 0xFF)
    (hkind : u.kind = 4) (hmoving : m.moving u.floor = false) (st : Nat) : m.moveUnit u st true =
      (m.setPhys u.kind u.parent i 4).setCad { (m.setPhys u.kind u.parent i 4).cad with moves := m.cad.moves ++
        [{ unit := u, from_ := m.cad.cur.physOf u, spare := i, stage := 1, final := st }] } := by
  have hruns : m.spareRuns u.kind u.parent i = m := by simp [Mach.spareRuns, hkind]
  have hcopies : u.copies = true := by simp [UnitRef.copies, hkind]
  unfold Mach.moveUnit
  simp only [hspare, hruns]
  rw [if_neg hplace, if_neg (by simp [hmoving])]
  simp only [if_true, hcopies]
  rfl

/-- A slice that meets condition 03 of Table 21.2 with a spare free and nothing copying starts its move. -/
theorem Mach.unitFail_moves {m : Mach} {sl i : Nat} (hfree : m.cad.moves.any (fun x => x.unit = ⟨4, sl⟩) = false ∧
      m.cad.queued.any (fun q => q.1 = ⟨4, sl⟩) = false) (hplace : m.cad.cur.physOf ⟨4, sl⟩ ≠ 0xFF)
    (hspare : m.spareFor ⟨4, sl⟩ = some i) :
    ∃ o : Nat, m.unitFail ⟨4, sl⟩ 3 true false =
      (m.moveUnit ⟨4, sl⟩ 2 true).ledger 0x04 3 o ⟨4, sl⟩ 0 0 0 0 (m.cad.cur.physOf ⟨4, sl⟩) := by
  refine ⟨m.moveOutcome ⟨4, sl⟩, ?_⟩
  unfold Mach.unitFail Mach.arrayFails
  simp [hfree, Mach.unitMeets, hplace, hspare, Mach.unitFails]

theorem Mach.reloadChan_frame (m : Mach) (c : Nat) : (m.reloadChan c).cad = m.cad ∧ (m.reloadChan c).rng = m.rng := by
  have hload : ∀ (m : Mach) (x : Standing), (m.loadStanding c x).cad = m.cad ∧ (m.loadStanding c x).rng = m.rng := fun m x => by
    unfold Mach.loadStanding
    dsimp only
    split <;> simp
  unfold Mach.reloadChan
  dsimp only
  refine ⟨(foldl_keeps Mach.cad (fun m x => (hload m x).1) _ _).trans ?_, (foldl_keeps Mach.rng (fun m x => (hload m x).2) _ _).trans ?_⟩
  · simp
  · simp

theorem Mach.clearRetired_frame (m : Mach) (u : UnitRef) : (m.clearRetired u).cad = m.cad ∧ (m.clearRetired u).rng = m.rng := by
  have hadd : ∀ (m : Mach) (x : Standing), (if m.flt.standing.contains x then m else m.addStanding x).cad = m.cad ∧
      (if m.flt.standing.contains x then m else m.addStanding x).rng = m.rng := fun m x => by
    split <;> exact ⟨rfl, rfl⟩
  unfold Mach.clearRetired
  split
  · exact ⟨rfl, rfl⟩
  · exact ⟨(Mach.reloadChan_frame ..).1.trans (foldl_keeps Mach.cad (fun m _ => (hadd m _).1) _ _),
      (Mach.reloadChan_frame ..).2.trans (foldl_keeps Mach.rng (fun m _ => (hadd m _).2) _ _)⟩

/-- The old unit of a move whose last epoch has retired leaves service (Table 19.9 step 5). -/
theorem Mach.moveRetire_leaves {m : Mach} {x : Move} (hstage : x.stage = 3) (hold : m.fb.old.any (fun o => o.1 = x.until_) = false) :
    (m.moveRetire x).cad = { m.cad with
      moves := m.cad.moves.filter (· ≠ x), units := sput m.cad.units (physKey x.unit.kind x.unit.parent x.from_) x.final } ∧
    (m.moveRetire x).rng.items = m.rng.items := by
  unfold Mach.moveRetire
  rw [if_pos (by simp [hstage, hold])]
  unfold Mach.spareTaken
  rw [Mach.event_none]
  simp only [Mach.setFb_cad, Mach.setFb_rng, Mach.bump_frame, Mach.clearRetired_frame]
  exact ⟨rfl, rfl⟩

/-- A queued slice starts its move when nothing copies. -/
theorem Mach.startQueued_starts {m : Mach} {f st : Nat} {u : UnitRef} (hqueued : m.cad.queued = [(u, st)]) (hkind : u.kind = 4)
    (hfloor : u.floor = f) (hmoving : m.moving f = false) (hserves : m.physState 4 u.parent (m.cad.cur.physOf u) ≠ 2) :
    m.startQueued f = (m.setCad { m.cad with queued := [] }).moveUnit u st true := by
  unfold Mach.startQueued
  simp [hqueued, hfloor, hmoving, hkind, hserves]

/-! A unit that is withdrawn. -/

theorem mem_insertItem {i j : Item} {l : List Item} : j ∈ insertItem i l ↔ j = i ∨ j ∈ l := by
  induction l with
  | nil => simp [insertItem]
  | cons x r ih =>
    unfold insertItem
    split
    · simp
    · simp only [List.mem_cons, ih]
      tauto

theorem mem_sortItems {j : Item} {l : List Item} : j ∈ sortItems l ↔ j ∈ l := by
  induction l with
  | nil => rfl
  | cons x r ih => rw [List.mem_cons, ← ih]; exact mem_insertItem

/-- With no spare a unit is withdrawn from every bank, and nothing of what waits changes. -/
theorem Mach.moveUnit_withdraws {m : Mach} {u : UnitRef} (hspare : m.spareFor u = none) (st : Nat) (serves : Bool) :
    (m.moveUnit u st serves).cad.cur = m.cad.cur.drop u ∧ (m.moveUnit u st serves).rng = m.rng ∧
    (m.moveUnit u st serves).grid = m.grid := by
  have hends : ∀ x : Mach, x.cad.cur = m.cad.cur ∧ x.rng = m.rng ∧ x.grid = m.grid →
      let w := (x.eachBank fun b => b.drop u).event evRemap 0x02 3 u 0 (m.cad.cur.physOf u * 2 ^ 56)
      w.cad.cur = m.cad.cur.drop u ∧ w.rng = m.rng ∧ w.grid = m.grid := by
    rintro x ⟨hcur, hrng, hgrid⟩
    dsimp only
    rw [Mach.event_none]
    exact ⟨congrArg (CadBank.drop · u) hcur, hrng, hgrid⟩
  unfold Mach.moveUnit
  rw [hspare]
  refine hends _ ?_
  split <;> exact ⟨rfl, rfl, rfl⟩

theorem Mach.ledger_none_queues (m : Mach) (c k o : Nat) (u : UnitRef) (s i d p : Nat) :
    (m.ledger c k o u s i 0 d p).rng = m.rng ∧ (m.ledger c k o u s i 0 d p).grid = m.grid := by
  unfold Mach.ledger
  dsimp only
  rw [Mach.event_none]
  exact ⟨by simp, by simp⟩

/-- A slice that meets condition 03 of Table 21.2 with no spare to take is withdrawn, and every item that needs it ends. -/
theorem Mach.unitFail_withdraws {m : Mach} {sl : Nat} (hfree : m.cad.moves.any (fun x => x.unit = ⟨4, sl⟩) = false ∧
      m.cad.queued.any (fun q => q.1 = ⟨4, sl⟩) = false) (hplace : m.cad.cur.physOf ⟨4, sl⟩ ≠ 0xFF)
    (hspare : m.spareFor ⟨4, sl⟩ = none) (hcalm : m.calm = true) :
    (m.unitFail ⟨4, sl⟩ 3 true false).cad.cur = m.cad.cur.drop ⟨4, sl⟩ ∧
    ∀ i ∈ m.rng.items, m.needsUnit i ⟨4, sl⟩ = true → (m.unitFail ⟨4, sl⟩ 3 true false).item? i.key = none := by
  obtain ⟨hwait, hrel, hrec⟩ := Mach.calm_queues hcalm
  obtain ⟨hcur, hrng, hgrid⟩ := Mach.moveUnit_withdraws hspare 2 true
  have hfails : ∃ (o st n : Nat), m.unitFail ⟨4, sl⟩ 3 true false =
      ((m.moveUnit ⟨4, sl⟩ 2 true).ledger 0x04 3 o ⟨4, sl⟩ st n 0 0 (m.cad.cur.physOf ⟨4, sl⟩)).serveAll.finishAll
        (((sortItems m.rng.items).filter fun i => m.needsUnit i ⟨4, sl⟩).map Item.key) .failUnit ⟨4, sl⟩ := by
    refine ⟨m.moveOutcome ⟨4, sl⟩, if !((sortItems m.rng.items).filter fun i => m.needsUnit i ⟨4, sl⟩).isEmpty then Status.failUnit.code
      else 0, ((sortItems m.rng.items).filter fun i => m.needsUnit i ⟨4, sl⟩).length, ?_⟩
    unfold Mach.unitFail Mach.arrayFails
    simp [hfree, Mach.unitMeets, hplace, hspare, Mach.unitFails]
  obtain ⟨o, st, n, heq⟩ := hfails
  obtain ⟨krng, kgrid⟩ := Mach.ledger_none_queues (m.moveUnit ⟨4, sl⟩ 2 true) 0x04 3 o ⟨4, sl⟩ st n 0 (m.cad.cur.physOf ⟨4, sl⟩)
  rw [heq, Mach.serveAll_idle (by rw [kgrid, hgrid, hwait]) (by rw [kgrid, hgrid, hrel]) (by rw [krng, hrng, hrec])]
  refine ⟨?_, fun i hi hneeds => Mach.item?_finishAll ?_ ..⟩
  · rw [(Mach.finishAll_places ..).1, (Mach.ledger_units ..).1, hcur]
  · exact List.mem_map_of_mem (List.mem_filter.mpr ⟨mem_sortItems.mpr hi, hneeds⟩)

/-- The copy of a moving slice ends, and its move awaits the flip. -/
theorem Mach.moveDone_idle {m : Mach} (hcalm : m.calm = true) (hlive : m.trv.live = []) (u : UnitRef) :
    m.moveDone u = m.copyDone u := by
  obtain ⟨hwait, hrel, hrec⟩ := Mach.calm_queues hcalm
  unfold Mach.moveDone
  rw [Mach.serveAll_idle (m := m.copyDone u) hwait hrel hrec, Mach.resumeAtomics, show (m.copyDone u).trv.live = [] from hlive]
  rfl

/-! The survey's sources and steps (R611, R619 to R621). -/

theorem Mach.nextSource_untried {m : Mach} {s : Nat} (h : m.nextSource = some s) : bitOf m.cad.tried s = false := by
  have hs := List.find?_some h
  simp only [Bool.and_eq_true, Bool.not_eq_true'] at hs
  exact hs.2

/-- A source that is silent for its limit is passed over. -/
theorem Mach.sourceLate_passes {m : Mach} {ms : Nat} (hsource : m.cad.source = some 2) (hstep : m.cad.step = 4)
    (hruns : m.cad.halted = false) (hms : ms ≥ m.cfg kFwSourceTimeout) :
    (m.sourceLate ms).cad.step = 4 ∧ bitOf (m.sourceLate ms).cad.tried 2 = true ∧ (m.sourceLate ms).cad.source ≠ some 2 ∧
    (m.sourceLate ms).out = m.out := by
  have hfails : m.sourceLate ms = m.sourceFails 2 [] := by
    unfold Mach.sourceLate
    rw [hsource]
    exact if_pos (by simp [hstep, hruns, hms])
  have htried : bitOf (m.sourceTried 2 [] .failUnit).cad.tried 2 = true := bitOf_putBit_true ..
  rw [hfails]
  refine ⟨hstep, htried, fun hnext => ?_, rfl⟩
  rw [Mach.nextSource_untried (m := m.sourceTried 2 [] .failUnit) hnext] at htried
  exact absurd htried (by simp)

/-- With no image accepted every source is tried again, the strapped one first. -/
theorem Mach.sourcesAgain_flash {m : Mach} {ms : Nat} (hsource : m.cad.source = none) (hstep : m.cad.step = 4)
    (hruns : m.cad.halted = false) (hfirst : m.cad.firstSource = none) (hboot : m.cad.bootsrc = 0) (hms : ms ≥ 10000) :
    (m.sourcesAgain ms).cad.source = some 0 ∧ (m.sourcesAgain ms).cad.tried = 0 ∧ (m.sourcesAgain ms).cad.step = 4 ∧
    (m.sourcesAgain ms).mem = m.mem := by
  have hcad : ((m.setCad { m.cad with tried := 0 }).alert 0 true).cad = { m.cad with tried := 0 } := by simp [Mach.alert]
  have hnext : ((m.setCad { m.cad with tried := 0 }).alert 0 true).nextSource = some 0 := by
    unfold Mach.nextSource
    rw [hcad]
    simp only [hfirst, hboot, Option.getD_none]
    rfl
  unfold Mach.sourcesAgain
  rw [if_pos (by simp [hstep, hruns, hsource, hms])]
  dsimp only
  rw [hnext]
  refine ⟨rfl, ?_, ?_, ?_⟩
  · exact congrArg Cad.tried hcad
  · exact (congrArg Cad.step hcad).trans hstep
  · simp [Mach.alert]

/-- Step 11 on the warm path has nothing to test: the next begins (R611). -/
theorem Mach.stepEnd_warm {m : Mach} (hstep : m.cad.step = 11) (hwarm : m.cad.warm = true) (hruns : m.cad.halted = false)
    (hclosure : m.pwr.closure = none) (hon : m.pwr.off = false) (hreset : m.pwr.reset = none) (hclock : m.clk.state = 0)
    (z : Fuses) (g : Found) (total : Nat) :
    ∃ path skip : Nat, m.stepEnd z g total =
      ((m.surveyLog 0x02 {} g.us 0 path).setCad { (m.surveyLog 0x02 {} g.us 0 path).cad with step := 12, stepAt := m.clk.us }).surveyLog
        0x01 {} 0 0 skip := by
  have hwork : m.stepWork z g = (m, true) := by
    unfold Mach.stepWork
    simp [hstep, hwarm]
  unfold Mach.stepEnd
  rw [if_neg (by simp [hruns, hclosure, hon, hreset, hclock, hstep])]
  simp only [hwork]
  rw [show (m.surveyLog 0x02 {} g.us 0 m.pathCode).cad.step = 11 from hstep, if_neg (by simp), if_neg (by omega)]
  exact ⟨_, _, rfl⟩

end Sys2Proof.Machine
end

section
/-! PROOFS. A survey that a pin starts, and the end of the closure before one (R610, R611, R685). -/
namespace Sys2Proof.Machine

/-! The closure before a reset (R594, R685). -/

@[simp] theorem Mach.zoneEvent_kept (m : Mach) (p kind zone step cap st : Nat) : (m.zoneEvent p kind zone step cap st).kept = m.kept := by
  simp [Mach.zoneEvent]

@[simp] theorem Mach.portStops_kept (m : Mach) (p cause : Nat) : (m.portStops p cause).kept = m.kept := by
  unfold Mach.portStops
  dsimp only
  repeat' split
  all_goals simp

@[simp] theorem Mach.fenceStation_kept (m : Mach) (st : Nat) (quiet : Bool) : (m.fenceStation st quiet).kept = m.kept := by
  simp [Mach.fenceStation]

@[simp] theorem Mach.portDown_kept (m : Mach) (p cause : Nat) (st : Status) (quiet : Bool) :
    (m.portDown p cause st quiet).kept = m.kept := by
  unfold Mach.portDown
  dsimp only
  repeat' split
  all_goals simp

theorem Mach.dropSession_pwr (m : Mach) (n : Nat) : (m.dropSession n).pwr = m.pwr := by
  have hdraft : ∀ (x : Mach) (rq : Rq) (code : Nat), (x.draftOf rq code).pwr = x.pwr := fun x rq code => by
    have hevent : ∀ (y : Mach) c k v u c' d, (y.event c k v u c' d).pwr = y.pwr := fun y c k v u c' d => by
      simp only [y.event_frame c k v u c' d]
    unfold Mach.draftOf Mach.discardDraft
    split
    · split
      · split
        · rfl
        · split
          · rfl
          · exact hevent ..
      · rfl
    · rfl
  exact hdraft ..

theorem Mach.dropSessionsOn_pwr (m : Mach) (p : Nat) : (m.dropSessionsOn p).pwr = m.pwr :=
  foldl_keeps Mach.pwr (fun m n => m.dropSession_pwr n) _ m

/-- The end of the closure before a reset is recorded, and the closure, the pins and the reset's cause stay as they are. -/
theorem Mach.closureStops_frame (m : Mach) (us : Nat) : (m.closureStops us).pwr = m.pwr ∧
    (m.closureStops us).cad.closureRec = some us := by
  refine ⟨?_, rfl⟩
  unfold Mach.closureStops
  simp only [Mach.setCount_frame, Mach.flushHist, Mach.setStk_pwr, Mach.setCad_pwr, Mach.setFlt_pwr, Mach.setSite_pwr, Mach.setHp_pwr,
    Mach.setDie_pwr, Mach.dropSessionsOn_pwr]
  refine foldl_keeps Mach.pwr (fun m p => ?_) _ m
  split
  · exact congrArg Kept.pwr (Mach.portDown_kept ..)
  · rfl

/-- With WRST_N low the closure's end waits for the pin (R685). -/
theorem Mach.resetHolds_waits {m : Mach} (hby : m.pwr.closure.map (·.by_) = some 4) (hlow : m.pwr.wrstLow = true) (us : Nat)
    (flash : List Nat) : (m.resetHolds us).maybeSurvey flash =
      (m.closureStops us).setPwr { m.pwr with closure := none, reset := some 4 } := by
  obtain ⟨c, hclosure, hfour⟩ := Option.map_eq_some_iff.mp hby
  have hholds : m.resetHolds us = (m.closureStops us).setPwr { m.pwr with closure := none, reset := some 4 } := by
    unfold Mach.resetHolds
    rw [hclosure]
    simp only [hfour, (m.closureStops_frame us).1]
    rfl
  rw [hholds]
  exact if_pos (by simp [hlow])

/-! A survey begins (R610, R611, R613). -/

/-- A survey has begun at step 01: nothing is left of what was live, and the straps and pins read as before. -/
def Mach.begun (m : Mach) (boot : Nat) : Prop :=
  m.cad.step = 1 ∧ m.rng.items = [] ∧ m.fb.epoch = 0 ∧ m.fb.sessions = [] ∧ m.cad.bootsrc = boot ∧ m.pwr.wrstLow = false

theorem Mach.begun.setGrid {m : Mach} {b : Nat} (h : m.begun b) (g : Grid) : (m.setGrid g).begun b := h

theorem Mach.begun.bump {m : Mach} {b : Nat} (h : m.begun b) (k n : Nat) : (m.bump k n).begun b := h

theorem Mach.begun.surveyLog {m : Mach} {b : Nat} (h : m.begun b) (ty : Nat) (u : UnitRef) (d st path phys n : Nat) :
    (m.surveyLog ty u d st path phys n).begun b := h

theorem Mach.begun.alert {m : Mach} {b : Nat} (h : m.begun b) (i : Nat) (on : Bool) : (m.alert i on).begun b := by
  unfold Mach.alert
  simpa [Mach.begun] using h

theorem Mach.begun.endReq {m : Mach} {b : Nat} (h : m.begun b) (r : KeyReq) (st : Status) : (m.endReq r st true).begun b := by
  have hevent : ∀ x : Mach, x.begun b → ∀ c k v u c' d, (x.event c k v u c' d).begun b := by
    rintro x ⟨hstep, hitems, hepoch, hsessions, hboot, hlow⟩ c k v u c' d
    have hframe := x.event_frame c k v u c' d
    have hnone : (x.event c k v u c' d).fb.sessions = [] := by
      unfold Mach.event
      refine (congrArg Fb.sessions (Mach.eventToArea_frame _ _).1 :).trans ?_
      simp [hsessions, smap]
    refine ⟨?_, ?_, ?_, hnone, ?_, ?_⟩
    · simpa only [hframe] using hstep
    · simpa only [hframe] using hitems
    · simpa using hepoch
    · simpa only [hframe] using hboot
    · simpa only [hframe] using hlow
  change (Mach.bump (Mach.event (m.setSec { m.sec with reqs := m.sec.reqs.filter (· ≠ r) }) evSecurity 0x05 1 ⟨0x0B, r.ctx⟩ r.ctx _)
    kKeyReleaseFails).begun b
  exact hevent (m.setSec { m.sec with reqs := m.sec.reqs.filter (· ≠ r) }) h ..

/-- What a survey starts from keeps the straps and the pins. -/
theorem Mach.settleMoves_frame (m : Mach) (p : UnitRef → Bool) : (m.settleMoves p).cad.bootsrc = m.cad.bootsrc ∧
    (m.settleMoves p).pwr = m.pwr := by
  have hmoves : ∀ (l : List Move) (m : Mach), let n := l.foldl (fun m x =>
      let m := m.endPhys x.unit x.from_ x.final
      if x.stage ≤ 2 then m.setPhys x.unit.kind x.unit.parent x.spare 1 else m) m
      n.cad.bootsrc = m.cad.bootsrc ∧ n.pwr = m.pwr := fun l m =>
    ⟨foldl_keeps (fun m : Mach => m.cad.bootsrc) (fun m x => by dsimp only; split <;> rfl) l m,
      foldl_keeps Mach.pwr (fun m x => by dsimp only; split <;> rfl) l m⟩
  have hqueued : ∀ (l : List (UnitRef × Nat)) (m : Mach), let n := l.foldl (fun m q => m.endPhys q.1 (m.cad.cur.physOf q.1) q.2) m
      n.cad.bootsrc = m.cad.bootsrc ∧ n.pwr = m.pwr := fun l m =>
    ⟨foldl_keeps (fun m : Mach => m.cad.bootsrc) (fun m q => by rfl) l m, foldl_keeps Mach.pwr (fun m q => by rfl) l m⟩
  exact ⟨(hqueued _ _).1.trans (hmoves _ _).1, (hqueued _ _).2.trans (hmoves _ _).2⟩

theorem Mach.takeBack_frame (m : Mach) : m.takeBack.cad.bootsrc = m.cad.bootsrc ∧ m.takeBack.pwr = m.pwr := by
  unfold Mach.takeBack
  split <;> exact ⟨rfl, rfl⟩

/-- What is kept over a survey's start leaves nothing live. -/
theorem Mach.reborn_begun {m : Mach} {b : Nat} (hboot : m.cad.bootsrc = b) (hlow : m.pwr.wrstLow = false) (cold : Bool) :
    (m.reborn cold).begun b := ⟨rfl, rfl, rfl, rfl, hboot, hlow⟩

theorem Mach.beginSurvey_begun {m : Mach} (hlow : m.pwr.wrstLow = false) (by_ : Nat) (flash : List Nat) :
    (m.beginSurvey by_ flash).begun m.cad.bootsrc := by
  obtain ⟨hboot, hpwr⟩ := m.takeBack.settleMoves_frame fun _ => true
  obtain ⟨kboot, kpwr⟩ := m.takeBack_frame
  have hreqs : ∀ (l : List KeyReq) (x : Mach), x.begun m.cad.bootsrc →
      (l.foldl (fun m r => m.endReq r .done true) x).begun m.cad.bootsrc := by
    intro l
    induction l with
    | nil => exact fun _ h => h
    | cons r l ih => exact fun x h => ih _ (h.endReq r .done)
  have hlow' : m.takeBack.settleMoves.pwr.wrstLow = false := by rw [hpwr, kpwr, hlow]
  have hshort : ∀ (x : Mach) (c : Prop) [Decidable c] (n : Nat), x.begun m.cad.bootsrc →
      (if c then x.surveyLog 0x0B {} n else x).begun m.cad.bootsrc := fun x c _ n h => by
    split
    · exact h.surveyLog ..
    · exact h
  unfold Mach.beginSurvey
  refine hreqs _ _ (.setGrid (hshort _ _ _ (.surveyLog (.alert (.bump ?_ ..) ..) ..)) _)
  apply Mach.reborn_begun
  · exact hboot.trans kboot
  · exact hlow'

end Sys2Proof.Machine
end

section
/-! PROOFS. The return of a lost floor and its commit (R114 to R118), and a die that resets itself (R660). -/
namespace Sys2Proof.Machine

/-! A die that resets itself. -/

/-- A self-check that fails in a floor's surveyor: its island is told, and the other floor declares it lost. -/
theorem Mach.lockstep_loses {m : Mach} {f : Nat} (hf : f < 2) (hlost : m.die.lost = none)
    (hgone : m.floorGone 0 = false ∧ m.floorGone 1 = false) (hclock : nth false m.clk.loss (1 - f) = false) :
    (m.lockstep f).die.lost = some f ∧ (m.lockstep f).die.sideMsg = setAt m.die.sideMsg f 1 ∧ Emit.island f 1 ∈ (m.lockstep f).out := by
  have hgo : ∀ g < 2, m.floorGone g = false := fun g hg => by
    rcases (by omega : g = 0 ∨ g = 1) with rfl | rfl
    exacts [hgone.1, hgone.2]
  have hview := Mach.dieLost_view (m := ((m.bump (kFloorResets + 256 * f)).emit (.island f 1)).setDie
    { m.die with sideMsg := setAt m.die.sideMsg f 1 }) hlost (hgo f hf) (hgo (1 - f) (by omega)) hclock 0x03 .failDie
  have hisland : (m.lockstep f).view.islands f 1 = (Emit.island f 1 ∈ Emit.island f 1 :: m.out) :=
    congrFun (congrFun (congrArg DieView.islands hview) f) 1
  exact ⟨congrArg DieView.lost hview, congrArg DieView.sideMsg hview, hisland.mpr (List.mem_cons_self ..)⟩

/-! The commit of a floor that returns (R118). -/

theorem Mach.resyncLine_frame (m : Mach) (e : SegEnt) (f i : Nat) : (m.resyncLine e f i).fb = m.fb ∧ (m.resyncLine e f i).rng = m.rng := by
  have hmoved : ∀ (m : Mach) (pa n : Nat) (by_ : Mover), (m.movedAt pa n by_).fb = m.fb ∧ (m.movedAt pa n by_).rng = m.rng :=
    fun m pa n by_ => by
      unfold Mach.movedAt Mach.moved
      repeat' split
      all_goals exact ⟨rfl, rfl⟩
  have hcopy : ∀ (ctx src dst n : Nat), (m.copyBytes ctx src dst n).fb = m.fb ∧ (m.copyBytes ctx src dst n).rng = m.rng :=
    fun ctx src dst n => by
      obtain ⟨⟨hfb, -, hrng, -⟩, -⟩ := m.wrLine_frame ctx dst ((List.range n).map fun i => m.rdByte ctx (src + i))
      obtain ⟨⟨kfb, -, krng, -⟩, -⟩ := Mach.clearPoison_frame (m.wrLine ctx dst ((List.range n).map fun i => m.rdByte ctx (src + i))) dst n
      unfold Mach.copyBytes
      rw [(hmoved ..).1, (hmoved ..).1, (hmoved ..).2, (hmoved ..).2]
      exact ⟨kfb.trans hfb, krng.trans hrng⟩
  unfold Mach.resyncLine
  dsimp only
  split
  · unfold Mach.addPoison
    split <;> exact ⟨rfl, rfl⟩
  · exact hcopy ..

/-- The rewriting of a floor's copies leaves the Field Book and the rings as they were. -/
theorem Mach.resyncAll_frame (m : Mach) (f : Nat) : (m.resyncAll f).fb = m.fb ∧ (m.resyncAll f).rng = m.rng := by
  have hslot : ∀ (m : Mach) (slot : Nat), let n := match sget m.grid.seg slot with
      | some e => (List.range (e.bytes / 256)).foldl (fun (m : Mach) i => m.resyncLine e f i) m
      | none => m
      n.fb = m.fb ∧ n.rng = m.rng := fun m slot => by
    dsimp only
    split
    · exact ⟨foldl_keeps Mach.fb (fun m i => (Mach.resyncLine_frame m _ f i).1) _ m, foldl_keeps Mach.rng (fun m i => (Mach.resyncLine_frame m _ f i).2) _ m⟩
    · exact ⟨rfl, rfl⟩
  exact ⟨foldl_keeps Mach.fb (fun m slot => (hslot m slot).1) _ m, foldl_keeps Mach.rng (fun m slot => (hslot m slot).2) _ m⟩

/-- With no older epoch live, a surveyor's commit with a floor's units takes the next number, and ends no item. -/
theorem Mach.surveyorCommit_floor {m : Mach} (hold : m.fb.old = none) (n : Nat) (back : Option (Nat × CadBank)) :
    (m.surveyorCommit n back).fb.epoch = m.fb.epoch % 0xFFFFFFFF + 1 ∧ (m.surveyorCommit n back).rng.items = m.rng.items := by
  have hswitch : ∀ (x : Mach) (bank : Bank) (cad : CadBank) (n b : Nat), (x.switchEpoch bank cad n b).rng.items = x.rng.items :=
    fun x bank cad n b => congrArg Prod.snd ((Mach.retireEpoch_places _).trans (Mach.event_places ..))
  unfold Mach.surveyorCommit
  rw [if_neg (by simp [hold])]
  dsimp only
  constructor
  · rw [Mach.epoch_of_kept (Mach.openSites_kept _)]
    simp only [Mach.setFb_fb, Mach.switchEpoch_epoch, Mach.setCad_fb]
    rw [Mach.epoch_of_kept (Mach.foldl_kept (fun m x => Mach.setPhys_kept _ _ _ _ _) _ m)]
  · refine (hswitch _ _ _ _ _).trans ?_
    exact congrArg Rings.items (foldl_keeps Mach.rng (fun m x => by rfl) _ m)

theorem Mach.commitFloor_commits {m : Mach} (hold : m.fb.old = none) (f : Nat) :
    (m.commitFloor f).fb.epoch = m.fb.epoch % 0xFFFFFFFF + 1 ∧ (m.commitFloor f).rng.items = m.rng.items := by
  obtain ⟨hepoch, hitems⟩ := Mach.surveyorCommit_floor hold 0 (m.cad.back.map fun b => (f, b))
  have hcores : ∀ x : Mach, x.markCores.fb = x.fb ∧ x.markCores.rng = x.rng := fun _ => ⟨rfl, rfl⟩
  unfold Mach.commitFloor
  generalize (List.range 96).map (96 * f + ·) = l
  dsimp only
  rw [(hcores _).1, (hcores _).2]
  constructor
  · rw [Mach.epoch_of_kept (Mach.foldl_kept (fun m c => Mach.reloadChan_kept m c) l _)]
    exact hepoch
  · rw [foldl_keeps Mach.rng (fun m c => (m.reloadChan_frame c).2) l _]
    exact hitems

/-- The bridge of a module whose floor is back opens, and both floors' messages read RUN. -/
def Mach.reopened (m : Mach) : Mach :=
  m.setDie { m.die with lost := none, bridgeFenced := false, state := 0, f1Stopped := false, sideMsg := [0, 0], readmitWaits := false }

/-- What follows the commit of a re-admission: ALERT_N, THERMTRIP_N, the floor's island and its clock. -/
def Mach.rejoined (m : Mach) (f : Nat) : Mach :=
  let m := ((m.alert 4 false).alert 5 false).alert 2 (m.clk.loss.contains true)
  let m := if m.pwr.trip && !m.pwr.heat.any (·.stopped) then (m.setPwr { m.pwr with trip := false }).emit (.pin 3 0 true) else m
  (m.emit (.island f 0)).askClock f

theorem Mach.readmitted_eq {m : Mach} {f : Nat} (hlost : m.die.lost = some f) (hstate : m.die.state = 3) (hold : m.fb.old = none)
    (hsites : [2 * f, 2 * f + 1].any (fun t => 2 ≤ (m.siteAt t).state && (m.siteAt t).state ≤ 4) = false) :
    m.readmitted =
      (((m.reopened.resyncAll f).setFb { (m.reopened.resyncAll f).fb with role := 0 }).commitFloor f).rejoined f := by
  unfold Mach.readmitted Mach.rejoined Mach.reopened
  rw [hlost]
  dsimp only
  rw [if_neg (by rw [hsites]; simp [hstate]), if_neg (by simp [hold])]

theorem Mach.rejoined_frame (m : Mach) (f : Nat) : (m.rejoined f).rng = m.rng ∧ (m.rejoined f).fb = m.fb ∧
    (m.rejoined f).die.lost = m.die.lost ∧ (m.rejoined f).die.state = m.die.state ∧
    (m.rejoined f).die.bridgeFenced = m.die.bridgeFenced := by
  have hclock : ∀ x : Mach, (x.askClock f).rng = x.rng ∧ (x.askClock f).fb = x.fb ∧ (x.askClock f).die = x.die := fun x => by
    unfold Mach.askClock
    dsimp only
    repeat' split
    all_goals exact ⟨rfl, rfl, rfl⟩
  have hpin : ∀ x : Mach, let y := if x.pwr.trip && !x.pwr.heat.any (·.stopped) then
      (x.setPwr { x.pwr with trip := false }).emit (.pin 3 0 true) else x
      y.rng = x.rng ∧ y.fb = x.fb ∧ y.die = x.die := fun x => by
    dsimp only
    split <;> exact ⟨rfl, rfl, rfl⟩
  have halert : ∀ (x : Mach) b on, (x.alert b on).rng = x.rng ∧ (x.alert b on).fb = x.fb ∧ (x.alert b on).die = x.die :=
    fun x b on => by simp [Mach.alert]
  unfold Mach.rejoined
  extract_lets quiet _ tripped
  have hquiet : quiet.rng = m.rng ∧ quiet.fb = m.fb ∧ quiet.die = m.die := by
    simp only [quiet, halert, and_self]
  have htripped : tripped.rng = quiet.rng ∧ tripped.fb = quiet.fb ∧ tripped.die = quiet.die := hpin quiet
  obtain ⟨crng, cfb, cdie⟩ := hclock (tripped.emit (.island f 0))
  obtain ⟨trng, tfb, tdie⟩ := htripped
  obtain ⟨qrng, qfb, qdie⟩ := hquiet
  have hdie : ((tripped.emit (.island f 0)).askClock f).die = m.die := cdie.trans (tdie.trans qdie)
  exact ⟨crng.trans (trng.trans qrng), cfb.trans (tfb.trans qfb), congrArg Die.lost hdie, congrArg Die.state hdie,
    congrArg Die.bridgeFenced hdie⟩

/-- The end of a re-admission with the floor's sites at rest and no older epoch live: the bridge opens, F0 serves, and the commit's
epoch has both floors in service. -/
theorem Mach.readmitted_commits {m : Mach} {f : Nat} (hlost : m.die.lost = some f) (hstate : m.die.state = 3) (hold : m.fb.old = none)
    (hsites : [2 * f, 2 * f + 1].any (fun t => 2 ≤ (m.siteAt t).state && (m.siteAt t).state ≤ 4) = false) :
    m.readmitted.die.lost = none ∧ m.readmitted.die.state = 0 ∧ m.readmitted.die.bridgeFenced = false ∧ m.readmitted.fb.role = 0 ∧
    m.readmitted.fb.epoch = m.fb.epoch % 0xFFFFFFFF + 1 ∧ m.readmitted.rng.items = m.rng.items := by
  obtain ⟨kfb, krng⟩ := m.reopened.resyncAll_frame f
  generalize hserves : (m.reopened.resyncAll f).setFb { (m.reopened.resyncAll f).fb with role := 0 } = serves
  have hview : serves.view = { m.reopened.view with role := 0 } := by
    have hrole : ∀ x : Mach, (x.setFb { x.fb with role := 0 }).view = { x.view with role := 0 } := fun _ => rfl
    rw [← hserves, hrole, Mach.resyncAll_view]
  have hsame : serves.fb.epoch = m.fb.epoch := by rw [← hserves, Mach.setFb_fb, kfb]; rfl
  have hnone : serves.fb.old = none := by rw [← hserves, Mach.setFb_fb, kfb]; exact hold
  obtain ⟨hepoch, hitems⟩ := Mach.commitFloor_commits hnone f
  have hcommit : (serves.commitFloor f).view = { m.reopened.view with role := 0 } := (Mach.commitFloor_view ..).trans hview
  rw [Mach.readmitted_eq hlost hstate hold hsites, hserves]
  generalize serves.commitFloor f = committed at hepoch hitems hcommit
  obtain ⟨jrng, jfb, jlost, jstate, jfenced⟩ := committed.rejoined_frame f
  rw [jrng, jfb, jlost, jstate, jfenced, hepoch, hitems, hsame]
  refine ⟨(congrArg DieView.lost hcommit :), (congrArg DieView.state hcommit :), (congrArg DieView.fenced hcommit :),
    (congrArg DieView.role hcommit :), rfl, ?_⟩
  rw [← hserves, Mach.setFb_rng, krng]
  rfl

/-! The work of a floor that returns (R114 to R117). -/

theorem Mach.measure_die (m : Mach) (i : Nat) (d : Bytes) : (m.measure i d).die = m.die := (Mach.event_none_frame ..).1

theorem Mach.resyncAll_resync (m : Mach) (f : Nat) : (m.resyncAll f).die.resync = [] := rfl

theorem Mach.floorStarts_die (m : Mach) (f : Nat) : (m.floorStarts f).die = m.die := by
  unfold Mach.floorStarts
  refine (foldl_keeps Mach.die (fun m t => ?_) _ _).trans (foldl_keeps Mach.die (fun m i => ?_) _ m)
  · dsimp only
    split
    · rfl
    · simp [Mach.siteReadmit, Mach.sitePowerUp]
  · dsimp only
    split
    · rfl
    · simp [Mach.startTraining]

/-- F1's return with its bridge trained: its work leaves DIE_STATE READMITTING, the floor lost to every other rule, and every MIRROR
segment resynchronised. -/
theorem Mach.dieReturns_readmits {m : Mach} {z : Fuses} {g : Found} (hlost : m.die.lost = some 1) (hon : nth false m.pwr.floorOn 1 = true)
    (hruns : (m.heatAt 1).stopped = false) (hclosure : m.pwr.closure = none) (hok : g.ok = true) (hgpll : bitOf (nth 0 g.nums 0) 0 = true)
    (hclock : m.clk.state = 0) (hpair : z.pair0 = z.pair1)
    (hbridge : ((m.lockOutcome z 1 (nth 0 g.nums 0)).trainBridge (m.badLanesOf g.units g.eyes)).die.width.contains 0 = false) :
    (m.dieReturns z 1 false g).die.state = 3 ∧ (m.dieReturns z 1 false g).die.lost = some 1 ∧
    (m.dieReturns z 1 false g).die.bridgeFenced = true ∧ (m.dieReturns z 1 false g).die.resync = [] := by
  unfold Mach.dieReturns
  rw [if_neg (by simp [hlost, hon, hruns, hclosure, hclock]), if_neg (by simp), if_neg (by simp [hgpll])]
  extract_lets trained _ back _ clocked placed calibrated replanned marked unheld synced other measured
  have htrained : trained = (m.lockOutcome z 1 (nth 0 g.nums 0)).trainBridge (m.badLanesOf g.units g.eyes) := if_neg (by omega)
  have hwide : trained.die.width.contains 0 = false := by rw [htrained]; exact hbridge
  have hback : back.view.state = 3 := rfl
  have hplaced : placed.view = back.view :=
    (Mach.testFloor_view ..).trans ((Mach.floorSteps_view ..).trans ((Mach.switchIsland_view ..).trans
      ((Mach.clockSites_view clocked).trans (Mach.setClk_view back _))))
  have hreplanned : replanned.view = placed.view :=
    (Mach.leaveRefresh_view ..).trans ((Mach.replanFloor_view ..).trans (Mach.calibrate_view ..))
  have hunheld : unheld.view = replanned.view := (Mach.unhold_view ..).trans ((Mach.markMirrors_view (replanned.loseSlices _ true)).trans (Mach.loseSlices_view replanned _ true))
  have hsynced : synced.view = unheld.view := (Mach.floorStarts_view ..).trans ((Mach.resyncAll_view ..).trans (Mach.owedRecords_view ..))
  have hlast : measured = synced.measure 3 (padTo 48 g.data) := if_pos rfl
  have hmeasured : measured.view = synced.view := by rw [hlast, Mach.measure_view]
  have hstate : measured.view.state = 3 := by rw [hmeasured, hsynced, hunheld, hreplanned, hplaced, hback]
  have hclean : measured.die.resync = [] := by
    rw [hlast, Mach.measure_die]
    simp only [synced, Mach.floorStarts_die, Mach.resyncAll_resync]
  rw [if_neg (by rw [hwide]; simp [hok, hpair]), if_neg (by simp [other])]
  clear_value measured
  exact ⟨hstate, rfl, rfl, hclean⟩

/-- What the sessions are told of a commit leaves the die, the units, the epoch and the rings as they are. -/
theorem Mach.toldAs_frame (m : Mach) (z : Fuses) (n : Mach) : (m.toldAs z n).die = n.die ∧ (m.toldAs z n).cad = n.cad ∧
    (m.toldAs z n).fb.role = n.fb.role ∧ (m.toldAs z n).fb.epoch = n.fb.epoch ∧ (m.toldAs z n).rng = n.rng := by
  unfold Mach.toldAs
  split <;> exact ⟨rfl, rfl, rfl, rfl, rfl⟩

theorem isCad_slice {sl : Nat} (h : sl < 128) : UnitRef.isCad ⟨4, sl⟩ = true := by
  simp only [UnitRef.isCad, Bool.and_eq_true, decide_eq_true_eq]
  exact ⟨rfl, h⟩

/-- A flag of a list as the statements' coercion of the list reads it. -/
theorem nth_flag {l : List Bool} {i : Nat} (h : nth (false = true) (do let a ← l; pure (a = true)) i) : nth false l i = true := by
  induction l generalizing i with
  | nil => exact h
  | cons x r ih =>
    cases i with
    | zero => exact h
    | succ i => exact ih h

theorem Mach.physOf_drop (b : CadBank) (u : UnitRef) : (b.drop u).physOf u = 0xFF :=
  if_pos (shas_sput_self b.gone u.code ())

/-- Settles O45, by what each command comes to: a failed slice's move or withdrawal and the ends of moves, the return and commit of a
floor by what each floor knows of the other, and the survey's starts and steps. -/
theorem unitsMoveAndDiesReturn : Obligations.UnitsMoveAndDiesReturn := by
  unfold Obligations.UnitsMoveAndDiesReturn
  refine ⟨fun h => ⟨?moves, ?withdrawn, ?copied, ?retired, ?queued⟩, ?readmitted, fun h =>
    ⟨?committed, ?lockstep, ?flushed, ?started, ?closed, ?stepped, ?silent, ?again, ?staged, ?repaired⟩⟩
  case moves =>
    intro sl i u hsl hfree hplace hspare hmoving s hs
    subst hs
    refine completes_runFzIf (f := fun z m => m.toldAs z (m.unitFail ⟨4, sl⟩ 3 true false)) rfl (by rw [isCad_slice hsl]; rfl) ?_
    obtain ⟨o, hfails⟩ := Mach.unitFail_moves hfree hplace hspare
    obtain ⟨hcad, hitems⟩ := Mach.ledger_units (s.hw.moveUnit ⟨4, sl⟩ 2 true) 0x04 3 o ⟨4, sl⟩ 0 0 0 0
      (s.hw.cad.cur.physOf ⟨4, sl⟩)
    obtain ⟨-, kcad, -, -, krng⟩ := Mach.toldAs_frame s.hw s.fuses (s.hw.unitFail ⟨4, sl⟩ 3 true false)
    rw [kcad, krng, hfails, hcad, hitems, Mach.moveUnit_starts hspare hplace rfl hmoving]
    exact ⟨rfl, rfl, rfl⟩
  case withdrawn =>
    intro sl u hsl hfree hplace hspare hcalm s hs
    subst hs
    refine completes_runFzIf (f := fun z m => m.toldAs z (m.unitFail ⟨4, sl⟩ 3 true false)) rfl (by rw [isCad_slice hsl]; rfl) ?_
    obtain ⟨hcur, hitems⟩ := Mach.unitFail_withdraws hfree hplace hspare hcalm
    obtain ⟨-, kcad, -, -, krng⟩ := Mach.toldAs_frame s.hw s.fuses (s.hw.unitFail ⟨4, sl⟩ 3 true false)
    rw [kcad, hcur]
    refine ⟨Mach.physOf_drop .., fun i hi hneeds => ?_⟩
    rw [Mach.item?, krng]
    exact hitems i hi hneeds
  case copied =>
    intro sl x hsl hhere hmoves hx hcalm hlive s hs
    obtain ⟨hunit, hstage⟩ := hx
    subst hs
    refine completes_runIf rfl (by simpa using hsl) ?_
    rw [if_neg (by simp [hhere]), Mach.moveDone_idle hcalm hlive]
    unfold Mach.copyDone
    refine ⟨?_, rfl, rfl⟩
    rw [Mach.setCad_cad, hmoves]
    simp [hunit, hstage]
  case retired =>
    intro kind n x hcad hfind hold s hs
    subst hs
    refine completes_runIf (ok := UnitRef.isCad ⟨kind, n⟩) (f := fun m =>
      match m.cad.moves.find? fun x => x.unit = ⟨kind, n⟩ && x.stage = 3 with
      | some x => m.moveRetire x
      | none => m) rfl hcad ?_
    have hx := List.find?_some hfind
    simp only [Bool.and_eq_true, decide_eq_true_eq] at hx
    obtain ⟨hunit, hstage⟩ := hx
    rw [hfind]
    dsimp only
    obtain ⟨hleaves, hitems⟩ := Mach.moveRetire_leaves hstage hold
    rw [Mach.physState, hleaves, hitems, hunit]
    exact ⟨rfl, rfl, rfl, sgetD_sput_self ..⟩
  case queued =>
    intro f st i u hf hqueued hu hmoving hplace hserves hspare s hs
    obtain ⟨hkind, hfloor⟩ := hu
    subst hs
    refine completes_runIf rfl (by simpa using hf) ?_
    rw [Mach.startQueued_starts hqueued hkind hfloor hmoving hserves,
      Mach.moveUnit_starts (m := s.hw.setCad { s.hw.cad with queued := [] }) hspare hplace hkind (by rw [hfloor]; exact hmoving)]
    exact ⟨rfl, rfl, rfl⟩
  case readmitted =>
    intro s g hlost hon hruns hclosure hok hgpll hclock hpair hbridge
    exact completes_runFzIf (f := fun z m => m.dieReturns z 1 false g) rfl rfl
      (Mach.dieReturns_readmits hlost (nth_flag hon) hruns hclosure hok hgpll hclock hpair hbridge)
  case committed =>
    intro f hlost hstate hold hsites s hs
    subst hs
    refine completes_runFz (f := fun z m => m.toldAs z m.readmitted) rfl ?_
    obtain ⟨hdie, -, hrole, hepoch, hrng⟩ := Mach.toldAs_frame s.hw s.fuses s.hw.readmitted
    rw [hdie, hrole, hepoch, hrng]
    exact Mach.readmitted_commits hlost hstate hold hsites
  case lockstep =>
    intro f hf hlost hgone hclock s hs
    subst hs
    exact completes_runIf rfl (by simpa using hf) (Mach.lockstep_loses hf hlost hgone hclock)
  case flushed =>
    intro hsound hleft s hs
    subst hs
    refine completes_run (f := fun m => m.ledgerFlush true) rfl ?_
    unfold Mach.ledgerFlush
    rw [if_neg (by rw [hleft]; simp [hsound])]
    rfl
  case started =>
    intro hp bs rs ts flash hup hporst hclosure hreset s hs
    subst hs
    refine completes_run (f := fun m => m.resetRises false hp bs rs ts flash) rfl ?_
    have hbegins : s.hw.resetRises false hp bs rs ts flash =
        (s.hw.setPwr { s.hw.pwr with wrstLow := false }).beginSurvey 4 flash := by
      unfold Mach.resetRises Mach.maybeSurvey
      simp [hup, hporst, hclosure, hreset]
    obtain ⟨hstep, hitems, hepoch, hsessions, hboot, hlow⟩ :=
      Mach.beginSurvey_begun (m := s.hw.setPwr { s.hw.pwr with wrstLow := false }) rfl 4 flash
    rw [hbegins]
    exact ⟨hstep, hitems, hepoch, hsessions, hboot, hlow⟩
  case closed =>
    intro us flash hby hlow s hs
    subst hs
    refine completes_run (f := fun m => (m.resetHolds us).maybeSurvey flash) rfl ?_
    rw [Mach.resetHolds_waits hby hlow]
    exact ⟨rfl, rfl, (s.hw.closureStops_frame us).2⟩
  case stepped =>
    intro g total hstep hwarm hruns hclosure hon hreset hclock s hs
    subst hs
    refine completes_runFz (f := fun z m => m.stepEnd z g total) rfl ?_
    obtain ⟨path, skip, hend⟩ := Mach.stepEnd_warm hstep hwarm hruns hclosure hon hreset hclock s.fuses g total
    rw [hend]
    exact ⟨rfl, rfl, rfl, rfl, rfl, rfl⟩
  case silent =>
    intro ms hsource hstep hruns hms s hs
    subst hs
    exact completes_run (f := fun m => m.sourceLate ms) rfl (Mach.sourceLate_passes hsource hstep hruns hms)
  case again =>
    intro ms hsource hstep hruns hfirst hboot hms s hs
    subst hs
    exact completes_run (f := fun m => m.sourcesAgain ms) rfl (Mach.sourcesAgain_flash hsource hstep hruns hfirst hboot hms)
  case staged =>
    intro n v image f bad hn hrole hstep s hs
    subst hs
    refine completes_runFzIf (f := fun z m => m.fwReady z n v image f bad) rfl (by simpa using hn) ?_
    unfold Mach.fwReady
    rw [if_neg (by simp [hrole])]
    exact if_pos (by simp only [Bool.or_eq_true]; exact .inl (.inl (.inr (decide_eq_true hstep))))
  case repaired =>
    intro hrepairing s hs
    subst hs
    refine completes_run (f := Mach.repairDone) rfl ?_
    unfold Mach.repairDone
    rw [if_pos hrepairing]
    exact ⟨rfl, rfl, rfl, rfl⟩

end Sys2Proof.Machine
end

section
/-! PROOFS. Segment map entries and their 128 bits (R138, R139, Table 4.4). -/
namespace Sys2Proof.Machine

theorem bitOf_of_fld {v i : Nat} {b : Bool} (h : fld v i 1 = b.toNat) : bitOf v i = b := by
  rw [bitOf, show v / 2 ^ i % 2 = b.toNat from h]
  cases b <;> rfl

/-- Every number of an entry has room in its field. -/
def SegEnt.fits (e : SegEnt) : Prop :=
  e.ctx < 2 ^ 12 ∧ e.vaBase < 2 ^ 19 ∧ e.size < 16 ∧ e.policy < 8 ∧ e.medium < 2 ∧ e.home < 2 ∧ e.stack < 4 ∧
  e.unit < 64 ∧ e.unitOff < 2 ^ 24

/-- The access bits, VALID and the reserved bits of an entry's 128 bits. -/
theorem SegEnt.bits_flags {e : SegEnt} (h : e.fits) :
    bitOf e.bits 78 = e.rd ∧ bitOf e.bits 77 = e.wr ∧ bitOf e.bits 76 = e.at' ∧ bitOf e.bits 75 = e.noAlloc ∧
    bitOf e.bits 127 = true ∧ fld e.bits 64 11 = 0 ∧ fld e.bits 0 40 = 0 ∧ e.bits < 2 ^ 128 := by
  obtain ⟨hctx, hbase, hsize, hpolicy, hmedium, hhome, hstack, hunit, hoff⟩ := h
  have hrd := e.rd.toNat_lt
  have hwr := e.wr.toNat_lt
  have hat := e.at'.toNat_lt
  have hno := e.noAlloc.toNat_lt
  refine ⟨bitOf_of_fld ?_, bitOf_of_fld ?_, bitOf_of_fld ?_, bitOf_of_fld ?_, bitOf_of_fld ?_, ?_, ?_, ?_⟩
  all_goals simp only [fld, SegEnt.bits, Bool.toNat_true]; omega

/-- The numbers of an entry stand in their fields of its 128 bits. -/
theorem SegEnt.bits_numbers {e : SegEnt} (h : e.fits) :
    fld e.bits 115 12 = e.ctx ∧ fld e.bits 96 19 = e.vaBase ∧ fld e.bits 92 4 = e.size ∧ fld e.bits 89 3 = e.policy ∧
    fld e.bits 88 1 = e.medium ∧ fld e.bits 87 1 = e.home ∧ fld e.bits 85 2 = e.stack ∧ fld e.bits 79 6 = e.unit ∧
    fld e.bits 40 24 = e.unitOff := by
  obtain ⟨hctx, hbase, hsize, hpolicy, hmedium, hhome, hstack, hunit, hoff⟩ := h
  have hrd := e.rd.toNat_lt
  have hwr := e.wr.toNat_lt
  have hat := e.at'.toNat_lt
  have hno := e.noAlloc.toNat_lt
  refine ⟨?_, ?_, ?_, ?_, ?_, ?_, ?_, ?_, ?_⟩
  all_goals simp only [fld, SegEnt.bits]; omega

theorem SegEnt.ofBits_bits {e : SegEnt} (h : e.fits) : SegEnt.ofBits e.bits = e := by
  obtain ⟨hctx, hbase, hsize, hpolicy, hmedium, hhome, hstack, hunit, hoff⟩ := SegEnt.bits_numbers h
  obtain ⟨hrd, hwr, hat, hno, -⟩ := SegEnt.bits_flags h
  simp only [SegEnt.ofBits, hctx, hbase, hsize, hpolicy, hmedium, hhome, hstack, hunit, hoff, hrd, hwr, hat, hno]

/-- Settles O8: every field is read where it was put. -/
theorem segmentMapEntriesDecodeBack : Obligations.SegmentMapEntriesDecodeBack := by
  unfold Obligations.SegmentMapEntriesDecodeBack
  intro e hctx hbase hsize hpolicy hmedium hhome hstack hunit hoff
  have hfits : e.fits := ⟨hctx, hbase, hsize, hpolicy, hmedium, hhome, hstack, hunit, hoff⟩
  obtain ⟨-, -, -, -, hvalid, hres⟩ := SegEnt.bits_flags hfits
  exact ⟨SegEnt.ofBits_bits hfits, hvalid, hres⟩

end Sys2Proof.Machine
end

section
/-! PROOFS. The scrub of a buffer line (R134, R136), of which one word at most holds an error. -/
namespace Sys2Proof.Machine

/-! A fold in which one element alone acts. -/

theorem foldl_once {α β : Type} {f : β → α → β} {l : List α} {x : α} {m n : β} (hmem : x ∈ l) (hnodup : l.Nodup)
    (hbefore : ∀ y ∈ l, y ≠ x → f m y = m) (hx : f m x = n) (hafter : ∀ y ∈ l, y ≠ x → f n y = n) : l.foldl f m = n := by
  obtain ⟨s, t, rfl⟩ := List.append_of_mem hmem
  have hfresh := List.nodup_middle.mp hnodup
  have hne : ∀ y ∈ s ++ t, y ≠ x := fun y hy h => (List.nodup_cons.mp hfresh).1 (h ▸ hy)
  rw [List.foldl_append, List.foldl_cons,
    foldl_same fun y hy => hbefore y (by simp [hy]) (hne y (by simp [hy])), hx]
  exact foldl_same fun y hy => hafter y (by simp [hy]) (hne y (by simp [hy]))

theorem nth_replicate_append {α : Type} (d x : α) (j : Nat) (l : List α) {i : Nat} (h : i < j) :
    nth d (List.replicate j x ++ l) i = x := by
  induction j generalizing i with
  | zero => omega
  | succ j ih =>
    cases i with
    | zero => rfl
    | succ i => exact ih (by omega)

theorem nth_append_length {α : Type} (d : α) (l r : List α) (x : α) : nth d (l ++ x :: r) l.length = x := by
  induction l with
  | nil => rfl
  | cons y l ih => exact ih

/-! One word of the buffer. -/

/-- A line without errors to come plants none. -/
theorem Mach.plant_clean (m : Mach) (line : Nat) : m.plant line .clean = m := by
  unfold Mach.plant
  simp [Ecc.clean]

section
variable {m : Mach} {a : Nat} (hmedium : paMedium a = 0)
include hmedium

theorem Mach.setErrs_word (n : Nat) : m.setErrs a n =
    m.setMem { m.mem with errs := if n = 0 then sdel m.mem.errs (a / 8) else sput m.mem.errs (a / 8) n } := if_pos hmedium

/-- One error found where there was none, and corrected, leaves none. -/
theorem Mach.setErrs_zero_of_none (herrs : m.mem.errs = []) {e : Nat} (he : e ≠ 0) : (m.setErrs a e).setErrs a 0 = m := by
  have hnone : { m.mem with errs := [] } = m.mem := by rw [← herrs]
  rw [Mach.setErrs_word hmedium, Mach.setErrs_word hmedium, if_neg he, herrs]
  exact congrArg m.setMem (by simpa [sput, sdel] using hnone)

/-- A corrected word of the buffer is written back, and counted in the slice's hour and in BUF_CE_COUNT (R136, R137). -/
theorem Mach.eccFixed_word (by_ : Mover) : ∃ g, m.eccFixed a true by_ = ((m.setErrs a 0).setGrid g).bump kBufCeCount := by
  unfold Mach.eccFixed
  rw [if_pos hmedium]
  exact ⟨_, rfl⟩

/-- An uncorrectable word of a line that no segment maps poisons the line, and the fault is reported (R134). -/
theorem Mach.eccLost_word (hseg : m.segAt (a / 256 * 256) = none) (epoch st : Nat) : ∃ g u, m.eccLost epoch st a =
    ((((m.setGrid g).bump kBufUeCount).setErrs a 0).addPoison (a / 256 * 256)).ledger 0x03 0x01 0x05 u st 0 0 1 := by
  unfold Mach.eccLost
  simp only [hmedium, decide_true, if_true, hseg, Bool.false_eq_true, if_false]
  exact ⟨_, _, rfl⟩

end

/-! Faults reported. -/

@[simp] theorem Mach.driveAlert_flt (old m : Mach) : (Mach.driveAlert old m).flt = m.flt := by
  unfold Mach.driveAlert
  split <;> rfl

@[simp] theorem Mach.addHist_lseq (m : Mach) (x : Hist) : (m.addHist x).flt.lseq = m.flt.lseq := by
  unfold Mach.addHist
  dsimp only
  split
  · simp
  · split <;> simp

/-- Every fault reported takes the next LEDGER_SEQ (R669). -/
theorem Mach.ledger_lseq (m : Mach) (c k o : Nat) (u : UnitRef) (s i x d p : Nat) :
    (m.ledger c k o u s i x d p).flt.lseq = (m.flt.lseq + 1) % 2 ^ 32 := by
  unfold Mach.ledger
  simp [Mach.event_frame]

/-- A fault of no context leaves memory as it is. -/
theorem Mach.ledger_none_mem (m : Mach) (c k o : Nat) (u : UnitRef) (s i d p : Nat) :
    (m.ledger c k o u s i 0 d p).mem = m.mem := by
  have halert : ∀ a b : Mach, (Mach.driveAlert a b).mem = b.mem := fun a b => by
    unfold Mach.driveAlert
    split <;> rfl
  have hhist : ∀ (a : Mach) (x : Hist), (a.addHist x).mem = a.mem := fun a x => by
    unfold Mach.addHist
    dsimp only
    split
    · simp
    · split <;> simp
  unfold Mach.ledger
  dsimp only
  rw [Mach.event_none, Mach.setFb_mem, halert, hhist]
  rfl

/-! Lines of the buffer (Table 4.5) and their words. -/

/-- The address of a line of a slice. -/
def bufLine (slice line : Nat) : Nat := Place.pa ⟨slice / 64, 0, 0, slice % 64, line⟩ 0

section
variable {slice line : Nat} (hslice : slice < 128) (hline : line < 32768)
include hslice hline

theorem bufLine_byte {k : Nat} (hk : k < 256) :
    paMedium (bufLine slice line + k) = 0 ∧ (bufLine slice line + k) / 256 * 256 = bufLine slice line := by
  have hpa : bufLine slice line = slice / 64 * 2 ^ 45 + slice % 64 * 2 ^ 23 + line * 256 + 0 := by
    rw [bufLine, Place.pa, if_pos rfl]
  have hfloor : slice / 64 < 2 := by omega
  rw [hpa, paMedium, fld, Nat.div_eq_of_lt (by omega)]
  exact ⟨rfl, by omega⟩

theorem bufLine_medium : paMedium (bufLine slice line) = 0 := by
  obtain ⟨hmedium, -⟩ := bufLine_byte hslice hline (k := 0) (by omega)
  rwa [Nat.add_zero] at hmedium

theorem bufLine_start : bufLine slice line / 256 * 256 = bufLine slice line := by
  obtain ⟨-, hstart⟩ := bufLine_byte hslice hline (k := 0) (by omega)
  rwa [Nat.add_zero] at hstart

theorem readGrains_bufLine :
    readGrains (bufLine slice line) 256 = (List.range 32).map fun i => bufLine slice line + 8 * i := by
  rw [readGrains, if_pos (bufLine_medium hslice hline), bufLine_start hslice hline]

/-- What a scrub finds with one word in error (R133): that word's granule has come to hold `e` errors. -/
theorem Mach.plant_word (m : Mach) {j e : Nat} (hj : j < 32) (he : e ≠ 0) :
    m.plant (bufLine slice line) ⟨List.replicate j 0 ++ [e]⟩ = m.setErrs (bufLine slice line + 8 * j) e := by
  unfold Mach.plant
  have hgrain : eccGrain (paMedium (bufLine slice line)) = 8 := by rw [bufLine_medium hslice hline]; rfl
  have hfound : nth 0 (List.replicate j 0 ++ [e]) j = e := by
    simpa using nth_append_length 0 (List.replicate j 0) [] e
  simp only [hgrain]
  refine foldl_once (x := j) ?_ List.nodup_range (fun i hi hne => ?_) ?_ fun i hi hne => ?_
  · simp only [List.length_append, List.length_replicate, List.length_singleton, List.mem_range]
    omega
  · simp only [List.length_append, List.length_replicate, List.length_singleton, List.mem_range] at hi
    exact if_pos (nth_replicate_append 0 0 j [e] (by omega))
  · rw [hfound, if_neg he]
  · simp only [List.length_append, List.length_replicate, List.length_singleton, List.mem_range] at hi
    exact if_pos (nth_replicate_append 0 0 j [e] (by omega))

/-- A scrub that meets one word in error does with it what R136 says, and nothing more where that leaves no error. -/
theorem Mach.scrubLine_word {m n : Mach} {j e : Nat} (hj : j < 32) (he : e ≠ 0) (herrs : m.mem.errs = [])
    (hclear : m.poisoned (bufLine slice line + 8 * j) 8 = false)
    (hword : (if e ≤ 1 then (m.setErrs (bufLine slice line + 8 * j) e).eccFixed (bufLine slice line + 8 * j) true .repair
      else (m.setErrs (bufLine slice line + 8 * j) e).eccLost m.fb.epoch 0 (bufLine slice line + 8 * j)) = n)
    (hnone : n.mem.errs = []) : m.scrubLine (bufLine slice line) ⟨List.replicate j 0 ++ [e]⟩ = n := by
  have hmedium : ∀ i < 32, paMedium (bufLine slice line + 8 * i) = 0 := fun i hi => (bufLine_byte hslice hline (by omega)).1
  unfold Mach.scrubLine
  simp only [bufLine_start hslice hline, Mach.plant_word hslice hline m hj he]
  have hfound : (m.setErrs (bufLine slice line + 8 * j) e).mem.errs = [((bufLine slice line + 8 * j) / 8, e)] := by
    rw [Mach.setErrs, if_pos (hmedium j hj), if_neg he, herrs]; rfl
  replace hclear : (m.setErrs (bufLine slice line + 8 * j) e).poisoned (bufLine slice line + 8 * j) 8 = false := by
    rw [Mach.setErrs, if_pos (hmedium j hj)]; exact hclear
  generalize m.setErrs (bufLine slice line + 8 * j) e = w at hword hfound hclear
  unfold Mach.eccMeet
  rw [hfound, if_neg (by simp), readGrains_bufLine hslice hline, List.foldl_map]
  refine foldl_once (x := j) (List.mem_range.mpr hj) List.nodup_range (fun i hi hne => ?_) ?_ fun i hi hne => ?_
  · have hother : w.errsAt (bufLine slice line + 8 * i) = 0 := by
      rw [Mach.errsAt, if_pos (hmedium i (List.mem_range.mp hi)), hfound]
      have hword : ¬ (bufLine slice line + 8 * j) / 8 = (bufLine slice line + 8 * i) / 8 := by omega
      simp [sgetD, sget, hword]
    exact if_pos (by simp [hother])
  · have hhere : w.errsAt (bufLine slice line + 8 * j) = e := by
      rw [Mach.errsAt, if_pos (hmedium j hj), hfound]
      simp [sgetD, sget]
    rw [hhere, hclear, hmedium j hj, if_neg (by simp [he])]
    exact hword
  · have hother : n.errsAt (bufLine slice line + 8 * i) = 0 := by
      rw [Mach.errsAt, if_pos (hmedium i (List.mem_range.mp hi)), hnone]
      rfl
    exact if_pos (by simp [hother])

/-- A line without an error stays (R136). -/
theorem Mach.scrubLine_clean {m : Mach} (hsound : m.sound (bufLine slice line) 256 = true) :
    m.scrubLine (bufLine slice line) .clean = m := by
  simp only [Mach.sound, List.all_append, Bool.and_eq_true] at hsound
  unfold Mach.scrubLine
  dsimp only
  rw [bufLine_start hslice hline, Mach.plant_clean]
  exact Mach.eccMeet_sound hsound.1 ..

section
variable {m : Mach} {j : Nat} (hj : j < 32) (herrs : m.mem.errs = [])
  (hclear : m.poisoned (bufLine slice line + 8 * j) 8 = false)
include hj herrs hclear

/-- A word with one error is written back corrected and counted. -/
theorem Mach.scrubLine_corrected : ∃ g, m.scrubLine (bufLine slice line) ⟨List.replicate j 0 ++ [1]⟩ =
    (m.setGrid g).bump kBufCeCount := by
  obtain ⟨hmedium, -⟩ := bufLine_byte hslice hline (k := 8 * j) (by omega)
  obtain ⟨g, hfixed⟩ := Mach.eccFixed_word (m := m.setErrs (bufLine slice line + 8 * j) 1) hmedium .repair
  rw [Mach.setErrs_zero_of_none hmedium herrs (by omega)] at hfixed
  exact ⟨g, Mach.scrubLine_word hslice hline hj (by omega) herrs hclear ((if_pos le_rfl).trans hfixed) (by simp [herrs])⟩

/-- A word with two errors of a line that no segment maps: the line is poisoned, and the fault reported. -/
theorem Mach.scrubLine_poisoned (hseg : m.segAt (bufLine slice line) = none) :
    let n := m.scrubLine (bufLine slice line) ⟨List.replicate j 0 ++ [2]⟩
    shas n.mem.poison (bufLine slice line) = true ∧ n.flt.lseq = (m.flt.lseq + 1) % 2 ^ 32 ∧ n.mem.cells = m.mem.cells := by
  obtain ⟨hmedium, hstart⟩ := bufLine_byte hslice hline (k := 8 * j) (by omega)
  have hfound := Mach.setErrs_word (m := m) hmedium 2
  obtain ⟨g, u, hlost⟩ := Mach.eccLost_word (m := m.setErrs (bufLine slice line + 8 * j) 2) hmedium
    (by rw [hstart, hfound]; exact hseg) m.fb.epoch 0
  have hmem : ((m.setErrs (bufLine slice line + 8 * j) 2).eccLost m.fb.epoch 0 (bufLine slice line + 8 * j)).mem =
      { m.mem with poison := sput m.mem.poison (bufLine slice line) () } := by
    rw [hlost, Mach.ledger_none_mem, hstart, Mach.addPoison, if_pos (bufLine_medium hslice hline), bufLine_start hslice hline]
    simp [Mach.setErrs_word hmedium, herrs, sput, sdel]
  have hlseq : ((m.setErrs (bufLine slice line + 8 * j) 2).eccLost m.fb.epoch 0 (bufLine slice line + 8 * j)).flt.lseq =
      (m.flt.lseq + 1) % 2 ^ 32 := by
    rw [hlost, Mach.ledger_lseq, Mach.addPoison, if_pos (by rw [hstart]; exact bufLine_medium hslice hline)]
    simp [Mach.setErrs_word hmedium]
  rw [Mach.scrubLine_word hslice hline hj (by omega) herrs hclear (if_neg (by omega)) (by rw [hmem]; exact herrs)]
  dsimp only
  rw [hmem]
  exact ⟨shas_sput_self _ _ _, hlseq, rfl⟩

end

end

end Sys2Proof.Machine
end
section
/-! PROOFS. Slices over their limit, key rotations and channel copies (R137, R186, R187, R193). -/
namespace Sys2Proof.Machine

/-! Slices (R137). -/

/-- A slice that is retired before it fails starts its move to a free spare, and the retirement is reported. -/
theorem Mach.unitRetires_moves {m : Mach} {slice i : Nat} (hspare : m.spareFor ⟨4, slice⟩ = some i)
    (hplace : m.cad.cur.physOf ⟨4, slice⟩ ≠ 0xFF) (hmoving : m.moving (slice / 64) = false) (cause : Nat) :
    (m.unitRetires ⟨4, slice⟩ cause).cad.moves = m.cad.moves ++
      [{ unit := ⟨4, slice⟩, from_ := m.cad.cur.physOf ⟨4, slice⟩, spare := i, stage := 1, final := 3 }] ∧
    (m.unitRetires ⟨4, slice⟩ cause).physState 4 (slice / 64) i = 4 ∧
    (m.unitRetires ⟨4, slice⟩ cause).flt.lseq = (m.flt.lseq + 1) % 2 ^ 32 := by
  have hmove := Mach.moveUnit_starts hspare hplace rfl hmoving 3
  unfold Mach.unitRetires
  dsimp only
  rw [if_neg hplace, Mach.physState, (Mach.ledger_units ..).1, Mach.ledger_lseq, hmove]
  exact ⟨rfl, sgetD_sput_self .., rfl⟩

/-! Rotations (R186, R187). -/

/-- What an access of a sweep leaves alone: the rings with their items, and every context's keys. -/
def Mach.rotView (m : Mach) : Rings × SMap StkKeys := (m.rng, m.stk.keys)

theorem Mach.sameButMem.rotView_eq {a b : Mach} (h : a.sameButMem b) : a.rotView = b.rotView := by
  obtain ⟨⟨-, -, hrng, -⟩, -, hkeys, -⟩ := h
  rw [Mach.rotView, Mach.rotView, hrng, hkeys]

theorem Mach.rotView_of_still {m h : Mach} (hstill : m.still = h.still) : m.rotView = h.rotView :=
  (congrArg Mach.rotView hstill :)

theorem Mach.moved_rotView (m : Mach) (c n : Nat) (by_ : Mover) : (m.moved c n by_).rotView = m.rotView :=
  Mach.rotView_of_still (m.moved_still c n by_)

theorem Mach.setErrs_rotView (m : Mach) (pa n : Nat) : (m.setErrs pa n).rotView = m.rotView := by
  unfold Mach.setErrs
  split <;> rfl

theorem Mach.addPoison_rotView (m : Mach) (pa : Nat) : (m.addPoison pa).rotView = m.rotView := by
  unfold Mach.addPoison
  split <;> rfl

theorem Mach.copyBytes_rotView (m : Mach) (ctx src dst n : Nat) : (m.copyBytes ctx src dst n).rotView = m.rotView := by
  have hmoved : ∀ (w : Mach) (pa : Nat), (w.movedAt pa n .repair).rotView = w.rotView := fun w pa => by
    unfold Mach.movedAt
    split
    · rfl
    · exact w.moved_rotView _ _ _
  unfold Mach.copyBytes
  rw [hmoved, hmoved, (Mach.clearPoison_frame _ _ _).rotView_eq, (Mach.wrLine_frame _ _ _ _).rotView_eq]

theorem Mach.cleanErrs_rotView (m : Mach) (here : Nat → Bool) : (m.cleanErrs here).rotView = m.rotView := by
  refine foldl_keeps Mach.rotView (fun w e => ?_) _ m
  dsimp only
  split
  · exact w.setErrs_rotView _ _
  · split
    · split
      · rw [Mach.copyBytes_rotView, Mach.setErrs_rotView]
      · rw [Mach.addPoison_rotView, Mach.setErrs_rotView]
    · rw [Mach.addPoison_rotView, Mach.setErrs_rotView]

theorem Mach.openPage_rotView (m : Mach) (pa : Nat) : (m.openPage pa).rotView = m.rotView := by
  unfold Mach.openPage
  exact Mach.rotView_of_still ((Mach.openRowOf_still ..).trans (Mach.openRowOf_still ..))

theorem Mach.sweepPage_rotView (m : Mach) (ctx c page : Nat) : (m.sweepPage ctx c page).rotView = m.rotView := by
  have hvisit : ∀ pa here, ((((m.openPage pa).cleanErrs here).promote ctx (paPage pa)).moved c 8192 .back).rotView = m.rotView :=
    fun pa here => by
      rw [Mach.moved_rotView, (Mach.promote_frame _ _ _).rotView_eq, Mach.cleanErrs_rotView, Mach.openPage_rotView]
  unfold Mach.sweepPage
  dsimp only
  rw [apply_ite Mach.rotView, hvisit, ite_self]

theorem Mach.keysOf_of_rotView {m h : Mach} (hview : m.rotView = h.rotView) (c : Nat) : m.keysOf c = h.keysOf c := by
  rw [Mach.keysOf, Mach.keysOf, show m.stk.keys = h.stk.keys from congrArg Prod.snd hview]

@[simp] theorem Mach.setKeys_keysOf (m : Mach) (c : Nat) (k : StkKeys) : (m.setKeys c k).keysOf c = k := sgetD_sput_self ..

/-- A sweep's visits keep the items and the write slot (R186). -/
theorem Mach.sweepChan_keeps (n : Nat) (m : Mach) (ctx c : Nat) :
    (Mach.sweepChan n m ctx c).rng = m.rng ∧ ((Mach.sweepChan n m ctx c).keysOf ctx).write = (m.keysOf ctx).write := by
  induction n generalizing m with
  | zero => exact ⟨rfl, rfl⟩
  | succ n ih =>
    unfold Mach.sweepChan
    dsimp only
    split
    · exact ⟨rfl, rfl⟩
    · rename_i page _
      have hview := m.sweepPage_rotView ctx c page
      obtain ⟨hrng, hwrite⟩ := ih ((m.sweepPage ctx c page).setKeys ctx
        { (m.sweepPage ctx c page).keysOf ctx with
          swept := sput ((m.sweepPage ctx c page).keysOf ctx).swept c (sgetD 0 (m.keysOf ctx).swept c + 1) })
      refine ⟨hrng.trans (congrArg Prod.fst hview), hwrite.trans ?_⟩
      rw [Mach.setKeys_keysOf]
      exact (congrArg StkKeys.write (Mach.keysOf_of_rotView hview ctx) :)

/-- The sweep ended (R187): the context erases, once the items accepted so far are answered. -/
theorem Mach.sweepDone_erases {m : Mach} {c : Nat} (hrot : (m.keysOf c).rot = .sweeping) (hshut : m.stk.dev.any Stack.shut = false) :
    ((m.sweepDone c).keysOf c).rot = .erasing ∧
    ((m.sweepDone c).keysOf c).older = (m.rng.items.filter fun i => i.ctx = c).map Item.key ∧
    ((m.sweepDone c).keysOf c).write = (m.keysOf c).write ∧ (m.sweepDone c).rng = m.rng := by
  have hswept : ∀ l : List Nat, let w := l.foldl (fun m ch => m.sweepPages c ch (runLength (m.chanRuns c ch))) m
      (w.rng, (w.keysOf c).write) = (m.rng, (m.keysOf c).write) := fun l =>
    foldl_keeps (fun w : Mach => (w.rng, (w.keysOf c).write))
      (fun w ch => Prod.ext (Mach.sweepChan_keeps _ w c ch).1 (Mach.sweepChan_keeps _ w c ch).2) l m
  unfold Mach.sweepDone
  rw [if_neg (by simp [hrot, hshut])]
  generalize List.range 192 = l
  obtain ⟨hrng, hwrite⟩ := Prod.mk.inj (hswept l)
  dsimp only
  rw [Mach.setKeys_keysOf]
  exact ⟨rfl, congrArg (fun r : Rings => (r.items.filter fun i => i.ctx = c).map Item.key) hrng, hwrite, hrng⟩

@[simp] theorem StkKeys.put_slot (k : StkKeys) (g : Nat) (x : Option Nat) : (k.put g x).slot g = x := by
  unfold StkKeys.put StkKeys.slot
  split <;> simp_all

@[simp] theorem StkKeys.put_write (k : StkKeys) (g : Nat) (x : Option Nat) : (k.put g x).write = k.write := by
  unfold StkKeys.put
  split <;> rfl

/-- The old key erased (R187): the context is steady, its write slot as before. -/
theorem Mach.eraseOld_steady {m : Mach} {c : Nat} (hrot : (m.keysOf c).rot = .erasing)
    (hdone : m.rng.items.any (fun i => (m.keysOf c).older.contains i.key) = false) :
    ((m.eraseOld c).keysOf c).rot = .steady ∧ ((m.eraseOld c).keysOf c).slot (1 - (m.keysOf c).write) = none ∧
    ((m.eraseOld c).keysOf c).write = (m.keysOf c).write ∧ (m.eraseOld c).rng.items = m.rng.items := by
  have hevent : ∀ w : Mach, (w.rotEvent c 4).stk.keys = w.stk.keys ∧ (w.rotEvent c 4).rng.items = w.rng.items := fun w => by
    unfold Mach.rotEvent
    simp only [Mach.event_frame, and_self]
  unfold Mach.eraseOld
  dsimp only
  rw [if_neg (by rw [hdone]; simp [hrot])]
  obtain ⟨hkeys, hitems⟩ := hevent (m.setKeys c
    { (m.keysOf c).put (1 - (m.keysOf c).write) none with rot := .steady, swept := [], toSweep := 0, older := [] })
  rw [hitems, Mach.keysOf, hkeys]
  change ((Mach.setKeys ..).keysOf c).rot = _ ∧ ((Mach.setKeys ..).keysOf c).slot _ = _ ∧ ((Mach.setKeys ..).keysOf c).write = _ ∧ _
  rw [Mach.setKeys_keysOf]
  exact ⟨rfl, StkKeys.put_slot .., StkKeys.put_write .., rfl⟩

/-! Channel copies (R193). -/

/-- Where nothing waits, the end of a unit's copy is its move's next stage and nothing else (Table 19.9 step 3). -/
theorem Mach.moveDone_of_idle {m : Mach} (hwait : m.grid.wait = []) (hrel : m.grid.relWait = []) (hlive : m.trv.live = [])
    (hrec : m.rng.recWait = []) (u : UnitRef) : m.moveDone u = m.copyDone u := by
  unfold Mach.moveDone
  rw [Mach.serveAll_idle (m := m.copyDone u) hwait hrel hrec, Mach.resumeAtomics, show (m.copyDone u).trv.live = [] from hlive]
  rfl

/-- Settles O19, by what each command comes to: a scrub by the one word it finds in error, the others by the step they take. -/
theorem scrubsRetirementsAndRotations : Obligations.ScrubsRetirementsAndRotations := by
  unfold Obligations.ScrubsRetirementsAndRotations
  refine fun h => ⟨?clean, ?corrected, ?poisoned, ?retires, ?keeps, ?sweeps, ?erases, ?copied⟩
  case clean =>
    intro slice line pa hslice hline hsound s hs
    subst hs
    exact completes_runIf rfl (by simp [hslice, hline]) (Mach.scrubLine_clean hslice hline hsound)
  case corrected =>
    intro slice line j pa hslice hline hj herrs hclear s hs
    subst hs
    refine completes_runIf rfl (by simp [hslice, hline]) ?_
    obtain ⟨g, hscrub⟩ := Mach.scrubLine_corrected hslice hline hj herrs hclear
    rw [show Place.pa ⟨slice / 64, 0, 0, slice % 64, line⟩ 0 = bufLine slice line from rfl, hscrub]
    simp [Mach.count]
  case poisoned =>
    intro slice line j pa hslice hline hj herrs hclear hseg s hs
    subst hs
    exact completes_runIf rfl (by simp [hslice, hline]) (Mach.scrubLine_poisoned hslice hline hj herrs hclear hseg)
  case retires =>
    intro slice i hslice hover hspare hplace hmoving s hs
    subst hs
    refine completes_runIf rfl (by simpa using hslice) ?_
    rw [if_pos (by simp [hover, hspare])]
    exact Mach.unitRetires_moves (m := s.hw.setGrid { s.hw.grid with ceHour := sdel s.hw.grid.ceHour slice }) hspare hplace hmoving 4
  case keeps =>
    intro slice hslice hunder s hs
    subst hs
    exact completes_runIf rfl (by simpa using hslice) (if_neg (by simp [hunder]))
  case sweeps =>
    intro ctx hctx hrot hshut s hs
    subst hs
    exact completes_runIf rfl (by simpa using hctx) (Mach.sweepDone_erases hrot hshut)
  case erases =>
    intro ctx hctx hrot hdone s hs
    subst hs
    exact completes_runIf rfl (by simpa using hctx) (Mach.eraseOld_steady hrot hdone)
  case copied =>
    intro chan hchan hshut hwait hrel hlive hrec s hs
    subst hs
    refine completes_runIf rfl (by simpa using hchan) ?_
    rw [if_neg (by simp [hshut]), Mach.moveDone_of_idle hwait hrel hlive hrec]
    rfl

end Sys2Proof.Machine
end

section
/-! PROOFS. Site flits: a READ of a MIRROR line that comes after a WRITE of its own bond module (R88, R128, R420). -/
namespace Sys2Proof.Machine

theorem exec_siteRead {t b since way : Nat} {f : Flit} {ecc : Ecc} {wait : Bool} (ht : t < 4) (hb : b < 16) (s : State) :
    exec (.siteRead t b f ecc since way wait) s = runFz s fun _ m => m.flitIn t b (flitOwn f 1) ecc since way wait :=
  runFzIf_true (by simp [ht, hb]) s _

theorem flitCheck_congr {f g : Flit} (h : flitCovered f = flitCovered g) : flitCheck f = flitCheck g := by
  rw [flitCheck, flitCheck, h]

/-- A flit with the CRC that it should carry (R431). -/
def sealedFlit (f : Flit) : Flit := { f with crc := flitCheck f }

/-- The CRC of a flit does not cover itself. -/
theorem sealedFlit_covered (f : Flit) : flitCovered (sealedFlit f) = flitCovered f := rfl

theorem sealedFlit_crc (f : Flit) : (sealedFlit f).crc = flitCheck (sealedFlit f) := by
  rw [flitCheck_congr (sealedFlit_covered f)]
  unfold sealedFlit
  dsimp only

theorem flitOwn_op {f : Flit} (h : f.op ≤ 7) : flitOwn f f.op = f := if_pos h

/-- A flit that a site hears is taken. -/
theorem Mach.flitIn_of_siteHears {m : Mach} {t b st : Nat} {f : Flit} (h : m.siteHears t b f st = true) (ecc : Ecc)
    (since way : Nat) (wait : Bool) : m.flitIn t b f ecc since way wait = m.flitTake t b f ecc since way wait := by
  simp only [Mach.siteHears, Mach.siteOpen, Bool.and_eq_true, decide_eq_true_eq, Bool.not_eq_true'] at h
  obtain ⟨⟨⟨⟨⟨⟨⟨⟨-, hopen⟩, -⟩, hseq⟩, hlow⟩, -⟩, hcrc⟩, -⟩, -⟩ := h
  obtain ⟨⟨⟨⟨⟨⟨⟨⟨-, hup⟩, hreset⟩, -⟩, hretrain⟩, -⟩, -⟩, -⟩, hpwr⟩ := hopen
  unfold Mach.flitIn
  simp [hseq, hlow, hcrc, hup, hreset, hretrain, hpwr]

/-- What O25 says of a READ: a flit with the answer leaves besides the one that returns the credit. -/
theorem siteRead_out_of_siteFlitsAct (h : Obligations.SiteFlitsOfAnAdmittedTileAct) {m : Mach}
    {t b since way : Nat} {f : Flit} {d : Bytes} (hhears : m.siteHears t b (flitOwn f 1) 5 = true)
    (hasks : m.siteAsks t b f.ctx f.tag = true) (hnow : m.readsNow (.site t b f.tag) f.ctx f.addr f.len way = some d)
    (ht : t < 4) (hb : b < 16) :
    m.out.length + 2 ≤ (m.flitTake t b (flitOwn f 1) .clean since way false).out.length := by
  obtain ⟨hread, -⟩ := h m
  obtain ⟨⟨l, hout⟩, -⟩ := completes_runFz_effect (exec_siteRead ht hb _)
    (hread t b since way f d hhears hasks hnow (State.reset.setHw m) rfl)
  rw [State.setHw_hw, Mach.flitIn_of_siteHears hhears] at hout
  rw [hout]
  simp only [List.length_append, List.length_cons]
  omega

/-- `mirrorMapped` with context 5 created in a partition that holds every site, and tile site 2, on floor 1, admitted with bond module
0 up, which holds credits of each class. -/
def mirrorSite : Mach :=
  let m := mirrorMapped.setRng { mirrorMapped.rng with ctxs := [(5, {})] }
  let m := m.setFb { m.fb with cur := { ovr := [(key 0x7010 1, leB 1 15)] } }
  m.setSiteAt 2 { state := 5, up := 1, srstReleased := true, bonds := [(0, { rsp := 8, req := 8, wrq := 8 })] }

/-- There, a WRITE of that module to address 256 waits at the line's home, slice 1 of floor 0. -/
def siteWriteWaits : Mach := mirrorSite.arrive (.site 2 0 8) 5 256 (.write [7] false) .clean 33 0 true

/-- The module's next flit, a READ of 16 bytes of that line, but for its CRC, and with it. -/
def readFields : Flit := { op := 1, ctx := 5, tag := 9, addr := 256, len := 16, seq := 0 }
def readFlit : Flit := sealedFlit readFields

theorem readFlit_crc : readFlit.crc = flitCheck readFlit := sealedFlit_crc readFields
theorem readFlit_own : flitOwn readFlit 1 = readFlit := flitOwn_op (f := readFlit) (by decide)

theorem siteWriteWaits_hears : siteWriteWaits.siteHears 2 0 (flitOwn readFlit 1) 5 = true := by
  rw [readFlit_own]
  unfold Mach.siteHears
  rw [decide_eq_true readFlit_crc]
  decide +kernel

/-- The tile may name the context, and `readsNow` lets its READ have the bytes of floor 1's copy: it asks of a transaction with number
0, which no other that waits comes before. -/
theorem siteWriteWaits_readsNow :
    siteWriteWaits.siteAsks 2 0 readFlit.ctx readFlit.tag = true ∧
    siteWriteWaits.readsNow (.site 2 0 readFlit.tag) readFlit.ctx readFlit.addr readFlit.len 0 = some (List.replicate 16 0) := by
  decide +kernel

/-- The READ that arrives has number 1 and waits at slice 1 of floor 1, as the WRITE with number 0 comes before it (R128): the one flit
sent is the NULL flit that returns its credit. -/
theorem siteWriteWaits_read :
    let m := siteWriteWaits.flitTake 2 0 (flitOwn readFlit 1) .clean 0 0 false
    siteWriteWaits.out = [] ∧ m.out.length = 1 ∧ m.grid.wait =
      [(1, [{ org := .site 2 0 8, ctx := 5, va := 256, kind := .write [7] false, seq := 0 }]),
       (65, [{ org := .site 2 0 9, ctx := 5, va := 256, kind := .read 16, win := some 0, seq := 1 }])] := by
  decide +kernel

/-- Refutes O25: a READ of a MIRROR line is served from the copy on the site's own floor, while an earlier WRITE of its bond module to
the line may wait at the home on the other floor. That WRITE is in the READ's way (R128), `readsNow` does not see it, and no READ_RSP
leaves. -/
theorem not_siteFlitsOfAnAdmittedTileAct : ¬ Obligations.SiteFlitsOfAnAdmittedTileAct := by
  intro h
  obtain ⟨hasks, hnow⟩ := siteWriteWaits_readsNow
  have hanswered := siteRead_out_of_siteFlitsAct (since := 0) h siteWriteWaits_hears hasks hnow (by decide) (by decide)
  obtain ⟨hbefore, hsent, -⟩ := siteWriteWaits_read
  rw [hbefore, hsent] at hanswered
  exact absurd hanswered (by decide)

end Sys2Proof.Machine
end

section
/-! PROOFS. The cells of the stacks and buffers through the operations of the grid, the rings, the links and the survey
that write no byte of memory, in the order in which they use each other. -/
namespace Sys2Proof.Machine

/-- A fold of operations that each keep the cells keeps them. -/
@[simp] theorem Mach.foldl_cells {α : Type} {f : Mach → α → Mach} (h : ∀ m x, (f m x).mem.cells = m.mem.cells) (l : List α)
    (m : Mach) : (l.foldl f m).mem.cells = m.mem.cells := by
  induction l generalizing m with
  | nil => rfl
  | cons x r ih => exact (ih _).trans (h m x)

@[simp] theorem Mach.ite_cells (c : Prop) [Decidable c] (a b : Mach) :
    (if c then a else b).mem.cells = if c then a.mem.cells else b.mem.cells := apply_ite (·.mem.cells) c a b

@[simp] theorem Mach.setErrs_cells (m : Mach) (pa n : Nat) : (m.setErrs pa n).mem.cells = m.mem.cells := by
  simp [Mach.setErrs]

@[simp] theorem Mach.plant_cells (m : Mach) (line : Nat) (e : Ecc) : (m.plant line e).mem.cells = m.mem.cells := by
  simp [Mach.plant]

@[simp] theorem Mach.closeMerge_cells (m : Mach) (pa : Nat) : (m.closeMerge pa).mem.cells = m.mem.cells := by
  simp [Mach.closeMerge]

@[simp] theorem Mach.joinWindow_cells (m : Mach) (ctx line since : Nat) :
    (m.joinWindow ctx line since).1.mem.cells = m.mem.cells := by
  unfold Mach.joinWindow
  dsimp only
  split <;> rfl

@[simp] theorem Mach.xlate_cells (m : Mach) (o : Origin) (ctx va : Nat) : (m.xlate o ctx va).1.mem.cells = m.mem.cells := by
  unfold Mach.xlate
  split <;> simp

@[simp] theorem Mach.setRing_cells (m : Mach) (r : Nat) (x : Ring) : (m.setRing r x).mem.cells = m.mem.cells := rfl

@[simp] theorem Mach.coreNotice_cells (m : Mach) (c vector : Nat) : (m.coreNotice c vector).mem.cells = m.mem.cells := by
  simp [Mach.coreNotice]

@[simp] theorem Mach.forwardVc2_cells (m : Mach) (from_ : Option Nat) (tag : Nat) (payload : Bytes) :
    (m.forwardVc2 from_ tag payload).mem.cells = m.mem.cells := by
  simp [Mach.forwardVc2]

@[simp] theorem Mach.sendVc2_cells (m : Mach) (dest chan req st : Nat) (content : Bytes) :
    (m.sendVc2 dest chan req st content).mem.cells = m.mem.cells := by
  simp [Mach.sendVc2]

@[simp] theorem Mach.hpNotice_cells (m : Mach) (n vector : Nat) : (m.hpNotice n vector).mem.cells = m.mem.cells := by
  simp [Mach.hpNotice]

@[simp] theorem Mach.notice_cells (m : Mach) (r : Ring) : (m.notice r).mem.cells = m.mem.cells := by
  unfold Mach.notice
  split
  · split
    · simp
    · rfl
  all_goals simp

@[simp] theorem Mach.siteRsp_cells (m : Mach) (t b op tag : Nat) (st : Status) (data : Bytes) :
    (m.siteRsp t b op tag st data).mem.cells = m.mem.cells := by
  simp [Mach.siteRsp]

@[simp] theorem Mach.replyRead_cells (m : Mach) (o : Origin) (st : Status) (data : Bytes) :
    (m.replyRead o st data).mem.cells = m.mem.cells := by
  unfold Mach.replyRead
  split <;> simp

@[simp] theorem Mach.served_cells (m : Mach) (target g : Nat) : (m.served target g).mem.cells = m.mem.cells := rfl

@[simp] theorem Mach.moved_cells (m : Mach) (c n : Nat) (by_ : Mover) : (m.moved c n by_).mem.cells = m.mem.cells := by
  simp [Mach.moved]

@[simp] theorem Mach.movedAt_cells (m : Mach) (pa n : Nat) (by_ : Mover) : (m.movedAt pa n by_).mem.cells = m.mem.cells := by
  simp [Mach.movedAt]

@[simp] theorem Mach.rowActivated_cells (m : Mach) (pa n : Nat) : (m.rowActivated pa n).mem.cells = m.mem.cells := by
  simp [Mach.rowActivated]

@[simp] theorem Mach.openRowOf_cells (m : Mach) (pa : Nat) (read : Bool) : (m.openRowOf pa read).mem.cells = m.mem.cells := by
  simp [Mach.openRowOf]

@[simp] theorem Mach.openPage_cells (m : Mach) (pa : Nat) : (m.openPage pa).mem.cells = m.mem.cells := by
  simp [Mach.openPage]

@[simp] theorem Mach.endPhys_cells (m : Mach) (u : UnitRef) (i st : Nat) : (m.endPhys u i st).mem.cells = m.mem.cells := by
  simp [Mach.endPhys, Mach.setPhys]

@[simp] theorem Mach.loadStanding_cells (m : Mach) (c : Nat) (x : Standing) : (m.loadStanding c x).mem.cells = m.mem.cells := by
  unfold Mach.loadStanding
  split <;> simp

@[simp] theorem Mach.reloadChan_cells (m : Mach) (c : Nat) : (m.reloadChan c).mem.cells = m.mem.cells := by
  simp [Mach.reloadChan]

@[simp] theorem Mach.clearRetired_cells (m : Mach) (u : UnitRef) : (m.clearRetired u).mem.cells = m.mem.cells := by
  simp [Mach.clearRetired]

@[simp] theorem Mach.movedLater_cells (m : Mach) (c n : Nat) (by_ : Mover) : (m.movedLater c n by_).mem.cells = m.mem.cells := by
  unfold Mach.movedLater
  split <;> simp

@[simp] theorem Mach.movedBy_cells (m : Mach) (item : Bool) (c n : Nat) (by_ : Mover) :
    (m.movedBy item c n by_).mem.cells = m.mem.cells := by
  simp [Mach.movedBy]

@[simp] theorem Mach.regCount_cells (m : Mach) (o : Origin) (medium n : Nat) : (m.regCount o medium n).mem.cells = m.mem.cells := by
  unfold Mach.regCount
  split <;> simp

@[simp] theorem Mach.readEnds_cells (m : Mach) (o : Origin) (medium : Nat) (r : Except Fail Bytes) :
    (m.readEnds o medium r).mem.cells = m.mem.cells := by
  unfold Mach.readEnds
  split <;> simp [Mach.readCount]

@[simp] theorem Mach.replyWrite_cells (m : Mach) (o : Origin) (st : Status) : (m.replyWrite o st).mem.cells = m.mem.cells := by
  unfold Mach.replyWrite
  split <;> simp

@[simp] theorem Mach.dirFailed_cells (m : Mach) (fl pa : Nat) : (m.dirFailed fl pa).mem.cells = m.mem.cells := by
  unfold Mach.dirFailed
  split <;> simp

@[simp] theorem Mach.queueWrite_cells (m : Mach) (ps : List Place) (b n : Nat) : (m.queueWrite ps b n).mem.cells = m.mem.cells := by
  simp [Mach.queueWrite]

@[simp] theorem Mach.writeCount_cells (m : Mach) (o : Origin) (medium n : Nat) :
    (m.writeCount o medium n).mem.cells = m.mem.cells := by
  simp [Mach.writeCount]

@[simp] theorem Mach.replyAtomic_cells (m : Mach) (o : Origin) (st : Status) (data : Bytes) :
    (m.replyAtomic o st data).mem.cells = m.mem.cells := by
  unfold Mach.replyAtomic
  split <;> simp

@[simp] theorem Mach.heldDone_cells (m : Mach) (line : Nat) (h : HeldRsp) (lost : Option Status) :
    (m.heldDone line h lost).mem.cells = m.mem.cells := by
  unfold Mach.heldDone
  split <;> simp

@[simp] theorem Mach.dirWrite_cells (m : Mach) (d : Option DirLine) (fl pa : Nat) (h : HeldRsp) :
    (m.dirWrite d fl pa h).mem.cells = m.mem.cells := by
  unfold Mach.dirWrite
  split <;> simp

@[simp] theorem Mach.atomicBytes_cells (m : Mach) (o : Origin) (ctx va word : Nat) :
    (m.atomicBytes o ctx va word).mem.cells = m.mem.cells := by
  unfold Mach.atomicBytes
  split <;> simp

@[simp] theorem Mach.countAtomic_cells (m : Mach) (w : AtomWord) (p : Place) (flagged : Bool) :
    (m.countAtomic w p flagged).mem.cells = m.mem.cells := by
  simp [Mach.countAtomic]

@[simp] theorem Mach.takeIn_cells (fuel : Nat) (m : Mach) (target : Nat) : (Mach.takeIn fuel m target).mem.cells = m.mem.cells := by
  induction fuel generalizing m with
  | zero => rfl
  | succ fuel ih =>
    unfold Mach.takeIn
    dsimp only
    split
    · rfl
    · split <;> simp [ih]

@[simp] theorem Mach.enqueue_cells (m : Mach) (target : Nat) (t : Txn) : (m.enqueue target t).mem.cells = m.mem.cells := rfl

@[simp] theorem Mach.issueWrite_cells (m : Mach) (c : Nat) (w : Nat × Nat) : (m.issueWrite c w).mem.cells = m.mem.cells := by
  simp [Mach.issueWrite]

@[simp] theorem Mach.issueAged_cells (fuel : Nat) (m : Mach) (c : Nat) : (Mach.issueAged fuel m c).mem.cells = m.mem.cells := by
  induction fuel generalizing m with
  | zero => rfl
  | succ fuel ih =>
    unfold Mach.issueAged
    split
    · split <;> simp [ih]
    · rfl

end Sys2Proof.Machine
end

section
/-! PROOFS. Memory's canonical form (log 4) through the operations that write it: the records of items and events, what lost and
corrected cells do, and what the grid performs and serves, in the order in which they use each other. -/
namespace Sys2Proof.Machine

theorem Mach.foldl_wf {α : Type} {f : Mach → α → Mach}
    (hf : ∀ (m : Mach) (x : α), Memory.wf m.mem.cells = true → Memory.wf (f m x).mem.cells = true) (l : List α) {m : Mach}
    (h : Memory.wf m.mem.cells = true) : Memory.wf (l.foldl f m).mem.cells = true := by
  induction l generalizing m with
  | nil => exact h
  | cons x l ih => exact ih (hf m x h)

@[simp] theorem Memory.wf_ite (c : Prop) [Decidable c] (a b : List Host.Cell) :
    Memory.wf (if c then a else b) = if c then Memory.wf a else Memory.wf b := apply_ite Memory.wf c a b

section
variable {m : Mach} (h : Memory.wf m.mem.cells = true)
include h

@[simp] theorem Mach.recordWrite_wf (e fl c va : Nat) (d : Bytes) : Memory.wf (m.recordWrite e fl c va d).1.mem.cells = true := by
  refine Mach.writeMem_wf ?_ e fl c va d
  split
  · split <;> simp [h]
  · simp [h]

@[simp] theorem Mach.eventToArea_wf (e : Event) : Memory.wf (m.eventToArea e).mem.cells = true := by
  unfold Mach.eventToArea
  split <;> simp [h]

@[simp] theorem Mach.event_wf (c k v : Nat) (u : UnitRef) (x d : Nat) : Memory.wf (m.event c k v u x d).mem.cells = true := by
  simp [Mach.event, h]

@[simp] theorem Mach.ledger_wf (c k o : Nat) (u : UnitRef) (s i x d p : Nat) :
    Memory.wf (m.ledger c k o u s i x d p).mem.cells = true := by
  simp [Mach.ledger, h]

/-! The records of items. -/

@[simp] theorem Mach.answerNow_wf (r seq k user e : Nat) (n : Bool) (st : Status) (u : UnitRef) (fl res : Nat) :
    Memory.wf (m.answerNow r seq k user e n st u fl res).mem.cells = true := by
  unfold Mach.answerNow
  split
  · exact h
  · dsimp only
    split <;> simp [h]

@[simp] theorem Mach.answer_wf (r seq k user e : Nat) (n : Bool) (st : Status) (u : UnitRef) (fl res : Nat) :
    Memory.wf (m.answer r seq k user e n st u fl res).mem.cells = true := by
  unfold Mach.answer
  split <;> simp [h]

@[simp] theorem Mach.recordsGo_wf : Memory.wf m.recordsGo.mem.cells = true := by
  unfold Mach.recordsGo
  dsimp only
  split
  · exact h
  · exact Mach.foldl_wf (fun m w h => Mach.answer_wf h ..) _ h

/-! Units that fail, spares that take their place and rows, pages and sectors that go. -/

@[simp] theorem Mach.copyBytes_wf (c src dst n : Nat) : Memory.wf (m.copyBytes c src dst n).mem.cells = true := by
  simp [Mach.copyBytes, Mach.clearPoison_cells, Mach.wrLine_wf h]

@[simp] theorem Mach.cleanErrs_wf (here : Nat → Bool) : Memory.wf (m.cleanErrs here).mem.cells = true := by
  refine Mach.foldl_wf (fun m e h => ?_) _ h
  dsimp only
  split
  · simp [h]
  · split <;> simp [h, Mach.addPoison_cells]

@[simp] theorem Mach.withdraw_wf (u : UnitRef) (st : Nat) : Memory.wf (m.withdraw u st).mem.cells = true := by
  simp [Mach.withdraw, Mach.eachBank, h]

@[simp] theorem Mach.abandonRuns_wf (p : Nat → Bool) : Memory.wf (m.abandonRuns p).mem.cells = true :=
  Mach.foldl_wf (fun _ _ h => Mach.event_wf h ..) _ h

@[simp] theorem Mach.spareRuns_wf (k p i : Nat) : Memory.wf (m.spareRuns k p i).mem.cells = true := by
  simp [Mach.spareRuns, h]

@[simp] theorem Mach.spareTaken_wf (u : UnitRef) (old new st : Nat) : Memory.wf (m.spareTaken u old new st).mem.cells = true :=
  Mach.event_wf h ..

@[simp] theorem Mach.moveUnit_wf (u : UnitRef) (st : Nat) (serves : Bool) : Memory.wf (m.moveUnit u st serves).mem.cells = true := by
  unfold Mach.moveUnit
  split
  · simp [h]
  next i _ =>
    have hruns : Memory.wf (m.spareRuns u.kind u.parent i).mem.cells = true := Mach.spareRuns_wf h ..
    simp [Mach.setPhys, Mach.eachBank, Mach.loseContents_wf, hruns]

@[simp] theorem Mach.unitRetires_wf (u : UnitRef) (cause : Nat) : Memory.wf (m.unitRetires u cause).mem.cells = true := by
  simp [Mach.unitRetires, h]

@[simp] theorem Mach.retirePage_wf (pa cause : Nat) : Memory.wf (m.retirePage pa cause).mem.cells = true := by
  unfold Mach.retirePage
  have hclean : Memory.wf (m.cleanErrs fun a => a / 4096 = pa / 4096).mem.cells = true := Mach.cleanErrs_wf h _
  dsimp only
  split
  · generalize hx : Mach.ledger _ 0x02 cause 0x09 _ _ _ _ _ _ = x
    have hspared : Memory.wf x.mem.cells = true := by simp [← hx, hclean]
    split <;> simp [hspared]
  · split <;> simp [hclean]

@[simp] theorem Mach.rowFails_wf (pa cause : Nat) : Memory.wf (m.rowFails pa cause).mem.cells = true := by
  unfold Mach.rowFails
  have hclean : Memory.wf (m.cleanErrs fun a => rowKey a = rowKey pa).mem.cells = true := Mach.cleanErrs_wf h _
  dsimp only
  split <;> simp [h, hclean]

@[simp] theorem Mach.sectorCorrected_wf (pa : Nat) : Memory.wf (m.sectorCorrected pa).mem.cells = true := by
  simp [Mach.sectorCorrected, h]

@[simp] theorem Mach.eccFixed_wf (a : Nat) (back : Bool) (by_ : Mover) : Memory.wf (m.eccFixed a back by_).mem.cells = true := by
  simp [Mach.eccFixed, h]

@[simp] theorem Mach.sectorBad_wf (pa : Nat) : Memory.wf (m.sectorBad pa).mem.cells = true := by
  simp [Mach.sectorBad, h]

@[simp] theorem Mach.eccLost_wf (epoch st a : Nat) : Memory.wf (m.eccLost epoch st a).mem.cells = true := by
  simp [Mach.eccLost, Mach.addPoison_cells, h]

@[simp] theorem Mach.eccMeet_wf (epoch st : Nat) (back : Bool) (l : List Nat) (by_ : Mover) :
    Memory.wf (m.eccMeet epoch st back l by_).mem.cells = true := by
  unfold Mach.eccMeet
  split
  · exact h
  · exact Mach.foldl_wf (fun m a h => by simp [h]) _ h

@[simp] theorem Mach.arrayRead_wf (epoch pa n : Nat) (by_ : Mover) (item : Bool) :
    Memory.wf (m.arrayRead epoch pa n by_ item).mem.cells = true := by
  simp [Mach.arrayRead, h]

/-! What the grid performs (R126, R131, R148). -/

@[simp] theorem Mach.readTarget_wf (t : Txn) (epoch len slot : Nat) (e : SegEnt) (p : Place) :
    Memory.wf (m.readTarget t epoch len slot e p).mem.cells = true := by
  simp [Mach.readTarget, h]

@[simp] theorem Mach.performRead_wf (t : Txn) (len : Nat) : Memory.wf (m.performRead t len).mem.cells = true := by
  unfold Mach.performRead
  dsimp only
  have hx : Memory.wf (m.xlate t.org t.ctx t.va).1.mem.cells = true := by simp [h]
  generalize m.xlate t.org t.ctx t.va = r at hx ⊢
  obtain ⟨a, _ | ⟨slot, e⟩⟩ := r
  · simp [hx]
  · dsimp only at hx ⊢
    split
    · simp [hx]
    · split
      · simp [hx]
      · split
        · simp [hx]
        · simp [hx]
        · split <;> simp [hx]

@[simp] theorem Mach.writeReads_wf (epoch ctx pa n : Nat) : Memory.wf (m.writeReads epoch ctx pa n).mem.cells = true := by
  simp [Mach.writeReads, h]

@[simp] theorem Mach.performWrite_wf (t : Txn) (data : Bytes) : Memory.wf (m.performWrite t data).mem.cells = true := by
  unfold Mach.performWrite
  dsimp only
  have hx : Memory.wf (m.xlate t.org t.ctx t.va).1.mem.cells = true := by simp [h]
  generalize m.xlate t.org t.ctx t.va = r at hx ⊢
  obtain ⟨a, _ | ⟨slot, e⟩⟩ := r
  · simp [hx]
  · dsimp only at hx ⊢
    split
    · simp [hx]
    · generalize hy : List.foldl _ _ _ = y
      have hread : Memory.wf y.mem.cells = true := by
        rw [← hy]
        exact Mach.foldl_wf (fun m p h => Mach.writeReads_wf h ..) _ (by simp [hx, Mach.crossWrite_mem])
      generalize hw : Mach.putPiece _ _ _ _ _ = w
      have hput : Memory.wf w.1.mem.cells = true := hw ▸ Mach.putPiece_wf hread ..
      split <;> split <;> simp [hput]

@[simp] theorem Mach.atomTarget_wf (epoch : Nat) (p : Party) (ctx : Nat) (w : AtomWord) (operand : Bytes) (q : Piece) :
    Memory.wf (m.atomTarget epoch p ctx w operand q).m.mem.cells = true := by
  unfold Mach.atomTarget
  dsimp only
  repeat' split
  all_goals simp [h, Mach.wrLine_wf]

@[simp] theorem Mach.atomic_wf (epoch : Nat) (p : Party) (floor ctx va : Nat) (w : AtomWord) (operand : Bytes) :
    Memory.wf (m.atomic epoch p floor ctx va w operand).m.mem.cells = true := by
  unfold Mach.atomic
  split
  · simp [h]
  · split <;> simp [h]

@[simp] theorem Mach.atomicAt_wf (epoch : Nat) (p : Party) (floor ctx va word : Nat) (operand : Bytes) (item : Bool) :
    Memory.wf (m.atomicAt epoch p floor ctx va word operand item).m.mem.cells = true := by
  unfold Mach.atomicAt
  dsimp only
  split
  · simp [h]
  next q _ =>
    split
    · simp [h]
    · have hmet : Memory.wf ((m.crossWrite floor q.pa ctx operand).eccMeet epoch Status.failMemLost.code true
          (readGrains q.pa (AtomWord.ofNat word).bytes ++ partGrains q.pa (AtomWord.ofNat word).bytes)).mem.cells = true := by
        simp [h, Mach.crossWrite_mem]
      split
      · simp [hmet]
      · split <;> simp [hmet]

@[simp] theorem Mach.performAtomic_wf (t : Txn) (word : Nat) (operand : Bytes) :
    Memory.wf (m.performAtomic t word operand).mem.cells = true := by
  unfold Mach.performAtomic
  dsimp only
  generalize hx : Mach.atomicAt _ _ _ _ _ _ _ _ _ = x
  have hdone : Memory.wf x.m.mem.cells = true := by
    rw [← hx]
    refine Mach.atomicAt_wf ?_ ..
    rw [Mach.atomicBytes_cells]
    split <;> simp [h]
  split <;> simp [hdone]

@[simp] theorem Mach.perform_wf (t : Txn) : Memory.wf (m.perform t).mem.cells = true := by
  unfold Mach.perform
  split <;> simp [h]

/-! What it serves, in its order (R124, R154), and the RELEASE writes that wait (R129). -/

@[simp] theorem Mach.serveTxn_wf (target : Nat) (t : Txn) : Memory.wf (m.serveTxn target t).mem.cells = true := by
  unfold Mach.serveTxn
  dsimp only
  rw [Mach.takeIn_cells]
  exact Mach.foldl_wf (fun m x h => Mach.perform_wf h x) _ (Mach.perform_wf (by simp [h]) t)

end

@[simp] theorem Mach.serveNext_wf (fuel : Nat) {m : Mach} (h : Memory.wf m.mem.cells = true) (target : Nat) :
    Memory.wf (Mach.serveNext fuel m target).mem.cells = true := by
  induction fuel generalizing m with
  | zero => exact h
  | succ fuel ih =>
    unfold Mach.serveNext
    split
    · exact h
    · exact ih (Mach.serveTxn_wf h ..)

@[simp] theorem Mach.serveTarget_wf (fuel : Nat) {m : Mach} (h : Memory.wf m.mem.cells = true) (target : Nat) :
    Memory.wf (Mach.serveTarget fuel m target).mem.cells = true :=
  Mach.serveNext_wf fuel (by simp [h]) target

@[simp] theorem Mach.enter_wf {m : Mach} (h : Memory.wf m.mem.cells = true) (t : Txn) (wait : Bool) :
    Memory.wf (m.enter t wait).mem.cells = true := by
  unfold Mach.enter
  split <;> simp [h]

@[simp] theorem Mach.releaseReady_wf (fuel : Nat) {m : Mach} (h : Memory.wf m.mem.cells = true) :
    Memory.wf (Mach.releaseReady fuel m).mem.cells = true := by
  induction fuel generalizing m with
  | zero => exact h
  | succ fuel ih =>
    unfold Mach.releaseReady
    split
    · exact h
    · exact ih (Mach.enter_wf (by simp [h]) ..)

@[simp] theorem Mach.relSettle_wf {m : Mach} (h : Memory.wf m.mem.cells = true) : Memory.wf m.relSettle.mem.cells = true :=
  Mach.recordsGo_wf (Mach.releaseReady_wf _ h)

theorem Mach.arrive_wf {m : Mach} (h : Memory.wf m.mem.cells = true) (o : Origin) (ctx va : Nat) (k : TxnKind) (ecc : Ecc)
    (since way : Nat) (wait : Bool) : Memory.wf (m.arrive o ctx va k ecc since way wait).mem.cells = true := by
  unfold Mach.arrive
  split
  · exact h
  · extract_lets t grid n r m t
    have hr : Memory.wf r.1.mem.cells = true := by
      dsimp only [r]
      split
      · exact h
      · split
        · simp [n, h]
        · split <;> simp [n, h]
    split
    · exact hr
    · exact Mach.relSettle_wf (Mach.enter_wf hr ..)

theorem Mach.serveAged_wf (fuel : Nat) {m : Mach} (h : Memory.wf m.mem.cells = true) (target : Nat) :
    Memory.wf (Mach.serveAged fuel m target).mem.cells = true := by
  induction fuel generalizing m with
  | zero => exact h
  | succ fuel ih =>
    unfold Mach.serveAged
    split
    · exact h
    · split
      · exact ih (Mach.serveTxn_wf h ..)
      · exact h

theorem Mach.promoteTxn_wf {m : Mach} (h : Memory.wf m.mem.cells = true) (target i : Nat) :
    Memory.wf (m.promoteTxn target i).mem.cells = true := by
  unfold Mach.promoteTxn
  dsimp only
  split
  · exact h
  · exact Mach.relSettle_wf (Mach.serveAged_wf _ (by simp [h]) target)

/-- Settles O16: an access arrives, or a waiting one is promoted, and each operation that follows, down to the lines, the records and
the repairs that its ECC calls for, keeps the form. -/
theorem gridCommandsKeepMemoryCanonical : Obligations.GridCommandsKeepMemoryCanonical := by
  intro s hs
  refine ⟨fun fl port tag ctx va len since way ecc wait t ht => ?_, fun fl port tag ctx va data rel ecc wait t ht => ?_,
    fun target i ns t ht => ?_⟩
  · rw [(runFz_next (runFzIf_next ht).2).1]
    exact Mach.arrive_wf hs ..
  · rw [(runFz_next (runFzIf_next ht).2).1]
    exact Mach.arrive_wf hs ..
  · rw [(runFz_next (runFzIf_next ht).2).1]
    dsimp only
    split
    · exact Mach.promoteTxn_wf hs target i
    · exact hs

end Sys2Proof.Machine
end

section
/-! PROOFS. The bandwidth regulators (R200 to R209): a budget that is reached, and the start of a window. -/
namespace Sys2Proof.Machine

/-! What a window's background traffic moves on the channels changes nothing that the regulators go by. -/

/-- The regulators, what waits, and the channels at their cap. -/
def Mach.regView (m : Mach) : Reg × SMap (List Txn) × List Txn × List RecWait × SMap Unit :=
  (m.reg, m.grid.wait, m.grid.relWait, m.rng.recWait, m.stk.capped)

theorem Mach.regView_of_still {m h : Mach} (hstill : m.still = h.still) : m.regView = h.regView :=
  (congrArg Mach.regView hstill :)

@[simp] theorem Mach.moved_regView (m : Mach) (c n : Nat) (by_ : Mover) : (m.moved c n by_).regView = m.regView :=
  Mach.regView_of_still (m.moved_still c n by_)

@[simp] theorem Mach.movedAt_regView (m : Mach) (pa n : Nat) (by_ : Mover) : (m.movedAt pa n by_).regView = m.regView := by
  unfold Mach.movedAt
  split
  · rfl
  · exact m.moved_regView _ n by_

@[simp] theorem Mach.openPage_regView (m : Mach) (pa : Nat) : (m.openPage pa).regView = m.regView :=
  Mach.regView_of_still ((Mach.openRowOf_still ..).trans (Mach.openRowOf_still ..))

@[simp] theorem Mach.setErrs_regView (m : Mach) (pa n : Nat) : (m.setErrs pa n).regView = m.regView := by
  unfold Mach.setErrs
  split <;> rfl

@[simp] theorem Mach.addPoison_regView (m : Mach) (pa : Nat) : (m.addPoison pa).regView = m.regView := by
  unfold Mach.addPoison
  split <;> rfl

@[simp] theorem Mach.clearPoison_regView (m : Mach) (pa n : Nat) : (m.clearPoison pa n).regView = m.regView := by
  unfold Mach.clearPoison
  split
  · split <;> rfl
  · rfl

@[simp] theorem Mach.promote_regView (m : Mach) (ctx page : Nat) : (m.promote ctx page).regView = m.regView := by
  unfold Mach.promote
  dsimp only
  split <;> rfl

@[simp] theorem Mach.wrLine_regView (m : Mach) (ctx pa : Nat) (d : Bytes) : (m.wrLine ctx pa d).regView = m.regView := by
  unfold Mach.wrLine
  split
  · rfl
  · dsimp only
    split
    · rfl
    · split
      · rfl
      · exact m.promote_regView ctx (paPage pa)

@[simp] theorem Mach.copyBytes_regView (m : Mach) (ctx src dst n : Nat) : (m.copyBytes ctx src dst n).regView = m.regView := by
  simp [Mach.copyBytes]

@[simp] theorem Mach.cleanErrs_regView (m : Mach) (here : Nat → Bool) : (m.cleanErrs here).regView = m.regView := by
  refine foldl_keeps Mach.regView (fun w e => ?_) _ m
  dsimp only
  split
  · simp
  · split
    · split <;> simp
    · simp

@[simp] theorem Mach.setKeys_regView (m : Mach) (c : Nat) (k : StkKeys) : (m.setKeys c k).regView = m.regView := rfl

@[simp] theorem Mach.sweepPage_regView (m : Mach) (ctx c page : Nat) : (m.sweepPage ctx c page).regView = m.regView := by
  unfold Mach.sweepPage
  dsimp only
  rw [apply_ite Mach.regView, Mach.moved_regView, Mach.promote_regView, Mach.cleanErrs_regView, Mach.openPage_regView, ite_self]

@[simp] theorem Mach.sweepChan_regView (n : Nat) (m : Mach) (ctx c : Nat) : (Mach.sweepChan n m ctx c).regView = m.regView := by
  induction n generalizing m with
  | zero => rfl
  | succ n ih =>
    unfold Mach.sweepChan
    dsimp only
    split
    · rfl
    · rw [ih, Mach.setKeys_regView, Mach.sweepPage_regView]

theorem Mach.sweepWindow_regView (m : Mach) (ctx : Nat) : (m.sweepWindow ctx).regView = m.regView := by
  unfold Mach.sweepWindow
  split
  · rfl
  · refine foldl_keeps Mach.regView (fun w c => ?_) _ m
    dsimp only
    split
    · rfl
    · exact (Mach.sweepChan_regView ..).trans (Mach.setKeys_regView ..)

theorem Mach.chanWindow_regView (m : Mach) (c : Nat) (work : Bool) : (m.chanWindow c work).regView = m.regView := by
  unfold Mach.chanWindow
  dsimp only
  split
  · rfl
  · rw [Mach.moved_regView, Mach.moved_regView]
    rfl

theorem Mach.copyWindow_regView (m : Mach) (c n : Nat) : (m.copyWindow c n).regView = m.regView := by
  unfold Mach.copyWindow
  dsimp only
  rw [Mach.moved_regView]
  exact foldl_keeps Mach.regView (fun w i => w.openPage_regView _) _ m

/-- The channels' new windows let those that stood at their cap issue again (R179). -/
theorem Mach.chanWindows_regView (m : Mach) :
    m.chanWindows.regView = (m.reg, m.grid.wait, m.grid.relWait, m.rng.recWait, []) := by
  unfold Mach.chanWindows
  dsimp only
  rw [foldl_keeps Mach.regView fun w c => w.sweepWindow_regView c,
    foldl_keeps Mach.regView fun w x => by split <;> [exact w.copyWindow_regView _ _; rfl],
    foldl_keeps Mach.regView fun w c => w.chanWindow_regView c _]
  rfl

/-! A window that is judged (R207 to R209). -/

@[simp] theorem Mach.bump_cfg (m : Mach) (j n k : Nat) : (m.bump j n).cfg k = m.cfg k := by
  unfold Mach.cfg Mach.runVal
  simp only [Mach.bump_frame]

/-- No value in force goes by an event record. -/
@[simp] theorem Mach.event_cfg (m : Mach) (c k v : Nat) (u : UnitRef) (x d j : Nat) : (m.event c k v u x d).cfg j = m.cfg j := by
  have hfb := (m.event_fb c k v u x d).1
  have hcold : (m.event c k v u x d).fb.coldRun = m.fb.coldRun := (congrArg Fb.coldRun hfb :)
  have hcur : (m.event c k v u x d).fb.cur = m.fb.cur := (congrArg Fb.cur hfb :)
  unfold Mach.cfg Mach.runVal
  rw [hcold, hcur]

/-- How a window is judged leaves the values in force and what waits. -/
theorem Mach.regJudge_keeps (m : Mach) (f medium j : Nat) (waited : Bool) (k : Nat) :
    (m.regJudge f medium j waited).cfg k = m.cfg k ∧ (m.regJudge f medium j waited).grid = m.grid ∧
      (m.regJudge f medium j waited).rng = m.rng := by
  unfold Mach.regJudge
  dsimp only
  split
  · exact ⟨rfl, rfl, rfl⟩
  · split
    · refine ⟨by simp, ?_, ?_⟩ <;>
      · rw [Mach.event_none]
        rfl
    · exact ⟨by simp, rfl, rfl⟩

/-! A new window (R200, R202). -/

/-- The window of the master that stands at `k` has begun: no byte of it is counted, and it is not lowered. -/
def Mach.regFresh (m : Mach) (k : Nat) : Prop :=
  (sgetD {} m.reg.masters k).bytes = 0 ∧ (sgetD {} m.reg.masters k).lowered = false

/-- What one step of a fold makes, and every step keeps, holds after the fold. -/
theorem foldl_makes {α β : Type} {f : β → α → β} {p : β → Prop} (hkeeps : ∀ b a, p b → p (f b a)) {a : α}
    (hmakes : ∀ b, p (f b a)) {l : List α} (ha : a ∈ l) (b : β) : p (l.foldl f b) := by
  obtain ⟨l₁, l₂, rfl⟩ := List.append_of_mem ha
  rw [List.foldl_append, List.foldl_cons]
  exact List.foldlRecOn l₂ f (hmakes _) fun b hb a _ => hkeeps b a hb

/-- One master's new window. -/
def Mach.masterStart (m : Mach) (k : Nat) (gb : Nat × Nat) : Mach :=
  m.setReg { m.reg with masters := smod {} m.reg.masters k fun x =>
    { x with bytes := 0, lowered := false, guar := gb.1, budget := gb.2 } }

theorem Mach.masterStart_regFresh_self (m : Mach) (k : Nat) (gb : Nat × Nat) : (m.masterStart k gb).regFresh k := by
  simp [Mach.regFresh, Mach.masterStart, smod]

theorem Mach.regFresh.masterStart {m : Mach} {i : Nat} (h : m.regFresh i) (k : Nat) (gb : Nat × Nat) :
    (m.masterStart k gb).regFresh i := by
  unfold Mach.regFresh Mach.masterStart smod
  simp only [Mach.setReg_reg, sgetD_sput]
  split
  · exact ⟨rfl, rfl⟩
  · exact h

/-- The nine masters of a regulator start one after another. -/
def Mach.mastersStart (m : Mach) (k : Nat) (gbs : List (Nat × Nat)) : Mach :=
  (List.range 9).foldl (fun m j => m.masterStart (9 * k + j) (nth (0, 0) gbs j)) m

/-- What the start of a window leaves: whether the regulators are enabled, what waits, and the channels. -/
def Mach.regFrame (m : Mach) : Bool × Grid × Rings × Stk := (m.reg.enable, m.grid, m.rng, m.stk)

theorem Mach.mastersStart_regFrame (m : Mach) (k : Nat) (gbs : List (Nat × Nat)) :
    (m.mastersStart k gbs).regFrame = m.regFrame := by
  unfold Mach.mastersStart
  exact foldl_keeps Mach.regFrame (f := fun m j => m.masterStart (9 * k + j) (nth (0, 0) gbs j)) (fun _ _ => rfl) _ m

/-- Beside its masters a regulator's start records whether the window is scaled. -/
theorem Mach.regStart_masters (m : Mach) (f medium demand : Nat) (other : List Nat) :
    ∃ gbs, (m.regStart f medium demand other).reg.masters = (m.mastersStart (2 * f + medium) gbs).reg.masters ∧
      (m.regStart f medium demand other).regFrame = m.regFrame := by
  unfold Mach.regStart
  generalize m.regBudgets f medium demand other = bs
  refine ⟨bs.1, ?_⟩
  rw [← m.mastersStart_regFrame (2 * f + medium) bs.1]
  dsimp only
  generalize hw : List.foldl _ m (List.range 9) = w
  rw [show m.mastersStart (2 * f + medium) bs.1 = w from hw]
  split <;> exact ⟨rfl, rfl⟩

theorem Mach.regFresh_congr {m h : Mach} (hmasters : m.reg.masters = h.reg.masters) (i : Nat) : m.regFresh i ↔ h.regFresh i := by
  unfold Mach.regFresh
  rw [hmasters]

theorem Mach.regFresh.regStart {m : Mach} {i : Nat} (hi : m.regFresh i) (f medium demand : Nat) (other : List Nat) :
    (m.regStart f medium demand other).regFresh i := by
  obtain ⟨gbs, hmasters, -⟩ := m.regStart_masters f medium demand other
  rw [Mach.regFresh_congr hmasters]
  unfold Mach.mastersStart
  exact List.foldlRecOn (motive := fun m : Mach => m.regFresh i) _ _ hi fun w hw j _ => hw.masterStart _ _

theorem Mach.regStart_regFresh (m : Mach) {f medium i : Nat} (hi : i / 9 = 2 * f + medium) (demand : Nat) (other : List Nat) :
    (m.regStart f medium demand other).regFresh i := by
  obtain ⟨gbs, hmasters, -⟩ := m.regStart_masters f medium demand other
  rw [Mach.regFresh_congr hmasters]
  unfold Mach.mastersStart
  refine foldl_makes (p := fun m : Mach => m.regFresh i) (fun w j hw => hw.masterStart _ _) (a := i % 9) (fun w => ?_)
    (List.mem_range.mpr (Nat.mod_lt _ (by decide))) m
  rw [show 9 * (2 * f + medium) + i % 9 = i by omega]
  exact w.masterStart_regFresh_self _ _

/-- The four regulators start one after another: every master's window has begun. -/
theorem Mach.regStarts_fresh (m : Mach) (ds other : List Nat) :
    let w := (List.range 4).foldl (fun m k => m.regStart (k / 2) (k % 2) (nth 0 ds k) other) m
    w.regFrame = m.regFrame ∧ ∀ i < 36, w.regFresh i := by
  refine ⟨foldl_keeps Mach.regFrame (fun w k => ?_) _ m, fun i hi => ?_⟩
  · obtain ⟨-, -, hframe⟩ := w.regStart_masters (k / 2) (k % 2) (nth 0 ds k) other
    exact hframe
  · exact foldl_makes (p := fun m : Mach => m.regFresh i) (fun w k hw => hw.regStart _ _ _ _) (a := i / 9)
      (fun w => w.regStart_regFresh (by omega) _ _) (List.mem_range.mpr (by omega)) m

/-- A window starts where nothing waits (R179, R200, R202, R206): the setting is taken after the last window is judged, the channels
begin their windows, and the four regulators theirs. -/
theorem Mach.regWindow_starts {m : Mach} (hwait : m.grid.wait = []) (hrel : m.grid.relWait = []) (hrec : m.rng.recWait = [])
    (buf stk waited : Nat) :
    (m.regWindow buf stk waited).stk.capped = [] ∧
    ((m.regWindow buf stk waited).reg.enable = true ↔ m.cfg kRegEnable = 1) ∧
    ∀ k < 36, (m.regWindow buf stk waited).regFresh k := by
  unfold Mach.regWindow
  dsimp only
  have hjudged := foldl_keeps (fun m : Mach => (m.cfg kRegEnable, m.grid, m.rng))
    (f := fun m i => m.regJudge (i / 18) (i / 9 % 2) (i % 9) (bitOf waited i))
    (fun w i => by
      obtain ⟨hcfg, hgrid, hrng⟩ := w.regJudge_keeps (i / 18) (i / 9 % 2) (i % 9) (bitOf waited i) kRegEnable
      rw [hcfg, hgrid, hrng]) (List.range 36) m
  generalize List.foldl _ m (List.range 36) = judged at hjudged
  obtain ⟨hcfg, hgrid, hrng⟩ : _ ∧ _ ∧ _ := by simpa only [Prod.mk.injEq] using hjudged
  generalize htaken : judged.setReg _ = taken
  have henable : taken.reg.enable = decide (m.cfg kRegEnable = 1) := by rw [← htaken, ← hcfg]; rfl
  have hwaits : taken.grid = m.grid ∧ taken.rng = m.rng := by rw [← htaken, ← hgrid, ← hrng]; exact ⟨rfl, rfl⟩
  generalize (List.range 4).map _ = ds
  have hbegun := taken.chanWindows_regView
  generalize taken.chanWindows = begun at hbegun
  obtain ⟨hreg, hw, hr, hq, hcapped⟩ : _ ∧ _ ∧ _ ∧ _ ∧ _ := by simpa only [Mach.regView, Prod.mk.injEq] using hbegun
  generalize (List.range 6).map _ = other
  obtain ⟨hframe, hfresh⟩ := begun.regStarts_fresh ds other
  generalize List.foldl _ begun (List.range 4) = w at hframe hfresh
  obtain ⟨hen, hg, hrings, hstk⟩ : _ ∧ _ ∧ _ ∧ _ := by simpa only [Mach.regFrame, Prod.mk.injEq] using hframe
  rw [Mach.serveAll_idle (by rw [hg, hw, hwaits.1, hwait]) (by rw [hg, hr, hwaits.1, hrel]) (by rw [hrings, hq, hwaits.2, hrec]),
    hstk, hen, hreg, henable, decide_eq_true_iff]
  exact ⟨hcapped, Iff.rfl, hfresh⟩

/-! A budget that is reached (R204, R205). -/

/-- An enabled master at its budget is lowered and counted. -/
theorem Mach.regReached_lowers {m : Mach} {f medium j : Nat} (henable : m.reg.enable = true)
    (hbudget : (sgetD {} m.reg.masters (9 * (2 * f + medium) + j)).budget ≤ (sgetD {} m.reg.masters (9 * (2 * f + medium) + j)).bytes)
    (hlow : (sgetD {} m.reg.masters (9 * (2 * f + medium) + j)).lowered = false) :
    m.regReached f medium j = (m.setReg { m.reg with
      masters := smod {} m.reg.masters (9 * (2 * f + medium) + j) fun x => { x with lowered := true } }).bump
        (key (0x9300 + (9 * (2 * f + medium) + j)) 2) := by
  unfold Mach.regReached
  exact if_pos (by simpa [henable] using And.intro hbudget hlow)

/-- Settles O21, by what a budget that is reached and the start of a window come to. -/
theorem regulatorsLowerAndStartAgain : Obligations.RegulatorsLowerAndStartAgain := by
  unfold Obligations.RegulatorsLowerAndStartAgain
  refine fun h => ⟨?reached, ?starts⟩
  case reached =>
    intro f medium j hf hmedium hj k x henable hbudget hlow s hs
    subst hs
    refine completes_runIf rfl (by simp [hf, hmedium, hj]) ?_
    rw [Mach.regReached_lowers henable hbudget hlow]
    exact ⟨sgetD_sput_self .., fun i hi => sget_sput_ne _ _ hi, rfl, rfl, rfl⟩
  case starts =>
    intro buf stk waited hwait hrel hrec s hs
    subst hs
    refine completes_run (f := fun m => m.regWindow buf stk waited) rfl ?_
    obtain ⟨hcapped, henable, hfresh⟩ := Mach.regWindow_starts hwait hrel hrec buf stk waited
    exact ⟨hcapped, henable, hfresh⟩

end Sys2Proof.Machine
end

section
/-! PROOFS. The monitors of a floor (R598, R641): the marks that a sample makes and clears in a set in canonical form, and in one
that is not. -/
namespace Sys2Proof.Machine

/-- A set with the mark at `k` made or cleared. -/
def smark (s : SMap Unit) (k : Nat) (on : Bool) : SMap Unit := if on then sput s k () else sdel s k

theorem rising_smark {s : SMap Unit} (h : rising s) (k : Nat) (on : Bool) : rising (smark s k on) := by
  unfold smark
  split
  · exact rising_sput h k ()
  · exact rising_sdel h k

theorem shas_smark {s : SMap Unit} (h : rising s) (k j : Nat) (on : Bool) :
    shas (smark s k on) j = if j = k then on else shas s j := by
  unfold smark shas
  cases on with
  | true => simp only [if_true, sget_sput]; split <;> rfl
  | false => simp only [Bool.false_eq_true, if_false, sget_sdel h]; split <;> rfl

/-- Marks made or cleared one after another from `base + n` on: each is as its own reading has it. -/
theorem shas_foldl_smark (base : Nat) (f : Int × Nat → Bool) {s : SMap Unit} (h : rising s) (l : List Int) (n i : Nat)
    (hi : i < n + l.length) :
    shas ((l.zipIdx n).foldl (fun s r => smark s (base + r.2) (f r)) s) (base + i) =
      if n ≤ i then f (nth 0 l (i - n), i) else shas s (base + i) := by
  induction l generalizing n s with
  | nil =>
    rw [if_neg (by simpa using hi)]
    rfl
  | cons x r ih =>
    rw [List.zipIdx_cons, List.foldl_cons, ih (rising_smark h _ _) (n + 1) (by rw [List.length_cons] at hi; omega), shas_smark h]
    rcases Nat.lt_trichotomy i n with hlt | rfl | hgt
    · rw [if_neg (by omega), if_neg (by omega), if_neg (by omega)]
    · simp [nth]
    · obtain ⟨d, rfl⟩ : ∃ d, i = n + 1 + d := ⟨i - (n + 1), by omega⟩
      simp [nth, show n + 1 + d - n = d + 1 by omega, show n ≤ n + 1 + d by omega]

/-- A sample marks invalid the monitors that read 0 or were found bad, and no other (R598), where their set is in canonical form. -/
theorem Mach.monitors_invalid {m : Mach} (hrising : rising m.age.invalid) {f i : Nat} {reads : List Int} (bad : List Nat)
    (hi : i < 64) (hreads : reads.length = 64) (hzone : (m.heatAt f).level < 2 ∧ (m.heatAt f).stopped = false)
    (hfloor : m.floorLost f = false ∧ m.floorGone f = false) :
    shas (m.monitors f reads bad).age.invalid (64 * f + i) = (bad.contains i || nth 0 reads i = 0) := by
  unfold Mach.monitors
  rw [if_neg (by simp [hzone, hfloor])]
  refine (shas_foldl_smark (64 * f) (fun r => bad.contains r.2 || r.1 = 0) hrising (reads.take 64) 0 i (by simp [hreads, hi])).trans ?_
  rw [if_pos (Nat.zero_le _), List.take_of_length_le hreads.le]
  rfl

/-- A module whose set of invalid monitors, out of canonical form, has monitor 0 of floor 0 twice. -/
def markedTwice : Mach := State.reset.hw.setAge { State.reset.hw.age with invalid := [(0, ()), (0, ())] }

/-- A sample in which all 64 monitors read 13 ps. -/
def soundSample : List Int := List.replicate 64 130

theorem markedTwice_samples : ((markedTwice.heatAt 0).level < 2 ∧ (markedTwice.heatAt 0).stopped = false) ∧
    (markedTwice.floorLost 0 = false ∧ markedTwice.floorGone 0 = false) := by decide +kernel

/-- The sample clears one of the two marks. -/
theorem markedTwice_monitors : shas (markedTwice.monitors 0 soundSample []).age.invalid 0 = true := by decide +kernel

theorem exec_monitorSample {f : Nat} (hf : f < 2) (reads : List Int) (bad : List Nat) (s : State) :
    exec (.monitorSample f reads bad) s = runFz s fun _ m => m.monitors f reads bad :=
  runFzIf_true (by simp [hf]) s _

/-- Refutes O43: it takes every module, also one whose set of invalid monitors has a monitor twice. `sput` makes no such set, and of a
set whose keys rise the clause about MONITOR_SAMPLE holds (`Mach.monitors_invalid`); but of this one a sound reading clears one mark,
and the other still says that the monitor is invalid. -/
theorem not_readingsSetLevelsAndMargins : ¬ Obligations.ReadingsSetLevelsAndMargins := by
  unfold Obligations.ReadingsSetLevelsAndMargins
  intro h
  obtain ⟨-, -, -, -, -, -, -, hmonitors, -⟩ := h markedTwice
  obtain ⟨hzone, hfloor⟩ := markedTwice_samples
  have hruns := hmonitors 0 0 soundSample [] (by decide) (by decide) rfl hzone hfloor (State.reset.setHw markedTwice) rfl
  obtain ⟨-, hinvalid, -⟩ := completes_runFz_effect (exec_monitorSample (by decide) soundSample [] _) hruns
  rw [State.setHw_hw] at hinvalid
  exact absurd (markedTwice_monitors.symm.trans hinvalid) (by decide)

end Sys2Proof.Machine
end

section
/-! PROOFS. A channel's write drain with reads waiting (R156): how many it leaves where the map of aged writes is in canonical
form, and where it is not. -/
namespace Sys2Proof.Machine

/-- Nothing holds the grid side of a channel back (R157, R179): no cap, no bytes put off, no work of the stack path. -/
def Mach.gridMoves (m : Mach) (c : Nat) : Prop :=
  m.stackCap (c / 32) = 100 ∧ shas m.stk.capped c = false ∧ sgetD 0 m.stk.debt c = 0 ∧ sgetD 0 m.stk.path c = 0

theorem Mach.gridMoves_of_gridFree {m : Mach} {c : Nat} (h : m.gridFree c = true) : m.gridMoves c := by
  simp only [Mach.gridFree, Bool.and_eq_true, decide_eq_true_eq, Bool.not_eq_true'] at h
  obtain ⟨⟨⟨⟨hcap, hcapped⟩, hdebt⟩, hpath⟩, -⟩ := h
  exact ⟨hcap, hcapped, hdebt, hpath⟩

theorem Mach.gridMoves.gridHeld {m : Mach} {c : Nat} (h : m.gridMoves c) : m.gridHeld c = false := by
  obtain ⟨hcap, hcapped, hdebt, hpath⟩ := h
  simp [Mach.gridHeld, Mach.atCap, hcap, hcapped, hdebt, hpath]

theorem Mach.stackCap_of_still {m h : Mach} (hstill : m.still = h.still) (s : Nat) : m.stackCap s = h.stackCap s := by
  show m.still.stackCap s = h.still.stackCap s
  rw [hstill]

/-- A write that goes to its array leaves its queue, and puts no byte off. -/
theorem Mach.issueWrite_stk (m : Mach) (c : Nat) (w : Nat × Nat) :
    (m.issueWrite c w).stk.capped = m.stk.capped ∧ (m.issueWrite c w).stk.debt = m.stk.debt ∧
    (m.issueWrite c w).stk.path = m.stk.path ∧
    (m.issueWrite c w).stk.writeQ = (if ((sgetD [] m.stk.writeQ c).drop 1).isEmpty then sdel m.stk.writeQ c
      else sput m.stk.writeQ c ((sgetD [] m.stk.writeQ c).drop 1)) ∧
    (m.issueWrite c w).stk.agedW = (if sgetD 0 m.stk.agedW c ≤ 1 then sdel m.stk.agedW c
      else sput m.stk.agedW c (sgetD 0 m.stk.agedW c - 1)) := by
  unfold Mach.issueWrite Mach.openRowOf Mach.rowActivated Mach.moved
  dsimp only
  split_ifs <;> simp

theorem Mach.gridMoves.issueWrite {m : Mach} {c : Nat} (h : m.gridMoves c) (w : Nat × Nat) : (m.issueWrite c w).gridMoves c := by
  obtain ⟨hcapped, hdebt, hpath, -⟩ := m.issueWrite_stk c w
  unfold Mach.gridMoves
  rwa [Mach.stackCap_of_still (m.issueWrite_still c w), hcapped, hdebt, hpath]

/-- No write of a channel's queue has aged (R154), as a canonical map holds it. -/
def Mach.noneAged (m : Mach) (c : Nat) : Prop := rising m.stk.agedW ∧ sgetD 0 m.stk.agedW c = 0

theorem Mach.noneAged.issueWrite {m : Mach} {c : Nat} (h : m.noneAged c) (w : Nat × Nat) : (m.issueWrite c w).noneAged c := by
  obtain ⟨hrising, haged⟩ := h
  obtain ⟨-, -, -, -, hagedW⟩ := m.issueWrite_stk c w
  rw [haged, if_pos (Nat.zero_le 1)] at hagedW
  unfold Mach.noneAged sgetD
  rw [hagedW, sget_sdel_self hrising]
  exact ⟨rising_sdel hrising c, rfl⟩

/-- A drain leaves as many writes as it is told to, and what a write to its array leaves. -/
theorem Mach.drainSome_leaves {fuel : Nat} {m : Mach} {c floor : Nat} (hmoves : m.gridMoves c) (haged : m.noneAged c)
    (hfloor : 0 < floor) (hle : floor ≤ (sgetD [] m.stk.writeQ c).length) (hfuel : (sgetD [] m.stk.writeQ c).length ≤ floor + fuel) :
    (sgetD [] (Mach.drainSome fuel m c floor).stk.writeQ c).length = floor ∧ (Mach.drainSome fuel m c floor).noneAged c ∧
      (Mach.drainSome fuel m c floor).still = m.still := by
  induction fuel generalizing m with
  | zero => exact ⟨by unfold Mach.drainSome; omega, haged, rfl⟩
  | succ fuel ih =>
    unfold Mach.drainSome
    split
    next hq => simp only [hq, List.length_nil] at hle; omega
    next w rest hq =>
      rw [hq, List.length_cons] at hle hfuel
      rw [hmoves.gridHeld, Bool.or_false]
      split
      next hlast =>
        rw [decide_eq_true_iff] at hlast
        exact ⟨by rw [hq, List.length_cons]; omega, haged, rfl⟩
      next hmore =>
        rw [decide_eq_true_iff] at hmore
        have hne : rest ≠ [] := List.ne_nil_of_length_pos (by omega)
        obtain ⟨-, -, -, hqueue, -⟩ := m.issueWrite_stk c w
        rw [hq, List.drop_one, List.tail_cons, if_neg (by simpa using hne)] at hqueue
        have hrest : sgetD [] (m.issueWrite c w).stk.writeQ c = rest := by rw [hqueue, sgetD_sput_self]
        obtain ⟨hlen, haged', hstill⟩ := ih (hmoves.issueWrite w) (haged.issueWrite w) (by rw [hrest]; omega) (by rw [hrest]; omega)
        exact ⟨hlen, haged', hstill.trans (m.issueWrite_still c w)⟩

theorem Mach.issueAged_none {m : Mach} {c : Nat} (h : sgetD 0 m.stk.agedW c = 0) (fuel : Nat) : Mach.issueAged fuel m c = m := by
  cases fuel with
  | zero => rfl
  | succ fuel => rw [Mach.issueAged, h]

theorem Mach.serveNext_none {m : Mach} {target : Nat} (h : m.nextTxn target = none) (fuel : Nat) :
    Mach.serveNext fuel m target = m := by
  cases fuel with
  | zero => rfl
  | succ fuel => rw [Mach.serveNext, h]

/-- Channel `c` once it has drained to 16 writes. -/
def Mach.drained (m : Mach) (c : Nat) : Mach :=
  let d := Mach.drainSome 64 m c 16
  d.setStk { d.stk with draining := sdel d.stk.draining c }

/-- With reads waiting, a queue of 48 writes or more drains to 16, and nothing else moves where the channel can serve nothing. -/
theorem Mach.drainWrites_leavesSixteen {m : Mach} {c : Nat} (hfree : m.gridFree c = true) (haged : m.noneAged c)
    (hreads : m.readWaits c = true) (hfull : 48 ≤ (sgetD [] m.stk.writeQ c).length) (hroom : (sgetD [] m.stk.writeQ c).length ≤ 64)
    (hrel : m.grid.relWait = []) (hrec : m.rng.recWait = []) (hnext : (m.drained c).nextTxn (128 + c) = none) :
    m.drainWrites c = m.drained c ∧ (sgetD [] (m.drained c).stk.writeQ c).length = 16 := by
  obtain ⟨hlen, ⟨-, hnone⟩, hstill⟩ :=
    Mach.drainSome_leaves (fuel := 64) (floor := 16) (Mach.gridMoves_of_gridFree hfree) haged (by decide) (by omega) (by omega)
  obtain ⟨-, hgrid, -, hrng, -⟩ := Mach.parts_of_still hstill
  have hserved : Mach.serveNext (sgetD [] (m.drained c).grid.wait (128 + c)).length
      (Mach.issueAged 64 (m.drained c) (128 + c - 128)) (128 + c) = m.drained c := by
    rw [Nat.add_sub_cancel_left, Mach.issueAged_none (m := m.drained c) hnone, Mach.serveNext_none hnext]
  refine ⟨?_, hlen⟩
  unfold Mach.drainWrites Mach.serveTarget
  dsimp only
  rw [if_pos (by simp [hfull]), hreads, if_pos rfl, hlen, if_neg (by decide), if_neg (by omega)]
  refine (congrArg Mach.relSettle hserved).trans (Mach.relSettle_idle ?_ ?_)
  · exact (congrArg Grid.relWait hgrid).trans hrel
  · exact (congrArg Rings.recWait hrng).trans hrec

/-- A channel with 48 queued writes and a read that waits, whose map of aged writes, out of canonical form, has the channel twice: its
first entry says that none has aged, a second says 100. -/
def agedTwice : Mach :=
  let m := State.reset.hw
  (m.setStk { m.stk with writeQ := [(0, List.replicate 48 (2 ^ 46, 8))], agedW := [(0, 0), (0, 100)] }).setGrid
    { m.grid with wait := [(128, [{ org := .port 0 40 9, ctx := 6, va := 0, kind := .read 8 }])] }

theorem agedTwice_drains : agedTwice.gridFree 0 = true ∧ agedTwice.readWaits 0 = true ∧
    (sgetD [] agedTwice.stk.writeQ 0).length = 48 ∧ agedTwice.grid.relWait = [] ∧ agedTwice.rng.recWait = [] ∧
    sgetD 0 agedTwice.stk.agedW 0 = 0 ∧ (agedTwice.drained 0).nextTxn 128 = none := by decide +kernel

/-- The first write to its array takes the first entry out, and as aged writes the last 16 go too (R154). -/
theorem agedTwice_drainWrites : (sgetD [] (agedTwice.drainWrites 0).stk.writeQ 0).length = 0 := by decide +kernel

theorem exec_writeDrain {c : Nat} (hc : c < 192) (s : State) :
    exec (.writeDrain c) s = runFz s fun _ m => if (m.stackAt (c / 32)).selfRefresh then m else m.drainWrites c :=
  runFzIf_true (by simp [hc]) s _

theorem Mach.selfRefresh_of_gridFree {m : Mach} {c : Nat} (h : m.gridFree c = true) : (m.stackAt (c / 32)).selfRefresh = false := by
  simp only [Mach.gridFree, Bool.and_eq_true, Bool.not_eq_true'] at h
  exact h.2

/-- Refutes O20: it takes every module, also one whose map of aged writes has a channel twice. `sput` makes no such map, and of one
whose keys rise the clause about a drain to 16 holds (`Mach.drainWrites_leavesSixteen`); but of this one the queue, whose first entry
says that no write has aged, is empty after WRITE_DRAIN. -/
theorem not_channelControllersKeepTheirQueues : ¬ Obligations.ChannelControllersKeepTheirQueues := by
  unfold Obligations.ChannelControllersKeepTheirQueues
  intro h
  obtain ⟨-, hdrains, -⟩ := h agedTwice
  obtain ⟨hfree, hreads, hlen, hrel, hrec, haged, hnext⟩ := agedTwice_drains
  have hruns := hdrains 0 (by decide) hfree hreads (by rw [hlen]) (by rw [hlen]; decide) hrel hrec haged hnext
    (State.reset.setHw agedTwice) rfl
  obtain ⟨-, hleft⟩ := completes_runFz_effect (exec_writeDrain (by decide) _) hruns
  rw [State.setHw_hw, if_neg (by rw [Mach.selfRefresh_of_gridFree hfree]; decide), agedTwice_drainWrites] at hleft
  cases hleft

end Sys2Proof.Machine
end

section
/-! PROOFS. The budgets of a regulator's masters (R202, R203), and what a new window writes of them. -/
namespace Sys2Proof.Machine

/-! What a new window computes. -/

theorem nth_map_range {α : Type} (d : α) (g : Nat → α) {n i : Nat} (hi : i < n) : nth d ((List.range n).map g) i = g i := by
  induction n generalizing g i with
  | zero => exact absurd hi (Nat.not_lt_zero i)
  | succ n ih =>
    rw [List.range_succ_eq_map, List.map_cons, List.map_map]
    cases i with
    | zero => rfl
    | succ i => exact ih (g ∘ Nat.succ) (Nat.lt_of_succ_lt_succ hi)

/-- A master's budget is its guarantee and, where it demands, a share of what its partition has over; in no partition it has no such
share. -/
theorem Mach.regBudgets_share (m : Mach) (f medium demand : Nat) (other : List Nat) {j : Nat} (hj : j < 9) :
    ∃ guar share, nth (0, 0) (m.regBudgets f medium demand other).1 j = (guar, guar + if bitOf demand j then share else 0) := by
  unfold Mach.regBudgets
  dsimp only
  rw [nth_map_range _ _ hj]
  split
  · exact ⟨_, 0, by rw [ite_self, Nat.add_zero]⟩
  · exact ⟨_, _, rfl⟩

/-! What it writes. -/

/-- The window of the master that stands at `k` has begun with the guarantee and the budget `gb`. -/
def Mach.regBegun (m : Mach) (k : Nat) (gb : Nat × Nat) : Prop :=
  (sgetD {} m.reg.masters k).guar = gb.1 ∧ (sgetD {} m.reg.masters k).budget = gb.2 ∧ m.regFresh k

theorem Mach.masterStart_regBegun_self (m : Mach) (k : Nat) (gb : Nat × Nat) : (m.masterStart k gb).regBegun k gb := by
  refine ⟨?_, ?_, m.masterStart_regFresh_self k gb⟩ <;> simp [Mach.masterStart, smod]

theorem Mach.masterStart_masters_ne (m : Mach) {k i : Nat} (h : i ≠ k) (gb : Nat × Nat) :
    sgetD {} (m.masterStart k gb).reg.masters i = sgetD {} m.reg.masters i := by
  simp [Mach.masterStart, smod, sgetD_sput, h]

/-- Another master's start leaves a window that has begun. -/
theorem Mach.regBegun.masterStart_ne {m : Mach} {k i : Nat} {gb : Nat × Nat} (hbegun : m.regBegun i gb) (h : i ≠ k)
    (gb' : Nat × Nat) : (m.masterStart k gb').regBegun i gb := by
  unfold Mach.regBegun Mach.regFresh
  rwa [m.masterStart_masters_ne h gb']

/-- Each of the nine masters begins with its own pair. -/
theorem Mach.mastersStart_regBegun (m : Mach) (k : Nat) (gbs : List (Nat × Nat)) {j : Nat} (hj : j < 9) :
    (m.mastersStart k gbs).regBegun (9 * k + j) (nth (0, 0) gbs j) := by
  unfold Mach.mastersStart
  refine foldl_makes (p := fun w : Mach => w.regBegun (9 * k + j) (nth (0, 0) gbs j)) (fun w i hw => ?_)
    (fun w => w.masterStart_regBegun_self _ _) (List.mem_range.mpr hj) m
  by_cases h : i = j
  · subst h
    exact w.masterStart_regBegun_self _ _
  · exact hw.masterStart_ne (by omega) _

/-- The masters start with the pairs that the window has computed (R202). -/
theorem Mach.regStart_masters_eq (m : Mach) (f medium demand : Nat) (other : List Nat) :
    (m.regStart f medium demand other).reg.masters =
      (m.mastersStart (2 * f + medium) (m.regBudgets f medium demand other).1).reg.masters := by
  unfold Mach.regStart
  dsimp only
  split <;> rfl

/-- Settles O13, by the share that a master's budget adds to its guarantee, and by the pair that its window begins with. -/
theorem anIdleMasterKeepsItsGuarantee : Obligations.AnIdleMasterKeepsItsGuarantee := by
  unfold Obligations.AnIdleMasterKeepsItsGuarantee
  intro m f medium demand j other hj gb x
  obtain ⟨guar, share, hgb⟩ := m.regBudgets_share f medium demand other hj
  have hbegun := m.mastersStart_regBegun (2 * f + medium) (m.regBudgets f medium demand other).1 hj
  unfold Mach.regBegun Mach.regFresh at hbegun
  rw [← m.regStart_masters_eq] at hbegun
  obtain ⟨hguar, hbudget, hbytes, hlowered⟩ := hbegun
  refine ⟨fun hidle => ?_, ?_, hguar, hbudget, hbytes, hlowered⟩
  · simp [gb, hgb, hidle]
  · simp [gb, hgb]

end Sys2Proof.Machine
end

section
/-! PROOFS. An item's reads of calm memory (R88, R91, R133, R216): nothing waits before them and they meet no error, so that memory stays
calm, and rings and sweep engines stay as they are. -/
namespace Sys2Proof.Machine

/-- The other floor holds the line, with no invalidation outstanding. -/
def DirLine.isHeld : DirLine → Bool
  | .held _ => true
  | .inval _ _ => false

/-- The line has its bytes, and no fill is pending. -/
def RlcLine.isShared : RlcLine → Bool
  | .shared _ _ => true
  | .fill _ _ => false

theorem Mach.calm_iff (m : Mach) : m.calm = true ↔ m.mem.errs = [] ∧ m.stk.errs = [] ∧ m.grid.wait = [] ∧ m.grid.relWait = [] ∧
    m.rng.recWait = [] ∧ (∀ e ∈ m.die.dir, e.2.isHeld = true) ∧ ∀ e ∈ m.die.rlc, e.2.isShared = true := by
  have hcalm : m.calm = (m.mem.errs.isEmpty && m.stk.errs.isEmpty && m.grid.wait.isEmpty && m.grid.relWait.isEmpty &&
      m.rng.recWait.isEmpty && (m.die.dir.all fun e => e.2.isHeld) && m.die.rlc.all fun e => e.2.isShared) := rfl
  simp only [hcalm, Bool.and_eq_true, List.isEmpty_iff, List.all_eq_true, and_assoc]

/-- What `calm` asks of, with the rings and the sweep engines. -/
def Mach.rest (m : Mach) :=
  (m.mem.errs, m.stk.errs, m.grid.wait, m.grid.relWait, m.die.dir, m.die.rlc, m.rng, m.swp)

/-- `m` is calm, and its rings and sweep engines are those of `h`. -/
def Mach.restsAs (m h : Mach) : Prop := m.calm = true ∧ m.rng = h.rng ∧ m.swp = h.swp

theorem Mach.restsAs.refl {m : Mach} (h : m.calm = true) : m.restsAs m := ⟨h, rfl, rfl⟩

theorem Mach.restsAs.trans {a b c : Mach} (hab : a.restsAs b) (hbc : b.restsAs c) : a.restsAs c :=
  ⟨hab.1, hab.2.1.trans hbc.2.1, hab.2.2.trans hbc.2.2⟩

/-- A step that leaves all of it leaves the module calm. -/
theorem Mach.restsAs.of_rest {a b c : Mach} (h : b.restsAs c) (hrest : a.rest = b.rest) : a.restsAs c := by
  obtain ⟨hcalm, hrng, hswp⟩ := h
  simp only [Mach.rest, Prod.mk.injEq] at hrest
  obtain ⟨hmem, hstk, hwait, hrel, hdir, hrlc, hrings, hsweep⟩ := hrest
  refine ⟨?_, hrings.trans hrng, hsweep.trans hswp⟩
  rw [Mach.calm_iff] at hcalm ⊢
  rwa [hmem, hstk, hwait, hrel, hdir, hrlc, hrings]

theorem Mach.restsAs.ite {a b h : Mach} {p : Prop} [Decidable p] (ha : a.restsAs h) (hb : b.restsAs h) :
    (if p then a else b).restsAs h := by
  split
  · exact ha
  · exact hb

/-! The steps of a read that leave it. -/

@[simp] theorem Mach.bump_rest (m : Mach) (k n : Nat) : (m.bump k n).rest = m.rest := rfl

theorem Mach.rest_of_still {m h : Mach} (hstill : m.still = h.still) : m.rest = h.rest := (congrArg Mach.rest hstill :)

@[simp] theorem Mach.xlate_rest (m : Mach) (o : Origin) (ctx va : Nat) : (m.xlate o ctx va).1.rest = m.rest := by
  obtain ⟨ctr, tc, h⟩ := m.xlate_frame o ctx va
  rw [h]
  rfl

@[simp] theorem Mach.joinWindow_rest (m : Mach) (ctx line since : Nat) : (m.joinWindow ctx line since).1.rest = m.rest := by
  unfold Mach.joinWindow
  dsimp only
  split <;> rfl

@[simp] theorem Mach.itemRow_rest (m : Mach) (pa : Nat) : (m.itemRow pa).rest = m.rest := by
  unfold Mach.itemRow Mach.endCopy
  split
  · split <;> rfl
  · rfl

@[simp] theorem Mach.readCount_rest (m : Mach) (o : Origin) (medium n : Nat) : (m.readCount o medium n).rest = m.rest := by
  unfold Mach.readCount Mach.regCount
  split <;> rfl

@[simp] theorem Mach.putBridge_rest (m : Mach) (f c l a : Nat) (d : Bytes) : (m.putBridge f c l a d).rest = m.rest := by
  obtain ⟨hdir, hrlc⟩ := m.putBridge_lines f c l a d
  simp [Mach.rest, hdir, hrlc]

theorem Mach.movedLater_still (m : Mach) (c n : Nat) (by_ : Mover) : (m.movedLater c n by_).still = m.still := by
  unfold Mach.movedLater
  dsimp only
  split
  · exact m.moved_still c _ by_
  · split <;> exact m.moved_still c _ _

theorem Mach.movedBy_still (m : Mach) (item : Bool) (c n : Nat) (by_ : Mover) : (m.movedBy item c n by_).still = m.still := by
  unfold Mach.movedBy
  split
  · exact m.movedLater_still c n by_
  · exact m.moved_still c n by_

/-- Where the arrays hold no error a read of them meets none. -/
theorem Mach.eccMeet_calm {m : Mach} (h : m.calm = true) (epoch st : Nat) (back : Bool) (l : List Nat) (by_ : Mover) :
    m.eccMeet epoch st back l by_ = m := by
  obtain ⟨hmem, hstk, -⟩ := m.calm_iff.mp h
  exact if_pos (by simp [hmem, hstk])

theorem Mach.arrayRead_restsAs {m h : Mach} (hm : m.restsAs h) (epoch pa n : Nat) (by_ : Mover) (item : Bool) :
    (m.arrayRead epoch pa n by_ item).restsAs h := by
  have hmeet : ∀ x : Mach, x.still = m.still →
      (x.eccMeet epoch Status.failMemLost.code false (readGrains pa n)).restsAs h := fun x hx => by
    have hrests : x.restsAs h := hm.of_rest (Mach.rest_of_still hx)
    rwa [Mach.eccMeet_calm hrests.1]
  unfold Mach.arrayRead
  split
  · exact hm
  · refine hmeet _ ?_
    split
    · rfl
    · rw [Mach.bump_still, Mach.movedBy_still, Mach.openRowOf_still]

/-! What waits, and remote lines. -/

theorem Mach.behind_calm {m : Mach} (h : m.calm = true) (t : Txn) : m.behind t = m := by
  obtain ⟨-, -, hwait, -⟩ := m.calm_iff.mp h
  exact if_pos (by simp [hwait])

/-- No line awaits an INV_ACK. -/
theorem Mach.ackNow_calm {m : Mach} (h : m.calm = true) (pa : Nat) : m.ackNow pa = m := by
  obtain ⟨-, -, -, -, -, hdir, -⟩ := m.calm_iff.mp h
  unfold Mach.ackNow
  dsimp only
  split
  case h_1 hinval => exact absurd (hdir _ (mem_of_sget hinval)) (by simp [DirLine.isHeld])
  case h_2 => rfl

/-- No line of a remote line cache awaits its fill. -/
theorem Mach.rlcFind_calm {m : Mach} (h : m.calm = true) {fl pa w : Nat} {l : RlcLine} (hfind : m.rlcFind fl pa = some (w, l)) :
    l.isShared = true := by
  obtain ⟨-, -, -, -, -, -, hrlc⟩ := m.calm_iff.mp h
  unfold Mach.rlcFind at hfind
  split at hfind
  · cases hfind
  · obtain ⟨v, -, hv⟩ := List.exists_of_findSome?_eq_some hfind
    split at hv
    case h_1 hget =>
      split at hv
      · cases hv
        rfl
      · cases hv
    case h_2 hget => exact absurd (hrlc _ (mem_of_sget hget)) (by simp [RlcLine.isShared])
    case h_3 => cases hv

theorem Mach.setDir_restsAs {m h : Mach} (hm : m.restsAs h) {d : SMap DirLine} (hd : ∀ e ∈ d, e.2.isHeld = true) :
    (m.setDie { m.die with dir := d }).restsAs h := by
  obtain ⟨hcalm, hrng, hswp⟩ := hm
  refine ⟨?_, hrng, hswp⟩
  rw [Mach.calm_iff] at hcalm ⊢
  obtain ⟨hmem, hstk, hwait, hrel, hrec, -, hrlc⟩ := hcalm
  exact ⟨hmem, hstk, hwait, hrel, hrec, hd, hrlc⟩

/-- A line installed with its bytes. -/
theorem Mach.install_restsAs {m h : Mach} (hm : m.restsAs h) (k line : Nat) (d : Bytes) :
    (m.setDie { m.die with rlc := sput m.die.rlc k (.shared line d) }).restsAs h := by
  obtain ⟨hcalm, hrng, hswp⟩ := hm
  refine ⟨?_, hrng, hswp⟩
  rw [Mach.calm_iff] at hcalm ⊢
  obtain ⟨hmem, hstk, hwait, hrel, hrec, hdir, hrlc⟩ := hcalm
  refine ⟨hmem, hstk, hwait, hrel, hrec, hdir, fun e he => ?_⟩
  rcases mem_sput he with rfl | hold
  · rfl
  · exact hrlc e hold

theorem Mach.dropVictim_restsAs {m h : Mach} (hm : m.restsAs h) (pa way : Nat) : (m.dropVictim pa way).restsAs h := by
  obtain ⟨-, -, -, -, -, hdir, -⟩ := m.calm_iff.mp hm.1
  exact Mach.setDir_restsAs hm fun e he => hdir e (List.mem_filter.mp he).1

theorem Mach.answerFill_restsAs {m h : Mach} (hm : m.restsAs h) (epoch ctx pa way : Nat) (item : Bool) :
    (m.answerFill epoch ctx pa way item).restsAs h := by
  have hread := Mach.arrayRead_restsAs hm epoch (pa / 256 * 256) 256 .grid item
  unfold Mach.answerFill
  dsimp only
  generalize m.arrayRead epoch (pa / 256 * 256) 256 .grid item = x at hread ⊢
  obtain ⟨-, -, -, -, -, hdir, -⟩ := x.calm_iff.mp hread.1
  split
  · refine (Mach.setDir_restsAs hread fun e he => ?_).of_rest (Mach.putBridge_rest ..)
    rcases mem_sput he with rfl | hold
    · rfl
    · exact hdir e hold
  · exact hread.of_rest (Mach.putBridge_rest ..)

theorem Mach.itemFill_restsAs {m h : Mach} (hm : m.restsAs h) (o : Origin) (epoch ctx : Nat) (noAlloc : Bool) (pa : Nat) :
    (m.itemFill o epoch ctx noAlloc pa).restsAs h := by
  have hcross : (m.putBridge o.floor bRead (pa / 256) ctx []).restsAs h := hm.of_rest (Mach.putBridge_rest ..)
  unfold Mach.itemFill
  dsimp only
  split
  case h_1 => exact hm
  case h_2 hfind => exact absurd (Mach.rlcFind_calm hm.1 hfind) (by simp [RlcLine.isShared])
  case h_3 =>
    rw [Mach.ackNow_calm hm.1]
    split
    · exact hcross
    · split
      case h_1 w _ _ =>
        have hfilled := Mach.answerFill_restsAs (Mach.dropVictim_restsAs
          (hm.of_rest (Mach.putBridge_rest m o.floor bFill (pa / 256) w [])) pa w) epoch ctx pa w true
        split
        · exact Mach.install_restsAs hfilled ..
        · exact hfilled
      case h_2 => exact hcross

/-! Reads. -/

theorem Mach.itemReadOne_restsAs {m h : Mach} (hm : m.restsAs h) (o : Origin) (by_ : Mover) (epoch ctx va n : Nat) :
    (m.itemReadOne o by_ epoch ctx va n).1.restsAs h := by
  have hx : (m.xlate o ctx va).1.restsAs h := hm.of_rest (m.xlate_rest o ctx va)
  unfold Mach.itemReadOne
  dsimp only
  generalize m.xlate o ctx va = x at hx ⊢
  split
  · exact hx.of_rest rfl
  · rename_i slot e _
    split
    · exact hx.of_rest rfl
    · rw [Mach.behind_calm hx.1]
      split
      · exact hx
      · generalize ((x.1.txnPlaces o (.read n) slot e va).headD (e.place (va - e.va) o.floor)) = p
        have hjoin : ((x.1.itemRow (p.pa (va % 256))).joinWindow ctx (p.pa (va % 256) / 256 * 256) 33).1.restsAs h :=
          hx.of_rest ((Mach.joinWindow_rest ..).trans (Mach.itemRow_rest ..))
        generalize ((x.1.itemRow (p.pa (va % 256))).joinWindow ctx (p.pa (va % 256) / 256 * 256) 33).1 = y at hjoin ⊢
        have hfill : (if (!e.mirror && decide (p.floor ≠ o.floor)) = true then y.itemFill o epoch ctx e.noAlloc (p.pa (va % 256))
            else y).restsAs h := .ite (Mach.itemFill_restsAs hjoin ..) hjoin
        generalize (if (!e.mirror && decide (p.floor ≠ o.floor)) = true then y.itemFill o epoch ctx e.noAlloc (p.pa (va % 256))
            else y) = z at hfill ⊢
        have hread : (if ((z.rlcHit epoch o.floor (p.pa (va % 256)) n).isSome && (!e.mirror && decide (p.floor ≠ o.floor))) = true
            then z else z.arrayRead epoch (p.pa (va % 256)) n by_ true).restsAs h :=
          .ite hfill (Mach.arrayRead_restsAs hfill ..)
        generalize (if ((z.rlcHit epoch o.floor (p.pa (va % 256)) n).isSome && (!e.mirror && decide (p.floor ≠ o.floor))) = true
            then z else z.arrayRead epoch (p.pa (va % 256)) n by_ true) = w at hread ⊢
        cases w.readPiece epoch ctx o.floor ⟨slot, e, p, p.pa (va % 256), va, n⟩ with
        | ok d => exact .ite (hread.of_rest (Mach.readCount_rest ..)) hread
        | error f => exact hread

theorem Mach.itemReadBy_restsAs {m h : Mach} (hm : m.restsAs h) (o : Origin) (by_ : SegEnt → Place → Mover)
    (epoch ctx va n : Nat) : (m.itemReadBy o by_ epoch ctx va n).1.restsAs h :=
  List.foldlRecOn (motive := fun a : Mach × Except Fail Bytes => a.1.restsAs h) (pieces va n) _ hm
    fun _ ha _ _ => Mach.itemReadOne_restsAs ha ..

theorem Mach.itemRead_restsAs {m h : Mach} (hm : m.restsAs h) (o : Origin) (epoch ctx va n : Nat) :
    (m.itemRead o epoch ctx va n).1.restsAs h := Mach.itemReadBy_restsAs hm ..

end Sys2Proof.Machine
end

section
/-! PROOFS. Sweep items and sessions, and an engine that faults (R237, R244, R249, R251, R253, R254, R635). -/
namespace Sys2Proof.Machine

/-! An item's start and end. -/

theorem Item.find?_map_replace {l : List Item} {k : Nat} {i j : Item} (h : l.find? (fun x => decide (x.key = k)) = some i)
    (hsame : j.key = i.key) :
    (l.map fun x => if x.key = j.key then j else x).find? (fun x => decide (x.key = k)) = some j := by
  have hkey : i.key = k := by simpa using List.find?_some h
  have hkeys : ((fun x : Item => decide (x.key = k)) ∘ fun x => if x.key = j.key then j else x) = fun x => decide (x.key = k) := by
    funext x
    rw [Function.comp_apply]
    split
    case isTrue hx => rw [hx]
    case isFalse => rfl
  rw [List.find?_map, hkeys, h, Option.map_some, if_pos hsame.symm]

theorem Mach.item?_startItem {m : Mach} {k : Nat} {i : Item} (h : m.item? k = some i) :
    (m.startItem k).item? k = some { i with started := true } := by
  unfold Mach.startItem
  rw [h]
  exact Item.find?_map_replace h rfl

theorem Mach.item?_none_iff {m : Mach} {k : Nat} : m.item? k = none ↔ ∀ j ∈ m.rng.items, j.key ≠ k := by
  simp [Mach.item?]

theorem Mach.finish_items (m : Mach) (k : Nat) (st : Status) (unit : UnitRef) (flags result : Nat) :
    (m.finish k st unit flags result).rng.items = m.rng.items.filter fun j => j.key ≠ k :=
  congrArg Prod.snd (m.finish_places k st unit flags result)

/-- An item that has ended is accepted no longer. -/
theorem Mach.item?_finish (m : Mach) (k : Nat) (st : Status) (unit : UnitRef) (flags result : Nat) :
    (m.finish k st unit flags result).item? k = none := by
  rw [Mach.item?_none_iff, Mach.finish_items]
  exact fun j hj => by simpa using (List.mem_filter.mp hj).2

/-- Another item's end brings no item back. -/
theorem Mach.item?_none_finish {m : Mach} {k : Nat} (h : m.item? k = none) (j : Nat) (st : Status) (unit : UnitRef)
    (flags result : Nat) : (m.finish j st unit flags result).item? k = none := by
  rw [Mach.item?_none_iff, Mach.finish_items]
  exact fun x hx => Mach.item?_none_iff.mp h x (List.mem_filter.mp hx).1

theorem Mach.item?_none_startItem {m : Mach} {k : Nat} (h : m.item? k = none) (j : Nat) : (m.startItem j).item? k = none := by
  unfold Mach.startItem
  split
  · exact h
  · rename_i i hi
    rw [Mach.item?_none_iff] at h ⊢
    intro x hx
    obtain ⟨y, hy, rfl⟩ := List.mem_map.mp hx
    split
    case isTrue hsame => exact fun hk => h y hy (hsame.trans hk)
    case isFalse => exact h y hy

/-- Opens that complete bring no item back. -/
theorem Mach.item?_none_opensGo {m : Mach} {k : Nat} (h : m.item? k = none) : m.opensGo.item? k = none := by
  have hopened : ∀ (m : Mach) (j : Nat), m.item? k = none → (m.sessionOpened j).item? k = none := fun m j h => by
    unfold Mach.sessionOpened
    split
    · split
      · exact h
      · split
        · exact Mach.item?_none_finish h ..
        · have hstart := Mach.item?_none_startItem h j
          dsimp only
          split
          · exact hstart
          · exact Mach.item?_none_finish (by exact hstart) ..
    · exact h
  exact List.foldlRecOn (motive := fun a : Mach => a.item? k = none) _ _ h fun a ha j _ => hopened a j ha

/-- A run that is combined ends its item (R237, R255). -/
theorem Mach.swpCombine_ends {m : Mach} {k : Nat} {i : Item} {r : SwpRun} (hitem : m.item? k = some i)
    (hrun : sget m.swp.runs k = some r) : (m.swpCombine k).item? k = none := by
  unfold Mach.swpCombine
  rw [hrun, hitem]
  dsimp only
  split
  · exact Mach.item?_none_opensGo (Mach.item?_finish ..)
  · split <;> exact Mach.item?_none_opensGo (Mach.item?_finish ..)

/-! What the end of an item leaves of the sweep engines. -/

@[simp] theorem Mach.bump_swp (m : Mach) (k n : Nat) : (m.bump k n).swp = m.swp := rfl

@[simp] theorem Mach.event_swp (m : Mach) (c k v : Nat) (u : UnitRef) (x d : Nat) : (m.event c k v u x d).swp = m.swp := by
  have h := m.event_frame c k v u x d
  simp only [h]

@[simp] theorem Mach.ledger_swp (m : Mach) (c k o : Nat) (u : UnitRef) (s i x d p : Nat) :
    (m.ledger c k o u s i x d p).swp = m.swp := by
  have h := m.ledger_frame c k o u s i x d p
  simp only [h]

@[simp] theorem Mach.recordWrite_swp (m : Mach) (e fl c va : Nat) (d : Bytes) : (m.recordWrite e fl c va d).1.swp = m.swp := by
  obtain ⟨ctr, tc, h⟩ := m.recordWrite_frame e fl c va d
  obtain ⟨⟨-, -, -, -, -, -, -, -, hswp, -⟩, -⟩ := h
  exact hswp

@[simp] theorem Mach.sendVc2_swp (m : Mach) (dest chan req st : Nat) (content : Bytes) :
    (m.sendVc2 dest chan req st content).swp = m.swp := by
  have hforward : ∀ (m : Mach) (tag : Nat) (b : Bytes), (m.forwardVc2 none tag b).swp = m.swp := fun m tag b => by
    unfold Mach.forwardVc2
    dsimp only
    split
    · rfl
    · split <;> simp
  unfold Mach.sendVc2
  split
  · simp
  · exact foldl_keeps Mach.swp (fun m _ => hforward m ..) _ m

@[simp] theorem Mach.notice_swp (m : Mach) (r : Ring) : (m.notice r).swp = m.swp := by
  unfold Mach.notice
  split
  · split
    · split <;> simp
    · rfl
  · unfold Mach.coreNotice
    dsimp only
    split <;> simp
  · unfold Mach.hpNotice
    split
    · simp
    · split <;> simp
  · rfl

@[simp] theorem Mach.answer_swp (m : Mach) (r seq kind user epoch : Nat) (notify : Bool) (st : Status) (unit : UnitRef)
    (flags result : Nat) : (m.answer r seq kind user epoch notify st unit flags result).swp = m.swp := by
  have hring : ∀ (m : Mach) (r : Nat) (x : Ring), (m.setRing r x).swp = m.swp := fun _ _ _ => rfl
  have hnow : (m.answerNow r seq kind user epoch notify st unit flags result).swp = m.swp := by
    unfold Mach.answerNow
    split
    · rfl
    · dsimp only
      split
      · split <;> simp [hring]
      · simp [hring]
  unfold Mach.answer
  split
  · rfl
  · split
    · rfl
    · exact hnow

@[simp] theorem Mach.retireEpoch_swp (m : Mach) : m.retireEpoch.swp = m.swp := by
  unfold Mach.retireEpoch
  split
  · rfl
  · split <;> simp

@[simp] theorem Mach.dropTraverse_swp (m : Mach) (k ctx : Nat) (st : Status) : (m.dropTraverse k ctx st).swp = m.swp := by
  have hnotices : ∀ (m : Mach) (l : List Claim) (n : Nat × Nat × Nat), (l.foldl (fun m c =>
      if (m.portAt c.port).usable then (m.sendMsg c.port msgTraverse [3, c.tag, 0, n.1, n.2.1, n.2.2]).bump kTravFailNotices
      else m) m).swp = m.swp := fun m l n => foldl_keeps Mach.swp (fun m c => by split <;> simp) l m
  have hdropped : ∀ (m : Mach) (v : Travs) (p : Holding → Bool), ((if st.isFail = true then ((m.setTrv v).unhold p).bump kTravFails
      else (m.setTrv v).unhold p).bump kTravItems).swp = m.swp := fun m v p => by split <;> rfl
  unfold Mach.dropTraverse
  split
  · rfl
  · dsimp only
    refine (hdropped ..).trans ?_
    rw [apply_ite Mach.swp, hnotices, ite_self]

@[simp] theorem Mach.dropHanded_swp (m : Mach) (k : Nat) : (m.dropHanded k).swp = m.swp := by
  unfold Mach.dropHanded
  split <;> simp

@[simp] theorem Mach.countItem_swp (m : Mach) (i : Item) : (m.countItem i).swp = m.swp := by
  unfold Mach.countItem
  split <;> simp

/-- An item without a run that ends well leaves every session. -/
theorem Mach.dropSweep_sess {m : Mach} {k : Nat} {st : Status} (hrun : sget m.swp.runs k = none) (hst : st.isDone = true) :
    (m.dropSweep k st).swp.sess = m.swp.sess := by
  have hover : ∀ x : Mach, sget x.swp.runs k = none → x.runOver k = x := fun x hx => by
    unfold Mach.runOver
    rw [hx]
  unfold Mach.dropSweep
  dsimp only
  rw [if_pos hst, List.foldl_nil, hover _ (by exact hrun)]
  simp

theorem Mach.finish_sess {m : Mach} {k : Nat} {st : Status} (hrun : sget m.swp.runs k = none) (hst : st.isDone = true)
    (hfail : st.isFail = false) : (m.finish k st).swp.sess = m.swp.sess := by
  have hcause : m.endCause k ⟨st, {}⟩ = ⟨st, {}⟩ := by
    unfold Mach.endCause
    rw [hrun]
  unfold Mach.finish
  split
  · rfl
  · dsimp only
    rw [hcause]
    dsimp only
    rw [hfail, if_neg (by decide)]
    simp only [Mach.retireEpoch_swp, Mach.answer_swp, Mach.countItem_swp, Mach.dropHanded_swp]
    rw [Mach.dropSweep_sess (by simpa using hrun) hst]
    simp

/-! Dispatch (R244, R254). -/

theorem Mach.swpInputs_restsAs {m h : Mach} (hm : m.restsAs h) (i : Item) : (m.swpInputs i).1.restsAs h := by
  have hbias : ∀ (c : Prop) [Decidable c] (o : Origin) (va n vb k : Nat) (x y : SwpData),
      (if c then ((m.itemRead o i.epoch i.ctx va n).1, x)
        else (((m.itemRead o i.epoch i.ctx va n).1.itemRead o i.epoch i.ctx vb k).1, y)).1.restsAs h := fun c _ o va n vb k x y => by
    split
    · exact Mach.itemRead_restsAs hm ..
    · exact Mach.itemRead_restsAs (Mach.itemRead_restsAs hm ..) ..
  unfold Mach.swpInputs
  dsimp only
  split
  · exact hbias ..
  · exact Mach.itemRead_restsAs (hbias ..) ..

theorem Mach.readPos_restsAs {m h : Mach} (hm : m.restsAs h) (i : Item) (p : Nat) : (m.readPos i p).1.restsAs h :=
  Mach.itemReadBy_restsAs (Mach.itemReadBy_restsAs hm ..) ..

theorem Mach.readBlock_restsAs {m h : Mach} (hm : m.restsAs h) (i : Item) (b : List Nat) (f : Option Fail) :
    (m.readBlock i b f).1.restsAs h :=
  List.foldlRecOn (motive := fun a : Mach × List PosData × Option Fail => a.1.restsAs h) b _ hm
    fun _ ha p _ => Mach.readPos_restsAs ha i p

theorem Mach.readShare_restsAs {m h : Mach} (hm : m.restsAs h) (i : Item) (bs : List (List Nat)) : (m.readShare i bs).1.restsAs h :=
  List.foldlRecOn (motive := fun a : Mach × List (List PosData) × Option Fail => a.1.restsAs h) bs _ hm
    fun a ha b _ => Mach.readBlock_restsAs ha i b a.2.2

@[simp] theorem Mach.countEngine_rest (m : Mach) (i : Item) (stack e : Nat) (bs : List (List Nat)) :
    (m.countEngine i stack e bs).rest = m.rest := by
  unfold Mach.countEngine
  simp

theorem Mach.runShare_restsAs {m h : Mach} (hm : m.restsAs h) (i : Item) (x : SwpData) (flush : Bool) (stack e : Nat)
    (bs : List (List Nat)) : (m.runShare i x flush stack e bs).1.restsAs h :=
  (Mach.readShare_restsAs hm i bs).of_rest (Mach.countEngine_rest ..)

/-- A SWEEP item that starts puts its run, after its reads (R228, R246). -/
theorem Mach.runSweep_eq {m : Mach} (hcalm : m.calm = true) (k : Nat) (i : Item) : ∃ (a : Mach) (r : SwpRun),
    m.runSweep k i = a.setSwp { a.swp with runs := sput a.swp.runs k r } ∧ a.restsAs m := by
  have hinputs := Mach.swpInputs_restsAs (.refl hcalm) i
  refine ⟨_, _, rfl, ?_⟩
  split
  · exact hinputs
  · exact List.foldlRecOn (motive := fun a : Mach × List (List Att) × Option Fail => a.1.restsAs m) _ _ hinputs
      fun a ha e _ => Mach.runShare_restsAs ha i (m.swpInputs i).2 (decide (m.cfgE i.epoch kSweepSubnormals = 1)) ..

/-- So does a SWEEP_MERGE item (R247). -/
theorem Mach.runMerge_eq {m : Mach} (hcalm : m.calm = true) (k : Nat) (i : Item) : ∃ (a : Mach) (r : SwpRun),
    m.runMerge k i = a.setSwp { a.swp with runs := sput a.swp.runs k r } ∧ a.restsAs m := by
  refine ⟨_, _, rfl, Mach.restsAs.of_rest ?_ (Mach.bump_rest ..)⟩
  exact List.foldlRecOn (motive := fun a : Mach × List (List Att) × Option Fail => a.1.restsAs m) _ _ (.refl hcalm)
    fun a ha j _ => Mach.itemRead_restsAs ha ..

/-- With its engines in service and no stack shut nothing stops an item that starts (R254, R604). -/
theorem Mach.swpStops_none {m : Mach} {i : Item} {stack : Nat}
    (hengines : m.engineGone i.epoch stack (swpFirst i.kind i.desc) (swpCount i.kind i.desc) = none)
    (hshut : ((List.range 6).any fun t => (m.stackAt t).shut) = false) : m.swpStops i stack = none := by
  have hopen : ((List.range 6).filter fun s => (m.stackAt s).shut && m.needsStack i s) = [] :=
    List.filter_eq_nil_iff.mpr fun s hs => by simp [List.any_eq_false.mp hshut s hs]
  unfold Mach.swpStops
  rw [hengines, hopen]
  rfl

/-- The queued item that may start leaves its queue and runs (R244). -/
theorem Mach.swpDispatch_runs {m : Mach} {stack k : Nat} {i : Item} (hawake : (m.stackAt stack).selfRefresh = false)
    (hshut : ((List.range 6).any fun t => (m.stackAt t).shut) = false) (hcalm : m.calm = true)
    (hnext : m.swpNext stack [] (sgetD [] m.swp.queue stack) = some k) (hitem : m.item? k = some i) (hskip : i.skip = false)
    (hengines : m.engineGone i.epoch stack (swpFirst i.kind i.desc) (swpCount i.kind i.desc) = none) : ∃ r,
    (m.swpDispatch stack).rng = (m.startItem k).rng ∧ (m.swpDispatch stack).swp = { m.swp with
      queue := smod [] m.swp.queue stack (·.filter (· ≠ k)), runs := sput m.swp.runs k r } := by
  have hstart : ∀ x : Mach, (x.startItem k).calm = x.calm ∧ (x.startItem k).swp = x.swp ∧
      (∀ e s f c, (x.startItem k).engineGone e s f c = x.engineGone e s f c) ∧
      ∀ t, (x.startItem k).stackAt t = x.stackAt t := fun x => by
    unfold Mach.startItem
    split <;> exact ⟨rfl, rfl, fun _ _ _ _ => rfl, fun _ => rfl⟩
  obtain ⟨hcalm', hswp', hgone', hstack'⟩ := hstart (m.setSwp { m.swp with queue := smod [] m.swp.queue stack (·.filter (· ≠ k)) })
  have hstops := Mach.swpStops_none (i := i) (stack := stack) ((hgone' ..).trans hengines) (by simp only [hstack']; exact hshut)
  have hrng' : ((m.setSwp { m.swp with queue := smod [] m.swp.queue stack (·.filter (· ≠ k)) }).startItem k).rng =
      (m.startItem k).rng := by
    have hi : ∀ x : Mach, x.item? k = some i → (x.startItem k).rng = (x.setItem { i with started := true }).rng := fun x hx => by
      unfold Mach.startItem
      rw [hx]
    rw [hi m hitem, hi _ (by exact hitem)]
    rfl
  unfold Mach.swpDispatch
  rw [if_neg (by simp [hawake]), hnext]
  dsimp only
  rw [hitem]
  dsimp only
  rw [hskip, if_neg (by simp), hstops]
  dsimp only
  have hput : ∀ (a : Mach) (r : SwpRun),
      a.restsAs ((m.setSwp { m.swp with queue := smod [] m.swp.queue stack (·.filter (· ≠ k)) }).startItem k) →
      (a.setSwp { a.swp with runs := sput a.swp.runs k r }).rng = (m.startItem k).rng ∧
      (a.setSwp { a.swp with runs := sput a.swp.runs k r }).swp = { m.swp with
        queue := smod [] m.swp.queue stack (·.filter (· ≠ k)), runs := sput m.swp.runs k r } := fun a r ha =>
    ⟨ha.2.1.trans hrng', by rw [Mach.setSwp_swp, ha.2.2, hswp', Mach.setSwp_swp]⟩
  split
  · obtain ⟨a, r, hrun, ha⟩ := Mach.runSweep_eq (hcalm'.trans hcalm) k i
    exact ⟨r, by rw [hrun]; exact hput a r ha⟩
  · obtain ⟨a, r, hrun, ha⟩ := Mach.runMerge_eq (hcalm'.trans hcalm) k i
    exact ⟨r, by rw [hrun]; exact hput a r ha⟩

/-! Sessions (R249, R251). -/

/-- An open that waits for nothing opens its session and ends. -/
theorem Mach.sessionOpened_opens {m : Mach} {k : Nat} {i : Item} {x : SwpSess} (hitem : m.item? k = some i)
    (hsess : m.swp.sess.find? (fun y => y.opening = some k) = some x)
    (hwait : x.waitFor.any (fun r => shas m.swp.runs r) = false) (hfree : (i.order || i.skip) = false)
    (hrun : sget m.swp.runs k = none) : (m.sessionOpened k).item? k = none ∧
    (m.sessionOpened k).swp.sess = m.swp.sess.map fun y => if y.opening = some k then { y with opening := none } else y := by
  have hskip : i.skip = false := (Bool.or_eq_false_iff.mp hfree).2
  have hswp : (m.startItem k).swp = m.swp := by
    unfold Mach.startItem
    rw [hitem]
    rfl
  have hopened : m.sessionOpened k = (((m.startItem k).setSwp { m.swp with
      sess := m.swp.sess.map fun y => if y.opening = some k then { y with opening := none } else y }).hold
        (x.stack / 3) 3 ⟨3, x.ctx⟩ x.ctx x.object).finish k .done := by
    unfold Mach.sessionOpened
    rw [hsess, hitem]
    dsimp only
    rw [if_neg (by simp [Mach.itemFree, hfree]), if_neg (by simp [hskip]), hswp, if_neg (by simp [hwait])]
  rw [hopened]
  refine ⟨Mach.item?_finish .., ?_⟩
  rw [Mach.finish_sess (by simpa using hrun) rfl rfl]
  rfl

theorem mem_setAt {α : Type} {l : List α} {i : Nat} (h : i < l.length) (x : α) : x ∈ setAt l i x := by
  induction l generalizing i with
  | nil => simp at h
  | cons y r ih =>
    cases i with
    | zero => exact List.mem_cons_self
    | succ n => exact List.mem_cons_of_mem _ (ih (by simpa using h))

theorem engines_nodup (first count : Nat) : (engines first count).Nodup :=
  List.Nodup.map (fun _ _ h => Nat.add_left_cancel h) List.nodup_range

/-- Releasing engines one by one, each that is not released yet counts. -/
theorem SwpSess.foldl_free {es : List Nat} (hnodup : es.Nodup) {x : SwpSess} (hnew : ∀ e ∈ es, e ∉ x.freed) :
    (es.foldl SwpSess.free x).freed.length = x.freed.length + es.length ∧ (es.foldl SwpSess.free x).count = x.count := by
  induction es generalizing x with
  | nil => exact ⟨rfl, rfl⟩
  | cons e r ih =>
    obtain ⟨hout, hrest⟩ := List.nodup_cons.mp hnodup
    have hfreed : (x.free e).freed = e :: x.freed := by
      have hall : x.freed.filter (· ≠ e) = x.freed := List.filter_eq_self.mpr fun y hy => by
        simpa using fun heq : y = e => hnew e List.mem_cons_self (heq ▸ hy)
      exact congrArg (e :: ·) hall
    obtain ⟨hlen, hcount⟩ := ih (x := x.free e) hrest fun y hy => by
      rw [hfreed, List.mem_cons, not_or]
      exact ⟨fun heq => hout (heq ▸ hy), hnew y (List.mem_cons_of_mem _ hy)⟩
    refine ⟨?_, hcount⟩
    rw [List.foldl_cons, hlen, hfreed, List.length_cons, List.length_cons]
    omega

theorem Mach.setSessions_frame (m : Mach) (l : List SwpSess) :
    (m.setSessions l).fb = m.fb ∧ (m.setSessions l).mem = m.mem ∧ (m.setSessions l).out = m.out ∧
    (m.setSessions l).swp.sess = l.filter fun x => x.freed.length < x.count := by
  unfold Mach.setSessions
  dsimp only
  exact ⟨foldl_keeps Mach.fb (fun m _ => by simp) _ _, foldl_keeps Mach.mem (fun m _ => by simp) _ _,
    foldl_keeps Mach.out (fun m _ => by simp) _ _,
    (foldl_keeps (fun m : Mach => m.swp.sess) (fun m _ => by simp) _ _).trans rfl⟩

/-- An open session past its limit, none of whose engines runs, loses them all and ends, counted (R251). -/
theorem Mach.sessionExpire_ends {m : Mach} {i us : Nat} {x : SwpSess} (hx : m.swp.sess[i]? = some x) (hexp : x.expiring = false)
    (hopen : x.opening = none) (hfreed : x.freed = []) (hus : us ≥ 1000 * m.cfg kSweepSessionLimit) (hruns : m.swp.runs = []) :
    (m.sessionExpire i us).swp.sess.length < m.swp.sess.length ∧
    (m.sessionExpire i us).fb = (m.bump (kSweepSessionsExpired + 256 * x.stack)).fb ∧
    (m.sessionExpire i us).mem = m.mem ∧ (m.sessionExpire i us).out = m.out := by
  have hidle : ((engines x.first x.count).filter fun e => (m.runsOn x.stack e 1).isEmpty) = engines x.first x.count :=
    List.filter_eq_self.mpr fun e _ => by simp [Mach.runsOn, hruns]
  have hends : m.sessionExpire i us = (m.bump (kSweepSessionsExpired + 256 * x.stack)).setSessions
      (setAt m.swp.sess i ((engines x.first x.count).foldl SwpSess.free { x with expiring := true })) := by
    unfold Mach.sessionExpire
    rw [hx]
    dsimp only
    rw [if_neg (by simp [hexp, hopen]; omega), hidle]
  generalize hy : (engines x.first x.count).foldl SwpSess.free { x with expiring := true } = y at hends
  obtain ⟨hfb, hmem, hout, hsess⟩ := Mach.setSessions_frame (m.bump (kSweepSessionsExpired + 256 * x.stack)) (setAt m.swp.sess i y)
  rw [hends, hfb, hmem, hout, hsess]
  refine ⟨?_, rfl, by simp, by simp⟩
  obtain ⟨hlen, hcount⟩ := SwpSess.foldl_free (engines_nodup x.first x.count) (x := { x with expiring := true }) (by simp [hfreed])
  rw [hy] at hlen hcount
  have hall : y.freed.length = y.count := by rw [hlen, hcount]; simp [hfreed, engines]
  rw [← setAt_length m.swp.sess i y]
  refine List.length_filter_lt_length_iff_exists.mpr ⟨y, mem_setAt (List.getElem?_eq_some_iff.mp hx).1 y, by simp [hall]⟩

/-! Engines (R253, R635). -/

/-- An engine that no longer serves gives its place to the spare. -/
theorem Mach.moveUnit_engine {m : Mach} {n i : Nat} (hspare : m.spareFor ⟨5, n⟩ = some i)
    (hplace : m.cad.cur.physOf ⟨5, n⟩ ≠ 0xFF) (st : Nat) :
    (m.moveUnit ⟨5, n⟩ st false).cad.cur = m.cad.cur.place ⟨5, n⟩ i ∧ (m.moveUnit ⟨5, n⟩ st false).cad.moves = m.cad.moves ∧
    (m.moveUnit ⟨5, n⟩ st false).flt.lseq = m.flt.lseq ∧ (m.moveUnit ⟨5, n⟩ st false).swp = m.swp := by
  have hruns : ∀ p j, m.spareRuns 5 p j = m := fun p j => by simp [Mach.spareRuns]
  have hclear : ∀ x : Mach, x.clearRetired ⟨5, n⟩ = x := fun x => by simp [Mach.clearRetired]
  unfold Mach.moveUnit
  rw [hspare]
  dsimp only
  rw [hruns, if_neg hplace, if_neg (by simp [UnitRef.copies]), if_neg (by simp), if_neg (by simp [UnitRef.copies]), hclear]
  unfold Mach.spareTaken
  rw [Mach.event_none]
  exact ⟨rfl, rfl, rfl, rfl⟩

theorem Mach.engineFault_replaces {m : Mach} {stack e i : Nat} (hplace : m.cad.cur.physOf ⟨5, stack * 16 + e⟩ ≠ 255)
    (hruns : m.swp.runs = []) (hspare : m.spareFor ⟨5, stack * 16 + e⟩ = some i) :
    (m.engineFault stack e).cad.cur = m.cad.cur.place ⟨5, stack * 16 + e⟩ i ∧
    (m.engineFault stack e).flt.lseq = (m.flt.lseq + 1) % 2 ^ 32 ∧ (m.engineFault stack e).cad.moves = m.cad.moves ∧
    (m.engineFault stack e).swp = m.swp := by
  obtain ⟨hcur, hmoves, hlseq, hswp⟩ := Mach.moveUnit_engine hspare hplace 2
  unfold Mach.engineFault
  dsimp only
  rw [if_neg hplace, hruns, List.find?_nil]
  dsimp only
  rw [(Mach.ledger_units ..).1, Mach.ledger_lseq, Mach.ledger_swp]
  exact ⟨hcur, by rw [hlseq], hmoves, hswp⟩

/-- Settles O23, by what each command comes to: a dispatch reads calm memory, so that only the item's run and queue change; a run that is
combined ends its item; an open and an expiry change the sessions; a fault without a run moves its engine. -/
theorem sweepItemsRunAndEnd : Obligations.SweepItemsRunAndEnd := by
  unfold Obligations.SweepItemsRunAndEnd
  intro h
  refine ⟨?dispatch, ?combine, ?opens, ?expires, ?fault⟩
  case dispatch =>
    intro stack k i hstack hawake hshut hcalm hnext hitem hskip _ hengines s hs
    subst hs
    refine completes_runIf rfl (by simpa using hstack) ?_
    obtain ⟨r, hrng, hswp⟩ := Mach.swpDispatch_runs hawake hshut hcalm hnext hitem hskip hengines
    have hstarted := Mach.item?_startItem hitem
    rw [hswp]
    refine ⟨shas_sput_self .., sgetD_sput_self .., ?_, rfl⟩
    unfold Mach.item? at hstarted ⊢
    rw [hrng]
    exact hstarted
  case combine =>
    intro ring seq i r hring hseq hitem hrun s hs
    subst hs
    exact completes_runIf rfl (by simp [hring, show seq < 281474976710656 from hseq]) (Mach.swpCombine_ends hitem hrun)
  case opens =>
    intro ring seq i x hring hseq hitem hsess hwait hfree hrun s hs
    subst hs
    exact completes_runIf rfl (by simp [hring, show seq < 281474976710656 from hseq])
      (Mach.sessionOpened_opens hitem hsess hwait hfree hrun)
  case expires =>
    intro i us x hx hexp hopen hfreed hus hruns s hs
    subst hs
    exact completes_run (f := fun m => m.sessionExpire i us) rfl (Mach.sessionExpire_ends hx hexp hopen hfreed hus hruns)
  case fault =>
    intro stack e i hstack he u hplace hruns hspare s hs
    subst hs
    exact completes_runIf rfl (by simp [hstack, he]) (Mach.engineFault_replaces hplace hruns hspare)

end Sys2Proof.Machine
end

section
/-! PROOFS. A descriptor that crosses a line: the read of its first line can take the second line's copy from the remote line cache
(R91, R92, R308). -/
namespace Sys2Proof.Machine

/-! What a read of the other floor's memory comes to. -/

/-- With one way to choose, it is chosen. -/
theorem Mach.rlcWay_oneWay {m : Mach} {epoch ctx w : Nat} (h : m.rlcWays epoch ctx = [w]) (o : Origin) (noAlloc : Bool)
    (pa way : Nat) : m.rlcWay epoch o ctx noAlloc pa way = m.rlcWay epoch o ctx noAlloc pa 0 := by
  unfold Mach.rlcWay
  simp [h, Nat.mod_one]

/-- A line filled into way `w` of the reader's remote line cache, where its bytes can be read (R91, R92). -/
def Mach.filledAt (m : Mach) (o : Origin) (epoch ctx pa w : Nat) : Mach :=
  let m := ((m.putBridge o.floor bFill (pa / 256) w []).dropVictim pa w).answerFill epoch ctx pa w true
  match m.lineFor epoch ctx (pa / 256 * 256) with
  | .ok d => m.setDie { m.die with rlc := sput m.die.rlc (rlcKey o.floor pa w) (.shared (pa / 256 * 256) d) }
  | .error _ => m

/-- A read of the line at `pa` fills way `w`, the only one of its partition. -/
def Mach.fillsOnlyWay (m : Mach) (o : Origin) (epoch ctx : Nat) (noAlloc : Bool) (pa w : Nat) : Bool :=
  m.calm && (m.rlcFind o.floor pa).isNone && bitOf (m.cfgE epoch kRlcEnable) o.floor && m.rlcWays epoch ctx = [w] &&
  m.rlcWay epoch o ctx noAlloc pa 0 = some w && (sget m.die.dir (pa / 256 * 256)).isNone

theorem Mach.itemFill_onlyWay {m : Mach} {o : Origin} {epoch ctx pa w : Nat} {noAlloc : Bool}
    (h : m.fillsOnlyWay o epoch ctx noAlloc pa w = true) : m.itemFill o epoch ctx noAlloc pa = m.filledAt o epoch ctx pa w := by
  simp only [Mach.fillsOnlyWay, Bool.and_eq_true, Option.isNone_iff_eq_none, decide_eq_true_eq] at h
  obtain ⟨⟨⟨⟨⟨hcalm, hmiss⟩, hon⟩, hways⟩, hway⟩, hdir⟩ := h
  unfold Mach.itemFill
  dsimp only
  rw [hmiss]
  dsimp only
  rw [Mach.ackNow_calm hcalm, hon, if_neg (by decide), Mach.rlcWay_oneWay hways, hway, hdir]
  rfl

/-- The place that segment `e` gives an address. -/
def SegEnt.placeOf (e : SegEnt) (fl va : Nat) : Place := e.place (va - e.va) fl

/-- The module as a read of the line at `pa` meets the remote line cache. -/
def Mach.meetsCache (m : Mach) (o : Origin) (ctx va pa : Nat) : Mach :=
  (((m.xlate o ctx va).1.itemRow pa).joinWindow ctx (pa / 256 * 256) 33).1

/-- The rest of a read of segment `slot`, after its fill: array, bytes and count. -/
def Mach.readAfterFill (m : Mach) (o : Origin) (epoch ctx va n slot : Nat) (e : SegEnt) : Mach × Except Fail Bytes :=
  let p := e.placeOf o.floor va
  let pa := p.pa (va % 256)
  let m := if (m.rlcHit epoch o.floor pa n).isSome then m else m.arrayRead epoch pa n .grid true
  match m.readPiece epoch ctx o.floor ⟨slot, e, p, pa, va, n⟩ with
  | .ok d => (m.readCount o e.medium n, .ok d)
  | .error f => (m, .error f)

/-- A read through segment `slot` of a line on the other floor, whose place serves it. -/
def Mach.readsFar (m : Mach) (o : Origin) (epoch ctx va slot : Nat) (e : SegEnt) : Bool :=
  let x := m.xlate o ctx va
  m.calm && (x.2 == some (slot, e)) && e.rd && !e.mirror && (e.placeOf o.floor va).floor ≠ o.floor &&
  (x.1.placeFails epoch ctx (e.placeOf o.floor va)).isEmpty

theorem Mach.itemReadOne_far {m : Mach} {o : Origin} {epoch ctx va slot : Nat} {e : SegEnt}
    (h : m.readsFar o epoch ctx va slot e = true) (n : Nat) :
    m.itemReadOne o .grid epoch ctx va n =
      ((m.meetsCache o ctx va ((e.placeOf o.floor va).pa (va % 256))).itemFill o epoch ctx e.noAlloc
        ((e.placeOf o.floor va).pa (va % 256))).readAfterFill o epoch ctx va n slot e := by
  simp only [Mach.readsFar, Bool.and_eq_true, List.isEmpty_iff, decide_eq_true_eq, beq_iff_eq, Bool.not_eq_true'] at h
  obtain ⟨⟨⟨⟨⟨hcalm, hx⟩, hrd⟩, hmirror⟩, hfar⟩, hserves⟩ := h
  have hcalm' : (m.xlate o ctx va).1.calm = true := (Mach.restsAs.of_rest (.refl hcalm) (m.xlate_rest o ctx va)).1
  have hplace : ((m.xlate o ctx va).1.txnPlaces o (.read n) slot e va).headD (e.place (va - e.va) o.floor) = e.placeOf o.floor va := by
    simp [Mach.txnPlaces, hmirror, SegEnt.placeOf]
  unfold Mach.itemReadOne
  dsimp only
  rw [hx]
  dsimp only
  rw [hrd, if_neg (by decide), hplace, Mach.behind_calm hcalm', hserves]
  simp [hmirror, hfar, worstFail, Mach.meetsCache, Mach.readAfterFill]
  rfl

/-! What a ring's floor does with a descriptor it cannot read (R308, R310). -/

theorem Mach.takeKind_takes {m : Mach} {r d : Nat} {p : Nat → Bool} (hdesc : m.nextDesc r = some d) (hp : p d = true)
    (hturn : m.nextRing (ringFloor r) = some r) : m.takeKind r p = m.takeRing r := by
  unfold Mach.takeKind Mach.take
  rw [hdesc]
  dsimp only
  rw [if_pos hp, if_pos hturn]

/-- The module as a floor's turn comes to its ring `r` (R307). -/
def Mach.turnTo (m : Mach) (r : Nat) (x : Ring) : Mach :=
  let k := roundOf (ringFloor r) x.high
  let n := if nth 0 m.rng.turn k = r then nth 0 m.rng.burst k + 1 else 1
  m.setRng { m.rng with turn := setAt m.rng.turn k r, burst := setAt m.rng.burst k n }

theorem Mach.fetchDesc_unread {m : Mach} {r : Nat} {x : Ring} (h : (m.itemRead (ringPort (ringFloor r)) m.fb.epoch x.ctx
    (x.descAddr + 64 * (x.taken % x.depth)) 64).2.isOk = false) : (m.fetchDesc r x).2.isOk = false := by
  unfold Mach.fetchDesc
  dsimp only
  generalize Mach.itemRead _ _ _ _ _ _ = g at h ⊢
  obtain ⟨m', f | b⟩ := g
  · rfl
  · cases h

/-- It is answered, and becomes no item. -/
theorem Mach.takeRing_unread {m : Mach} {r : Nat} {x : Ring} (hring : m.ring? r = some x) (hcalm : m.calm = true)
    (hread : ((m.turnTo r x).fetchDesc r x).2.isOk = false) : (m.takeRing r).rng.items = m.rng.items := by
  obtain ⟨-, hrng, -⟩ := Mach.itemRead_restsAs (.refl (m := m.turnTo r x) hcalm) (ringPort (ringFloor r)) m.fb.epoch x.ctx
    (x.descAddr + 64 * (x.taken % x.depth)) 64
  have hitems : ((m.turnTo r x).fetchDesc r x).1.rng.items = m.rng.items := (congrArg Rings.items hrng :)
  unfold Mach.takeRing
  rw [hring]
  dsimp only [Mach.turnTo] at hread hitems ⊢
  generalize Mach.fetchDesc _ r x = g at hread hitems ⊢
  obtain ⟨m', f | d⟩ := g
  · exact (congrArg Prod.snd (Mach.answer_places ..)).trans hitems
  · cases hread

/-- Two parts of a run: their bytes, or the cause that one of them meets, or the broader of two (R11). -/
def joinReads : Except Fail Bytes → Except Fail Bytes → Except Fail Bytes
  | .ok a, .ok b => .ok (a ++ b)
  | .ok _, .error e => .error e
  | .error e, .ok _ => .error e
  | .error e, .error f => .error (e.worse f)

theorem joinReads_unread (x : Except Fail Bytes) {y : Except Fail Bytes} (h : y.isOk = false) : (joinReads x y).isOk = false := by
  cases y with
  | error f => cases x <;> rfl
  | ok b => cases h

/-- The next piece of a run, at a port. -/
def readNext (o : Origin) (epoch ctx : Nat) (a : Mach × Except Fail Bytes) (p : Nat × Nat) : Mach × Except Fail Bytes :=
  ((a.1.itemReadOne o .grid epoch ctx p.1 p.2).1, joinReads a.2 (a.1.itemReadOne o .grid epoch ctx p.1 p.2).2)

theorem Mach.itemRead_pieces (m : Mach) (o : Origin) (epoch ctx va n : Nat) :
    m.itemRead o epoch ctx va n = (pieces va n).foldl (readNext o epoch ctx) (m, .ok []) := by
  unfold Mach.itemRead Mach.itemReadBy
  congr 1
  funext a p
  cases m.findSeg ctx p.1 <;> rfl

/-- A run of two lines is not read where its second line is not. -/
theorem Mach.itemRead_unread {m : Mach} {o : Origin} {epoch ctx va n : Nat} {p q : Nat × Nat} (hpieces : pieces va n = [p, q])
    (hread : ((m.itemReadOne o .grid epoch ctx p.1 p.2).1.itemReadOne o .grid epoch ctx q.1 q.2).2.isOk = false) :
    (m.itemRead o epoch ctx va n).2.isOk = false := by
  rw [Mach.itemRead_pieces, hpieces]
  exact joinReads_unread _ hread

/-! The module on which it shows. -/

/-- Segment 0 of context 5: 2 MiB of floor 1's buffer under policy FINE. -/
def farSegment : SegEnt :=
  { ctx := 5, vaBase := 0, size := 0, policy := 0, medium := 0, home := 1, stack := 0, unit := 0, rd := true, wr := true
    at' := true, noAlloc := false, unitOff := 0 }

/-- A ring of floor 0 whose descriptors begin at address 224, so that the first one has 32 bytes in each of two lines. -/
def crossingRing : Ring :=
  { ctx := 5, ty := 0, depthLog2 := 4, descAddr := 224, cplAddr := 4096, start := 0, target := 0, subKind := 2, produce := 1
    consumed := 0, taken := 0, ansLow := 0 }

/-- A SWEEP_MERGE of one partial on engine 0 of S0. -/
def crossingDesc : Nat := 2 ^ 432 + 2 ^ 427 + kindMerge * 2 ^ 120

/-- The address of the descriptor's second line. -/
def crossingLine : Nat := (farSegment.placeOf 0 256).pa 0

/-- The module in service, its context 5 in a partition with one way of each remote line cache. Floor 0 holds the descriptor's second
line, which has been lost at its home since. -/
def crossing : Mach :=
  let m := State.reset.hw
  { m with
    cad := { m.cad with step := 21 }
    fb := { m.fb with epoch := 1, cur := { ovr := sput (sput [] kRlcWaysP0 (leB 2 1)) (key 0x7010 2) (leB 1 63) } }
    grid := { m.grid with seg := [(0, farSegment)] }
    rng := { m.rng with ctxs := [(5, {})], rings := [(0, crossingRing)] }
    die := { m.die with
      rlc := [(rlcKey 0 crossingLine 0, .shared crossingLine (leB 256 (crossingDesc / 2 ^ 256)))]
      dir := [(crossingLine, .held 0)] }
    mem := { m.mem with
      cells := Memory.putRun [] ((farSegment.placeOf 0 224).pa 224) (leB 32 crossingDesc)
      poison := [(crossingLine, ())] } }

/-- Its ring gives the descriptor, as the second line lies in the cache. -/
theorem crossing_givesDesc : crossing.givesDesc 0 crossingRing crossingDesc = true ∧ descKind crossingDesc = kindMerge := by
  decide +kernel

theorem crossing_served : crossing.ring? 0 = some crossingRing ∧ crossing.calm = true := by decide +kernel

/-- SWEEP_MERGE takes it. -/
theorem crossing_takeKind : (crossing.takeKind 0 fun d => descKind d = kindMerge) = crossing.takeRing 0 := by
  have hnext : crossing.nextDesc 0 = some crossingDesc ∧ crossing.nextRing (ringFloor 0) = some 0 := by decide +kernel
  obtain ⟨hdesc, hturn⟩ := hnext
  exact Mach.takeKind_takes hdesc (decide_eq_true crossing_givesDesc.2) hturn

/-- It, as the turn of its ring comes. -/
def crossingTurn : Mach := crossing.turnTo 0 crossingRing

/-- After the read of the descriptor's first line, which takes the one way. -/
def crossingRead : Mach :=
  (((crossingTurn.meetsCache (ringPort 0) 5 224 ((farSegment.placeOf 0 224).pa 224)).filledAt (ringPort 0) 1 5
    ((farSegment.placeOf 0 224).pa 224) 0).readAfterFill (ringPort 0) 1 5 224 32 0 farSegment).1

theorem crossingTurn_readsFar : crossingTurn.readsFar (ringPort 0) 1 5 224 0 farSegment = true ∧
    (crossingTurn.meetsCache (ringPort 0) 5 224 ((farSegment.placeOf 0 224).pa 224)).fillsOnlyWay (ringPort 0) 1 5 false
      ((farSegment.placeOf 0 224).pa 224) 0 = true := by decide +kernel

theorem crossingRead_readsFar : crossingRead.readsFar (ringPort 0) 1 5 256 0 farSegment = true ∧
    (crossingRead.meetsCache (ringPort 0) 5 256 crossingLine).fillsOnlyWay (ringPort 0) 1 5 false crossingLine 0 = true := by
  decide +kernel

/-- The second line is read at its home, and is lost. -/
theorem crossingRead_lost : (((crossingRead.meetsCache (ringPort 0) 5 256 crossingLine).filledAt (ringPort 0) 1 5
    crossingLine 0).readAfterFill (ringPort 0) 1 5 256 32 0 farSegment).2.isOk = false := by decide +kernel

/-- The descriptor that is taken is not read. -/
theorem crossingTurn_fetchDesc : (crossingTurn.fetchDesc 0 crossingRing).2.isOk = false := by
  obtain ⟨hfar, hfill⟩ := crossingTurn_readsFar
  obtain ⟨hfar', hfill'⟩ := crossingRead_readsFar
  have hfirst : (crossingTurn.itemReadOne (ringPort 0) .grid 1 5 224 32).1 = crossingRead := by
    rw [Mach.itemReadOne_far hfar]
    exact congrArg (fun m : Mach => (m.readAfterFill (ringPort 0) 1 5 224 32 0 farSegment).1) (Mach.itemFill_onlyWay hfill)
  have hsecond : (crossingRead.itemReadOne (ringPort 0) .grid 1 5 256 32).2.isOk = false := by
    rw [Mach.itemReadOne_far hfar']
    exact (congrArg (fun m : Mach => (m.readAfterFill (ringPort 0) 1 5 256 32 0 farSegment).2.isOk)
      (Mach.itemFill_onlyWay hfill')).trans crossingRead_lost
  have hread : (crossingTurn.itemRead (ringPort 0) 1 5 224 64).2.isOk = false :=
    Mach.itemRead_unread (p := (224, 32)) (q := (256, 32)) (by decide) (by rw [hfirst]; exact hsecond)
  exact Mach.fetchDesc_unread hread

theorem exec_sweepMerge {r : Nat} (hr : r < 32768) (s : State) :
    exec (.sweepMerge r) s = runFz s fun _ m => m.takeKind r fun d => descKind d = kindMerge :=
  runFzIf_true (by simp [hr]) s _

/-- Refutes O22: it takes every ring, also one whose descriptors do not begin at a multiple of 64 (RING_CREATE makes none). Of such a
ring a descriptor crosses a line, and floor 0, which reads it from floor 1, loses its copy of the second line to the fill of the first
(R91, R92). `givesDesc` reads both lines as they lie before; the take finds the second one lost (R135), so that it accepts no item. -/
theorem not_itemsAreTakenInTurnAndAccepted : ¬ Obligations.ItemsAreTakenInTurnAndAccepted := by
  unfold Obligations.ItemsAreTakenInTurnAndAccepted
  intro h
  obtain ⟨-, hmerge, -⟩ := h crossing
  obtain ⟨hgives, hkind⟩ := crossing_givesDesc
  obtain ⟨hitems, -⟩ := completes_runFz_effect (exec_sweepMerge (by decide) _)
    (hmerge 0 crossingDesc crossingRing hgives hkind (State.reset.setHw crossing) rfl)
  rw [State.setHw_hw, crossing_takeKind, Mach.takeRing_unread crossing_served.1 crossing_served.2 crossingTurn_fetchDesc] at hitems
  cases hitems

end Sys2Proof.Machine
end

section
/-! PROOFS. An atomic operation on a free target of the buffer: what it does there, and its answer in the registers of a core or a host port
(R275, R283, R458, R480). -/
namespace Sys2Proof.Machine

/-- A module without what an access records on its way to its target: counters, translation caches, merge windows, the order of
service, the regulators' counts, the copies in the remote line caches, the bridge's traffic and what is shown outside. -/
def Mach.bare (m : Mach) : Mach :=
  ((((m.setFb { m.fb with ctr := [] }).setGrid
    { m.grid with tcache := [], merge := [], txnSeq := 0, served := [] }).setReg { m.reg with masters := [] }).setDie
    { m.die with rlc := [], txSeq := [], replay := [], waitTx := [] }).setOut []

/-- What asks nothing of those records is the same in modules that differ in them alone. -/
theorem Mach.eq_of_bare {α : Type} {a b : Mach} (h : a.bare = b.bare) (f : Mach → α) (hf : ∀ m : Mach, f m.bare = f m) :
    f a = f b := by rw [← hf a, h, hf b]

/-- What an operation's target asks of a module: all but those records and the parties' units. -/
def Mach.atTargets (m : Mach) : Mach := ((m.bare.setSite {}).setCore {}).setHp {}

theorem Mach.eq_of_atTargets {α : Type} {a b : Mach} (h : a.atTargets = b.atTargets) (f : Mach → α)
    (hf : ∀ m : Mach, f m.atTargets = f m) : f a = f b := by rw [← hf a, h, hf b]

theorem Mach.atTargets_of_bare {a b : Mach} (h : a.bare = b.bare) : a.atTargets = b.atTargets := by
  rw [Mach.atTargets, h, Mach.atTargets]

@[simp] theorem Mach.bump_bare (m : Mach) (k n : Nat) : (m.bump k n).bare = m.bare := rfl
@[simp] theorem Mach.served_bare (m : Mach) (target g : Nat) : (m.served target g).bare = m.bare := rfl
@[simp] theorem Mach.closeMerge_bare (m : Mach) (pa : Nat) : (m.closeMerge pa).bare = m.bare := rfl

@[simp] theorem Mach.xlate_bare (m : Mach) (o : Origin) (ctx va : Nat) : (m.xlate o ctx va).1.bare = m.bare := by
  obtain ⟨ctr, tc, h⟩ := m.xlate_frame o ctx va
  rw [h]
  rfl

@[simp] theorem Mach.atomicBytes_bare (m : Mach) (o : Origin) (ctx va word : Nat) :
    (m.atomicBytes o ctx va word).bare = m.bare := by
  unfold Mach.atomicBytes Mach.regCount
  split
  · split <;> rfl
  · rfl

@[simp] theorem Mach.rlcInvalidate_bare (m : Mach) (fl pa : Nat) : (m.rlcInvalidate fl pa).bare = m.bare := by
  unfold Mach.rlcInvalidate
  split <;> rfl

@[simp] theorem Mach.putBridge_bare (m : Mach) (f c l a : Nat) (d : Bytes) : (m.putBridge f c l a d).bare = m.bare := by
  unfold Mach.putBridge
  dsimp only
  split_ifs <;> rfl

@[simp] theorem Mach.crossWrite_bare (m : Mach) (fl pa ctx : Nat) (d : Bytes) : (m.crossWrite fl pa ctx d).bare = m.bare := by
  unfold Mach.crossWrite
  split <;> simp

/-- What an atomic operation performed on buffer bytes leaves: rings, the parties' units and what waits, and what it writes of memory. -/
def Mach.performedAs (b m : Mach) (pa : Nat) (new : Bytes) : Prop :=
  b.rng = m.rng ∧ b.site = m.site ∧ b.core = m.core ∧ b.hp = m.hp ∧ b.grid.relWait = m.grid.relWait ∧
  b.mem.cells = Memory.putRun m.mem.cells pa new

theorem Mach.performedAs.of_still {a b m : Mach} {pa : Nat} {new : Bytes} (hb : b.performedAs m pa new) (hstill : a.still = b.still) :
    a.performedAs m pa new := by
  obtain ⟨-, hgrid, hmem, hrng, -⟩ := Mach.parts_of_still hstill
  have hsite : a.site = b.site := (congrArg Mach.site hstill :)
  have hcore : a.core = b.core := (congrArg Mach.core hstill :)
  have hhp : a.hp = b.hp := (congrArg Mach.hp hstill :)
  rwa [Mach.performedAs, hrng, hsite, hcore, hhp, hgrid, hmem]

theorem Mach.performedAs.of_bare {b a m : Mach} {pa : Nat} {new : Bytes} (hb : b.performedAs a pa new) (hbare : a.bare = m.bare) :
    b.performedAs m pa new := by
  have hparts := Mach.eq_of_bare hbare (fun m => (m.rng, m.site, m.core, m.hp, m.grid.relWait, m.mem)) fun _ => rfl
  simp only [Prod.mk.injEq] at hparts
  obtain ⟨hrng, hsite, hcore, hhp, hwait, hmem⟩ := hparts
  rwa [Mach.performedAs, hrng, hsite, hcore, hhp, hwait, hmem] at hb

/-- An atomic operation of party `p` reaches its target `q` in the buffer, and none of its reject or fail causes holds (R89, R145, R278,
R279, R283, R662). -/
structure Mach.AtomReaches (m : Mach) (p : Party) (floor ctx va : Nat) (w : AtomWord) (operand : Bytes) (q : Piece) : Prop where
  piece : m.atomPiece floor ctx va w = some q
  allowed : m.atomRefused m.fb.epoch ctx va w operand q = none
  reached : m.placeFails m.fb.epoch ctx q.place = []
  whole : m.poisoned q.pa w.bytes = false
  sound : m.sound q.pa w.bytes = true
  unshared : sget m.die.dir (q.pa / 256 * 256) = none
  lockFree : w.atop = 0x3A → m.lockRefused q.place.floor p = false
  lockOwn : w.atop = 0x3B → fld (leN (m.atomOld ctx w q)) 56 4 = p.kind ∧ fld (leN (m.atomOld ctx w q)) 32 24 = p.num
  buffer : paMedium q.pa = 0

section
variable {a m : Mach} {p : Party} {floor ctx va : Nat} {w : AtomWord} {operand new ret : Bytes} {q : Piece} {fl : Nat}

theorem Mach.AtomReaches.of_atTargets (h : m.AtomReaches p floor ctx va w operand q) (hsame : a.atTargets = m.atTargets) :
    a.AtomReaches p floor ctx va w operand q := by
  obtain ⟨piece, allowed, reached, whole, sound, unshared, lockFree, lockOwn, buffer⟩ := h
  have heq {α : Type} (f : Mach → α) (hf : ∀ m : Mach, f m.atTargets = f m) : f a = f m := Mach.eq_of_atTargets hsame f hf
  refine ⟨?_, ?_, ?_, ?_, ?_, ?_, fun h3A => ?_, fun h3B => ?_, buffer⟩
  · rw [← piece]; exact heq (·.atomPiece floor ctx va w) fun _ => rfl
  · rw [← allowed]; exact heq (fun m => m.atomRefused m.fb.epoch ctx va w operand q) fun _ => rfl
  · rw [← reached]; exact heq (fun m => m.placeFails m.fb.epoch ctx q.place) fun _ => rfl
  · rw [← whole]; exact heq (·.poisoned q.pa w.bytes) fun _ => rfl
  · rw [← sound]; exact heq (·.sound q.pa w.bytes) fun _ => rfl
  · rw [← unshared]; exact heq (fun m => sget m.die.dir (q.pa / 256 * 256)) fun _ => rfl
  · rw [← lockFree h3A]; exact heq (·.lockRefused q.place.floor p) fun _ => rfl
  · rw [heq (·.atomOld ctx w q) fun _ => rfl]; exact lockOwn h3B

theorem Mach.AtomReaches.of_bare (h : m.AtomReaches p floor ctx va w operand q) (hbare : a.bare = m.bare) :
    a.AtomReaches p floor ctx va w operand q := h.of_atTargets (Mach.atTargets_of_bare hbare)

theorem Mach.countAtomic_performedAs {b : Mach} {pa : Nat} (hb : b.performedAs m pa new) (w : AtomWord) (pl : Place) (flagged : Bool) :
    (b.countAtomic w pl flagged).performedAs m pa new := by
  refine hb.of_still ?_
  unfold Mach.countAtomic
  dsimp only
  split_ifs <;> simp only [Mach.bump_still]

theorem Mach.wrLine_performedAs (m : Mach) {pa : Nat} (hbuffer : paMedium pa = 0) (ctx : Nat) (new : Bytes) :
    ((m.wrLine ctx pa new).closeMerge pa).performedAs m pa new := by
  unfold Mach.wrLine
  rw [if_pos hbuffer]
  exact ⟨rfl, rfl, rfl, rfl, rfl, rfl⟩

/-- What an operation on target `q` does, by the values in force for the current epoch (R61, Table 8.5). -/
def Mach.atomEffectAt (m : Mach) (p : Party) (ctx : Nat) (w : AtomWord) (operand : Bytes) (q : Piece) : Option (Bytes × Bytes × Nat) :=
  atomEffect w p (m.cfgE m.fb.epoch kAnchorOverflow = 1) (m.cfgE m.fb.epoch kAnchorSubnormals = 1) (m.atomOld ctx w q) operand

theorem Mach.atomEffectAt_of_atTargets (hsame : a.atTargets = m.atTargets) (p : Party) (ctx : Nat) (w : AtomWord) (operand : Bytes)
    (q : Piece) : a.atomEffectAt p ctx w operand q = m.atomEffectAt p ctx w operand q :=
  Mach.eq_of_atTargets hsame (·.atomEffectAt p ctx w operand q) fun _ => rfl

theorem Mach.atomEffectAt_of_bare (hbare : a.bare = m.bare) (p : Party) (ctx : Nat) (w : AtomWord) (operand : Bytes) (q : Piece) :
    a.atomEffectAt p ctx w operand q = m.atomEffectAt p ctx w operand q :=
  Mach.atomEffectAt_of_atTargets (Mach.atTargets_of_bare hbare) ..

theorem Mach.epoch_of_bare (hbare : a.bare = m.bare) : a.fb.epoch = m.fb.epoch := Mach.eq_of_bare hbare (·.fb.epoch) fun _ => rfl

/-- At its target the operation is performed: the module after it, its status and the bytes it returns. -/
theorem Mach.atomTarget_performs (h : m.AtomReaches p floor ctx va w operand q)
    (heffect : m.atomEffectAt p ctx w operand q = some (new, ret, fl)) :
    ∃ b : Mach, m.atomTarget m.fb.epoch p ctx w operand q =
      { m := b, st := if fl ≠ 0 then .doneFlagged else .done, data := ret, flags := fl, pa := some q.pa } ∧ b.performedAs m q.pa new := by
  obtain ⟨-, -, reached, whole, -, -, lockFree, lockOwn, buffer⟩ := h
  have hwrites := m.wrLine_performedAs buffer ctx new
  have hlock : (decide (w.atop = 0x3A) && decide (fld (leN (m.atomOld ctx w q)) 62 2 = 0) && m.lockRefused q.place.floor p) = false := by
    by_cases h3A : w.atop = 0x3A <;> simp [h3A, lockFree]
  have hmine : (decide (w.atop = 0x3B) && !(decide (fld (leN (m.atomOld ctx w q)) 56 4 = p.kind) &&
      decide (fld (leN (m.atomOld ctx w q)) 32 24 = p.num))) = false := by
    by_cases h3B : w.atop = 0x3B <;> simp [h3B, lockOwn]
  unfold Mach.atomTarget
  rw [reached, whole]
  simp only [Bool.false_eq_true, if_false, List.append_nil, worstFail]
  rw [← Mach.atomOld, hlock, hmine]
  simp only [Bool.false_eq_true, if_false]
  rw [← Mach.atomEffectAt, heffect]
  refine ⟨_, rfl, Mach.countAtomic_performedAs ?_ ..⟩
  split
  · exact hwrites
  · split
    · exact hwrites
    · exact hwrites

/-- A write of the buffer promotes no page. -/
theorem Mach.promotes_buffer {pa : Nat} (hbuffer : paMedium pa = 0) (m : Mach) (ctx : Nat) : m.promotes ctx pa = false := by
  simp [Mach.promotes, hbuffer]

/-- The array is read before sound bytes of the buffer are written, and meets no error. -/
theorem Mach.writeReads_sound {pa n : Nat} (hsound : m.sound pa n = true) (hbuffer : paMedium pa = 0) (epoch ctx : Nat) :
    m.writeReads epoch ctx pa n = m := by
  simp only [Mach.sound, List.all_append, Bool.and_eq_true] at hsound
  unfold Mach.writeReads
  rw [Mach.eccMeet_sound hsound.2]
  simp [Mach.promotes_buffer hbuffer]

/-- An operation that its entry allows is performed at its target. -/
theorem Mach.atomic_of_reaches (h : m.AtomReaches p floor ctx va w operand q) :
    m.atomic m.fb.epoch p floor ctx va w operand = m.atomTarget m.fb.epoch p ctx w operand q := by
  unfold Mach.atomic
  rw [h.piece]
  dsimp only
  rw [h.allowed]

/-- An operation that reaches its unit is performed there. -/
theorem Mach.atomicAt_performs {word : Nat} (h : m.AtomReaches p floor ctx va (.ofNat word) operand q)
    (heffect : m.atomEffectAt p ctx (.ofNat word) operand q = some (new, ret, fl)) :
    ∃ b : Mach, m.atomicAt m.fb.epoch p floor ctx va word operand =
      { m := b, st := if fl ≠ 0 then .doneFlagged else .done, data := ret, flags := fl, pa := some q.pa } ∧ b.performedAs m q.pa new := by
  have hbare : (m.crossWrite floor q.pa ctx operand).bare = m.bare := m.crossWrite_bare ..
  have hcross := h.of_bare hbare
  obtain ⟨b, hat, hb⟩ := Mach.atomTarget_performs hcross ((Mach.atomEffectAt_of_bare hbare ..).trans heffect)
  rw [← Mach.atomic_of_reaches hcross, Mach.epoch_of_bare hbare] at hat
  replace hb := hb.of_bare hbare
  unfold Mach.atomicAt
  dsimp only
  rw [h.piece]
  dsimp only
  rw [h.allowed, Mach.eccMeet_sound hcross.sound, Mach.writeReads_sound hcross.sound h.buffer, hat]
  simp only [Option.isSome_none, Bool.false_eq_true, if_false, Option.isNone_some]
  split
  · exact ⟨b, rfl, hb⟩
  · refine ⟨_, rfl, hb.of_still ?_⟩
    rw [Mach.movedBy_still, Mach.openRowOf_still]

/-- The piece of an operation lies in an entry of the segment map that allows atomic operations. -/
theorem Mach.atomPiece_some (h : m.atomPiece floor ctx va w = some q) : ∃ slot e, m.findSeg ctx va = some (slot, e) ∧
    q = ⟨slot, e, e.place (va - e.va) floor, (e.place (va - e.va) floor).pa (va % 256), va, w.bytes⟩ := by
  unfold Mach.atomPiece at h
  split at h
  · cases h
  · rename_i slot e hseg
    split at h
    · cases h
    · exact ⟨slot, e, hseg, (Option.some.inj h).symm⟩

/-- Translation answers with the entry that the segment map holds. -/
theorem Mach.xlate_snd (m : Mach) (o : Origin) (ctx va : Nat) : (m.xlate o ctx va).2 = m.findSeg ctx va := by
  unfold Mach.xlate
  split <;> simp [*]

/-- A requester's operation that reaches its unit is answered, with no copy of its line on the other floor to wait for. -/
theorem Mach.performAtomic_answers {t : Txn} {word : Nat}
    (h : m.AtomReaches t.org.party t.org.floor t.ctx t.va (.ofNat word) operand q)
    (heffect : m.atomEffectAt t.org.party t.ctx (.ofNat word) operand q = some (new, ret, fl)) :
    ∃ b : Mach, m.performAtomic t word operand = b.replyAtomic t.org (if fl ≠ 0 then .doneFlagged else .done) ret ∧
      b.performedAs m q.pa new := by
  obtain ⟨slot, e, hseg, hq⟩ := Mach.atomPiece_some h.piece
  unfold Mach.performAtomic
  dsimp only
  rw [Mach.xlate_snd, hseg]
  dsimp only
  generalize hcounted : Mach.atomicBytes _ t.org t.ctx t.va word = y
  have hbare : y.bare = m.bare := by rw [← hcounted]; simp
  rw [Mach.eq_of_bare hbare (·.findSeg t.ctx t.va) fun _ => rfl, hseg]
  dsimp only
  have hy := h.of_bare hbare
  obtain ⟨b, hat, hb⟩ := Mach.atomicAt_performs hy ((Mach.atomEffectAt_of_bare hbare ..).trans heffect)
  rw [Mach.epoch_of_bare hbare] at hat
  have hunshared := hy.unshared
  rw [hq] at hunshared
  dsimp only at hunshared
  rw [hat, hunshared]
  exact ⟨_, rfl, hb.of_bare hbare⟩

/-- What `goesNow` asks of an atomic operation whose entry has one copy. -/
theorem Mach.goesNow_atomic {o : Origin} {word slot : Nat} {e : SegEnt} {rel : Bool} (hseg : m.findSeg ctx va = some (slot, e))
    (hone : e.mirror = false) (hnow : m.goesNow o ctx va (.atomic word operand rel) = true) :
    m.portClosed o = false ∧ m.grid.relWait = [] ∧ m.rng.recWait = [] ∧ (rel && m.writesOpen o ctx) = false ∧
    sgetD [] m.grid.wait (e.place (va - e.va) o.floor).target = [] ∧
    ∀ seq, m.txnBlocked { org := o, ctx, va, kind := .atomic word operand rel, seq } = false := by
  simp only [Mach.goesNow, Bool.and_eq_true, Bool.not_eq_true', List.isEmpty_iff, Mach.txnTarget, hseg, Mach.txnPlaces, hone,
    Bool.not_false, if_true, List.head?_cons, Option.map_some] at hnow
  obtain ⟨⟨⟨⟨⟨hport, hrel⟩, hrec⟩, hblocked⟩, hopen⟩, hwait⟩ := hnow
  refine ⟨hport, hrel, hrec, hopen, hwait, fun seq => ?_⟩
  rw [← hblocked]
  simp only [Mach.txnBlocked, hseg, hone, Bool.false_and]

/-- The module that a transaction that is no read finds as it comes before its target: the next one has its own number, and the merge
window of the line is closed (R126). -/
def Mach.numbered (m : Mach) (pa : Nat) : Mach := (m.setGrid { m.grid with txnSeq := m.grid.txnSeq + 1 }).closeMerge pa

@[simp] theorem Mach.numbered_bare (m : Mach) (pa : Nat) : (m.numbered pa).bare = m.bare := rfl

/-- An atomic operation whose entry has one copy, and that waits for nothing, comes before its target. -/
theorem Mach.arrive_atomic {o : Origin} {word slot : Nat} {e : SegEnt} {rel : Bool} (hseg : m.findSeg ctx va = some (slot, e))
    (hone : e.mirror = false) (hnow : m.goesNow o ctx va (.atomic word operand rel) = true) (since : Nat) (wait : Bool) :
    m.arrive o ctx va (.atomic word operand rel) .clean since 0 wait =
      ((m.numbered ((e.place (va - e.va) o.floor).pa (va % 256))).enter
        { org := o, ctx, va, kind := .atomic word operand rel, seq := m.grid.txnSeq } wait).relSettle := by
  obtain ⟨hport, hrel, -, hopen, -⟩ := Mach.goesNow_atomic hseg hone hnow
  have hseg' : (m.setGrid { m.grid with txnSeq := m.grid.txnSeq + 1 }).findSeg ctx va = some (slot, e) := hseg
  unfold Mach.arrive
  dsimp only
  rw [hport, hseg']
  simp only [Mach.txnPlaces, hone, TxnKind.isRead, TxnKind.release, Bool.not_false, if_true, List.headD_cons, Mach.plant_clean,
    List.foldl_cons, List.foldl_nil, Bool.false_eq_true, if_false]
  refine if_neg ?_
  show ¬((rel && m.writesOpen o ctx) || m.grid.relWait.any _) = true
  simp [hopen, hrel]

/-- Its target serves it at once. -/
theorem Mach.enter_atomic {o : Origin} {word slot : Nat} {e : SegEnt} {rel : Bool} (hseg : m.findSeg ctx va = some (slot, e))
    (hone : e.mirror = false) (hnow : m.goesNow o ctx va (.atomic word operand rel) = true) (pa seq : Nat) :
    (m.numbered pa).enter { org := o, ctx, va, kind := .atomic word operand rel, seq } false =
      (m.numbered pa).performAtomic { org := o, ctx, va, kind := .atomic word operand rel, seq } word operand := by
  obtain ⟨-, -, -, -, hwait, hblocked⟩ := Mach.goesNow_atomic hseg hone hnow
  have hblocked' : (m.numbered pa).txnBlocked { org := o, ctx, va, kind := .atomic word operand rel, seq } = false := hblocked seq
  have htarget : (m.numbered pa).txnTarget { org := o, ctx, va, kind := .atomic word operand rel, seq } =
      some (e.place (va - e.va) o.floor).target := by
    show m.txnTarget _ = _
    simp [Mach.txnTarget, Mach.txnPlaces, hseg, hone]
  have hwait' : sgetD [] (m.numbered pa).grid.wait (e.place (va - e.va) o.floor).target = [] := hwait
  unfold Mach.enter
  rw [htarget]
  dsimp only
  rw [hwait', hblocked']
  rfl

/-- An answer leaves the grid, the rings and memory as they are. -/
theorem Mach.replyAtomic_frame (m : Mach) (o : Origin) (st : Status) (d : Bytes) :
    (m.replyAtomic o st d).grid = m.grid ∧ (m.replyAtomic o st d).rng = m.rng ∧ (m.replyAtomic o st d).mem = m.mem := by
  unfold Mach.replyAtomic
  split
  · unfold Mach.siteRsp
    dsimp only
    split_ifs <;> simp
  · dsimp only
    split_ifs <;> simp
  · dsimp only
    split_ifs <;> simp
  · simp

/-- The entry of an operation that reaches its unit has one copy (R279). -/
theorem Mach.AtomReaches.mirror (h : m.AtomReaches p floor ctx va w operand q) : q.seg.mirror = false := by
  have hallowed := h.allowed
  unfold Mach.atomRefused at hallowed
  dsimp only at hallowed
  by_contra hmirror
  rw [if_pos (Bool.eq_true_of_not_eq_false hmirror)] at hallowed
  split_ifs at hallowed

/-- An atomic operation that waits for nothing and reaches its unit is answered at once. -/
theorem Mach.arrive_atomic_answers {o : Origin} {word : Nat} {rel : Bool}
    (h : m.AtomReaches o.party o.floor ctx va (.ofNat word) operand q)
    (hnow : m.goesNow o ctx va (.atomic word operand rel) = true)
    (heffect : m.atomEffectAt o.party ctx (.ofNat word) operand q = some (new, ret, fl)) (since : Nat) :
    ∃ b : Mach, m.arrive o ctx va (.atomic word operand rel) .clean since 0 false =
      b.replyAtomic o (if fl ≠ 0 then .doneFlagged else .done) ret ∧ b.performedAs m q.pa new := by
  obtain ⟨slot, e, hseg, hq⟩ := Mach.atomPiece_some h.piece
  have hone : e.mirror = false := by have := h.mirror; rwa [hq] at this
  obtain ⟨-, hrel, hrec, -⟩ := Mach.goesNow_atomic hseg hone hnow
  rw [Mach.arrive_atomic hseg hone hnow, Mach.enter_atomic hseg hone hnow]
  generalize hpa : (e.place (va - e.va) o.floor).pa (va % 256) = pa
  have hbare := m.numbered_bare pa
  obtain ⟨b, hat, hb⟩ := Mach.performAtomic_answers (t := { org := o, ctx, va, kind := .atomic word operand rel, seq := m.grid.txnSeq })
    (h.of_bare hbare) ((Mach.atomEffectAt_of_bare hbare ..).trans heffect)
  replace hb := hb.of_bare hbare
  refine ⟨b, ?_, hb⟩
  obtain ⟨hrng, -, -, -, hgrid, -⟩ := hb
  rw [hat]
  obtain ⟨hg, hr, -⟩ := b.replyAtomic_frame o (if fl ≠ 0 then .doneFlagged else .done) ret
  exact Mach.relSettle_idle (by rw [hg, hgrid, hrel]) (by rw [hr, hrng, hrec])

end

/-! The parties that issue operations (R283, R420, R458, R480). -/

/-- The fields of an operation word are read where they were put (Table 8.4). -/
theorem AtomWord.ofNat_word (a : AtomArgs) {op : Nat} (hop : op < 256) :
    AtomWord.ofNat (AtomArgs.word a op) = ⟨op, a.fmt % 16, a.ofmt % 4, a.cnt % 8, a.size, a.fetch, a.rsvd % 8192⟩ := by
  have hsize := a.size.toNat_lt
  have hfetch := a.fetch.toNat_lt
  unfold AtomWord.ofNat AtomArgs.word
  congr 1
  · simp only [fld]; omega
  · simp only [fld]; omega
  · simp only [fld]; omega
  · simp only [fld]; omega
  · refine bitOf_of_fld ?_
    simp only [fld]; omega
  · refine bitOf_of_fld ?_
    simp only [fld]; omega
  · simp only [fld]; omega

/-- The party of an operation is that of its requester. -/
theorem Mach.atomFrom_party (m : Mach) (a : AtomArgs) : (m.atomFrom a).1.party = a.party := by
  obtain ⟨⟨kind, num⟩, _⟩ := a
  unfold Mach.atomFrom
  dsimp only
  split <;> rfl

/-- What `atomReady` asks, of a target in the buffer: the party may issue, the transaction waits for nothing and it reaches its unit. -/
theorem Mach.atomReady_reaches {h : Mach} {a : AtomArgs} {op : Nat} {q : Piece} (hop : op < 256) (hready : h.atomReady a op q = true)
    (hbuffer : paMedium q.pa = 0) :
    AtomArgs.ok a = true ∧ h.mayIssue a op (.ofNat (AtomArgs.word a op)) = true ∧
    h.goesNow (h.atomFrom a).1 (h.atomFrom a).2.1 a.va
      (.atomic (AtomArgs.word a op) (h.atomFrom a).2.2 (a.party.kind = 1 && a.flit.release)) = true ∧
    h.AtomReaches (h.atomFrom a).1.party (h.atomFrom a).1.floor (h.atomFrom a).2.1 a.va (.ofNat (AtomArgs.word a op)) (h.atomFrom a).2.2 q := by
  have hatop : (AtomWord.ofNat (AtomArgs.word a op)).atop = op := by rw [AtomWord.ofNat_word a hop]
  unfold Mach.atomReady at hready
  simp only [Bool.and_eq_true, Bool.or_eq_true, Bool.not_eq_true', decide_eq_true_eq, Bool.and_eq_false_imp] at hready
  obtain ⟨⟨⟨⟨⟨⟨⟨⟨⟨⟨hok, hmay⟩, hnow⟩, hpiece⟩, hallowed⟩, hreached⟩, hwhole⟩, hsound⟩, hunshared⟩, hlock⟩, hown⟩ := hready
  refine ⟨hok, hmay, hnow, hpiece, hallowed, hreached, hwhole, hsound, hunshared, fun h3A => ?_, fun h3B => ?_, hbuffer⟩
  · rw [h.atomFrom_party]; exact hlock (hatop ▸ h3A)
  · rw [h.atomFrom_party]; exact hown.resolve_left (not_not.mpr (hatop ▸ h3B))

/-- Operation `a` of its party has been performed in the buffer: the party finds status and bytes, memory holds the bytes written, and the
rings and the units of the other parties stay. -/
def Mach.atomPerformed (m h : Mach) (a : AtomArgs) (st : Status) (ret : Bytes) (pa : Nat) (new : Bytes) : Prop :=
  m.atomAnswered a st ret ∧ m.rng = h.rng ∧ (a.party.kind ≠ 1 → m.site = h.site) ∧ (a.party.kind ≠ 2 → m.core = h.core) ∧
  (a.party.kind ≠ 5 → m.hp = h.hp) ∧ m.mem.cells = Memory.putRun h.mem.cells pa new

section
variable {h : Mach} {a : AtomArgs} {op : Nat} {q : Piece} {new ret : Bytes} {fl : Nat} {w : AtomWord}

/-! A core's operation. -/

theorem Mach.atomFrom_core (hkind : a.party.kind = 2) :
    h.atomFrom a = (.core a.party.num 0, (h.coreAt a.party.num).ctx, padTo 256 a.operand) := by
  unfold Mach.atomFrom
  dsimp only
  rw [hkind]
  rfl

/-- A core with an operation in its registers (R458). -/
def Core.holdsAtomic (x : Core) (a : AtomArgs) (op : Nat) : Core :=
  { x with atomAddr := a.va, atomWord := AtomArgs.word a op, atomOps := padTo 256 a.operand }

/-- The issuing core has it. -/
def Mach.coreHolds (h : Mach) (a : AtomArgs) (op : Nat) : Mach :=
  h.setCoreAt a.party.num ((h.coreAt a.party.num).holdsAtomic a op)

@[simp] theorem Mach.coreHolds_atTargets (h : Mach) (a : AtomArgs) (op : Nat) : (h.coreHolds a op).atTargets = h.atTargets := rfl

/-- A core that may issue an operation exists, runs and is not being fenced. -/
theorem Mach.mayIssue_core (hkind : a.party.kind = 2) (hmay : h.mayIssue a op w = true) :
    a.party.num < h.core.dev.length ∧ h.coreRuns a.party.num = true ∧ h.clk.pwr = 0 := by
  unfold Mach.mayIssue at hmay
  dsimp only at hmay
  rw [hkind] at hmay
  simpa [and_assoc] using hmay

theorem Mach.coreHolds_coreAt (hn : a.party.num < h.core.dev.length) (op : Nat) :
    (h.coreHolds a op).coreAt a.party.num = (h.coreAt a.party.num).holdsAtomic a op := Mach.coreAt_setCoreAt hn _

/-- An operation of a core's registers arrives at its cluster's port (R458). -/
theorem Mach.issueAtomic_core (hkind : a.party.kind = 2) (hmay : h.mayIssue a op w = true) (wait : Bool) :
    h.issueAtomic op a wait = (h.coreHolds a op).arrive (.core a.party.num 0) (h.coreAt a.party.num).ctx a.va
      (.atomic (AtomArgs.word a op) (padTo 256 a.operand) false) .clean 33 0 wait := by
  obtain ⟨hn, hruns, hpwr⟩ := Mach.mayIssue_core hkind hmay
  have hcore := Mach.coreHolds_coreAt hn op
  have hruns' : (h.coreHolds a op).coreRuns a.party.num = true := by
    rw [← hruns]
    unfold Mach.coreRuns
    rw [hcore]
    rfl
  have hwake : (h.coreHolds a op).wake 3 = h.coreHolds a op := Mach.wake_active (m := h.coreHolds a op) hpwr 3
  unfold Mach.issueAtomic
  dsimp only
  rw [hkind]
  simp only [hruns, Bool.not_true, Bool.false_eq_true, if_false]
  show (h.coreHolds a op).coreAtomic a.party.num wait = _
  unfold Mach.coreAtomic
  rw [hruns', hwake]
  dsimp only
  rw [hcore]
  rfl

/-- What is in a core's registers is not asked of where its operation goes. -/
theorem Mach.coreHolds_goesNow (hn : a.party.num < h.core.dev.length) (op ctx va : Nat) (k : TxnKind) :
    (h.coreHolds a op).goesNow (.core a.party.num 0) ctx va k = h.goesNow (.core a.party.num 0) ctx va k := by
  have hport : (h.coreHolds a op).portClosed (.core a.party.num 0) = h.portClosed (.core a.party.num 0) := by
    unfold Mach.portClosed
    dsimp only
    rw [Mach.coreHolds_coreAt hn]
    rfl
  unfold Mach.goesNow
  rw [hport]
  rfl

/-- The answer to the operation of a core that runs is in its registers (R458). -/
theorem Mach.performedAs.answers_core {b : Mach} {pa : Nat} (hb : b.performedAs (h.coreHolds a op) pa new) (hkind : a.party.kind = 2)
    (hn : a.party.num < h.core.dev.length) (hruns : h.coreRuns a.party.num = true) (st : Status) :
    (b.replyAtomic (.core a.party.num 0) st ret).atomPerformed h a st ret pa new := by
  obtain ⟨hrng, hsite, hcore, hhp, -, hcells⟩ := hb
  have hregs : b.coreAt a.party.num = (h.coreAt a.party.num).holdsAtomic a op := by
    rw [← Mach.coreHolds_coreAt hn op, Mach.coreAt, hcore, Mach.coreAt]
  have hlen : a.party.num < b.core.dev.length := by
    rw [hcore]
    exact hn.trans_eq (setAt_length ..).symm
  simp only [Mach.coreRuns, Bool.and_eq_true, decide_eq_true_eq, Option.isNone_iff_eq_none] at hruns
  obtain ⟨⟨hstate, hfencing⟩, -⟩ := hruns
  have hanswer : b.replyAtomic (.core a.party.num 0) st ret = (b.setCoreAt a.party.num
      { b.coreAt a.party.num with atomGo := st.code, atomRes := padTo 256 ret }).emit (.atomicRsp ⟨2, a.party.num⟩ st ret) := by
    unfold Mach.replyAtomic
    dsimp only
    rw [hregs]
    exact if_neg (by simp [Core.holdsAtomic, hstate, hfencing])
  rw [hanswer]
  refine ⟨?_, hrng, fun _ => hsite, fun h2 => absurd hkind h2, fun _ => hhp, hcells⟩
  unfold Mach.atomAnswered
  dsimp only
  rw [hkind]
  exact ⟨congrArg Core.atomGo (Mach.coreAt_setCoreAt hlen _), congrArg Core.atomRes (Mach.coreAt_setCoreAt hlen _)⟩

theorem Mach.issueAtomic_core_performs (hop : op < 256) (hkind : a.party.kind = 2) (hready : h.atomReady a op q = true)
    (hbuffer : paMedium q.pa = 0)
    (heffect : h.atomEffectAt a.party (h.atomFrom a).2.1 (.ofNat (AtomArgs.word a op)) (h.atomFrom a).2.2 q = some (new, ret, fl)) :
    (h.issueAtomic op a false).atomPerformed h a (if fl ≠ 0 then .doneFlagged else .done) ret q.pa new := by
  obtain ⟨-, hmay, hnow, hreaches⟩ := Mach.atomReady_reaches hop hready hbuffer
  obtain ⟨hn, hruns, -⟩ := Mach.mayIssue_core hkind hmay
  have hfrom := Mach.atomFrom_core (h := h) hkind
  rw [← h.atomFrom_party] at heffect
  rw [hfrom] at hnow hreaches heffect
  rw [decide_eq_false (by omega), Bool.false_and] at hnow
  have hsame := h.coreHolds_atTargets a op
  obtain ⟨b, hat, hb⟩ := Mach.arrive_atomic_answers (hreaches.of_atTargets hsame)
    ((Mach.coreHolds_goesNow hn op _ _ _).trans hnow) ((Mach.atomEffectAt_of_atTargets hsame ..).trans heffect) 33
  rw [Mach.issueAtomic_core hkind hmay, hat]
  exact hb.answers_core hkind hn hruns _

/-! A host port's operation. -/

theorem Mach.atomFrom_hostPort (hkind : a.party.kind = 5) :
    h.atomFrom a = (.bar2 a.party.num 0, (h.hpAt a.party.num).apCtx, padTo 256 a.operand) := by
  unfold Mach.atomFrom
  dsimp only
  rw [hkind]
  rfl

theorem setAt_setAt {α : Type} (l : List α) (i : Nat) (x y : α) : setAt (setAt l i x) i y = setAt l i y := by
  induction l generalizing i with
  | nil => rfl
  | cons z l ih =>
    cases i with
    | zero => rfl
    | succ i => rw [setAt, setAt, setAt, ih]

theorem Mach.setHpAt_setHpAt (m : Mach) (n : Nat) (x y : HostPort) : (m.setHpAt n x).setHpAt n y = m.setHpAt n y :=
  congrArg (fun dev => m.setHp { m.hp with dev }) (setAt_setAt m.hp.dev n x y)

/-- A host port with an operation in its registers (R480). -/
def HostPort.holdsAtomic (x : HostPort) (a : AtomArgs) (op : Nat) : HostPort :=
  { x with atomAddr := a.va, atomWord := AtomArgs.word a op, atomOps := padTo 256 a.operand }

/-- The issuing host port has it. -/
def Mach.hpHolds (h : Mach) (a : AtomArgs) (op : Nat) : Mach :=
  h.setHpAt a.party.num ((h.hpAt a.party.num).holdsAtomic a op)

@[simp] theorem Mach.hpHolds_atTargets (h : Mach) (a : AtomArgs) (op : Nat) : (h.hpHolds a op).atTargets = h.atTargets := rfl

theorem Mach.hpHolds_hpAt (hn : a.party.num < h.hp.dev.length) (op : Nat) :
    (h.hpHolds a op).hpAt a.party.num = (h.hpAt a.party.num).holdsAtomic a op := Mach.hpAt_setHpAt hn _

@[simp] theorem HostPort.holdsAtomic_apCtx (x : HostPort) : (x.holdsAtomic a op).apCtx = x.apCtx := rfl
@[simp] theorem HostPort.holdsAtomic_atomWait (x : HostPort) : (x.holdsAtomic a op).atomWait = x.atomWait := rfl
@[simp] theorem HostPort.holdsAtomic_atomAddr (x : HostPort) : (x.holdsAtomic a op).atomAddr = a.va := rfl
@[simp] theorem HostPort.holdsAtomic_atomWord (x : HostPort) : (x.holdsAtomic a op).atomWord = AtomArgs.word a op := rfl
@[simp] theorem HostPort.holdsAtomic_atomOps (x : HostPort) : (x.holdsAtomic a op).atomOps = padTo 256 a.operand := rfl

@[simp] theorem Mach.hpHolds_hpAtomOpen (h : Mach) (n : Nat) : (h.hpHolds a op).hpAtomOpen n = h.hpAtomOpen n := rfl

@[simp] theorem Mach.hpHolds_hpCtx (h : Mach) (n c : Nat) : (h.hpHolds a op).hpCtx n c = h.hpCtx n c := rfl
@[simp] theorem Mach.hpHolds_confCtx (h : Mach) (c : Nat) : (h.hpHolds a op).confCtx c = h.confCtx c := rfl
@[simp] theorem Mach.hpHolds_resolve (h : Mach) (fl ctx va n : Nat) (k : Access) :
    (h.hpHolds a op).resolve fl ctx va n k = h.resolve fl ctx va n k := rfl

/-- What `mayIssue` asks of a host port (R480). -/
theorem Mach.mayIssue_hostPort (hkind : a.party.kind = 5) (hmay : h.mayIssue a op w = true) :
    a.party.num < h.hp.dev.length ∧ h.hpServes a.party.num = true ∧ h.clk.pwr = 0 ∧ h.hpAtomOpen a.party.num = false ∧
    (h.hpAt a.party.num).atomWait = [] ∧ h.bar2Refused a.party.num a.va w.bytes .atomic = false := by
  unfold Mach.mayIssue at hmay
  dsimp only at hmay
  rw [hkind] at hmay
  simpa [and_assoc] using hmay

/-- A read of ATOM_GO of a port that is served (R480): its operation is performed, or waits until an earlier one has returned. -/
theorem Mach.issueAtomic_hostPort (hkind : a.party.kind = 5) (hn : a.party.num < h.hp.dev.length)
    (hserves : h.hpServes a.party.num = true) (hpwr : h.clk.pwr = 0) (op : Nat) (wait : Bool) :
    h.issueAtomic op a wait =
      if h.hpAtomOpen a.party.num || !(h.hpAt a.party.num).atomWait.isEmpty then
        (h.hpHolds a op).setHpAt a.party.num { (h.hpAt a.party.num).holdsAtomic a op with
          atomWait := (h.hpAt a.party.num).atomWait ++ [(a.va, AtomArgs.word a op, padTo 256 a.operand)] }
      else (h.hpHolds a op).hpAtomicDo a.party.num (a.va, AtomArgs.word a op, padTo 256 a.operand) wait := by
  have hport := Mach.hpHolds_hpAt hn op
  have hserves' : (h.hpHolds a op).hpServes a.party.num = true := by
    rw [← hserves]
    unfold Mach.hpServes
    rw [hport]
    rfl
  have hwake : (h.hpHolds a op).wake 4 = h.hpHolds a op := Mach.wake_active (m := h.hpHolds a op) hpwr 4
  unfold Mach.issueAtomic
  dsimp only
  rw [hkind]
  simp only [hserves, Bool.not_true, Bool.false_eq_true, if_false]
  show (h.hpHolds a op).hpAtomic a.party.num wait = _
  unfold Mach.hpAtomic
  simp only [hserves', hwake, hport, Mach.hpHolds_hpAtomOpen, HostPort.holdsAtomic_atomWait, HostPort.holdsAtomic_atomAddr,
    HostPort.holdsAtomic_atomWord, HostPort.holdsAtomic_atomOps, Bool.not_true, Bool.false_eq_true, if_false]

/-- What is in a host port's registers is not asked of where its operation goes. -/
theorem Mach.hpHolds_goesNow (hn : a.party.num < h.hp.dev.length) (op ctx va : Nat) (k : TxnKind) :
    (h.hpHolds a op).goesNow (.bar2 a.party.num 0) ctx va k = h.goesNow (.bar2 a.party.num 0) ctx va k := by
  have hport : (h.hpHolds a op).portClosed (.bar2 a.party.num 0) = h.portClosed (.bar2 a.party.num 0) := by
    unfold Mach.portClosed
    dsimp only
    rw [← Mach.hpAt, Mach.hpHolds_hpAt hn]
    rfl
  unfold Mach.goesNow
  rw [hport]
  rfl

/-- An operation covers some bytes. -/
theorem AtomWord.bytes_pos (w : AtomWord) : 1 ≤ w.bytes := by
  unfold AtomWord.bytes
  split_ifs <;> omega

theorem Mach.hpHolds_bar2Refused (hn : a.party.num < h.hp.dev.length) (va len : Nat) (k : Access) :
    (h.hpHolds a op).bar2Refused a.party.num va len k = h.bar2Refused a.party.num va len k := by
  unfold Mach.bar2Refused
  simp only [Mach.hpHolds_hpAt hn, HostPort.holdsAtomic_apCtx, Mach.hpHolds_hpCtx, Mach.hpHolds_confCtx, Mach.hpHolds_resolve]

theorem Mach.hpAtomicDo_of_allowed {m : Mach} {n : Nat} {r : Nat × Nat × Bytes}
    (hallowed : m.bar2Refused n r.1 (max 1 (AtomWord.ofNat r.2.1).bytes) .atomic = false) (wait : Bool) :
    m.hpAtomicDo n r wait = m.arrive (.bar2 n 0) (m.hpAt n).apCtx r.1 (.atomic r.2.1 r.2.2 false) .clean 33 0 wait := by
  unfold Mach.hpAtomicDo
  exact if_neg (Bool.not_eq_true _ ▸ hallowed)

/-- An operation that BAR2 does not refuse arrives at the port. -/
theorem Mach.hpAtomicDo_arrives (hn : a.party.num < h.hp.dev.length)
    (hallowed : h.bar2Refused a.party.num a.va (AtomWord.ofNat (AtomArgs.word a op)).bytes .atomic = false) (wait : Bool) :
    (h.hpHolds a op).hpAtomicDo a.party.num (a.va, AtomArgs.word a op, padTo 256 a.operand) wait =
      (h.hpHolds a op).arrive (.bar2 a.party.num 0) (h.hpAt a.party.num).apCtx a.va
        (.atomic (AtomArgs.word a op) (padTo 256 a.operand) false) .clean 33 0 wait := by
  rw [← Nat.max_eq_right (AtomWord.bytes_pos _), ← Mach.hpHolds_bar2Refused hn] at hallowed
  rw [Mach.hpAtomicDo_of_allowed (r := (a.va, AtomArgs.word a op, padTo 256 a.operand)) hallowed, Mach.hpHolds_hpAt hn, HostPort.holdsAtomic_apCtx]

/-- The answer to the operation of a host port that is served is in its registers (R480). -/
theorem Mach.performedAs.answers_hostPort {b : Mach} {pa : Nat} (hb : b.performedAs (h.hpHolds a op) pa new) (hkind : a.party.kind = 5)
    (hn : a.party.num < h.hp.dev.length) (hserves : h.hpServes a.party.num = true) (st : Status) :
    (b.replyAtomic (.bar2 a.party.num 0) st ret).atomPerformed h a st ret pa new := by
  obtain ⟨hrng, hsite, hcore, hhp, -, hcells⟩ := hb
  have hregs : b.hpAt a.party.num = (h.hpAt a.party.num).holdsAtomic a op := by
    rw [← Mach.hpHolds_hpAt hn op, Mach.hpAt, hhp, Mach.hpAt]
  have hlen : a.party.num < b.hp.dev.length := by
    rw [hhp]
    exact hn.trans_eq (setAt_length ..).symm
  simp only [Mach.hpServes, Bool.and_eq_true, Bool.not_eq_true'] at hserves
  obtain ⟨⟨-, hstopped⟩, -⟩ := hserves
  have hanswer : b.replyAtomic (.bar2 a.party.num 0) st ret = (b.setHpAt a.party.num
      { b.hpAt a.party.num with atomGo := st.code, atomRes := padTo 256 ret }).emit (.atomicRsp ⟨5, a.party.num⟩ st ret) := by
    unfold Mach.replyAtomic
    dsimp only
    rw [← Mach.hpAt, hregs]
    exact if_neg (by simp [HostPort.holdsAtomic, hstopped])
  rw [hanswer]
  refine ⟨?_, hrng, fun _ => hsite, fun _ => hcore, fun h5 => absurd hkind h5, hcells⟩
  unfold Mach.atomAnswered
  dsimp only
  rw [hkind]
  exact ⟨congrArg HostPort.atomGo (Mach.hpAt_setHpAt hlen _), congrArg HostPort.atomRes (Mach.hpAt_setHpAt hlen _)⟩

theorem Mach.issueAtomic_hostPort_performs (hop : op < 256) (hkind : a.party.kind = 5) (hready : h.atomReady a op q = true)
    (hbuffer : paMedium q.pa = 0)
    (heffect : h.atomEffectAt a.party (h.atomFrom a).2.1 (.ofNat (AtomArgs.word a op)) (h.atomFrom a).2.2 q = some (new, ret, fl)) :
    (h.issueAtomic op a false).atomPerformed h a (if fl ≠ 0 then .doneFlagged else .done) ret q.pa new := by
  obtain ⟨-, hmay, hnow, hreaches⟩ := Mach.atomReady_reaches hop hready hbuffer
  obtain ⟨hn, hserves, hpwr, hopen, hwaits, hallowed⟩ := Mach.mayIssue_hostPort hkind hmay
  have hfrom := Mach.atomFrom_hostPort (h := h) hkind
  rw [← h.atomFrom_party] at heffect
  rw [hfrom] at hnow hreaches heffect
  rw [decide_eq_false (by omega), Bool.false_and] at hnow
  have hsame := h.hpHolds_atTargets a op
  obtain ⟨b, hat, hb⟩ := Mach.arrive_atomic_answers (hreaches.of_atTargets hsame)
    ((Mach.hpHolds_goesNow hn op _ _ _).trans hnow) ((Mach.atomEffectAt_of_atTargets hsame ..).trans heffect) 33
  rw [Mach.issueAtomic_hostPort hkind hn hserves hpwr, hopen, hwaits, if_neg (by simp), Mach.hpAtomicDo_arrives hn hallowed, hat]
  exact hb.answers_hostPort hkind hn hserves _

end

/-! The 64-bit IADD with FETCH, from the registers of a core or of a host port (R283, R458, R480). -/

/-- The word of an IADD of 64 bits with FETCH (Table 8.4). -/
theorem AtomWord.ofNat_iadd64 {a : AtomArgs} (hform : a.size = true ∧ a.fetch = true) :
    AtomWord.ofNat (AtomArgs.word a 0x30) = ⟨0x30, a.fmt % 16, a.ofmt % 4, a.cnt % 8, true, true, a.rsvd % 8192⟩ := by
  rw [AtomWord.ofNat_word a (by decide), hform.1, hform.2]

theorem leN_append_zeros (xs : Bytes) (n : Nat) : leN (xs ++ List.replicate n 0) = leN xs := by
  induction xs with
  | nil => exact leN_zeros n
  | cons b xs ih =>
    rw [List.cons_append, leN, leN, ih]

/-- Padding with zeros does not change a number read from the run's start. -/
theorem num_padTo {k n : Nat} (hk : k ≤ n) (xs : Bytes) : num (padTo n xs) 0 k = num xs 0 k := by
  unfold num padTo
  rw [List.drop_zero, List.drop_zero, List.take_append, List.take_take, Nat.min_eq_left hk, List.take_replicate, leN_append_zeros]

/-- IADD: the word is its old value plus the operand modulo the word's size (Table 8.5). -/
theorem atomEffect_iadd {w : AtomWord} (hatop : w.atop = 0x30) (p : Party) (ovf flush : Bool) (old operand : Bytes) :
    atomEffect w p ovf flush old operand = some (leB w.bytes ((leN old + num operand 0 w.bytes) % 2 ^ (8 * w.bytes)),
      if w.fetch then old else [], 0) := by
  unfold atomEffect
  simp only [hatop]

theorem AtomWord.bytes_iadd64 {a : AtomArgs} (hform : a.size = true ∧ a.fetch = true) :
    (AtomWord.ofNat (AtomArgs.word a 0x30)).bytes = 8 := by
  rw [AtomWord.ofNat_iadd64 hform]
  simp [AtomWord.bytes, AtomWord.anchored, AtomWord.unanchored]

/-- What it does: the word is its old value plus the operand modulo 2^64, and its old bytes are returned (Table 8.5). -/
theorem Mach.atomEffectAt_iadd64 (m : Mach) {a : AtomArgs} (hform : a.size = true ∧ a.fetch = true) (p : Party) (ctx : Nat) (operand : Bytes)
    (q : Piece) :
    m.atomEffectAt p ctx (.ofNat (AtomArgs.word a 0x30)) operand q =
      some (leB 8 ((leN ((List.range 8).map fun i => m.rdByte ctx (q.pa + i)) + num operand 0 8) % 2 ^ 64),
        (List.range 8).map fun i => m.rdByte ctx (q.pa + i), 0) := by
  have hw := AtomWord.ofNat_iadd64 hform
  unfold Mach.atomEffectAt Mach.atomOld
  rw [atomEffect_iadd (by rw [hw]), AtomWord.bytes_iadd64 hform, hw]
  rfl

/-- A run of bytes stored in the buffer changes those bytes alone. -/
theorem Mach.onlyBytes_of_putRun {m h : Mach} {pa : Nat} {new : Bytes} (hcells : m.mem.cells = Memory.putRun h.mem.cells pa new)
    (hbuffer : ∀ i < new.length, paMedium (pa + i) = 0) : m.onlyBytes h pa new := by
  intro hwf x
  rw [hcells]
  exact Memory.sgetD_putRun hwf pa x new hbuffer

theorem Mach.issueAtomic_registers_perform {h : Mach} {a : AtomArgs} {op : Nat} {q : Piece} {new ret : Bytes} {fl : Nat} (hop : op < 256)
    (hkind : a.party.kind = 2 ∨ a.party.kind = 5) (hready : h.atomReady a op q = true) (hbuffer : paMedium q.pa = 0)
    (heffect : h.atomEffectAt a.party (h.atomFrom a).2.1 (.ofNat (AtomArgs.word a op)) (h.atomFrom a).2.2 q = some (new, ret, fl)) :
    (h.issueAtomic op a false).atomPerformed h a (if fl ≠ 0 then .doneFlagged else .done) ret q.pa new := by
  rcases hkind with hcore | hhp
  · exact Mach.issueAtomic_core_performs hop hcore hready hbuffer heffect
  · exact Mach.issueAtomic_hostPort_performs hop hhp hready hbuffer heffect

/-- The 64-bit IADD with FETCH of a core or a host port whose target in the buffer is free: its party finds the old bytes, the word is the
sum, and no other byte changes. -/
theorem Mach.issueAtomic_iadd64 {h : Mach} {a : AtomArgs} {q : Piece} {o : Origin} {ctx : Nat} (hkind : a.party.kind = 2 ∨ a.party.kind = 5)
    (hform : a.size = true ∧ a.fetch = true) (hready : h.atomReady a 0x30 q = true) (hbuffer : ∀ i < 8, paMedium (q.pa + i) = 0)
    (hfrom : h.atomFrom a = (o, ctx, padTo 256 a.operand)) :
    (h.issueAtomic 0x30 a false).atomAnswered a .done ((List.range 8).map fun i => h.rdByte ctx (q.pa + i)) ∧
    (h.issueAtomic 0x30 a false).onlyBytes h q.pa
      (leB 8 ((leN ((List.range 8).map fun i => h.rdByte ctx (q.pa + i)) + num a.operand 0 8) % 2 ^ 64)) := by
  have heffect := h.atomEffectAt_iadd64 hform a.party ctx (padTo 256 a.operand) q
  rw [num_padTo (by decide)] at heffect
  obtain ⟨hanswer, -, -, -, -, hcells⟩ := Mach.issueAtomic_registers_perform (by decide) hkind hready (hbuffer 0 (by decide))
    (by rw [hfrom]; exact heffect)
  refine ⟨hanswer, Mach.onlyBytes_of_putRun hcells fun i hi => hbuffer i ?_⟩
  rwa [leB_length] at hi

/-- A read of ATOM_GO of a host port whose earlier operation has not returned is kept in line (R480). -/
theorem Mach.issueAtomic_hostPort_waits {h : Mach} {a : AtomArgs} (hkind : a.party.kind = 5) (hn : a.party.num < h.hp.dev.length)
    (hserves : h.hpServes a.party.num = true) (hpwr : h.clk.pwr = 0) (hopen : h.hpAtomOpen a.party.num = true) (op : Nat) (wait : Bool) :
    h.issueAtomic op a wait = h.setHpAt a.party.num { (h.hpAt a.party.num).holdsAtomic a op with
      atomWait := (h.hpAt a.party.num).atomWait ++ [(a.va, AtomArgs.word a op, padTo 256 a.operand)] } := by
  rw [Mach.issueAtomic_hostPort hkind hn hserves hpwr, hopen, if_pos (by simp)]
  exact Mach.setHpAt_setHpAt ..

/-- Settles O33: the operation goes from the registers to its target and its answer comes back to them; a host port whose earlier operation
has not returned keeps the read in line. -/
theorem coresAndHostsReadTheirAtomicsBack : Obligations.CoresAndHostsReadTheirAtomicsBack := by
  unfold Obligations.CoresAndHostsReadTheirAtomicsBack
  intro h
  refine ⟨?core, ?hostPort, ?waits⟩
  case core =>
    rintro a n q hparty hform hready hbuffer old s rfl
    obtain rfl : a.party.num = n := by rw [hparty]
    have hkind : a.party.kind = 2 := by rw [hparty]
    obtain ⟨hanswer, hbytes⟩ := Mach.issueAtomic_iadd64 (.inl hkind) hform hready hbuffer (Mach.atomFrom_core hkind)
    unfold Mach.atomAnswered at hanswer
    rw [hkind] at hanswer
    obtain ⟨hgo, hres⟩ := hanswer
    exact completes_runIf rfl (Mach.atomReady_reaches (by decide) hready (hbuffer 0 (by decide))).1 ⟨hgo, hres, hbytes⟩
  case hostPort =>
    rintro a n q hparty hform hready hbuffer old s rfl
    obtain rfl : a.party.num = n := by rw [hparty]
    have hkind : a.party.kind = 5 := by rw [hparty]
    obtain ⟨hanswer, hbytes⟩ := Mach.issueAtomic_iadd64 (.inr hkind) hform hready hbuffer (Mach.atomFrom_hostPort hkind)
    unfold Mach.atomAnswered at hanswer
    rw [hkind] at hanswer
    obtain ⟨hgo, hres⟩ := hanswer
    exact completes_runIf rfl (Mach.atomReady_reaches (by decide) hready (hbuffer 0 (by decide))).1 ⟨hgo, hres, hbytes⟩
  case waits =>
    rintro a n wait hok hn hparty hserves hpwr hopen x s rfl
    obtain rfl : a.party.num = n := by rw [hparty]
    exact completes_runIf rfl hok (Mach.issueAtomic_hostPort_waits (by rw [hparty]) hn hserves hpwr hopen 0x30 wait)

end Sys2Proof.Machine
end

section
/-! PROOFS. Atomic operations of every party but a tile, and the value set that an operation goes by (R61). -/
namespace Sys2Proof.Machine

section
variable {h : Mach} {a : AtomArgs} {op : Nat} {q : Piece} {new ret : Bytes} {fl : Nat}

/-- A party that exists and is no tile is a core, a context, a neighbour station or a host port (Table 8.8). -/
theorem AtomArgs.kind_of_ok (hok : AtomArgs.ok a = true) (hkind : a.party.kind ≠ 1) :
    a.party.kind = 2 ∨ a.party.kind = 3 ∨ a.party.kind = 4 ∨ a.party.kind = 5 := by
  unfold AtomArgs.ok at hok
  split at hok <;> simp_all

/-- The response to an operation of a context or a neighbour station is shown by the link engine (R283, R391). -/
theorem Mach.issueAtomic_agent_performs (hop : op < 256) (hkind : a.party.kind = 3 ∨ a.party.kind = 4)
    (hready : h.atomReady a op q = true) (hbuffer : paMedium q.pa = 0)
    (heffect : h.atomEffectAt a.party (h.atomFrom a).2.1 (.ofNat (AtomArgs.word a op)) (h.atomFrom a).2.2 q = some (new, ret, fl)) :
    (h.issueAtomic op a false).atomPerformed h a (if fl ≠ 0 then .doneFlagged else .done) ret q.pa new := by
  obtain ⟨-, -, hnow, hreaches⟩ := Mach.atomReady_reaches hop hready hbuffer
  have hfrom : h.atomFrom a = (.agent a.party a.floor (36 + a.bond % 6) a.tag, a.ctx, a.operand) := by
    unfold Mach.atomFrom
    rcases hkind with hk | hk <;> simp [hk]
  have hissue : h.issueAtomic op a false =
      h.arrive (.agent a.party a.floor (36 + a.bond % 6) a.tag) a.ctx a.va (.atomic (AtomArgs.word a op) a.operand false) .clean 33 0 false := by
    unfold Mach.issueAtomic
    dsimp only
    rcases hkind with hk | hk <;> rw [hk] <;> rfl
  rw [← h.atomFrom_party] at heffect
  rw [hfrom] at hnow hreaches heffect
  rw [decide_eq_false (by omega), Bool.false_and] at hnow
  obtain ⟨b, hat, hb⟩ := Mach.arrive_atomic_answers hreaches hnow heffect 33
  obtain ⟨hrng, hsite, hcore, hhp, -, hcells⟩ := hb
  rw [hissue, hat]
  refine ⟨?_, hrng, fun _ => hsite, fun _ => hcore, fun _ => hhp, hcells⟩
  unfold Mach.atomAnswered
  rcases hkind with hk | hk <;> simp [hk] <;> rfl

/-- Where no older live epoch carries the current epoch's number, an operation goes by the running values. -/
theorem Mach.atomEffectAt_of_running (hrunning : h.bankOf h.fb.epoch = h.fb.cur) (p : Party) (ctx : Nat) (w : AtomWord) (operand : Bytes) :
    h.atomEffectAt p ctx w operand q =
      atomEffect w p (h.cfg kAnchorOverflow = 1) (h.cfg kAnchorSubnormals = 1) (h.atomOld ctx w q) operand := by
  unfold Mach.atomEffectAt Mach.cfgE
  rw [hrunning]
  rfl

/-- What holds of O31 for a core, a host port, a context and a neighbour station where no older live epoch carries the current epoch's
number: its answer is where its party finds it, its target in the buffer holds the new bytes and every other byte is as before. -/
theorem Mach.issueAtomic_performs (hop : op < 256) (hkind : a.party.kind ≠ 1) (hrunning : h.bankOf h.fb.epoch = h.fb.cur)
    (hready : h.atomReady a op q = true) (hbuffer : ∀ i < new.length, paMedium (q.pa + i) = 0) (hpos : 0 < new.length)
    (heffect : atomEffect (.ofNat (AtomArgs.word a op)) a.party (h.cfg kAnchorOverflow = 1) (h.cfg kAnchorSubnormals = 1)
      (h.atomOld (h.atomFrom a).2.1 (.ofNat (AtomArgs.word a op)) q) (h.atomFrom a).2.2 = some (new, ret, fl)) :
    (h.issueAtomic op a false).atomPerformed h a (if fl ≠ 0 then .doneFlagged else .done) ret q.pa new ∧
    (h.issueAtomic op a false).onlyBytes h q.pa new := by
  rw [← Mach.atomEffectAt_of_running hrunning] at heffect
  have hstart := hbuffer 0 hpos
  have hok := (Mach.atomReady_reaches hop hready hstart).1
  have hperformed : (h.issueAtomic op a false).atomPerformed h a (if fl ≠ 0 then .doneFlagged else .done) ret q.pa new := by
    obtain hk | hk | hk | hk := AtomArgs.kind_of_ok hok hkind
    · exact Mach.issueAtomic_registers_perform hop (.inl hk) hready hstart heffect
    · exact Mach.issueAtomic_agent_performs hop (.inl hk) hready hstart heffect
    · exact Mach.issueAtomic_agent_performs hop (.inr hk) hready hstart heffect
    · exact Mach.issueAtomic_registers_perform hop (.inr hk) hready hstart heffect
  refine ⟨hperformed, ?_⟩
  obtain ⟨-, -, -, -, -, hcells⟩ := hperformed
  exact Mach.onlyBytes_of_putRun hcells hbuffer

end

/-- A cell of value 1 under anchor 300: 2 ^ 173, beyond FP32. -/
def hugeCell : Cell := { value := 1, anchor := 300 }

/-- Segment 0 of context 5: 2 MiB of buffer on floor 0, slice 0. -/
def bufferSegment : SegEnt :=
  { ctx := 5, vaBase := 0, size := 0, policy := 0, medium := 0, home := 0, stack := 0, unit := 0, rd := true, wr := true
    at' := true, noAlloc := false, unitOff := 0 }

/-- The module after reset with that segment mapped, the cell at address 0, and an older live epoch that carries the current epoch's
number, in which an overflow saturates (ANCHOR_OVERFLOW 1, R265); the running value is 0, infinity. -/
def twinEpochs : Mach :=
  let m := State.reset.hw.setGrid { State.reset.hw.grid with seg := [(0, bufferSegment)] }
  let m := m.setMem { m.mem with cells := Memory.putRun [] 0 hugeCell.bytes }
  m.setFb { m.fb with old := some (m.fb.epoch, { ovr := [(kAnchorOverflow, [1])] }) }

/-- ANCH_READ of the cell in FP32, by context 5 through a link engine. -/
def readHuge : AtomArgs := { party := ⟨3, 5⟩, floor := 0, ctx := 5, va := 0 }

/-- Its target. -/
def hugePiece : Piece := ⟨0, bufferSegment, bufferSegment.place 0 0, 0, 0, 32⟩

theorem twinEpochs_atomReady : twinEpochs.atomReady readHuge 0x15 hugePiece = true := by decide +kernel

/-- By the running values the read delivers infinity. -/
theorem twinEpochs_atomEffect :
    atomEffect (AtomWord.ofNat (AtomArgs.word readHuge 0x15)) readHuge.party (twinEpochs.cfg kAnchorOverflow = 1)
        (twinEpochs.cfg kAnchorSubnormals = 1)
        (twinEpochs.atomOld (twinEpochs.atomFrom readHuge).2.1 (AtomWord.ofNat (AtomArgs.word readHuge 0x15)) hugePiece)
        (twinEpochs.atomFrom readHuge).2.2 =
      some (hugeCell.bytes, leB 4 0x7F800000 ++ leB 2 1, 1) := by
  decide +kernel

/-- The model takes the values of the transaction's epoch (R61), and of two live epochs with its number the older one's: the read
delivers the greatest finite FP32. -/
theorem twinEpochs_read :
    (twinEpochs.issueAtomic 0x15 readHuge false).out = [.atomicRsp ⟨3, 5⟩ .doneFlagged (leB 4 0x7F7FFFFF ++ leB 2 1)] := by
  decide +kernel

/-- ANCH_READ of a party that exists is its issue. -/
theorem exec_anchRead {a : AtomArgs} (hok : AtomArgs.ok a = true) (wait : Bool) (s : State) :
    exec (.anchRead a wait) s = runFz s fun _ m => m.issueAtomic 0x15 a wait := runFzIf_true hok s _

/-- Refutes O31: the statement reads ANCHOR_OVERFLOW in the running set, while the model reads it in the set of the operation's epoch,
and nothing in the statement keeps the older live epoch from carrying the current epoch's number (`Mach.issueAtomic_performs` asks it). -/
theorem not_atomicsReadModifyWriteTheirTarget : ¬ Obligations.AtomicsReadModifyWriteTheirTarget := by
  unfold Obligations.AtomicsReadModifyWriteTheirTarget
  rintro ⟨-, -, -, -, -, hread, -⟩
  obtain ⟨hruns, -⟩ := hread twinEpochs readHuge hugePiece _ _ _ twinEpochs_atomReady twinEpochs_atomEffect
  have hexec := exec_anchRead (a := readHuge) (by decide) false (State.reset.setHw twinEpochs)
  obtain ⟨hanswer, -⟩ := completes_runFz_effect hexec (hruns _ rfl)
  rw [State.setHw_hw] at hanswer
  have hhead : (twinEpochs.issueAtomic 0x15 readHuge false).out.head? =
      some (.atomicRsp ⟨3, 5⟩ .doneFlagged (leB 4 0x7F800000 ++ leB 2 1)) := hanswer
  rw [twinEpochs_read] at hhead
  revert hhead
  decide

end Sys2Proof.Machine
end

section
/-! PROOFS. Anchored sums and integer words: what does not depend on the order of arrival (R263, R264, R265, R287). -/
namespace Sys2Proof.Machine

/-! Cells: what one addend, one image and one exponent do (R263, R265, R275, R276, R277). -/

theorem addCount_right_comm (c m n : Nat) : addCount (addCount c m) n = addCount (addCount c n) m := by
  unfold addCount
  omega

theorem bitVec_or_right_comm {n : Nat} (f g h : BitVec n) : f ||| g ||| h = f ||| h ||| g := by
  rw [BitVec.or_assoc, BitVec.or_comm g, BitVec.or_assoc]

/-- A conversion raises the flags of Table 8.3 that are carried from cell to cell, never AUTO or LATE. -/
theorem convert_flags (anchor : Int) (x : Addend) : (convert anchor x).2 &&& 31 = (convert anchor x).2 := by
  have hcarried : ∀ f ∈ [flSat, flUnder, flNan, flPinf, flNinf, 0], f &&& 31 = f := by decide
  apply hcarried
  cases x with
  | pinf | ninf | nan => simp [convert]
  | fin x =>
    unfold convert
    dsimp only
    split_ifs <;> simp

/-- Carried flags leave AUTO as it is. -/
theorem or_and_flAuto {f : BitVec 7} (hf : f &&& 31 = f) (g : BitVec 7) : (g ||| f) &&& flAuto = g &&& flAuto := by
  have hnone : f &&& flAuto = 0#7 := by rw [← hf, BitVec.and_assoc, show (31 : BitVec 7) &&& flAuto = 0#7 by decide, BitVec.and_zero]
  rw [BitVec.and_or_distrib_right, hnone, BitVec.or_zero]

theorem or_andNot_flAuto {f : BitVec 7} (hf : f &&& 31 = f) (g : BitVec 7) : (g ||| f) &&& ~~~flAuto = (g &&& ~~~flAuto) ||| f := by
  have hkept : f &&& ~~~flAuto = f := by
    rw [← hf, BitVec.and_assoc, show (31 : BitVec 7) &&& ~~~flAuto = 31 by decide]
  rw [BitVec.and_or_distrib_right, hkept]

theorem Cell.fix_of_not_auto {c : Cell} (h : c.auto = false) : c.fix = c := by
  unfold Cell.fix
  rw [h]
  rfl

theorem Cell.fix_not_auto (c : Cell) : c.fix.auto = false := by
  unfold Cell.fix
  split
  case isTrue =>
    unfold Cell.auto
    rw [BitVec.and_assoc, show ~~~flAuto &&& flAuto = 0#7 by decide, BitVec.and_zero]
    rfl
  case isFalse h => exact Bool.not_eq_true _ ▸ h

/-- An addend of a cell whose anchor is fixed adds its conversion to the value, its flags to the flags and 1 to the count. -/
theorem Cell.add_of_not_auto {c : Cell} (h : c.auto = false) (x : Addend) :
    (c.add x).1 = { value := c.value + (convert c.anchor.toInt x).1, anchor := c.anchor,
                    flags := c.flags ||| (convert c.anchor.toInt x).2, count := addCount c.count 1 } := by
  unfold Cell.add
  rw [Cell.fix_of_not_auto h]

theorem Cell.add_fix (c : Cell) (x : Addend) : (c.fix.add x).1 = (c.add x).1 := by
  unfold Cell.add
  rw [Cell.fix_of_not_auto c.fix_not_auto]

theorem Cell.add_not_auto {c : Cell} (h : c.auto = false) (x : Addend) : (c.add x).1.auto = false := by
  rw [Cell.add_of_not_auto h]
  unfold Cell.auto at h ⊢
  rw [or_and_flAuto (convert_flags ..)]
  exact h

/-- Two addends of a cell may come in either order (R263): the first that comes to a cell with AUTO fixes the same anchor. -/
theorem Cell.add_add_comm (c : Cell) (x y : Addend) : ((c.add x).1.add y).1 = ((c.add y).1.add x).1 := by
  rw [← c.add_fix x, ← c.add_fix y]
  have h := c.fix_not_auto
  rw [Cell.add_of_not_auto (Cell.add_not_auto h x), Cell.add_of_not_auto (Cell.add_not_auto h y), Cell.add_of_not_auto h,
    Cell.add_of_not_auto h]
  dsimp only
  rw [add_right_comm, bitVec_or_right_comm]

/-- Two images may come in either order (R276). -/
theorem Cell.addRaw_addRaw_comm (c d e : Cell) : ((c.addRaw d).1.addRaw e).1 = ((c.addRaw e).1.addRaw d).1 := by
  have hcarried (f : BitVec 7) : (f &&& 31) &&& 31 = f &&& 31 := by rw [BitVec.and_assoc, BitVec.and_self]
  unfold Cell.addRaw
  dsimp only
  rw [or_andNot_flAuto (hcarried _), or_andNot_flAuto (hcarried _), add_right_comm, bitVec_or_right_comm, addCount_right_comm]

@[simp] theorem Cell.addRaw_anchor (c d : Cell) : (c.addRaw d).1.anchor = c.anchor := rfl

/-! The pre-pass of exponents (R266, R277). -/

/-- The anchor that a gathering cell has after one exponent; 0x8000 is none yet. -/
def Cell.gathered (anchor : BitVec 16) : Option Int → BitVec 16
  | none => anchor
  | some e => if anchor = 0x8000 || anchor.toInt < e then BitVec.ofInt 16 e else anchor

/-- What ANCH_EMAX does to a cell: it gathers, or the exponent is late. -/
theorem Cell.emax_eq (c : Cell) (x : Addend) :
    (c.emax x).1 = if c.auto && c.count = 0 then { c with anchor := Cell.gathered c.anchor (expOf x) }
      else { c with flags := c.flags ||| flLate } := by
  unfold Cell.emax Cell.gathered
  split
  case isFalse => rfl
  case isTrue =>
    cases expOf x with
    | none => rfl
    | some e =>
      dsimp only
      split <;> rfl

/-- An exponent lies within the anchors above 0x8000. -/
def exponentFits (x : Addend) : Prop := ∀ e, expOf x = some e → -32768 < e ∧ e < 32768

/-- The gathered anchor is the greatest exponent, where 0x8000 is less than all. -/
theorem Cell.gathered_toInt {e : Int} (hlow : -32768 < e) (hhigh : e < 32768) (anchor : BitVec 16) :
    (Cell.gathered anchor (some e)).toInt = max anchor.toInt e := by
  have hof : (BitVec.ofInt 16 e).toInt = e := by
    rw [BitVec.toInt_ofInt]
    exact Int.bmod_eq_of_le (by omega) (by omega)
  have hnone : anchor = 0x8000 → anchor.toInt = -32768 := by
    rintro rfl
    decide
  unfold Cell.gathered
  dsimp only
  split
  case isTrue h =>
    simp only [Bool.or_eq_true, decide_eq_true_eq] at h
    rw [hof]
    rcases h with h | h
    · rw [hnone h]
      omega
    · omega
  case isFalse h =>
    simp only [Bool.or_eq_true, decide_eq_true_eq, not_or] at h
    omega

theorem Cell.gathered_right_comm {x y : Addend} (hx : exponentFits x) (hy : exponentFits y) (anchor : BitVec 16) :
    Cell.gathered (Cell.gathered anchor (expOf x)) (expOf y) = Cell.gathered (Cell.gathered anchor (expOf y)) (expOf x) := by
  cases hex : expOf x with
  | none => rfl
  | some d =>
    cases hey : expOf y with
    | none => rfl
    | some e =>
      obtain ⟨hd, hd'⟩ := hx d hex
      obtain ⟨he, he'⟩ := hy e hey
      apply BitVec.eq_of_toInt_eq
      rw [Cell.gathered_toInt he he', Cell.gathered_toInt hd hd', Cell.gathered_toInt hd hd', Cell.gathered_toInt he he', max_right_comm]

/-- Two exponents may come in either order (R277). -/
theorem Cell.emax_emax_comm {x y : Addend} (hx : exponentFits x) (hy : exponentFits y) (c : Cell) :
    ((c.emax x).1.emax y).1 = ((c.emax y).1.emax x).1 := by
  simp only [Cell.emax_eq]
  cases h : c.auto && c.count = 0 with
  | true =>
    have hstill (a : BitVec 16) : (Cell.auto { c with anchor := a } && c.count = 0) = true := h
    simp [hstill, Cell.gathered_right_comm hx hy]
  | false =>
    have hstill : (Cell.auto { c with flags := c.flags ||| flLate } && c.count = 0) = false := by
      rw [← h]
      unfold Cell.auto
      dsimp only
      rw [BitVec.and_or_distrib_right, show flLate &&& flAuto = 0#7 by decide, BitVec.or_zero]
    simp [hstill]

/-! Partial sums (R276). -/

theorem addCount_addCount (c m n : Nat) : addCount (addCount c m) n = addCount c (addCount m n) := by
  unfold addCount
  omega

theorem Cell.addRaw_not_auto (c d : Cell) : (c.addRaw d).1.auto = false := by
  unfold Cell.auto Cell.addRaw
  dsimp only
  rw [or_and_flAuto (by rw [BitVec.and_assoc, BitVec.and_self]), BitVec.and_assoc, show ~~~flAuto &&& flAuto = 0#7 by decide,
    BitVec.and_zero]
  rfl

/-- Adding one more addend to the partial sum, or to the cell after the merge, is the same where the anchors are equal. -/
theorem Cell.addRaw_add {c d : Cell} (hd : d.auto = false) (hanchor : d.anchor = c.anchor) (x : Addend) :
    (c.addRaw (d.add x).1).1 = ((c.addRaw d).1.add x).1 := by
  rw [Cell.add_of_not_auto hd, Cell.add_of_not_auto (Cell.addRaw_not_auto c d)]
  unfold Cell.addRaw
  dsimp only
  rw [hanchor, BitVec.and_or_distrib_right, convert_flags, BitVec.or_assoc, BitVec.add_assoc, addCount_addCount]

/-- The sum of addends in a cell, one by one. -/
def Cell.sum (c : Cell) (l : List Addend) : Cell := l.foldl (fun c x => (c.add x).1) c

theorem Cell.sum_not_auto {c : Cell} (h : c.auto = false) (l : List Addend) : (c.sum l).auto = false := by
  induction l generalizing c with
  | nil => exact h
  | cons x l ih => exact ih (Cell.add_not_auto h x)

theorem Cell.sum_anchor {c : Cell} (h : c.auto = false) (l : List Addend) : (c.sum l).anchor = c.anchor := by
  induction l generalizing c with
  | nil => rfl
  | cons x l ih => exact (ih (Cell.add_not_auto h x)).trans (by rw [Cell.add_of_not_auto h])

theorem Cell.sum_append (c : Cell) (xs ys : List Addend) : c.sum (xs ++ ys) = (c.sum xs).sum ys := List.foldl_append

/-- A count within its 32 bits stays within them. -/
theorem Cell.sum_count_le {c : Cell} (h : c.count ≤ 0xFFFFFFFF) (l : List Addend) : (c.sum l).count ≤ 0xFFFFFFFF := by
  induction l generalizing c with
  | nil => exact h
  | cons x l ih => exact ih (Nat.min_le_right _ _)

theorem Cell.empty_not_auto (anchor : BitVec 16) : Cell.auto { anchor } = false := by
  show decide ((0 : BitVec 7) &&& flAuto ≠ 0) = false
  decide

/-- Merging the empty partial sum changes nothing of a cell whose count is within its 32 bits. -/
theorem Cell.addRaw_empty {c : Cell} (h : c.auto = false) (hcount : c.count ≤ 0xFFFFFFFF) : (c.addRaw { anchor := c.anchor }).1 = c := by
  have hflags : c.flags &&& ~~~flAuto = c.flags := by
    have hnone : c.flags &&& flAuto = 0#7 := by simpa [Cell.auto] using h
    calc c.flags &&& ~~~flAuto
      _ = c.flags &&& flAuto ||| c.flags &&& ~~~flAuto := by rw [hnone, BitVec.zero_or]
      _ = c.flags &&& (flAuto ||| ~~~flAuto) := BitVec.and_or_distrib_left.symm
      _ = c.flags := by rw [show flAuto ||| ~~~flAuto = BitVec.allOnes 7 by decide, BitVec.and_allOnes]
  have hsame : addCount c.count 0 = c.count := Nat.min_eq_left hcount
  unfold Cell.addRaw
  dsimp only
  rw [hflags, hsame]
  simp

/-- The second half of O32 holds of counts of 32 bits: merging a partial sum gives what adding its addends one by one
gives (R263, R264, R276). -/
theorem Cell.addRaw_sum {c : Cell} (h : c.auto = false) (hcount : c.count ≤ 0xFFFFFFFF) (xs ys : List Addend) :
    ((c.sum xs).addRaw (Cell.sum { anchor := c.anchor } ys)).1 = c.sum (xs ++ ys) := by
  rw [Cell.sum_append, ← Cell.sum_anchor h xs]
  have hauto := Cell.sum_not_auto h xs
  have hle := Cell.sum_count_le hcount xs
  generalize c.sum xs = d at hauto hle ⊢
  induction ys using List.reverseRecOn with
  | nil => exact Cell.addRaw_empty hauto hle
  | append_singleton ys y ih =>
    have hpart : Cell.auto { anchor := d.anchor } = false := Cell.empty_not_auto _
    rw [Cell.sum_append, Cell.sum_append, ← ih]
    exact Cell.addRaw_add (c := d) (Cell.sum_not_auto hpart ys) (Cell.sum_anchor hpart ys) y

/-! Exponents of the input formats (Table 8.1). -/

theorem exponentFits_fin {m e : Int} {k : Nat} (hm : m.natAbs < 2 ^ k) (hlow : -32768 < e) (hhigh : k + e ≤ 32768) :
    exponentFits (.fin ⟨m, e⟩) := by
  intro x hx
  unfold expOf at hx
  dsimp only at hx
  split_ifs at hx with hzero
  · have hlog : m.natAbs.log2 < k := (Nat.log2_lt (Int.natAbs_ne_zero.mpr hzero)).mpr hm
    obtain rfl := Option.some.inj hx
    omega

/-- A float code of FP32's size or less has an exponent within the anchors. -/
theorem exponentFits_val {f : Fmt} (hp : f.p ≤ 24) (heb : f.eb ≤ 8) (hpos : 1 ≤ f.p) (hlow : -126 ≤ f.emin) (hhigh : f.emin ≤ 126)
    (c : Nat) : exponentFits (.fin (f.val c)) := by
  have hfrac : f.mag c % 2 ^ (f.p - 1) < 2 ^ (f.p - 1) := Nat.mod_lt _ (Nat.two_pow_pos _)
  have hexp : f.mag c / 2 ^ (f.p - 1) < 2 ^ f.eb := by
    apply Nat.div_lt_of_lt_mul
    rw [← Nat.pow_add]
    unfold Fmt.mag Fmt.width
    rw [show f.eb + f.p - 1 = f.p - 1 + f.eb by omega]
    exact Nat.mod_lt _ (Nat.two_pow_pos _)
  have hexp' : 2 ^ f.eb ≤ 2 ^ 8 := Nat.pow_le_pow_right (by decide) heb
  have hfrac' : 2 ^ (f.p - 1) ≤ 2 ^ 23 := Nat.pow_le_pow_right (by decide) (by omega)
  unfold Fmt.val
  dsimp only
  refine exponentFits_fin (k := 24) ?_ ?_ ?_
  · split_ifs <;> omega
  · split_ifs <;> omega
  · split_ifs <;> omega

theorem exponentFits_signed {w : Nat} (hw : w ≤ 64) (c : Nat) : exponentFits (.fin ⟨signed w c, 0⟩) := by
  have hlt : c % 2 ^ w < 2 ^ w := Nat.mod_lt _ (Nat.two_pow_pos _)
  have hle : 2 ^ w ≤ 2 ^ 64 := Nat.pow_le_pow_right (by decide) hw
  refine exponentFits_fin (k := 65) ?_ (by decide) (by decide)
  unfold signed
  split_ifs <;> omega

theorem exponentFits_of_not_fin {x : Addend} (h : ∀ y, x ≠ .fin y) : exponentFits x := by
  intro e he
  cases x with
  | fin y => exact absurd rfl (h y)
  | pinf | ninf | nan => cases he

theorem exponentFits_addend {f : Fmt} (hval : ∀ c, exponentFits (.fin (f.val c))) (c : Nat) : exponentFits (f.addend c) := by
  unfold Fmt.addend
  split_ifs
  · exact exponentFits_of_not_fin (by simp)
  · exact exponentFits_of_not_fin (by simp)
  · exact exponentFits_of_not_fin (by simp)
  · exact hval c

/-- Every element of an input format has an exponent within the anchors. -/
theorem exponentFits_addendOf (fmt c : Nat) : exponentFits (addendOf fmt c) := by
  unfold addendOf
  split
  · exact exponentFits_addend (exponentFits_val (by decide) (by decide) (by decide) (by decide) (by decide)) c
  · exact exponentFits_addend (exponentFits_val (by decide) (by decide) (by decide) (by decide) (by decide)) c
  · exact exponentFits_addend (exponentFits_val (by decide) (by decide) (by decide) (by decide) (by decide)) c
  · unfold e4m3Val?
    split_ifs
    · exact exponentFits_of_not_fin (by simp)
    · exact exponentFits_val (by decide) (by decide) (by decide) (by decide) (by decide) c
  · exact exponentFits_addend (exponentFits_val (by decide) (by decide) (by decide) (by decide) (by decide)) c
  · exact exponentFits_signed (by decide) c
  · exact exponentFits_signed (by decide) c

/-! The bytes of cells (Table 8.3). -/

/-- A number of `n` bytes is spelled by its bytes. -/
theorem leN_leB (n v : Nat) : leN (leB n v) = v % 256 ^ n := by
  induction n generalizing v with
  | zero => simp [leB, leN, Nat.mod_one]
  | succ n ih =>
    rw [leB, leN, ih, BitVec.toNat_ofNat]
    show v % 256 + 256 * (v / 256 % 256 ^ n) = v % 256 ^ (n + 1)
    rw [Nat.pow_succ', Nat.mod_mul]

theorem leN_lt (xs : Bytes) : leN xs < 256 ^ xs.length := by
  induction xs with
  | nil => decide
  | cons b xs ih =>
    rw [leN, List.length_cons, Nat.pow_succ']
    have := b.isLt
    omega

theorem num_lt (xs : Bytes) (i n : Nat) : num xs i n < 256 ^ n :=
  (leN_lt _).trans_le (Nat.pow_le_pow_right (by decide) (List.length_take_le _ _))

/-- Cell `i` of a run of bytes. -/
def cellAt (b : Bytes) (i : Nat) : Cell := Cell.ofNat (num b (32 * i) 32)

theorem cellAt_count_lt (b : Bytes) (i : Nat) : (cellAt b i).count < 2 ^ 32 := Nat.mod_lt _ (by decide)

/-- The bytes of `n` cells. -/
def cellsBytes (n : Nat) (f : Nat → Cell) : Bytes := (List.range n).flatMap fun i => (f i).bytes

@[simp] theorem cellsBytes_length (n : Nat) (f : Nat → Cell) : (cellsBytes n f).length = 32 * n := by
  rw [cellsBytes, flatMap_length _ _ 32 fun i _ => by exact leB_length 32 _, List.length_range]

theorem cellsBytes_congr {n : Nat} {f g : Nat → Cell} (h : ∀ i < n, f i = g i) : cellsBytes n f = cellsBytes n g := by
  unfold cellsBytes
  simp only [List.flatMap_def]
  rw [List.map_congr_left fun i hi => congrArg Cell.bytes (h i (List.mem_range.mp hi))]

/-- A cell whose count is within its 32 bits is spelled by its bytes. -/
theorem Cell.ofNat_bytes {c : Cell} (h : c.count < 2 ^ 32) : Cell.ofNat (leN c.bytes) = c := by
  obtain ⟨value, anchor, flags, count⟩ := c
  have hv := value.isLt
  have ha := anchor.isLt
  have hf := flags.isLt
  unfold Cell.bytes Cell.ofNat
  rw [leN_leB]
  dsimp only at h ⊢
  congr 1
  · apply BitVec.eq_of_toNat_eq; rw [BitVec.toNat_ofNat]; omega
  · apply BitVec.eq_of_toNat_eq; rw [BitVec.toNat_ofNat]; omega
  · apply BitVec.eq_of_toNat_eq; rw [BitVec.toNat_ofNat]; omega
  · simp only [fld]; omega

/-- Run `i` of the runs of one length that stand end to end. -/
theorem take_drop_flatMap {α : Type} (l : List α) (f : α → Bytes) (k : Nat) (h : ∀ x, (f x).length = k) (i : Nat) (hi : i < l.length) :
    ((l.flatMap f).drop (k * i)).take k = f l[i] := by
  induction l generalizing i with
  | nil => exact absurd hi (Nat.not_lt_zero i)
  | cons x l ih =>
    cases i with
    | zero => simp [h]
    | succ i =>
      rw [List.flatMap_cons, Nat.mul_succ, Nat.add_comm, ← List.drop_drop, List.drop_left' (h x), ih i (Nat.lt_of_succ_lt_succ hi)]
      rfl

/-- A cell of those bytes. -/
theorem cellAt_cellsBytes {n i : Nat} {f : Nat → Cell} (hi : i < n) (h : (f i).count < 2 ^ 32) : cellAt (cellsBytes n f) i = f i := by
  have hrun := take_drop_flatMap (List.range n) (fun i => (f i).bytes) 32 (fun _ => leB_length 32 _) i (by rwa [List.length_range])
  unfold cellAt num cellsBytes
  rw [hrun, List.getElem_range, Cell.ofNat_bytes h]

/-! Which operations do not depend on the order in which their operands arrive (R287). -/

/-- What an operation leaves at its target: its new bytes, or those it found where it is not performed. -/
def targetAfter (w : AtomWord) (p : Party) (ovf flush : Bool) (b operand : Bytes) : Bytes :=
  match atomEffect w p ovf flush b operand with | some r => r.1 | none => b

/-- Updates of a target of `n` bytes that may come in either order. -/
def orderFree (n : Nat) (upd : Bytes → Bytes → Bytes) : Prop :=
  ∀ b x y, b.length = n → (upd b x).length = n ∧ upd (upd b x) y = upd (upd b y) x

/-- Updates that may come in either order may come in any. -/
theorem orderFree.foldl_perm {n : Nat} {upd : Bytes → Bytes → Bytes} (h : orderFree n upd) {xs ys : List Bytes} (hperm : List.Perm xs ys)
    {b : Bytes} (hb : b.length = n) : xs.foldl upd b = ys.foldl upd b := by
  induction hperm generalizing b with
  | nil => rfl
  | cons x _ ih => exact ih (h b x x hb).1
  | swap x y l => exact congrArg (l.foldl upd) (h b y x hb).2
  | trans _ _ ih ih' => exact (ih hb).trans (ih' hb)

theorem zipIdx_map_range {α : Type} (n : Nat) (f : Nat → α) : ((List.range n).map f).zipIdx = (List.range n).map fun i => (f i, i) := by
  apply List.ext_getElem
  · simp
  · intro i hi hi'
    simp

section
variable {w : AtomWord} (p : Party) (ovf flush : Bool)

/-- Element `i` of an operand (Table 8.1). -/
def AtomWord.elem (w : AtomWord) (operand : Bytes) (i : Nat) : Addend :=
  addendOf w.fmt (num operand (fmtBytes w.fmt * i) (fmtBytes w.fmt))

theorem targetAfter_emax (hatop : w.atop = 0x12) (b operand : Bytes) :
    targetAfter w p ovf flush b operand = cellsBytes (w.cnt + 1) fun i => ((cellAt b i).emax (w.elem operand i)).1 := by
  unfold targetAfter atomEffect
  simp only [hatop, zipIdx_map_range, List.map_map, List.flatMap_map]
  rfl

theorem targetAfter_add (hatop : w.atop = 0x13) (b operand : Bytes) :
    targetAfter w p ovf flush b operand = cellsBytes (w.cnt + 1) fun i => ((cellAt b i).add (w.elem operand i)).1 := by
  unfold targetAfter atomEffect
  simp only [hatop, zipIdx_map_range, List.map_map, List.flatMap_map]
  rfl

/-- Every image of an operand has the anchor of its cell. -/
def anchorsMeet (n : Nat) (b operand : Bytes) : Bool := (List.range n).all fun i => (cellAt b i).anchor = (cellAt operand i).anchor

theorem targetAfter_addRaw (hatop : w.atop = 0x14) (b operand : Bytes) :
    targetAfter w p ovf flush b operand =
      if anchorsMeet (w.cnt + 1) b operand then cellsBytes (w.cnt + 1) fun i => ((cellAt b i).addRaw (cellAt operand i)).1 else b := by
  unfold targetAfter atomEffect
  simp only [hatop, List.zip_map', List.map_map, List.flatMap_map, List.all_map, Function.comp_def]
  unfold anchorsMeet cellAt
  split_ifs <;> rfl

/-- The integer operation of an operation word on numbers (Table 8.5). -/
def AtomWord.onNumbers (w : AtomWord) (a b : Nat) : Nat :=
  match w.atop with
  | 0x30 => (a + b) % 2 ^ (8 * w.bytes)
  | 0x31 => a &&& b
  | 0x32 => a ||| b
  | 0x33 => a ^^^ b
  | 0x34 => if signed (8 * w.bytes) a ≤ signed (8 * w.bytes) b then a else b
  | 0x35 => if signed (8 * w.bytes) a ≥ signed (8 * w.bytes) b then a else b
  | 0x36 => min a b
  | _ => max a b

theorem targetAfter_integer (hatop : w.atop ∈ [0x30, 0x31, 0x32, 0x33, 0x34, 0x35, 0x36, 0x37]) (b operand : Bytes) :
    targetAfter w p ovf flush b operand = leB w.bytes (w.onNumbers (leN b) (num operand 0 w.bytes)) := by
  unfold targetAfter atomEffect AtomWord.onNumbers
  simp only [List.mem_cons, List.not_mem_nil, or_false] at hatop
  rcases hatop with h | h | h | h | h | h | h | h <;> simp only [h] <;> rfl

end

/-! Integer words. -/

/-- An operation on numbers below `n` whose operands may come in either order. -/
def numbersOrderFree (n : Nat) (f : Nat → Nat → Nat) : Prop :=
  ∀ a < n, ∀ b < n, f a b < n ∧ ∀ c < n, f (f a b) c = f (f a c) b

theorem numbersOrderFree.words {k : Nat} {f : Nat → Nat → Nat} (h : numbersOrderFree (256 ^ k) f) :
    orderFree k fun b operand => leB k (f (leN b) (num operand 0 k)) := by
  intro b x y hb
  refine ⟨leB_length .., ?_⟩
  have hold : leN b < 256 ^ k := hb ▸ leN_lt b
  obtain ⟨hx, hcomm⟩ := h _ hold _ (num_lt x 0 k)
  obtain ⟨hy, -⟩ := h _ hold _ (num_lt y 0 k)
  dsimp only
  rw [leN_leB, leN_leB, Nat.mod_eq_of_lt hx, Nat.mod_eq_of_lt hy, hcomm _ (num_lt y 0 k)]

theorem numbersOrderFree_add (n : Nat) : numbersOrderFree n fun a b => (a + b) % n := by
  intro a ha b hb
  refine ⟨Nat.mod_lt _ (by omega), fun c hc => ?_⟩
  dsimp only
  rw [Nat.mod_add_mod, Nat.mod_add_mod, Nat.add_right_comm]

theorem numbersOrderFree_and (k : Nat) : numbersOrderFree (2 ^ k) fun a b => a &&& b := fun a _ b hb =>
  ⟨Nat.and_lt_two_pow a hb, fun c _ => Nat.and_right_comm a b c⟩

theorem numbersOrderFree_or (k : Nat) : numbersOrderFree (2 ^ k) fun a b => a ||| b := fun a ha b hb =>
  ⟨Nat.or_lt_two_pow ha hb, fun c _ => by dsimp only; rw [Nat.or_assoc, Nat.or_comm b, Nat.or_assoc]⟩

theorem numbersOrderFree_xor (k : Nat) : numbersOrderFree (2 ^ k) fun a b => a ^^^ b := fun a ha b hb =>
  ⟨Nat.xor_lt_two_pow ha hb, fun c _ => by dsimp only; rw [Nat.xor_assoc, Nat.xor_comm b, Nat.xor_assoc]⟩

theorem numbersOrderFree_min (n : Nat) : numbersOrderFree n min := fun a ha b hb => ⟨by omega, fun c hc => by omega⟩

theorem numbersOrderFree_max (n : Nat) : numbersOrderFree n max := fun a ha b hb => ⟨by omega, fun c hc => by omega⟩

/-- The two's complement readings of different numbers differ. -/
theorem signed_inj {k a b : Nat} (ha : a < 2 ^ k) (hb : b < 2 ^ k) (h : signed k a = signed k b) : a = b := by
  unfold signed at h
  rw [Nat.mod_eq_of_lt ha, Nat.mod_eq_of_lt hb] at h
  split_ifs at h <;> omega

/-- An operation that picks one operand, by readings that two orders agree on. -/
theorem numbersOrderFree_pick {k : Nat} {f : Nat → Nat → Nat} {r : Int → Int → Int} (hpick : ∀ a b, f a b = a ∨ f a b = b)
    (hreading : ∀ a b, signed k (f a b) = r (signed k a) (signed k b)) (hr : ∀ x y z, r (r x y) z = r (r x z) y) :
    numbersOrderFree (2 ^ k) f := by
  have hlt {a b : Nat} (ha : a < 2 ^ k) (hb : b < 2 ^ k) : f a b < 2 ^ k := by
    rcases hpick a b with h | h <;> rw [h] <;> assumption
  refine fun a ha b hb => ⟨hlt ha hb, fun c hc => signed_inj (hlt (hlt ha hb) hc) (hlt (hlt ha hc) hb) ?_⟩
  simp only [hreading, hr]

theorem numbersOrderFree_signedMin (k : Nat) : numbersOrderFree (2 ^ k) fun a b => if signed k a ≤ signed k b then a else b :=
  numbersOrderFree_pick (r := min) (fun _ _ => ite_eq_or_eq ..) (fun a b => by rw [apply_ite (signed k), min_def]) min_right_comm

theorem numbersOrderFree_signedMax (k : Nat) : numbersOrderFree (2 ^ k) fun a b => if signed k a ≥ signed k b then a else b :=
  numbersOrderFree_pick (r := max) (fun _ _ => ite_eq_or_eq ..) (fun a b => by rw [apply_ite (signed k), max_comm, max_def])
    max_right_comm

/-- The eight integer operations without a condition are order-free. -/
theorem AtomWord.onNumbers_orderFree (w : AtomWord) : numbersOrderFree (256 ^ w.bytes) w.onNumbers := by
  rw [show 256 ^ w.bytes = 2 ^ (8 * w.bytes) from (Nat.pow_mul 2 8 _).symm]
  unfold AtomWord.onNumbers
  split
  · exact numbersOrderFree_add _
  · exact numbersOrderFree_and _
  · exact numbersOrderFree_or _
  · exact numbersOrderFree_xor _
  · exact numbersOrderFree_signedMin _
  · exact numbersOrderFree_signedMax _
  · exact numbersOrderFree_min _
  · exact numbersOrderFree_max _

/-! Runs of cells. -/

/-- An operation on each of `n` cells. -/
def cellwise (n : Nat) (step : Bytes → Nat → Cell → Cell) (b operand : Bytes) : Bytes :=
  cellsBytes n fun i => step operand i (cellAt b i)

theorem cellAt_cellwise {n i : Nat} {step : Bytes → Nat → Cell → Cell} (hi : i < n) {b x : Bytes}
    (hcount : ∀ c : Cell, c.count < 2 ^ 32 → (step x i c).count < 2 ^ 32) :
    cellAt (cellwise n step b x) i = step x i (cellAt b i) := cellAt_cellsBytes hi (hcount _ (cellAt_count_lt b i))

theorem cellwise_cellwise_comm {n : Nat} {step : Bytes → Nat → Cell → Cell}
    (hcount : ∀ x i (c : Cell), c.count < 2 ^ 32 → (step x i c).count < 2 ^ 32)
    (hcomm : ∀ x y i c, step y i (step x i c) = step x i (step y i c)) (b x y : Bytes) :
    cellwise n step (cellwise n step b x) y = cellwise n step (cellwise n step b y) x := by
  refine cellsBytes_congr fun i hi => ?_
  rw [cellAt_cellwise hi (hcount x i), cellAt_cellwise hi (hcount y i), hcomm]

theorem addCount_lt (m n : Nat) : addCount m n < 2 ^ 32 := by
  unfold addCount
  omega

theorem Cell.emax_count (c : Cell) (x : Addend) : (c.emax x).1.count = c.count := by
  rw [Cell.emax_eq]
  split <;> rfl

/-- An image meets the anchors of cells that have merged another image. -/
theorem anchorsMeet_cellwise_addRaw (n : Nat) (b x y : Bytes) :
    anchorsMeet n (cellwise n (fun o i c => (c.addRaw (cellAt o i)).1) b x) y = anchorsMeet n b y := by
  unfold anchorsMeet
  rw [Bool.eq_iff_iff, List.all_eq_true, List.all_eq_true]
  refine forall₂_congr fun i hi => ?_
  rw [cellAt_cellwise (List.mem_range.mp hi) fun c _ => addCount_lt .., Cell.addRaw_anchor]

/-- Images merged where their anchors are those of the cells are order-free. -/
theorem orderFree_addRaw (n : Nat) :
    orderFree (32 * n) fun b o => if anchorsMeet n b o then cellwise n (fun o i c => (c.addRaw (cellAt o i)).1) b o else b := by
  intro b x y hb
  constructor
  · dsimp only
    split
    · exact cellsBytes_length ..
    · exact hb
  · have hstill := anchorsMeet_cellwise_addRaw n b
    cases hx : anchorsMeet n b x with
    | false => cases hy : anchorsMeet n b y <;> simp [hx, hy, hstill]
    | true =>
      cases hy : anchorsMeet n b y with
      | false => simp [hx, hy, hstill]
      | true =>
        simp only [hx, hy, hstill, if_true]
        exact cellwise_cellwise_comm (fun _ _ _ _ => addCount_lt ..) (fun _ _ _ c => c.addRaw_addRaw_comm _ _) b x y

/-- The operations that R287 names are order-free. -/
theorem targetAfter_orderFree {w : AtomWord} (p : Party) (ovf flush : Bool)
    (hatop : w.atop ∈ [0x12, 0x13, 0x14, 0x30, 0x31, 0x32, 0x33, 0x34, 0x35, 0x36, 0x37]) :
    orderFree w.bytes (targetAfter w p ovf flush) := by
  have hcells (h : w.atop / 16 = 1) : w.bytes = 32 * (w.cnt + 1) := if_pos (by simp [AtomWord.anchored, h])
  obtain h | h | h | h : w.atop = 0x12 ∨ w.atop = 0x13 ∨ w.atop = 0x14 ∨
      w.atop ∈ [0x30, 0x31, 0x32, 0x33, 0x34, 0x35, 0x36, 0x37] := by simpa using hatop
  · rw [hcells (by rw [h]), funext₂ (targetAfter_emax p ovf flush h)]
    exact fun b x y _ => ⟨cellsBytes_length .., cellwise_cellwise_comm (step := fun o i c => (c.emax (w.elem o i)).1)
      (fun _ _ c hc => (Cell.emax_count c _).trans_lt hc)
      (fun _ _ _ c => c.emax_emax_comm (exponentFits_addendOf _ _) (exponentFits_addendOf _ _)) b x y⟩
  · rw [hcells (by rw [h]), funext₂ (targetAfter_add p ovf flush h)]
    exact fun b x y _ => ⟨cellsBytes_length .., cellwise_cellwise_comm (step := fun o i c => (c.add (w.elem o i)).1)
      (fun _ _ _ _ => addCount_lt ..) (fun _ _ _ c => c.add_add_comm _ _) b x y⟩
  · rw [hcells (by rw [h]), funext₂ (targetAfter_addRaw p ovf flush h)]
    exact orderFree_addRaw (w.cnt + 1)
  · rw [funext₂ (targetAfter_integer p ovf flush h)]
    exact w.onNumbers_orderFree.words

/-- The first half of O32 holds: operands of one order-free operation on one target may arrive in any order (R287). -/
theorem atomicTarget_foldl_perm {w : AtomWord} (p : Party) (ovf flush : Bool) {old : Bytes} {xs ys : List Bytes}
    (hatop : w.atop ∈ [0x12, 0x13, 0x14, 0x30, 0x31, 0x32, 0x33, 0x34, 0x35, 0x36, 0x37]) (hold : old.length = w.bytes)
    (hperm : List.Perm xs ys) : xs.foldl (targetAfter w p ovf flush) old = ys.foldl (targetAfter w p ovf flush) old :=
  (targetAfter_orderFree p ovf flush hatop).foldl_perm hperm hold

/-- Refutes O32: a count that no image of a cell holds saturates as soon as a partial sum is merged, although nothing was added.
Of the statement's two halves the first holds (`atomicTarget_foldl_perm`), and the second for every count of 32 bits (`Cell.addRaw_sum`). -/
theorem not_atomicTargetsDoNotDependOnArrivalOrder : ¬ Obligations.AtomicTargetsDoNotDependOnArrivalOrder := by
  unfold Obligations.AtomicTargetsDoNotDependOnArrivalOrder
  rintro ⟨-, hmerge⟩
  have hcount := congrArg Cell.count (hmerge { count := 2 ^ 32 } [] [] (by decide))
  exact absurd hcount (by decide)

end Sys2Proof.Machine
end

section
/-! PROOFS. Doorbells of a ring's own submitter (R303 to R305, Table 9.3), and an ordered item that does no work (R313). -/
namespace Sys2Proof.Machine

/-- A ring on which no doorbell acts: it is closed, or its context ends or has ended (R304). -/
def Mach.ignoresBells (m : Mach) (x : Ring) : Bool :=
  x.closed || (match m.ctx? x.ctx with | some c => c.st = .destroying | none => true)

theorem Mach.heeds_bells {m : Mach} {x : Ring} {c : Ctx} (hopen : x.closed = false) (hctx : m.ctx? x.ctx = some c)
    (hlive : c.st = .live) : m.ignoresBells x = false := by
  simp [Mach.ignoresBells, hopen, hctx, hlive]

/-- What the submitter's own doorbell does, by its bit 63. -/
theorem Mach.doorbell_of_submitter {m : Mach} {word : Nat} {x : Ring} (hring : m.ring? (fld word 48 15) = some x) :
    m.doorbell x.subKind x.submitter word =
      if m.ignoresBells x then m
      else if bitOf word 63 then
        if x.consumed < min (fld word 0 48) x.taken then
          m.setRing (fld word 48 15) { x with consumed := min (fld word 0 48) x.taken }
        else m
      else if x.produce < fld word 0 48 then m.setRing (fld word 48 15) { x with produce := fld word 0 48 }
      else m := by
  unfold Mach.doorbell
  simp only [hring, ne_eq, not_true_eq_false, decide_false, Bool.or_false, Bool.false_eq_true, if_false]
  rfl

section
variable {m : Mach} {word : Nat} {x : Ring} (hpwr : m.clk.pwr = 0) (hring : m.ring? (fld (word % 2 ^ 63) 48 15) = some x)
include hpwr hring

/-- DOORBELL_PRODUCE of a ring's own submitter at an ACTIVE module. -/
theorem Mach.ringBell_produce : m.ringBell x.subKind x.submitter (word % 2 ^ 63) =
    if m.ignoresBells x then m
    else if x.produce < fld (word % 2 ^ 63) 0 48 then
      m.setRing (fld (word % 2 ^ 63) 48 15) { x with produce := fld (word % 2 ^ 63) 0 48 }
    else m := by
  have hbit : bitOf (word % 2 ^ 63) 63 = false := by simp only [bitOf, decide_eq_false_iff_not]; omega
  rw [Mach.ringBell, Mach.wake_active hpwr, Mach.doorbell_of_submitter hring, hbit]
  simp

/-- DOORBELL_CONSUME of a ring's own submitter at an ACTIVE module. -/
theorem Mach.ringBell_consume : m.ringBell x.subKind x.submitter (word % 2 ^ 63 + 2 ^ 63) =
    if m.ignoresBells x then m
    else if x.consumed < min (fld (word % 2 ^ 63) 0 48) x.taken then
      m.setRing (fld (word % 2 ^ 63) 48 15) { x with consumed := min (fld (word % 2 ^ 63) 0 48) x.taken }
    else m := by
  have hbit : bitOf (word % 2 ^ 63 + 2 ^ 63) 63 = true := by simp only [bitOf, decide_eq_true_eq]; omega
  have hnumber : fld (word % 2 ^ 63 + 2 ^ 63) 48 15 = fld (word % 2 ^ 63) 48 15 := by simp only [fld]; omega
  have hseq : fld (word % 2 ^ 63 + 2 ^ 63) 0 48 = fld (word % 2 ^ 63) 0 48 := by simp only [fld]; omega
  rw [Mach.ringBell, Mach.wake_active hpwr, Mach.doorbell_of_submitter (by rw [hnumber]; exact hring), hbit, hnumber, hseq]
  simp

end

theorem exec_doorbellProduce (kind num word : Nat) (s : State) :
    exec (.doorbellProduce kind num word) s = run s fun m => m.ringBell kind num (word % 2 ^ 63) := rfl

theorem exec_doorbellConsume (kind num word : Nat) (s : State) :
    exec (.doorbellConsume kind num word) s = run s fun m => m.ringBell kind num (word % 2 ^ 63 + 2 ^ 63) := rfl

/-- Settles O14. -/
theorem doorbellsBelowAndAboveAreClamped : Obligations.DoorbellsBelowAndAboveAreClamped := by
  unfold Obligations.DoorbellsBelowAndAboveAreClamped
  refine ⟨?produce, ?consume, ?above⟩
  case produce =>
    rintro s kind num word x r seq hpwr hring rfl rfl hlow
    refine completes_run (exec_doorbellProduce ..) ((Mach.ringBell_produce hpwr hring).trans ?_)
    rw [if_neg (show ¬ x.produce < seq by omega), ite_self]
  case consume =>
    rintro s kind num word x r seq hpwr hring rfl rfl hlow
    refine completes_run (exec_doorbellConsume ..) ((Mach.ringBell_consume hpwr hring).trans ?_)
    rw [if_neg (show ¬ x.consumed < min seq x.taken by omega), ite_self]
  case above =>
    rintro s kind num word x c r seq hpwr hring rfl rfl hopen hctx hlive habove hleft
    refine completes_run (exec_doorbellConsume ..) ((Mach.ringBell_consume hpwr hring).trans ?_)
    have hclamp : min seq x.taken = x.taken := Nat.min_eq_right habove.le
    simp only [Mach.heeds_bells hopen hctx hlive, Bool.false_eq_true, if_false]
    rw [if_pos (show x.consumed < min seq x.taken by omega)]
    exact congrArg (fun v => s.hw.setRing r { x with consumed := v }) hclamp

/-- The doorbell of a ring that does not exist is counted, and nothing else happens (R305). -/
theorem Mach.ringBell_of_no_ring {m : Mach} {word : Nat} (hpwr : m.clk.pwr = 0) (hring : m.ring? (fld word 48 15) = none)
    (kind num : Nat) : m.ringBell kind num word = m.bump kRingDoorbellDrops := by
  rw [Mach.ringBell, Mach.wake_active hpwr, Mach.doorbell]
  simp only [hring]

/-- An accepted NOP whose turn has come ends at once. -/
theorem Mach.orderedStart_nop_ends {m : Mach} {k : Nat} {i : Item} (hitem : m.item? k = some i) (hwaits : i.started = false)
    (hfree : m.itemFree i = true) (hskip : i.skip = false) (hkind : i.kind = kindNop) : (m.orderedStart k).item? k = none := by
  have hkey : i.key = k := itemKey_of_item? hitem
  have hbegin : m.orderedStart k = (m.startItem k).finish k .done := by
    simp [Mach.orderedStart, Mach.beginItem, hitem, hwaits, hfree, hskip, hkind, hkey, kindNop, kindTraverse]
  rw [hbegin]
  exact Mach.item?_finish ..

/-- Settles O24. -/
theorem doorbellsAdvanceTheirRing : Obligations.DoorbellsAdvanceTheirRing := by
  unfold Obligations.DoorbellsAdvanceTheirRing
  intro h
  refine ⟨?produce, ?consume, ?drop, ?ordered⟩
  case produce =>
    rintro kind num word x c r seq hpwr hring rfl rfl hopen hctx hlive hhigher s rfl
    refine completes_run (exec_doorbellProduce ..) ((Mach.ringBell_produce hpwr hring).trans ?_)
    rw [Mach.heeds_bells hopen hctx hlive, if_neg (by simp), if_pos hhigher]
  case consume =>
    rintro kind num word x c r seq hpwr hring rfl rfl hopen hctx hlive hhigher s rfl
    refine completes_run (exec_doorbellConsume ..) ((Mach.ringBell_consume hpwr hring).trans ?_)
    rw [Mach.heeds_bells hopen hctx hlive, if_neg (by simp), if_pos hhigher]
  case drop =>
    rintro kind num word hpwr hring s rfl
    exact completes_run (exec_doorbellProduce ..) (Mach.ringBell_of_no_ring hpwr hring kind num)
  case ordered =>
    rintro ring seq i hring hseq hitem hwaits hfree hskip hkind s rfl
    have hunit : (decide (ring < 32768) && decide (seq < 2 ^ 48)) = true := by rw [decide_eq_true hring, decide_eq_true hseq]; rfl
    exact completes_runIf rfl hunit (Mach.orderedStart_nop_ends hitem hwaits hfree hskip hkind)

end Sys2Proof.Machine
end

section
/-! PROOFS. RING_CREATE on a floor that was withdrawn at survey (R106, R298, R299). -/
namespace Sys2Proof.Machine

/-- The module after a survey that withdrew F1, with a session that has said HELLO, context 5 and `mirrorSegment`; partition 0
holds host core 0 and the first ring of F1. -/
def withdrawnModule : Mach :=
  let m := State.reset.hw
  let m := (m.setCad { m.cad with step := 21 }).setDie { m.die with withdrawn := [false, true] }
  let m := (m.setRng { m.rng with ctxs := [(5, {})] }).setGrid { m.grid with seg := [(0, mirrorSegment)] }
  m.setFb { m.fb with
    sessions := [(0, { port := 0, hello := true })]
    cur := { ovr := [(key 0x7010 6, leB 4 1), (key 0x7010 7, leB 4 0 ++ leB 2 16384 ++ leB 2 1)] } }

/-- The creation record of that ring: context 5, 16 slots, host core 0 as submitter, descriptors at segment address 0 and completion
records at 4096. -/
def withdrawnRing : Bytes := leB 32 (64 * 2 ^ 140 + 5 * 2 ^ 128 + 16384 * 2 ^ 113 + 4 * 2 ^ 104 + 2 * 2 ^ 100)

/-- It meets the rules of R298 to R301: the segment map maps its areas on F1 too. -/
theorem withdrawnRing_meets_rules : withdrawnModule.takes (.ringCreate (.session 0) 1 withdrawnRing {}) = true ∧
    (let w := leN withdrawnRing
     withdrawnModule.subInPlat 0 2 (fld w 92 8) = true ∧ withdrawnModule.ringInPlat 0 (fld w 113 15) = true ∧
     withdrawnModule.areaGood (ringFloor (fld w 113 15)) (fld w 128 12) (fld w 174 34 * 64) (64 * 2 ^ fld w 104 5) = true ∧
     withdrawnModule.areaGood (ringFloor (fld w 113 15)) (fld w 128 12) (fld w 140 34 * 64) (32 * 2 ^ fld w 104 5) = true) := by
  decide +kernel

/-- It is refused, and there is no ring. -/
theorem withdrawnRing_refused : (withdrawnModule.ringCreate (leN withdrawnRing)).st = .rejectRange ∧
    (withdrawnModule.command State.reset.fuses (.session 0) kRingCreate 1 withdrawnRing {}).rng.rings = [] := by decide +kernel

/-- A reply on a session leaves the rings. -/
theorem Mach.replies_session_rng {c : CmdReq} {n : Nat} (hrq : c.rq = .session n) (m : Mach) (st : Status) (v : Bytes) :
    (m.replies c st v).rng = m.rng := by
  unfold Mach.replies Mach.sendReply
  rw [hrq]
  dsimp only
  split <;> rfl

/-- A CMD entry's row that is answered with DONE has carried its request out so: the converse of `isCommand.answersAt`. -/
theorem isCommand.effect_of_answersAt {i : Instr} {c : CmdReq} {s : State} {p : Mach → Mach → Bytes → Prop} (hi : isCommand i c)
    (h : Machine.answersAt i s p) : ∃ a v, s.hw.command s.fuses c.rq c.key c.reqId c.value c.verif =
      (a.noteAll s.fuses).replies c .done v ∧ p (s.hw.opens c.rq) a v := by
  simp only [Machine.answersAt, hi.1] at h
  exact completes_runFz_effect (f := fun z m => m.command z c.rq c.key c.reqId c.value c.verif) (hi.2 s) h

/-- Refutes O57: the statement asks of the ring's areas that the segment map maps them on the ring's floor, and not that this floor is in
service. A floor that was withdrawn at survey has no rings (R106), and RING_CREATE of one is refused with REJECT_RANGE. -/
theorem not_ringsAndContextsAreMadeAndEnded : ¬ Obligations.RingsAndContextsAreMadeAndEnded := by
  unfold Obligations.RingsAndContextsAreMadeAndEnded
  intro h
  obtain ⟨hcreate, -⟩ := h withdrawnModule (.session 0) 1 withdrawnRing {}
  obtain ⟨htakes, hsub, hring, hdesc, hcpl⟩ := withdrawnRing_meets_rules
  have hmade := hcreate {} htakes (by decide) rfl (by decide) (by decide) (by decide) (by decide) (by decide) (by decide) (by decide)
    (by decide) (by decide) (by decide) hsub hring (by decide) hdesc hcpl
  have hi : isCommand (.ringCreate (.session 0) 1 withdrawnRing {}) ⟨.session 0, kRingCreate, 1, withdrawnRing, {}⟩ :=
    ⟨rfl, fun _ => rfl⟩
  obtain ⟨a, v, hreplies, -, hnew, -⟩ := hi.effect_of_answersAt (hmade (State.reset.setHw withdrawnModule) rfl)
  rw [State.setHw_hw, State.setHw_fuses] at hreplies
  have hrings : a.rng.rings = [] := by
    rw [← withdrawnRing_refused.2, hreplies, Mach.replies_session_rng rfl]
    rfl
  rw [hrings] at hnew
  cases hnew

end Sys2Proof.Machine
end

section
/-! PROOFS. Link ports: a port's record through the operations on it and on other ports, and what a port sends (R337 to R341, R356,
R357). -/
namespace Sys2Proof.Machine

/-! A port's record. -/

theorem Mach.portAt_congr {a b : Mach} (h : a.lnk = b.lnk) (p : Nat) : a.portAt p = b.portAt p := by
  rw [Mach.portAt, h]; rfl

theorem Mach.portAt_setPort {m : Mach} {p : Nat} (hp : p < m.lnk.dev.length) (x : Port) : (m.setPort p x).portAt p = x :=
  nth_setAt_self _ hp x

theorem Mach.portAt_setPort_ne (m : Mach) {p q : Nat} (h : q ≠ p) (x : Port) : (m.setPort p x).portAt q = m.portAt q :=
  nth_setAt_ne _ _ h x

/-- What an update of a port keeps of it, it keeps of every port. -/
theorem Mach.setPort_keeps {β : Type} (m : Mach) {p : Nat} {x : Port} (f : Port → β) (h : f x = f (m.portAt p)) (q : Nat) :
    f ((m.setPort p x).portAt q) = f (m.portAt q) := nth_setAt_keep ({} : Port) m.lnk.dev p q x f h

theorem Mach.setPort_setPort (m : Mach) (p : Nat) (x y : Port) : (m.setPort p x).setPort p y = m.setPort p y :=
  congrArg (fun dev => m.setLnk { m.lnk with dev }) (setAt_setAt m.lnk.dev p x y)

/-- A port put as it stands changes nothing. -/
theorem Mach.setPort_same {m : Mach} {p : Nat} {x : Port} (h : x = m.portAt p) : m.setPort p x = m := by
  subst h
  exact congrArg (fun dev => m.setLnk { m.lnk with dev }) (setAt_nth ({} : Port) m.lnk.dev p)

@[simp] theorem Mach.setPort_ports (m : Mach) (p : Nat) (x : Port) : (m.setPort p x).lnk.dev.length = m.lnk.dev.length :=
  setAt_length ..

@[simp] theorem Mach.setPort_cfg (m : Mach) (p : Nat) (x : Port) (k : Nat) : (m.setPort p x).cfg k = m.cfg k := rfl
@[simp] theorem Mach.emit_cfg (m : Mach) (e : Emit) (k : Nat) : (m.emit e).cfg k = m.cfg k := rfl

@[simp] theorem Mach.emit_portAt (m : Mach) (e : Emit) (p : Nat) : (m.emit e).portAt p = m.portAt p := rfl
@[simp] theorem Mach.bump_portAt (m : Mach) (k n p : Nat) : (m.bump k n).portAt p = m.portAt p := rfl
@[simp] theorem Mach.setFb_portAt (m : Mach) (x : Fb) (p : Nat) : (m.setFb x).portAt p = m.portAt p := rfl

/-- An event of no context and a survey log record leave the ports as they are. -/
@[simp] theorem Mach.event_none_portAt (m : Mach) (c k v : Nat) (u : UnitRef) (d p : Nat) :
    (m.event c k v u 0 d).portAt p = m.portAt p := by
  rw [Mach.event_none]; rfl

@[simp] theorem Mach.logWidth_portAt (m : Mach) (p st q : Nat) : (m.logWidth p st).portAt q = m.portAt q := rfl

/-! Frames. -/

/-- What a frame shows of its port is SEQ of the last frame taken, the key and the chainage. -/
theorem Port.shown_congr {x y : Port} (hseq : x.rxSeq = y.rxSeq) (hkey : x.sealKey = y.sealKey) (hchain : x.chainTx = y.chainTx)
    (s : Sent) (nak : Bool) : x.shown s nak = y.shown s nak := by
  simp only [Port.shown, Port.frameOf, hseq, hkey, hchain]

/-- A frame of a port in clear leaves the port as it is. -/
theorem Mach.showFrame_clear {m : Mach} {p : Nat} (h : (m.portAt p).sealKey = none) (s : Sent) (nak : Bool) :
    m.showFrame p s nak = m.emit (.link p ((m.portAt p).shown s nak)) := by
  have hchain : (if (m.portAt p).sealKey.isSome then ((m.portAt p).chainTx + 1) % 2 ^ 64 else (m.portAt p).chainTx) =
      (m.portAt p).chainTx := by rw [h]; rfl
  unfold Mach.showFrame
  dsimp only
  rw [hchain]
  exact congrArg (fun a : Mach => a.emit _) (Mach.setPort_same rfl)

/-- A port's record but for what changes as a frame leaves, whatever its kind (R353). -/
def Port.unchained (x : Port) : Port := { x with chainTx := 0 }

/-- A port's record but for what sending changes (R339, R353, R356). -/
def Port.unsent (x : Port) : Port := { x with chainTx := 0, txSeq := 0, replay := [], sinceCtl := 0, waitMsg := [] }

@[simp] theorem Mach.showFrame_unchained (m : Mach) (p : Nat) (s : Sent) (nak : Bool) (q : Nat) :
    ((m.showFrame p s nak).portAt q).unchained = (m.portAt q).unchained := by
  unfold Mach.showFrame
  extract_lets x
  rw [Mach.emit_portAt]
  exact m.setPort_keeps Port.unchained (by rfl) q

theorem Port.unsent_of_unchained {x y : Port} (h : x.unchained = y.unchained) : x.unsent = y.unsent :=
  (congrArg Port.unsent h :)

theorem Mach.showFrame_other (m : Mach) {p q : Nat} (h : q ≠ p) (s : Sent) (nak : Bool) :
    (m.showFrame p s nak).portAt q = m.portAt q := by
  unfold Mach.showFrame
  extract_lets x
  exact m.portAt_setPort_ne h _

/-- A frame that is sent leaves, and but for the counters that count it only the port's record is changed. -/
theorem Mach.putFrame_shape (m : Mach) (p code : Nat) (fields : List Nat) (payload : Bytes) : ∃ y : Port, ∃ c : SMap Nat,
    let a := m.showFrame p ⟨(m.portAt p).txSeq, code, fields, payload⟩
    y.unsent = (a.portAt p).unsent ∧ m.putFrame p code fields payload = (a.setPort p y).setFb { m.fb with ctr := c } := by
  unfold Mach.putFrame
  extract_lets x s a y b d
  obtain ⟨c, hc⟩ : ∃ c, (if code < 3 then d.bump (key (0x9700 + p) (3 + code)) else if code = 16 then d.bump (key (0x9700 + p) 6)
      else d) = b.setFb { m.fb with ctr := c } := by
    split_ifs
    exacts [⟨_, rfl⟩, ⟨_, rfl⟩, ⟨_, rfl⟩]
  refine ⟨_, c, ?_, hc⟩
  rfl

theorem Mach.putFrame_unsent (m : Mach) (p code : Nat) (fields : List Nat) (payload : Bytes) (q : Nat) :
    ((m.putFrame p code fields payload).portAt q).unsent = (m.portAt q).unsent := by
  obtain ⟨y, c, hy, hput⟩ := m.putFrame_shape p code fields payload
  rw [hput, Mach.setFb_portAt, Mach.setPort_keeps _ Port.unsent hy]
  exact Port.unsent_of_unchained (m.showFrame_unchained ..)

theorem Mach.putFrame_other (m : Mach) {p q : Nat} (h : q ≠ p) (code : Nat) (fields : List Nat) (payload : Bytes) :
    (m.putFrame p code fields payload).portAt q = m.portAt q := by
  obtain ⟨y, c, -, hput⟩ := m.putFrame_shape p code fields payload
  rw [hput, Mach.setFb_portAt, Mach.portAt_setPort_ne _ h, m.showFrame_other h]

theorem Mach.putFrame_out (m : Mach) (p code : Nat) (fields : List Nat) (payload : Bytes) :
    (m.putFrame p code fields payload).out = m.frameOut p code fields payload :: m.out := by
  obtain ⟨y, c, -, hput⟩ := m.putFrame_shape p code fields payload
  rw [hput]
  rfl

theorem Mach.putFrame_cfg (m : Mach) (p code : Nat) (fields : List Nat) (payload : Bytes) (k : Nat) :
    (m.putFrame p code fields payload).cfg k = m.cfg k := by
  obtain ⟨y, c, -, hput⟩ := m.putFrame_shape p code fields payload
  rw [hput]
  rfl

/-! Messages. -/

/-- A link message leaves at once, waits on its port, or goes nowhere. -/
theorem Mach.sendMsg_cases (m : Mach) (p ty : Nat) (body : List Nat) :
    m.sendMsg p ty body = m.putMsg p (msgBytes (m.cfg kStationAddr) p ty body) ∨
    m.sendMsg p ty body = m.setPort p { m.portAt p with
      waitMsg := (m.portAt p).waitMsg ++ [msgBytes (m.cfg kStationAddr) p ty body] } ∨ m.sendMsg p ty body = m := by
  unfold Mach.sendMsg
  dsimp only
  split_ifs
  exacts [.inr (.inl rfl), .inl rfl, .inr (.inr rfl)]

theorem Mach.sendMsg_unsent (m : Mach) (p ty : Nat) (body : List Nat) (q : Nat) :
    ((m.sendMsg p ty body).portAt q).unsent = (m.portAt q).unsent := by
  rcases m.sendMsg_cases p ty body with h | h | h <;> rw [h]
  · exact m.putFrame_unsent ..
  · exact m.setPort_keeps Port.unsent (by rfl) q

theorem Mach.sendMsg_other (m : Mach) {p q : Nat} (h : q ≠ p) (ty : Nat) (body : List Nat) :
    (m.sendMsg p ty body).portAt q = m.portAt q := by
  rcases m.sendMsg_cases p ty body with hs | hs | hs <;> rw [hs]
  · exact m.putFrame_other h ..
  · exact m.portAt_setPort_ne h _

@[simp] theorem Mach.sendMsg_cfg (m : Mach) (p ty : Nat) (body : List Nat) (k : Nat) : (m.sendMsg p ty body).cfg k = m.cfg k := by
  rcases m.sendMsg_cases p ty body with h | h | h <;> rw [h]
  · exact m.putFrame_cfg ..
  · rfl

/-- What a module has shown stays shown. -/
theorem Mach.mem_sendMsg_out {m : Mach} {e : Emit} (h : e ∈ m.out) (p ty : Nat) (body : List Nat) :
    e ∈ (m.sendMsg p ty body).out := by
  rcases m.sendMsg_cases p ty body with hs | hs | hs <;> rw [hs]
  · exact (m.putFrame_out ..).symm ▸ List.mem_cons_of_mem _ h
  · exact h
  · exact h

/-- A message of a port in DISCOVERY or UP that lets it go leaves at once. -/
theorem Mach.sendMsg_out {m : Mach} {p : Nat} (hstate : (m.portAt p).state = 4 ∨ (m.portAt p).state = 5)
    (hmay : m.portMay p 1 = true) (ty : Nat) (body : List Nat) :
    (m.sendMsg p ty body).out = m.msgOut p ty body :: m.out := by
  simp only [Mach.portMay, Bool.and_eq_true, decide_eq_true_eq, List.isEmpty_iff] at hmay
  obtain ⟨hroom, hnone⟩ := hmay
  have hput : m.sendMsg p ty body = m.putMsg p (msgBytes (m.cfg kStationAddr) p ty body) := by
    have hroom' : (m.portAt p).room = true := by simp only [Port.room, decide_eq_true_eq]; omega
    unfold Mach.sendMsg
    dsimp only
    rw [if_neg, if_pos]
    · simp only [Bool.or_eq_true, decide_eq_true_eq]; omega
    · rcases hstate with h | h <;> simp [h, hroom', hnone]
  rw [hput]
  exact m.putFrame_out ..

/-- A message of a port is told by its record and by the module's station. -/
theorem Mach.msgOut_congr {a b : Mach} {p : Nat} (hport : a.portAt p = b.portAt p)
    (hcfg : a.cfg kStationAddr = b.cfg kStationAddr) (ty : Nat) (body : List Nat) : a.msgOut p ty body = b.msgOut p ty body := by
  simp only [Mach.msgOut, Mach.frameOut, hport, hcfg]

theorem Mach.foldl_sendMsg_other (ty : Nat) (body : List Nat) {q : Nat} {l : List Nat} (h : q ∉ l) (m : Mach) :
    (l.foldl (fun m p => m.sendMsg p ty body) m).portAt q = m.portAt q := by
  induction l generalizing m with
  | nil => rfl
  | cons p r ih =>
    rw [List.foldl_cons, ih (List.not_mem_of_not_mem_cons h), m.sendMsg_other (List.ne_of_not_mem_cons h)]

/-- One message on each port of a list without repetition leaves those that let it go. -/
theorem Mach.mem_foldl_sendMsg_out (ty : Nat) (body : List Nat) {q : Nat} {l : List Nat} {m : Mach} (hnodup : l.Nodup) (hq : q ∈ l)
    (hstate : (m.portAt q).state = 4 ∨ (m.portAt q).state = 5) (hmay : m.portMay q 1 = true) :
    m.msgOut q ty body ∈ (l.foldl (fun m p => m.sendMsg p ty body) m).out := by
  induction l generalizing m with
  | nil => cases hq
  | cons p r ih =>
    obtain ⟨-, hr⟩ := List.nodup_cons.mp hnodup
    rw [List.foldl_cons]
    by_cases h : q = p
    · subst h
      have hsent : m.msgOut q ty body ∈ (m.sendMsg q ty body).out := by
        rw [Mach.sendMsg_out hstate hmay]
        exact List.mem_cons_self ..
      exact List.foldlRecOn (motive := fun a : Mach => m.msgOut q ty body ∈ a.out) r _ hsent fun a ha _ _ =>
        Mach.mem_sendMsg_out ha ..
    · have hsame := m.sendMsg_other h ty body
      rw [← Mach.msgOut_congr hsame (m.sendMsg_cfg ..)]
      refine ih hr ((List.mem_cons.mp hq).resolve_left h) (by rwa [hsame]) ?_
      simpa only [Mach.portMay, hsame] using hmay

end Sys2Proof.Machine
end

section
/-! PROOFS. What a neighbour's THROTTLE, SLEEP_NOTICE and DOWN_NOTICE change, and THROTTLE repeated (R357 to R361, R705). -/
namespace Sys2Proof.Machine

/-! A message that is heard acts by its type. -/

section
variable {m : Mach} {p : Nat} (hstate : (m.portAt p).state = 4 ∨ (m.portAt p).state = 5) {g : LinkMsg} (serial : Nat)
include hstate

theorem Mach.msgIn_discover (hbad : LinkMsg.bad { g with ty := 1 } = false) :
    m.msgIn serial p { g with ty := 1 } = m.discover serial p { g with ty := 1 } :=
  (if_neg (by simpa using fun h => hstate.resolve_left h)).trans (if_neg (by simp [hbad]))

theorem Mach.msgIn_throttle (hbad : LinkMsg.bad { g with ty := 2 } = false) :
    m.msgIn serial p { g with ty := 2 } = m.throttleIn p { g with ty := 2 } :=
  (if_neg (by simpa using fun h => hstate.resolve_left h)).trans (if_neg (by simp [hbad]))

theorem Mach.msgIn_sleep (hbad : LinkMsg.bad { g with ty := 3 } = false) : m.msgIn serial p { g with ty := 3 } =
    m.setPort p { m.portAt p with sleep := some (fld g.body 184 8, fld g.body 152 32) } :=
  (if_neg (by simpa using fun h => hstate.resolve_left h)).trans (if_neg (by simp [hbad]))

theorem Mach.msgIn_down (hbad : LinkMsg.bad { g with ty := 4 } = false) :
    m.msgIn serial p { g with ty := 4 } = m.downIn { g with ty := 4 } :=
  (if_neg (by simpa using fun h => hstate.resolve_left h)).trans (if_neg (by simp [hbad]))

end

/-! What each changes. -/

theorem Mach.zoneEvent_keeps (m : Mach) (p kind zone step cap st q : Nat) :
    (m.zoneEvent p kind zone step cap st).portAt q = m.portAt q ∧ (m.zoneEvent p kind zone step cap st).rng = m.rng :=
  ⟨m.event_none_portAt .., (m.event_none_frame ..).2⟩

/-- The zone of a THROTTLE that reports a step stands in its port's list, once (R359). -/
theorem Mach.throttleIn_listed {m : Mach} {p : Nat} {g : LinkMsg} {z : NbrZone} (hp : p < m.lnk.dev.length)
    (hz : z = ⟨fld g.body 184 8, fld g.body 176 8, fld g.body 168 8, fld g.body 160 8, m.clk.us⟩) (hstep : z.step ≠ 0) :
    (m.throttleIn p g).rng = m.rng ∧ (m.throttleIn p g).portAt p = { m.portAt p with
      zones := (m.portAt p).zones.filter (fun w => !(w.kind = z.kind && w.zone = z.zone)) ++ [z] } := by
  subst hz
  unfold Mach.throttleIn
  dsimp only at hstep ⊢
  rw [if_neg hstep]
  split
  · rw [(Mach.zoneEvent_keeps ..).1, (Mach.zoneEvent_keeps _ _ _ _ _ _ _ p).2, Mach.portAt_setPort hp]
    exact ⟨by simp, rfl⟩
  · rw [Mach.portAt_setPort hp]
    exact ⟨by simp, rfl⟩

/-- A zone that is no longer repeated leaves the list (R359). -/
theorem Mach.throttleGone_listed {m : Mach} {p kind zone us : Nat} {z : NbrZone} (hp : p < m.lnk.dev.length)
    (hz : (m.portAt p).zones.find? (fun w => w.kind = kind && w.zone = zone) = some z) (hus : us ≥ 30000) :
    (m.throttleGone p kind zone us).rng = m.rng ∧
    (m.throttleGone p kind zone us).portAt p = { m.portAt p with zones := (m.portAt p).zones.erase z } := by
  unfold Mach.throttleGone
  dsimp only
  rw [hz]
  dsimp only
  rw [if_neg (by omega), (Mach.zoneEvent_keeps ..).1, (Mach.zoneEvent_keeps _ _ _ _ _ _ _ p).2, Mach.portAt_setPort hp]
  exact ⟨by simp, rfl⟩

theorem nth_map_of_lt {α β : Type} (d : α) (e : β) (f : α → β) {l : List α} {i : Nat} (hi : i < l.length) :
    nth e (l.map f) i = f (nth d l i) := by
  induction l generalizing i with
  | nil => cases hi
  | cons x r ih =>
    cases i with
    | zero => rfl
    | succ i => exact ih (Nat.lt_of_succ_lt_succ hi)

/-- A port that faces one of the ports named keeps the cause (R360). -/
theorem Mach.downIn_faces {m : Mach} {q : Nat} {g : LinkMsg} {y : Partner} (hq : q < m.lnk.dev.length)
    (hpartner : (m.portAt q).partner = some y) (hstate : (m.portAt q).state ≠ 1) (hstation : y.station = g.sender)
    (hnamed : bitOf (fld g.body 160 24) y.port = true) :
    (m.downIn g).portAt q = { m.portAt q with down := some (fld g.body 184 8) } := by
  refine (nth_map_of_lt ({} : Port) _ _ hq).trans ?_
  split
  case h_1 z hz =>
    obtain rfl := Option.some.inj (hz.symm.trans hpartner)
    exact if_pos (by simp only [hstation, hnamed, decide_true, Bool.and_true]; exact decide_eq_true hstate)
  case h_2 hz => cases hz.symm.trans hpartner

/-- A step in force is told again on every UP port, at most one message each (R358). -/
theorem Mach.mem_repeatThrottle_out {m : Mach} {kind zone us p : Nat} (hus : us ≥ 10000) (hstep : (m.zoneStep kind zone).1 ≠ 0)
    (hp : p ∈ m.upPorts) (hmay : m.portMay p 1 = true) : m.msgOut p 2 [kind, zone, (m.zoneStep kind zone).1,
      (m.zoneStep kind zone).2.1, (m.clk.us - (m.zoneStep kind zone).2.2) / 1000 % 2 ^ 32] ∈ (m.repeatThrottle kind zone us).out := by
  obtain ⟨hlist, hup⟩ := List.mem_filter.mp hp
  have hfive : (m.portAt p).state = 5 := by simpa [Port.isUp] using hup
  unfold Mach.repeatThrottle Mach.sendThrottle
  rw [if_pos (by simp [hus, hstep])]
  dsimp only
  rw [if_neg hstep]
  exact Mach.mem_foldl_sendMsg_out msgThrottle _ (List.nodup_range.filter _)
    (List.mem_filter.mpr ⟨hlist, by simp [Port.usable, hfive]⟩) (.inr hfive) hmay

theorem Mach.repeatThrottle_frame (m : Mach) (kind zone us : Nat) :
    (m.repeatThrottle kind zone us).rng = m.rng ∧ (m.repeatThrottle kind zone us).mem = m.mem := by
  unfold Mach.repeatThrottle
  split
  · exact ⟨foldl_keeps Mach.rng (fun m p => (m.sendMsg_frame p ..).2.2.2.2.2.1) _ _, foldl_keeps Mach.mem (by simp) _ _⟩
  · exact ⟨rfl, rfl⟩

/-- Settles O37. -/
theorem neighbourMessagesChangeTheirPort : Obligations.NeighbourMessagesChangeTheirPort := by
  unfold Obligations.NeighbourMessagesChangeTheirPort
  intro h
  refine ⟨?throttle, ?again, ?expire, ?sleep, ?down⟩
  case throttle =>
    intro p g x z hp hport hstate hbad hstep s hs
    subst hs
    refine completes_runIf rfl (by simp [hp]) ?_
    rw [Mach.msgIn_throttle hstate 0 hbad]
    obtain ⟨hrng, hlisted⟩ := Mach.throttleIn_listed (g := { g with ty := 2 }) hport rfl hstep
    exact ⟨hlisted, congrArg Rings.items hrng⟩
  case again =>
    intro kind zone us z held hzone hus hstep hmay s hs
    subst hs
    refine completes_runIf rfl (by split_ifs at hzone ⊢ <;> simpa using hzone) ⟨fun p hp => ?_, s.hw.repeatThrottle_frame ..⟩
    exact Mach.mem_repeatThrottle_out hus hstep hp (List.all_eq_true.mp hmay p hp)
  case expire =>
    intro p kind zone us z x hp hport hz hus s hs
    subst hs
    refine completes_runIf rfl (by simp [hp]) ?_
    obtain ⟨hrng, hlisted⟩ := Mach.throttleGone_listed hport hz hus
    exact ⟨hlisted, congrArg Rings.items hrng⟩
  case sleep =>
    intro p g x hp hstate hbad s hs
    subst hs
    exact completes_runIf rfl (by simp [hp]) (Mach.msgIn_sleep hstate 0 hbad)
  case down =>
    intro p q g y x hp hq hstate hbad hpartner hrun hstation hnamed s hs
    subst hs
    refine completes_runIf rfl (by simp [hp]) ?_
    rw [Mach.msgIn_down hstate 0 hbad]
    exact ⟨Mach.downIn_faces hq hpartner hrun hstation hnamed, rfl, rfl⟩

end Sys2Proof.Machine
end

section
/-! PROOFS. Link ports that train, pass their gate and discovery, replay, retrain, spare a lane and go DOWN (R339 to R348, R363, R365,
Table 10.4). -/
namespace Sys2Proof.Machine

theorem Mach.portIs_iff {m : Mach} {p st : Nat} :
    m.portIs p st = true ↔ p < 24 ∧ p < m.lnk.dev.length ∧ (m.portAt p).state = st := by
  simp [Mach.portIs, and_assoc]

/-! Training and the gate (R342 to R348). -/

/-- The port of a completed training in clear: in GATE, at the width of its good lanes, with the credits of R341. -/
def Port.trained (x : Port) (w tx rx : Nat) : Port :=
  { state := 3, cause := x.cause, recWidth := w, credit := [640, 640, 256], protect := 0, sealKey := none, skipped := x.skipped
    width := w, txGood := tx, rxGood := rx, txMap := laneMap w tx, rxMap := laneMap w rx }

/-- The widest width that the good lanes of both directions and the recorded width allow (R342, R344). -/
def Port.widest (x : Port) (tx rx : Nat) : Nat :=
  widthOf (min (if x.recWidth = 0 then 8 else x.recWidth) (min (popcount 9 tx) (popcount 9 rx)))

theorem Mach.linkTrain_clear {m : Mach} {p tx rx : Nat} (hp : p < m.lnk.dev.length) (hstate : (m.portAt p).state = 2)
    (hown : m.protectOf p = 0) (hw : (m.portAt p).widest tx rx ≠ 0) (hmin : m.minWidth p ≤ (m.portAt p).widest tx rx)
    (hstep : m.cad.step = 21) (serial : Nat) (q : LinkPeer) (exch : Nat → Bytes) : m.linkTrain serial p tx rx 0 q exch =
      (m.setPort p ((m.portAt p).trained ((m.portAt p).widest tx rx) tx rx)).logWidth p 0 := by
  unfold Mach.linkTrain
  extract_lets x own top w d d' y a
  have hnone : own = 0 := hown
  clear_value own
  subst hnone
  have htrained : a = (m.setPort p ((m.portAt p).trained w tx rx)).logWidth p 0 := by
    simp only [a, d', d, Mach.setWidth]
    rw [if_neg (by decide), if_neg (by decide), Mach.portAt_setPort hp, Mach.setPort_setPort]
    rfl
  have hlast : a.cad.step = 21 := hstep
  rw [if_neg (by simp [x, hstate]), if_neg (show ¬ w = 0 from hw), if_neg (show ¬ w < _ from Nat.not_lt.mpr hmin),
    if_neg (by simp), if_neg (by simp), if_neg (by simp [hlast])]
  exact htrained

theorem foldl_of_forall {α : Type} {P : α → Prop} {f : α → α → α} {l : List α} {b : α} (hb : P b) (hl : ∀ x ∈ l, P x)
    (hf : ∀ b x, f b x = b ∨ f b x = x) : P (l.foldl f b) :=
  List.foldlRecOn (motive := P) l f hb fun b hb x hx => by
    rcases hf b x with h | h <;> rw [h]
    · exact hb
    · exact hl x hx

/-- The next message of a port changes with its sequence numbers, key and chainage alone. -/
theorem Mach.msgOut_of_shown {a b : Mach} {p : Nat} (htx : (a.portAt p).txSeq = (b.portAt p).txSeq)
    (hrx : (a.portAt p).rxSeq = (b.portAt p).rxSeq) (hkey : (a.portAt p).sealKey = (b.portAt p).sealKey)
    (hchain : (a.portAt p).chainTx = (b.portAt p).chainTx) (hcfg : a.cfg kStationAddr = b.cfg kStationAddr) (ty : Nat)
    (body : List Nat) : a.msgOut p ty body = b.msgOut p ty body := by
  simp only [Mach.msgOut, Mach.frameOut, htx, hcfg, Port.shown_congr hrx hkey hchain]

/-- A port that enters DISCOVERY sends DISCOVER (R363). -/
theorem Mach.startDiscovery_sends {m : Mach} {p : Nat} (hp : p < m.lnk.dev.length) (hmay : m.portMay p 1 = true) (serial : Nat) :
    ((m.startDiscovery serial p).portAt p).state = 4 ∧ ((m.startDiscovery serial p).portAt p).width = (m.portAt p).width ∧
    (m.startDiscovery serial p).out = m.msgOut p 1 ([serial] ++ m.dims.map (· - 1) ++
      [0, m.fb.licences, (m.portAt p).protect, m.sec.fwVersion]) :: m.out ∧
    (m.startDiscovery serial p).rng = m.rng := by
  unfold Mach.startDiscovery Mach.sendDiscover
  have hport := Mach.portAt_setPort hp { m.portAt p with state := 4, gated := false }
  generalize ha : m.setPort p { m.portAt p with state := 4, gated := false } = a at hport ⊢
  have hsent := (a.sendMsg_unsent p msgDiscover ([serial] ++ a.dims.map (· - 1) ++
    [0, a.fb.licences, (a.portAt p).protect, a.sec.fwVersion]) p).trans (congrArg Port.unsent hport)
  refine ⟨(congrArg Port.state hsent :), (congrArg Port.width hsent :), ?_, ?_⟩
  · rw [Mach.sendMsg_out (.inl (by rw [hport])) (by simpa only [Mach.portMay, hport] using hmay), hport,
      Mach.msgOut_of_shown (b := m) (by rw [hport]) (by rw [hport]) (by rw [hport]) (by rw [hport])
        (by rw [← ha, Mach.setPort_cfg]), ← ha]
    rfl
  · subst ha
    simp

/-- The gate of a port whose lanes are all within the limit passes (R347). -/
theorem Mach.berGate_passes {m : Mach} {p bits : Nat} {errs : List Nat} (hstate : (m.portAt p).state = 3)
    (hgated : (m.portAt p).gated = false) (hstep : 19 ≤ m.cad.step)
    (herrs : (List.range 18).all (fun l => nth 0 errs l * 1000000 ≤ bits) = true)
    (hlanes : ((m.portAt p).txMap ++ (m.portAt p).rxMap.map (· + 9)).all (· < 18) = true) (serial : Nat) :
    m.berGate serial p errs bits 0 = (m.logWidth p 0).startDiscovery serial p := by
  have hgood : ∀ l < 18, nth 0 errs l * 1000000 ≤ bits := fun l hl => by
    simpa using List.all_eq_true.mp herrs l (List.mem_range.mpr hl)
  have hused : ∀ l ∈ (m.portAt p).txMap ++ (m.portAt p).rxMap.map (· + 9), l < 18 := fun l hl => by
    simpa using List.all_eq_true.mp hlanes l hl
  unfold Mach.berGate
  extract_lets x used worst a b
  have hfirst : nth 0 used 0 < 18 := by
    cases hcase : used with
    | nil => decide
    | cons l r => exact hused l (hcase.symm ▸ List.mem_cons_self : l ∈ used)
  have hworst : worst < 18 := foldl_of_forall (P := (· < 18)) hfirst hused fun b l => by
    split
    · exact .inr rfl
    · exact .inl rfl
  rw [if_neg (by simp [x, hstate, hgated]), if_pos (by simp [hgood worst hworst]),
    if_neg (show ¬ a.cad.step < 19 from Nat.not_lt.mpr hstep)]

/-! Discovery (R363). -/

/-- The partner that a DISCOVER tells of (Table 10.6). -/
def partnerOf (g : LinkMsg) : Partner :=
  { station := g.sender, port := g.senderPort, serial := fld g.body 128 64
    dims := [fld g.body 123 5 + 1, fld g.body 118 5 + 1, fld g.body 114 4 + 1], licences := fld g.body 104 8
    protect := fld g.body 96 8 }

/-- A DISCOVER that matches makes the port UP. -/
theorem Mach.discover_up {m : Mach} {p : Nat} {g : LinkMsg} (hp : p < m.lnk.dev.length) (hstate : (m.portAt p).state = 4)
    (hstation : m.cfg kStationAddr ≠ 0xFFFF) {serial : Nat} (hmatch : m.miswired serial p (partnerOf g) = none) :
    (m.discover serial p g).portAt p = { m.portAt p with partner := some (partnerOf g), state := 5 } ∧
    (m.discover serial p g).rng = m.rng := by
  unfold Mach.discover
  extract_lets x b y a z up held
  have hnone : a.miswired serial p y = none := hmatch
  rw [if_neg (by simp [x, hstate]), if_neg (show ¬ a.cfg kStationAddr = 0xFFFF from hstation), hnone]
  dsimp only
  have hz : z = { m.portAt p with partner := some (partnerOf g) } := Mach.portAt_setPort hp _
  have hup : up.portAt p = { z with state := 5 } := Mach.portAt_setPort (by simpa [a] using hp) _
  rw [Mach.event_none_portAt, (Mach.event_none_frame ..).2]
  change held.portAt p = _ ∧ _
  refine ⟨hup.trans (by rw [hz]), ?_⟩
  simp [held, up, a, Mach.hold]

/-! Replay and retraining (R339, R340, R355). -/

/-- Replayed frames change nothing of their port but the chainage, and nothing of the rings, the items and the traverses. -/
theorem Mach.replayPort_frame (m : Mach) (p : Nat) (fs : List Sent) (q : Nat) :
    ((m.replayPort p fs).portAt q).unchained = (m.portAt q).unchained ∧ (m.replayPort p fs).rng = m.rng ∧
    (m.replayPort p fs).trv = m.trv ∧ (m.replayPort p fs).lnk.dev.length = m.lnk.dev.length := by
  have hport := m.bump_portAt (kLinkReplays + 256 * p) 1 q
  have hrng : (m.bump (kLinkReplays + 256 * p)).rng = m.rng := by simp
  have htrv : (m.bump (kLinkReplays + 256 * p)).trv = m.trv := by simp
  have hlnk : (m.bump (kLinkReplays + 256 * p)).lnk = m.lnk := by simp
  unfold Mach.replayPort
  generalize m.bump (kLinkReplays + 256 * p) = a at hport hrng htrv hlnk ⊢
  refine ⟨?_, ?_, ?_, ?_⟩
  · rw [foldl_keeps (fun a : Mach => (a.portAt q).unchained) fun a s => a.showFrame_unchained p s false q, hport]
  · rw [foldl_keeps Mach.rng (by simp), hrng]
  · rw [foldl_keeps Mach.trv (by simp), htrv]
  · rw [foldl_keeps (fun a : Mach => a.lnk.dev.length) fun a s => setAt_length .., hlnk]

/-- Frames of a port in clear are replayed in order (R339). -/
theorem Mach.replayPort_clear {m : Mach} {p : Nat} (h : (m.portAt p).sealKey = none) (fs : List Sent) :
    (m.replayPort p fs).out = (fs.map fun f => .link p ((m.portAt p).shown f)).reverse ++ m.out := by
  have hshow : ∀ (fs : List Sent) (a : Mach), a.portAt p = m.portAt p → fs.foldl (fun m s => m.showFrame p s) a =
      fs.foldl (fun a s => a.emit (.link p ((m.portAt p).shown s))) a := by
    intro fs
    induction fs with
    | nil => exact fun _ _ => by rw [List.foldl_nil, List.foldl_nil]
    | cons s r ih =>
      intro a ha
      rw [List.foldl_cons, List.foldl_cons, Mach.showFrame_clear (by rw [ha, h]), ha]
      exact ih _ ha
  have hport := m.bump_portAt (kLinkReplays + 256 * p) 1 p
  have hout : (m.bump (kLinkReplays + 256 * p)).out = m.out := by simp
  unfold Mach.replayPort
  rw [hshow fs _ hport, Mach.foldl_emit]
  exact congrArg (_ ++ ·) hout

/-- The record of a port that has taken a NAK (R339). -/
def Port.nakTaken (x : Port) (ack : Nat) : Port :=
  { x with naks := if x.nakSeq = ack ∧ x.naks > 0 then x.naks + 1 else 1, nakSeq := ack, replay := acked x.replay ack }

/-- A NAK that is not the eighth in a row: what it acknowledges goes, and what follows is replayed (R339). -/
theorem Mach.linkNak_replays {m : Mach} {p ack : Nat} (hstate : (m.portAt p).state = 5) (hfew : (m.portAt p).naks < 7) :
    m.linkNak p ack = (m.setPort p ((m.portAt p).nakTaken ack)).replayPort p (framesAfter (m.portAt p).replay ack) := by
  unfold Mach.linkNak
  extract_lets x n a
  have hn : n = if x.nakSeq = ack ∧ x.naks > 0 then x.naks + 1 else 1 := by
    simp only [n, Bool.and_eq_true, decide_eq_true_eq]
  have hn8 : ¬ n ≥ 8 := by
    have hx : x.naks < 7 := hfew
    rw [hn]
    split <;> omega
  rw [if_neg (by simp [x, hstate]), if_neg hn8]
  simp only [a, hn]
  rfl

/-- Nothing waits on a port: neither credits, messages nor data. -/
def Port.idle (x : Port) : Prop := x.waitMsg = [] ∧ x.waitOut = [] ∧ x.owed = [0, 0, 0]

theorem Mach.returnOwed_idle {m : Mach} {p : Nat} (h : (m.portAt p).owed = [0, 0, 0]) : m.returnOwed p = m := by
  unfold Mach.returnOwed
  dsimp only
  rw [h, Mach.setPort_same (by rw [← h])]
  rfl

theorem Mach.drainAll_idle {m : Mach} {p : Nat} (h : (m.portAt p).idle) : m.drainAll p = m := by
  obtain ⟨hmsg, hdata, howed⟩ := h
  unfold Mach.drainAll
  rw [Mach.returnOwed_idle howed]
  dsimp only
  rw [hmsg, hdata]
  unfold Mach.drainPort
  dsimp only
  rw [hmsg, hdata]
  split
  · rfl
  · rw [List.find?_nil, ite_self]

/-- Without a live traverse no leg goes on. -/
theorem Mach.legsGo_none {m : Mach} (h : m.trv.live = []) : m.legsGo = m := by
  have hresume : m.resumeAtomics = m := by rw [Mach.resumeAtomics, h]; rfl
  unfold Mach.legsGo Mach.settleAll
  simp only [hresume, h, List.foldl_nil]

end Sys2Proof.Machine
end

section
/-! PROOFS. Link ports that resume after a retraining, spare a lane, go DOWN without a partner and train again (R340, R345, R355, R365). -/
namespace Sys2Proof.Machine

/-! Retraining (R340, R355). -/

theorem Mach.chainExchange_clear {m : Mach} {p : Nat} (h : (m.portAt p).sealKey = none) (c : Nat) : m.chainExchange p c = m := by
  unfold Mach.chainExchange
  exact if_pos (by rw [h]; rfl)

/-- The exchange of chainages changes of a port nothing but those. -/
theorem Mach.chainExchange_keeps {β : Type} (f : Port → β) (hf : ∀ x rx tx, f { x with chainRx := rx, chainTx := tx } = f x)
    (m : Mach) (p c q : Nat) : f ((m.chainExchange p c).portAt q) = f (m.portAt q) := by
  have hchain : ∀ x, f x.unchained = f x := fun x => hf x x.chainRx 0
  unfold Mach.chainExchange
  extract_lets x last
  split
  · rfl
  · rw [← hchain, Mach.showFrame_unchained, hchain]
    exact m.setPort_keeps f (hf x last x.chainTx) q

theorem Mach.chainExchange_frame (m : Mach) (p c : Nat) : (m.chainExchange p c).rng = m.rng ∧ (m.chainExchange p c).trv = m.trv ∧
    (m.chainExchange p c).lnk.dev.length = m.lnk.dev.length := by
  unfold Mach.chainExchange
  dsimp only
  split
  · exact ⟨rfl, rfl, rfl⟩
  · exact ⟨by simp, by simp, (setAt_length ..).trans (setAt_length ..)⟩

/-- A retraining that succeeds at the width of its port resumes it. -/
theorem Mach.nakRetrain_first {m : Mach} {p : Nat} {g : LinkRetrain} (hstate : (m.portAt p).state = 6)
    (hok : g.oks.head? = some true) (hwidth : (m.portAt p).width ≥ 1) : m.nakRetrain p g = (m.chainExchange p g.chain).portResumes p := by
  obtain ⟨r, hr⟩ : ∃ r, g.oks = true :: r := List.head?_eq_some_iff.mp hok
  unfold Mach.nakRetrain
  extract_lets x ws
  have hfirst : ws.find? (·.2) = some (x.width, true) := by
    have hkeep : ws = (x.width, true) :: _ := (congrArg _ (congrArg _ hr)).trans (List.filter_cons_of_pos (decide_eq_true hwidth))
    rw [hkeep, List.find?_cons_of_pos rfl]
  rw [if_neg (by simp [x, hstate]), hfirst]
  exact if_pos rfl

/-- A port UP again after its retraining, its counts at zero. -/
def Port.resumed (x : Port) : Port := { x with state := 5, disc := false, discard := false, naks := 0, nakSent := 0 }

/-- A port on which nothing waits resumes with its buffer replayed (R340). -/
theorem Mach.portResumes_idle {m : Mach} {p : Nat} (hp : p < m.lnk.dev.length) (hdisc : (m.portAt p).disc = false)
    (hidle : (m.portAt p).idle) (hlive : m.trv.live = []) :
    ((m.portResumes p).portAt p).state = 5 ∧ ((m.portResumes p).portAt p).naks = 0 ∧
    ((m.portResumes p).portAt p).replay = (m.portAt p).replay ∧
    (m.portResumes p).out = (m.replayPort p (m.portAt p).replay).out ∧ (m.portResumes p).rng = m.rng := by
  obtain ⟨hkept, hrng, htrv, hports⟩ := m.replayPort_frame p (m.portAt p).replay p
  unfold Mach.portResumes
  extract_lets x a y
  have hresumed : ({ y with state := if y.disc then 4 else 5, disc := false, discard := false, naks := 0, nakSent := 0 } : Port) =
      y.resumed := by
    rw [show y.disc = false from (congrArg Port.disc hkept :).trans hdisc]
    rfl
  rw [hresumed]
  have hport : (a.setPort p y.resumed).portAt p = y.resumed := Mach.portAt_setPort (by rw [hports]; exact hp) _
  have hidle' : y.resumed.idle := by
    obtain ⟨hmsg, hdata, howed⟩ := hidle
    exact ⟨(congrArg Port.waitMsg hkept :).trans hmsg, (congrArg Port.waitOut hkept :).trans hdata,
      (congrArg Port.owed hkept :).trans howed⟩
  rw [Mach.drainAll_idle (by rw [hport]; exact hidle'),
    Mach.legsGo_none (m := a.setPort p y.resumed) ((congrArg Travs.live htrv).trans hlive), hport]
  exact ⟨rfl, rfl, (congrArg Port.replay hkept :), rfl, hrng⟩

/-! Lane sparing (R345). -/

/-- A transmit lane over its error limit moves to the good unused lane 8. -/
theorem Mach.berWindow_spares {m : Mach} {p lane errs bits i : Nat} (hp : p < m.lnk.dev.length) (hstate : (m.portAt p).state = 5)
    (hlane : indexOf? (· = lane) (m.portAt p).txMap = some i) (hbad : errs * 10 ^ m.cfg kLinkLaneBerLimit > bits)
    (hgood : bitOf (m.portAt p).txGood 8 = true) (hfree : (m.portAt p).txMap.contains 8 = false) :
    (m.berWindow p 0 lane errs bits).portAt p = { m.portAt p with
      txMap := setAt (m.portAt p).txMap i 8, txGood := putBit (m.portAt p).txGood lane false } ∧
    (m.berWindow p 0 lane errs bits).rng = m.rng := by
  have hspares : m.berWindow p 0 lane errs bits = m.toLane8 p 0 i lane := by
    unfold Mach.berWindow
    dsimp only
    rw [if_pos rfl, if_pos rfl, hlane]
    dsimp only
    rw [if_neg (by simp [hstate]; omega), if_pos (by rw [hgood, hfree]; rfl)]
  rw [hspares]
  unfold Mach.toLane8
  extract_lets x y a b
  have ha : a.portAt p = y := Mach.portAt_setPort hp y
  refine ⟨?_, ?_⟩
  · rw [Mach.logWidth_portAt, Mach.event_none_portAt]
    exact ha
  · exact (Mach.event_none_frame ..).2

/-! DOWN and the retry (R365). -/

theorem Mach.portStops_stopped {m : Mach} {p cause : Nat} (hp : p < m.lnk.dev.length) (hstate : (m.portAt p).state ≠ 0) :
    (m.portStops p cause).portAt p = { recWidth := (m.portAt p).recWidth, state := 1, cause, partner := (m.portAt p).partner
                                       skipped := (m.portAt p).skipped } ∧
    (m.portStops p cause).rng = m.rng := by
  unfold Mach.portStops
  extract_lets x say from_ y a b t c d
  have hb : b.portAt p = y ∧ b.rng = m.rng :=
    ⟨(foldl_keeps (fun a : Mach => a.portAt p) (fun a z => (a.zoneEvent_keeps ..).1) _ _).trans (Mach.portAt_setPort hp y),
      foldl_keeps Mach.rng (fun a z => (a.zoneEvent_keeps _ _ _ _ _ _ p).2) _ _⟩
  have hd : d.portAt p = y ∧ d.rng = m.rng := hb
  rw [if_neg hstate]
  split
  · exact ⟨(Mach.event_none_portAt ..).trans hd.1, (Mach.event_none_frame ..).2.trans hd.2⟩
  · exact hd

/-- A port out of service, without partner and items, goes DOWN and takes nothing else with it. -/
theorem Mach.portDown_alone {m : Mach} {p : Nat} (hunused : (m.portAt p).usable = false) (hpartner : (m.portAt p).partner = none)
    (hitems : m.itemsOnPort p = []) (cause : Nat) (st : Status) (quiet : Bool) : m.portDown p cause st quiet = m.portStops p cause := by
  unfold Mach.portDown
  dsimp only
  split
  next h0 => unfold Mach.portStops; exact (if_pos h0).symm
  next => rw [hunused, hpartner, hitems]; rfl

/-- A port in training whose partner is late goes DOWN with cause 2. -/
theorem Mach.partnerLate_downs {m : Mach} {p ms : Nat} (hp : p < m.lnk.dev.length) (hstate : (m.portAt p).state = 2)
    (hms : ms ≥ m.cfg kLinkTrainTimeout) (hpartner : (m.portAt p).partner = none) (hitems : m.itemsOnPort p = []) :
    (m.partnerLate p ms).portAt p = { recWidth := (m.portAt p).recWidth, state := 1, cause := 2, skipped := (m.portAt p).skipped } ∧
    (m.partnerLate p ms).rng = m.rng := by
  have hlate : m.partnerLate p ms = m.portStops p 2 :=
    (if_pos (by simp [hstate, hms])).trans (Mach.portDown_alone (by simp [Port.usable, hstate]) hpartner hitems ..)
  have hstopped := Mach.portStops_stopped (cause := 2) hp (by rw [hstate]; decide)
  rwa [← hlate, hpartner] at hstopped

/-- Settles O36. -/
theorem linkPortsTrainAndReplay : Obligations.LinkPortsTrainAndReplay := by
  unfold Obligations.LinkPortsTrainAndReplay
  refine ⟨?train, fun s => ⟨?gate, ?discover⟩, fun h => ⟨?nak, ?resume, ?spare, ?late, ?retry⟩⟩
  case train =>
    intro h p tx rx q x w hpwr hport hown hw hmin hstep s hs
    subst hs
    obtain ⟨hp24, hp, hstate⟩ := Mach.portIs_iff.mp hport
    refine completes_runFzIf rfl (by simp [hp24]) ?_
    rw [if_neg (by simp [hpwr]), Mach.linkTrain_clear hp hstate hown hw hmin hstep]
    exact ⟨Mach.portAt_setPort hp _, rfl, rfl, rfl⟩
  case gate =>
    intro p errs bits x hport hgated hstep hmay herrs hlanes
    obtain ⟨hp24, hp, hstate⟩ := Mach.portIs_iff.mp hport
    refine completes_runFzIf rfl (by simp [hp24]) ?_
    rw [Mach.berGate_passes hstate hgated hstep herrs hlanes]
    exact Mach.startDiscovery_sends (m := s.hw.logWidth p 0) hp hmay s.fuses.serial
  case discover =>
    intro p g x y hport hbad hstation hmatch
    obtain ⟨hp24, hp, hstate⟩ := Mach.portIs_iff.mp hport
    refine completes_runFzIf rfl (by simp [hp24]) ?_
    rw [Mach.msgIn_discover (.inl hstate) _ hbad]
    obtain ⟨hup, hrng⟩ := Mach.discover_up (g := { g with ty := 1 }) hp hstate hstation hmatch
    exact ⟨hup, congrArg Rings.items hrng⟩
  case nak =>
    intro p ack x hack hport hfew s hs
    subst hs
    obtain ⟨hp24, hp, hstate⟩ := Mach.portIs_iff.mp hport
    refine completes_runIf rfl (by simp [hp24, hack]) ?_
    rw [Mach.linkNak_replays hstate hfew]
    have hset := Mach.portAt_setPort hp (x.nakTaken ack)
    obtain ⟨hkept, hrng, -, -⟩ := (s.hw.setPort p (x.nakTaken ack)).replayPort_frame p (framesAfter x.replay ack) p
    rw [hset] at hkept
    refine ⟨(congrArg Port.naks hkept :), (congrArg Port.nakSeq hkept :), (congrArg Port.replay hkept :), fun hkey => ?_, hrng⟩
    rw [Mach.replayPort_clear (by rw [hset]; exact hkey), hset]
    rfl
  case resume =>
    intro p g x hport hdisc hok hwidth hidle hlive s hs
    subst hs
    obtain ⟨hp24, hp, hstate⟩ := Mach.portIs_iff.mp hport
    refine completes_runIf rfl (by simp [hp24]) ?_
    rw [Mach.nakRetrain_first hstate hok hwidth]
    obtain ⟨hrng, htrv, hports⟩ := s.hw.chainExchange_frame p g.chain
    have hreplay := Mach.chainExchange_keeps Port.replay (fun _ _ _ => rfl) s.hw p g.chain p
    have hdisc' := Mach.chainExchange_keeps Port.disc (fun _ _ _ => rfl) s.hw p g.chain p
    have hidle' := Mach.chainExchange_keeps Port.idle (fun _ _ _ => rfl) s.hw p g.chain p
    obtain ⟨hup, hnaks, hbuffer, hout, hrng'⟩ := Mach.portResumes_idle (by rw [hports]; exact hp) (hdisc'.trans hdisc)
      (hidle'.mpr hidle) ((congrArg Travs.live htrv).trans hlive)
    refine ⟨hup, hnaks, hbuffer.trans hreplay, fun hkey => ?_, hrng'.trans hrng⟩
    rw [hout, Mach.chainExchange_clear hkey, Mach.replayPort_clear hkey]
  case spare =>
    intro p lane errs bits i x hl hport hlane hbad hfree s hs
    subst hs
    obtain ⟨hp24, hp, hstate⟩ := Mach.portIs_iff.mp hport
    refine completes_runIf rfl (by simp [hp24, hl]) ?_
    obtain ⟨hmoved, hrng⟩ := Mach.berWindow_spares hp hstate hlane hbad hfree.1 hfree.2
    exact ⟨hmoved, congrArg Rings.items hrng⟩
  case late =>
    intro p ms x hport hms hpartner hitems s hs
    subst hs
    obtain ⟨hp24, hp, hstate⟩ := Mach.portIs_iff.mp hport
    refine completes_runIf rfl (by simp [hp24]) ?_
    obtain ⟨hdown, hrng⟩ := Mach.partnerLate_downs hp hstate hms hpartner hitems
    exact ⟨hdown, congrArg Rings.items hrng⟩
  case retry =>
    intro p ms x hport hstep hmay hms s hs
    subst hs
    obtain ⟨hp24, hp, hstate⟩ := Mach.portIs_iff.mp hport
    refine completes_runIf rfl (by simp [hp24]) ?_
    exact if_pos (by simp [hstate, hstep, hmay, hms])

end Sys2Proof.Machine
end

section
/-! PROOFS. VC 2 frames of fewer bytes than a frame holds (R405, Table 10.3). -/
namespace Sys2Proof.Machine

theorem exec_vc2FrameReceive {p : Nat} {f : LinkFrame} (hp : p < 24) (hvc2 : { f with kind := 0, vc := 2 } = f) (v : Verif) (s : State) :
    exec (.vc2FrameReceive p f v) s = runFz s fun z m => m.linkFrame z p f v :=
  (runFzIf_true (by simp [hp]) s _).trans (congrArg (fun g => runFz s fun z m => m.linkFrame z p g v) hvc2)

/-- What O52 says of a frame of VC 2 for member 0 that begins a longer message: its message so far is the 240 bytes after the header. -/
theorem vc2Frame_joins_of_linkFrames (h : Obligations.LinkFramesAndGroupMessages) {s : State} {p : Nat} {f : LinkFrame} {b : Bytes}
    (hp : p < 24) (hports : s.hw.lnk.dev.length = 24) (hport : s.hw.portAt p = { state := 5 }) (hpwr : s.hw.clk.pwr = 0)
    (hself : s.hw.trv.selfVc2 = []) (hmember : s.hw.member = 0) (hvc2 : { f with kind := 0, vc := 2 } = f)
    (hcrc : f.crc = frameCrc f false) (hlost : f.lost = 0) (hbytes : f.bytes ≤ 256) (hseq : f.seq = 0) (hnak : f.nak = false)
    (hcredit : f.credit = 0) (hstream : f.stream = 0) (hkey : num (padTo 256 f.payload) 0 1 * 2 ^ 24 + num (padTo 256 f.payload) 2 2 = 0)
    (hoff : num (padTo 256 f.payload) 8 4 = 0) (hlen : num (padTo 256 f.payload) 4 4 > 240)
    (hb : sget (s.hw.linkFrame s.fuses p f {}).trv.parts 0 = some b) : b = ((padTo 256 f.payload).drop 16).take 240 := by
  obtain ⟨-, hpart, -⟩ := h s.hw
  have hruns := hpart p f {} hp hports (by rw [hport]) (by rw [hport]) hpwr
    ⟨hcrc.trans (congrArg (frameCrc · false) hvc2.symm), hlost, hbytes⟩ (by rw [hport, hseq]; decide) hnak hcredit
    (by rw [hport]; exact ⟨rfl, rfl, rfl⟩) hself (by rw [hmember]; decide) (by rw [hmember, hstream]; decide) (by rw [hmember]; decide)
    hoff hlen
  obtain ⟨hjoined, -⟩ := completes_runFz_effect (exec_vc2FrameReceive hp hvc2 ..) (hruns s rfl)
  rw [hkey, hb] at hjoined
  exact Option.some.inj hjoined

/-- A frame with the CRC that it should carry in clear (R337). -/
def sealedFrame (f : LinkFrame) : LinkFrame := { f with crc := frameCrc f false }

/-- The CRC of a frame does not cover itself. -/
theorem sealedFrame_crc (f : LinkFrame) : (sealedFrame f).crc = frameCrc (sealedFrame f) false := by
  unfold sealedFrame frameCrc frameHeader
  dsimp only

/-- A port in clear that has taken a frame in sequence, which it delivers next (R338). -/
def Mach.taken (m : Mach) (p : Nat) (f : LinkFrame) : Mach :=
  let a := ((m.bump (kLinkPrefecErrs + 256 * p) f.fixed).bump (kLinkPostfecErrs + 256 * p) f.lost).setPort p (m.portAt p)
  (a.setPort p { a.portAt p with rxSeq := f.seq, discard := false, nakSent := 0 }).bump (key (0x9700 + p) 2)

theorem Mach.linkIn_taken {m : Mach} {p : Nat} {f : LinkFrame} (hstate : (m.portAt p).state = 5) (hkey : (m.portAt p).sealKey = none)
    (hcrc : f.crc = frameCrc f false) (hlost : f.lost = 0) (hform : f.kind ≤ 3 ∧ f.vc ≤ 2 ∧ f.bytes ≤ 256)
    (hseq : f.seq = ((m.portAt p).rxSeq + 1) % 4096) (serial : Nat) (vc2 : LinkFrame → Mach → Mach) :
    m.linkIn serial p f vc2 = (m.taken p f).deliver serial p f (vc2 f) := by
  obtain ⟨hkind, hvc, hbytes⟩ := hform
  have hopened : (m.portAt p).opened f = some (f, (m.portAt p).chainRx) := by rw [Port.opened, hkey]
  unfold Mach.linkIn
  dsimp only
  rw [if_neg (by simp [hstate]), if_neg (by simp [hkey, ← hcrc, hlost]; omega), hopened]
  exact if_neg (by simp [hseq])

/-- Member 0 of a group as it comes out of reset, with link port 3 UP. -/
def vc2Member : State :=
  let m := State.reset.hw.setPort 3 { state := 5 }
  State.reset.setHw (m.setFb { m.fb with coldRun := [(kGroupMember, leB 1 0)] })

/-- The first frame of a message of 241 bytes from member 0 on channel 0, but for its CRC, and with it: BYTES tells of the message's
header alone, and the byte after that is 1. -/
def shortFields : LinkFrame :=
  { seq := 0, vc := 2, stream := vc2Tag 0 0, bytes := 16, payload := vc2Header 0 0 241 0 0 ++ [1] }
def shortFrame : LinkFrame := sealedFrame shortFields

theorem shortFrame_crc : shortFrame.crc = frameCrc shortFrame false := sealedFrame_crc shortFields

theorem shortFrame_vc2 : { shortFrame with kind := 0, vc := 2 } = shortFrame := by
  unfold shortFrame sealedFrame shortFields
  dsimp only

theorem shortFrame_fields : shortFrame.lost = 0 ∧ shortFrame.bytes ≤ 256 ∧ shortFrame.seq = 0 ∧ shortFrame.nak = false ∧
    shortFrame.credit = 0 ∧ shortFrame.stream = 0 := by decide +kernel

theorem vc2Member_hears : vc2Member.hw.lnk.dev.length = 24 ∧ vc2Member.hw.portAt 3 = { state := 5 } ∧ vc2Member.hw.clk.pwr = 0 ∧
    vc2Member.hw.trv.selfVc2 = [] ∧ vc2Member.hw.member = 0 := by decide +kernel

/-- What joins the message is what BYTES tells of: nothing, and zeros for it. -/
theorem vc2Member_parts : sget (vc2Member.hw.linkFrame vc2Member.fuses 3 shortFrame {}).trv.parts 0 =
    some (List.replicate 240 0) := by
  obtain ⟨-, hport, hpwr, -, -⟩ := vc2Member_hears
  unfold Mach.linkFrame
  have hawake : vc2Member.hw.wake 5 = vc2Member.hw := if_pos (by rw [hpwr]; rfl)
  rw [hawake, ite_self, Mach.linkIn_taken (by rw [hport]) (by rw [hport]) shortFrame_crc rfl (by decide) (by rw [hport]; rfl)]
  decide +kernel

theorem shortFrame_content : num (padTo 256 shortFrame.payload) 0 1 * 2 ^ 24 + num (padTo 256 shortFrame.payload) 2 2 = 0 ∧
    num (padTo 256 shortFrame.payload) 8 4 = 0 ∧ num (padTo 256 shortFrame.payload) 4 4 = 241 ∧
    ((padTo 256 shortFrame.payload).drop 16).take 240 ≠ List.replicate 240 0 := by decide +kernel

/-- Refutes O52: a frame of VC 2 joins its message with the bytes that its BYTES field tells of (Table 10.3), while the statement's
clause about VC2_FRAME_RECEIVE takes all 240 that follow the message's header, whatever BYTES is. -/
theorem not_linkFramesAndGroupMessages : ¬ Obligations.LinkFramesAndGroupMessages := by
  intro h
  obtain ⟨hports, hport, hpwr, hself, hmember⟩ := vc2Member_hears
  obtain ⟨hkey, hoff, hlen, hcontent⟩ := shortFrame_content
  obtain ⟨hlost, hbytes, hseq, hnak, hcredit, hstream⟩ := shortFrame_fields
  have hjoined := vc2Frame_joins_of_linkFrames h (s := vc2Member) (by decide) hports hport hpwr hself hmember
    shortFrame_vc2 shortFrame_crc hlost hbytes hseq hnak hcredit hstream hkey hoff (by rw [hlen]; decide) vc2Member_parts
  exact hcontent hjoined.symm

end Sys2Proof.Machine
end

section
/-! PROOFS. What a read of memory for an item leaves in a calm module: the traverses and the Field Book but for its counters
(R91, R92, R128). -/
namespace Sys2Proof.Machine

/-- The traverses, the group's messages and the Field Book without its counters. -/
def Mach.book (m : Mach) : Travs × Fb := (m.trv, { m.fb with ctr := [] })

theorem Mach.book_of_still {m h : Mach} (hstill : m.still = h.still) : m.book = h.book := (congrArg Mach.book hstill :)

@[simp] theorem Mach.bump_book (m : Mach) (k n : Nat) : (m.bump k n).book = m.book := rfl
@[simp] theorem Mach.setDie_book (m : Mach) (x : Die) : (m.setDie x).book = m.book := rfl

theorem Mach.dropVictim_book (m : Mach) (pa way : Nat) : (m.dropVictim pa way).book = m.book := rfl

theorem Mach.xlate_book (m : Mach) (o : Origin) (ctx va : Nat) : (m.xlate o ctx va).1.book = m.book := by
  obtain ⟨ctr, tc, h⟩ := m.xlate_frame o ctx va
  rw [h]
  rfl

theorem Mach.joinWindow_book (m : Mach) (ctx line since : Nat) : (m.joinWindow ctx line since).1.book = m.book := by
  unfold Mach.joinWindow
  dsimp only
  split <;> rfl

theorem Mach.itemRow_book (m : Mach) (pa : Nat) : (m.itemRow pa).book = m.book := by
  unfold Mach.itemRow Mach.endCopy
  split
  · split <;> rfl
  · rfl

theorem Mach.readCount_book (m : Mach) (o : Origin) (medium n : Nat) : (m.readCount o medium n).book = m.book := by
  unfold Mach.readCount Mach.regCount
  rw [Mach.bump_book, Mach.bump_book]
  split
  · rfl
  · rw [Mach.bump_book]
    rfl

theorem Mach.putBridge_book (m : Mach) (f c l a : Nat) (d : Bytes) : (m.putBridge f c l a d).book = m.book := by
  unfold Mach.putBridge
  dsimp only
  split_ifs <;> rfl

theorem Mach.arrayRead_book {m : Mach} (h : m.calm = true) (epoch pa n : Nat) (by_ : Mover) (item : Bool) :
    (m.arrayRead epoch pa n by_ item).book = m.book := by
  have hmeet : ∀ x : Mach, x.still = m.still → (x.eccMeet epoch Status.failMemLost.code false (readGrains pa n)).book = m.book :=
    fun x hx => by
      obtain ⟨hcalm, -⟩ := (Mach.restsAs.refl h).of_rest (Mach.rest_of_still hx)
      rw [Mach.eccMeet_calm hcalm, Mach.book_of_still hx]
  unfold Mach.arrayRead
  split
  · rfl
  · refine hmeet _ ?_
    split
    · rfl
    · rw [Mach.bump_still, Mach.movedBy_still, Mach.openRowOf_still]

theorem Mach.answerFill_book {m : Mach} (h : m.calm = true) (epoch ctx pa way : Nat) (item : Bool) :
    (m.answerFill epoch ctx pa way item).book = m.book := by
  have hread := Mach.arrayRead_book h epoch (pa / 256 * 256) 256 .grid item
  unfold Mach.answerFill
  dsimp only
  split
  · exact (Mach.putBridge_book ..).trans hread
  · exact (Mach.putBridge_book ..).trans hread

theorem Mach.itemFill_book {m : Mach} (h : m.calm = true) (o : Origin) (epoch ctx : Nat) (noAlloc : Bool) (pa : Nat) :
    (m.itemFill o epoch ctx noAlloc pa).book = m.book := by
  unfold Mach.itemFill
  dsimp only
  split
  case h_1 => rfl
  case h_2 hfind => exact absurd (Mach.rlcFind_calm h hfind) (by simp [RlcLine.isShared])
  case h_3 =>
    rw [Mach.ackNow_calm h]
    split
    · exact m.putBridge_book ..
    · split
      case h_1 w _ _ =>
        have hasked : (m.putBridge o.floor bFill (pa / 256) w []).restsAs m := (Mach.restsAs.refl h).of_rest (Mach.putBridge_rest ..)
        have hfilled := ((Mach.answerFill_book (Mach.dropVictim_restsAs hasked pa w).1 epoch ctx pa w true).trans
          (Mach.dropVictim_book ..)).trans (m.putBridge_book o.floor bFill (pa / 256) w [])
        split
        · rw [Mach.setDie_book]
          exact hfilled
        · exact hfilled
      case h_2 => exact m.putBridge_book ..

theorem Mach.itemReadOne_book {m : Mach} (h : m.calm = true) (o : Origin) (by_ : Mover) (epoch ctx va n : Nat) :
    (m.itemReadOne o by_ epoch ctx va n).1.book = m.book := by
  obtain ⟨hcalm, -⟩ := (Mach.restsAs.refl h).of_rest (m.xlate_rest o ctx va)
  rw [← m.xlate_book o ctx va]
  unfold Mach.itemReadOne
  dsimp only
  generalize m.xlate o ctx va = x at hcalm ⊢
  split
  · rfl
  · rename_i slot e _
    split
    · rfl
    · rw [Mach.behind_calm hcalm]
      split
      · rfl
      · generalize ((x.1.txnPlaces o (.read n) slot e va).headD (e.place (va - e.va) o.floor)) = p
        obtain ⟨hjoin, -⟩ := (Mach.restsAs.refl hcalm).of_rest ((Mach.joinWindow_rest _ ctx (p.pa (va % 256) / 256 * 256) 33).trans
          (x.1.itemRow_rest (p.pa (va % 256))))
        rw [← (Mach.joinWindow_book _ ctx (p.pa (va % 256) / 256 * 256) 33).trans (x.1.itemRow_book (p.pa (va % 256)))]
        generalize ((x.1.itemRow (p.pa (va % 256))).joinWindow ctx (p.pa (va % 256) / 256 * 256) 33).1 = y at hjoin ⊢
        have hfill : (if (!e.mirror && decide (p.floor ≠ o.floor)) = true then y.itemFill o epoch ctx e.noAlloc (p.pa (va % 256))
            else y).calm = true ∧ (if (!e.mirror && decide (p.floor ≠ o.floor)) = true then
              y.itemFill o epoch ctx e.noAlloc (p.pa (va % 256)) else y).book = y.book := by
          split
          · exact ⟨(Mach.itemFill_restsAs (.refl hjoin) ..).1, Mach.itemFill_book hjoin ..⟩
          · exact ⟨hjoin, rfl⟩
        obtain ⟨hz, hbook⟩ := hfill
        rw [← hbook]
        generalize (if (!e.mirror && decide (p.floor ≠ o.floor)) = true then y.itemFill o epoch ctx e.noAlloc (p.pa (va % 256))
            else y) = z at hz ⊢
        have hread : (if ((z.rlcHit epoch o.floor (p.pa (va % 256)) n).isSome && (!e.mirror && decide (p.floor ≠ o.floor))) = true
            then z else z.arrayRead epoch (p.pa (va % 256)) n by_ true).book = z.book := by
          split
          · rfl
          · exact Mach.arrayRead_book hz ..
        generalize (if ((z.rlcHit epoch o.floor (p.pa (va % 256)) n).isSome && (!e.mirror && decide (p.floor ≠ o.floor))) = true
            then z else z.arrayRead epoch (p.pa (va % 256)) n by_ true) = w at hread ⊢
        cases w.readPiece epoch ctx o.floor ⟨slot, e, p, p.pa (va % 256), va, n⟩ with
        | ok d =>
          have hcount : ∀ c : Bool, (if c then w.readCount o e.medium n else w).book = z.book := fun c => by
            cases c
            · exact hread
            · exact (Mach.readCount_book ..).trans hread
          exact hcount _
        | error f => exact hread

theorem Mach.itemReadBy_book {m : Mach} (h : m.calm = true) (o : Origin) (by_ : SegEnt → Place → Mover) (epoch ctx va n : Nat) :
    (m.itemReadBy o by_ epoch ctx va n).1.restsAs m ∧ (m.itemReadBy o by_ epoch ctx va n).1.book = m.book :=
  List.foldlRecOn (motive := fun a : Mach × Except Fail Bytes => a.1.restsAs m ∧ a.1.book = m.book) (pieces va n) _
    ⟨.refl h, rfl⟩ fun _ ⟨hrests, hbook⟩ _ _ =>
      ⟨Mach.itemReadOne_restsAs hrests .., (Mach.itemReadOne_book hrests.1 ..).trans hbook⟩

/-- A read of memory in a calm module changes no ring and no traverse, and of the Field Book its counters alone. -/
theorem Mach.itemRead_keeps {m : Mach} (h : m.calm = true) (o : Origin) (epoch ctx va n : Nat) :
    (m.itemRead o epoch ctx va n).1.rng = m.rng ∧ (m.itemRead o epoch ctx va n).1.book = m.book := by
  obtain ⟨⟨-, hrng, -⟩, hbook⟩ := Mach.itemReadBy_book h o (fun _ _ => .grid) epoch ctx va n
  exact ⟨hrng, hbook⟩

end Sys2Proof.Machine
end

section
/-! PROOFS. What the fences, starts and stops of units and ports do at their command (R346, R360, R408, R410, R443, R444, R446, R454,
R466, R470, R498). -/
namespace Sys2Proof.Machine

/-! The module with a request taken. -/

/-- Taking a request leaves of a core all but the path that it marks; likewise of a host port. -/
theorem Mach.opens_coreAt_keep {β : Type} (f : Core → β) (hf : ∀ x, f { x with mbxGo := 1 } = f x) (m : Mach) (rq : Rq) (c : Nat) :
    f ((m.opens rq).coreAt c) = f (m.coreAt c) := by
  cases rq with
  | core n => exact m.coreAt_setCoreAt_keep n c _ f (hf _)
  | item ring seq ctx => simp only [Mach.opens, Mach.startItem]; split <;> rfl
  | _ => rfl

theorem Mach.opens_hpAt_keep {β : Type} (f : HostPort → β) (hf : ∀ x, f { x with mbxGo := 1 } = f x) (m : Mach) (rq : Rq) (n : Nat) :
    f ((m.opens rq).hpAt n) = f (m.hpAt n) := by
  cases rq with
  | hostPort k => exact m.hpAt_setHpAt_keep k n _ f (hf _)
  | item ring seq ctx => simp only [Mach.opens, Mach.startItem]; split <;> rfl
  | _ => rfl

theorem Mach.opens_lnk (m : Mach) (rq : Rq) : (m.opens rq).lnk = m.lnk := by
  cases rq with
  | item ring seq ctx => simp only [Mach.opens, Mach.startItem]; split <;> rfl
  | _ => rfl

theorem Mach.opens_cores (m : Mach) (rq : Rq) : (m.opens rq).core.dev.length = m.core.dev.length := by
  cases rq with
  | core n => exact setAt_length ..
  | item ring seq ctx => simp only [Mach.opens, Mach.startItem]; split <;> rfl
  | _ => rfl

theorem Mach.opens_hps (m : Mach) (rq : Rq) : (m.opens rq).hp.dev.length = m.hp.dev.length := by
  cases rq with
  | hostPort n => exact setAt_length ..
  | item ring seq ctx => simp only [Mach.opens, Mach.startItem]; split <;> rfl
  | _ => rfl

theorem Mach.opens_calm (m : Mach) {rq : Rq} (h : rqClass rq ≠ 2) : (m.opens rq).calm = m.calm := by
  cases rq with
  | item ring seq ctx => exact absurd rfl h
  | _ => rfl

theorem Mach.opens_coreBusy (m : Mach) {rq : Rq} (h : rqClass rq ≠ 2) (c : Nat) : (m.opens rq).coreBusy c = m.coreBusy c := by
  simp only [Mach.coreBusy, Mach.ringsTo, Mach.itemsOf, Mach.opens_rng m h]

theorem Mach.opens_coreCauseHolds (m : Mach) (rq : Rq) (c : Nat) : (m.opens rq).coreCauseHolds c = m.coreCauseHolds c := by
  obtain ⟨-, hcad, -, hpwr, -⟩ := m.opens_frame rq
  have hcore := Mach.opens_coreAt_keep (fun x => (x.fencing, x.state, x.cause)) (fun _ => rfl) m rq c
  simp only [Prod.mk.injEq] at hcore
  obtain ⟨hfencing, hstate, hcause⟩ := hcore
  simp only [Mach.coreCauseHolds, hfencing, hstate, hcause, hcad, hpwr, (m.opens_stk_die rq).2]

/-! Commands whose action may close the channel of another requester. -/

theorem sget_sdel_none {α : Type} {s : SMap α} {k : Nat} (h : sget s k = none) (j : Nat) : sget (sdel s j) k = none := by
  induction s with
  | nil => rfl
  | cons x r ih =>
    obtain ⟨hx, hr⟩ : x.1 ≠ k ∧ sget r k = none := by
      by_cases hk : x.1 = k
      · simp [sget, hk] at h
      · exact ⟨hk, by simpa [sget, hk] using h⟩
    by_cases hj : x.1 = j
    · simpa [sdel, hj] using hr
    · simpa [sdel, hj, sget, hx] using ih hr

/-- As `answersAt_classed`, of an action that leaves the requester's channel empty. -/
theorem isCommand.answersAt_free {i : Instr} {c : CmdReq} (hi : isCommand i c) (hkey : isClassedKey c.key = true) {s : State}
    (h : s.hw.takes i) {p : Mach → Mach → Bytes → Prop}
    (hact : rqClass c.rq ≠ 2 → ∃ a, (s.hw.opens c.rq).act s.fuses c.rq c.key c.value c.verif = a ∧ a.st = .done ∧
      a.wait = none ∧ (sget s.hw.fb.chans (rqCode c.rq) = none → sget a.m.fb.chans (rqCode c.rq) = none) ∧ a.val.length ≤ 65512 ∧
      p (s.hw.opens c.rq) a.m a.val) : Machine.answersAt i s p := by
  obtain ⟨e, hrow, hacc⟩ := cmdRow_of_isClassedKey hkey
  have hclass := Mach.class_of_takes h hi.1 hrow hacc
  obtain ⟨a, ha, hst, hw, hchan, hval, hp⟩ := hact hclass
  refine hi.answersAt hrow h (a := a) ?_ hst hw (hchan (Mach.chans_of_takes h hi.1)) (fun _ => hval) hp
  rw [Mach.asker_eq hclass]
  exact ha

/-! Sites (R443, R444, R446). -/

theorem Mach.sbSend_fencing {m : Mach} {t : Nat} (ht : t < m.site.dev.length) (ty : Nat) (b : Bytes) :
    ((m.sbSend t ty b).siteAt t).fencing = (m.siteAt t).fencing := by
  unfold Mach.sbSend
  dsimp only
  split
  · rw [Mach.siteAt_setSiteAt ht]
  · exact (congrArg Site.fencing (Mach.siteAt_setSiteAt ht _) :)

theorem Mach.sbSend_frame (m : Mach) (t ty : Nat) (b : Bytes) : (m.sbSend t ty b).fb = m.fb ∧ (m.sbSend t ty b).rng = m.rng ∧
    (m.sbSend t ty b).grid = m.grid := by
  unfold Mach.sbSend
  dsimp only
  split <;> exact ⟨rfl, rfl, rfl⟩

/-- The fence of a site that is neither OFF, fenced nor absent begins and waits. -/
theorem Mach.siteFenceCmd_begins {m : Mach} {t : Nat} (ht : t < m.site.dev.length) (hfencing : (m.siteAt t).fencing = none)
    (hoff : (m.siteAt t).state ≠ 0) (hfenced : (m.siteAt t).state ≠ 6) (habsent : (m.siteAt t).state ≠ 7) :
    (m.siteFenceCmd t).wait = some (.siteFence t) ∧ ((m.siteFenceCmd t).m.siteAt t).fencing = some 2 ∧
    (m.siteFenceCmd t).m.fb = m.fb ∧ (m.siteFenceCmd t).m.rng = m.rng ∧ (m.siteFenceCmd t).m.grid = m.grid := by
  have hstart : ((m.startSiteFence t 2 false).siteAt t).fencing = some 2 ∧ (m.startSiteFence t 2 false).fb = m.fb ∧
      (m.startSiteFence t 2 false).rng = m.rng ∧ (m.startSiteFence t 2 false).grid = m.grid := by
    unfold Mach.startSiteFence
    extract_lets x a
    rw [show x.fencing = none from hfencing]
    dsimp only
    rw [if_neg (by simp [x, hoff, hfenced, habsent])]
    refine ⟨?_, Mach.sbSend_frame ..⟩
    rw [Mach.sbSend_fencing (by simpa [a] using ht)]
    exact (congrArg Site.fencing (Mach.siteAt_setSiteAt ht _) :)
  refine ⟨?_, hstart⟩
  unfold Mach.siteFenceCmd
  dsimp only
  rw [hstart.1]
  rfl

theorem Mach.sitePowerUp_powers {m : Mach} {t : Nat} (ht : t < m.site.dev.length) :
    ((m.sitePowerUp t).siteAt t).state = 2 ∧ ((m.sitePowerUp t).siteAt t).railsOn = true := by
  unfold Mach.sitePowerUp
  extract_lets x y
  have hsite : ((m.setSiteAt t y).emit (.pin 1 t true)).siteAt t = y := Mach.siteAt_setSiteAt ht y
  rw [hsite]
  exact ⟨rfl, rfl⟩

theorem Mach.sitePowerUp_sites (m : Mach) (t : Nat) : (m.sitePowerUp t).site.dev.length = m.site.dev.length := by
  unfold Mach.sitePowerUp
  exact setAt_length ..

/-- The re-admission of a site begins with its power-up. -/
theorem Mach.siteReadmit_powers {m : Mach} {t : Nat} (ht : t < m.site.dev.length) : ((m.siteReadmit t).siteAt t).state = 2 ∧
    ((m.siteReadmit t).siteAt t).readmitting = true ∧ ((m.siteReadmit t).siteAt t).railsOn = true := by
  unfold Mach.siteReadmit
  extract_lets a f shut g b x
  have hsites : t < b.site.dev.length := by rw [show b.site = a.site from rfl, Mach.sitePowerUp_sites]; exact ht
  have hx : x = a.siteAt t := congrArg (fun z : Sites => nth ({} : Site) z.dev t) (show b.site = a.site from rfl)
  obtain ⟨hstate, hrails⟩ := Mach.sitePowerUp_powers ht
  rw [Mach.siteAt_setSiteAt hsites, hx]
  exact ⟨hstate, rfl, hrails⟩

theorem Mach.siteReadmit_frame (m : Mach) (t : Nat) : (m.siteReadmit t).fb = m.fb ∧ (m.siteReadmit t).rng = m.rng := by
  unfold Mach.siteReadmit Mach.sitePowerUp
  simp

theorem Mach.readmitCmd_begins {m : Mach} {t : Nat} (hfencing : (m.siteAt t).fencing = none) (hno : (m.siteAt t).readmitting = false)
    (hlost : m.floorLost (t / 2) = false) (hgone : m.floorGone (t / 2) = false) (hclosure : m.pwr.closure = none)
    (hstate : (m.siteAt t).state = 6 ∨ (m.siteAt t).state = 7 ∨ (m.siteAt t).state = 1) :
    m.readmitCmd t = { m := m.siteReadmit t, wait := some (.siteReadmit t) } := by
  unfold Mach.readmitCmd
  dsimp only
  rw [if_neg (by simp [hfencing, hno, hlost, hgone, hclosure]), if_neg (by rcases hstate with h | h | h <;> simp [h])]

/-! Cores (R454, R466, R469, R470). -/

/-- What a core's start or stop ends first: its draft, its request, its cache lines. -/
def Mach.coreEnds (m : Mach) (c : Nat) : Mach := ((m.draftOf (.core c) 2).dropChan (.core c)).dropLines c

theorem Mach.coreEnds_frame (m : Mach) (c : Nat) : (m.coreEnds c).core.dev = m.core.dev ∧ (m.coreEnds c).rng = m.rng ∧
    (m.coreEnds c).grid = m.grid ∧ (m.coreEnds c).age = m.age ∧ (m.coreEnds c).fb.chans = sdel m.fb.chans (rqCode (.core c)) := by
  have hdiscard : (m.discardDraft 2).core = m.core ∧ (m.discardDraft 2).rng = m.rng ∧ (m.discardDraft 2).grid = m.grid ∧
      (m.discardDraft 2).age = m.age := by
    unfold Mach.discardDraft
    split
    · exact ⟨rfl, rfl, rfl, rfl⟩
    · split
      · exact ⟨rfl, rfl, rfl, rfl⟩
      · rw [Mach.event_none]
        exact ⟨rfl, rfl, rfl, rfl⟩
  have hdraft : (m.draftOf (.core c) 2).core = m.core ∧ (m.draftOf (.core c) 2).rng = m.rng ∧ (m.draftOf (.core c) 2).grid = m.grid ∧
      (m.draftOf (.core c) 2).age = m.age := by
    unfold Mach.draftOf
    split
    · split
      · exact hdiscard
      · exact ⟨rfl, rfl, rfl, rfl⟩
    · exact ⟨rfl, rfl, rfl, rfl⟩
  obtain ⟨hcore, hrng, hgrid, hage⟩ := hdraft
  exact ⟨(congrArg Cores.dev hcore :), hrng, hgrid, hage,
    congrArg (sdel · (rqCode (.core c))) (Mach.chans_of_undrafted (m.draftOf_undrafted (.core c) 2))⟩

/-- Without a pending retirement a core starts and stops where it is. -/
theorem Mach.coreRetires_none {m : Mach} {c : Nat} (h : m.age.retire.contains c = false) : m.coreRetires c = m :=
  if_pos (by rw [h]; rfl)

theorem Mach.coreStart_starts {m : Mach} {c ctx entry : Nat} {y : Ctx} (hctx : m.ctx? ctx = some y) (hsome : ctx ≠ 0)
    (hlive : y.st = .live) (hpart : bitOf (m.plat y.part 6) c = true) (hstate : (m.coreAt c).state ≠ 4) (hbusy : m.coreBusy c = false)
    (hcause : m.coreCauseHolds c = false) (hretire : m.age.retire.contains c = false) :
    m.coreStart c ctx 0 entry = (.done, ((m.coreEnds c).setCoreAt c
      { state := 1, ctx, entry, pc := entry, cause := (m.coreAt c).cause }).emit (.coreSignal c sigStart entry)) := by
  have hretire' : (m.coreEnds c).age.retire.contains c = false := by rw [(m.coreEnds_frame c).2.2.2.1]; exact hretire
  unfold Mach.coreStart
  dsimp only
  rw [hctx]
  dsimp only
  rw [if_neg (by simp), if_neg (by simp [hsome, hlive, hpart]), if_neg hstate, if_neg (by simp [hbusy, hcause])]
  exact congrArg (fun a : Mach => (Status.done, (a.setCoreAt c _).emit _)) (Mach.coreRetires_none hretire')

theorem Mach.coreStop_stops {m : Mach} {c : Nat} (hstate : (m.coreAt c).state ≠ 4) (hbusy : m.coreBusy c = false)
    (hcause : m.coreCauseHolds c = false) (hretire : m.age.retire.contains c = false) :
    m.coreStop c = (.done, ((m.coreEnds c).setCoreAt c { state := 0, cause := (m.coreAt c).cause }).emit (.coreSignal c sigHalt 0)) := by
  have hretire' : (m.coreEnds c).age.retire.contains c = false := by rw [(m.coreEnds_frame c).2.2.2.1]; exact hretire
  unfold Mach.coreStop
  dsimp only
  rw [if_neg hstate, if_neg (by simp [hbusy, hcause])]
  exact congrArg (fun a : Mach => (Status.done, (a.setCoreAt c _).emit _)) (Mach.coreRetires_none hretire')

/-- The fence of a core in RESET, RUNNING or HALTED begins and waits. -/
theorem Mach.coreFenceCmd_begins {m : Mach} {c : Nat} (hc : c < m.core.dev.length) (hstate : (m.coreAt c).state < 3)
    (hfencing : (m.coreAt c).fencing = none) : (m.coreFenceCmd c).wait = some (.coreFence c) ∧
    ((m.coreFenceCmd c).m.coreAt c).fencing = some 2 ∧ ((m.coreFenceCmd c).m.coreAt c).state = 2 ∧
    (m.coreFenceCmd c).m.fb = m.fb ∧ (m.coreFenceCmd c).m.rng = m.rng := by
  have hstart : m.startCoreFence c 2 false = ((m.setCoreAt c { m.coreAt c with fencing := some 2, state := 2 }).dropLines c).setFlt
      { m.flt with fencing := m.flt.fencing ++ [⟨⟨2, c⟩, 2, false⟩] } := by
    unfold Mach.startCoreFence
    dsimp only
    rw [if_neg (by simp [hfencing]), if_neg (by simp; omega)]
    rfl
  have hcore : (m.startCoreFence c 2 false).coreAt c = { m.coreAt c with fencing := some 2, state := 2 } := by
    rw [hstart]
    exact Mach.coreAt_setCoreAt hc _
  unfold Mach.coreFenceCmd
  dsimp only
  rw [hcore]
  refine ⟨rfl, rfl, rfl, ?_⟩
  rw [hstart]
  exact ⟨rfl, rfl⟩

/-! Host ports (R491, R498). -/

/-- The fence of a host port that serves begins and waits. -/
theorem Mach.hpFenceCmd_begins {m : Mach} {n : Nat} (hn : n < m.hp.dev.length) (hfencing : (m.hpAt n).fencing = none)
    (hserves : (m.hpAt n).stopped = false) : (m.hpFenceCmd n).wait = some (.hpFence n) ∧
    ((m.hpFenceCmd n).m.hpAt n).fencing = some 2 ∧ ((m.hpFenceCmd n).m.hpAt n).stopped = true ∧
    (m.hpFenceCmd n).m.fb = m.fb ∧ (m.hpFenceCmd n).m.rng = m.rng := by
  have hstart : m.startHpFence n 2 false = (m.setHpAt n { m.hpAt n with fencing := some 2, stopped := true }).setFlt
      { m.flt with fencing := m.flt.fencing ++ [⟨⟨5, n⟩, 2, false⟩] } := by
    unfold Mach.startHpFence
    dsimp only
    rw [if_neg (by simp [hfencing]), if_neg (by simp [hserves])]
    rfl
  have hport : (m.startHpFence n 2 false).hpAt n = { m.hpAt n with fencing := some 2, stopped := true } := by
    rw [hstart]
    exact Mach.hpAt_setHpAt hn _
  unfold Mach.hpFenceCmd
  dsimp only
  rw [hport]
  refine ⟨rfl, rfl, rfl, ?_⟩
  rw [hstart]
  exact ⟨rfl, rfl⟩

theorem Mach.farTest_answers {m : Mach} {n : Nat} {v : Bytes} (hbase : num v 0 8 % 4096 = 0) (hlen : num v 8 8 % 4096 = 0)
    (hmoves : (m.hpAt n).moves = []) (hrole : (m.hpAt n).role = 2) (hfar : (m.hpAt n).far = 2)
    (hfits : num v 0 8 + num v 8 8 ≤ (m.hpAt n).capacity) (f : Verif) :
    m.farTest n v f = { m := m.emit (.far n (num v 0 8) []), val := leB 8 (nth 0 f.meas 0) } := by
  unfold Mach.farTest
  dsimp only
  rw [if_neg (by simp [hbase, hlen]), if_neg (by simp [hmoves]), if_neg (by simp [hrole, hfar]; omega)]

end Sys2Proof.Machine
end

section
/-! PROOFS. LINK_RETRAIN, FW_BCAST and the other commands of units and ports (R346, R360, R408, R410, R443, R444, R446, R454, R466, R470,
R491, R498). -/
namespace Sys2Proof.Machine

/-! LINK_RETRAIN (R346, R360). -/

theorem nth_of_le {α : Type} (d : α) {l : List α} {i : Nat} (h : l.length ≤ i) : nth d l i = d := by
  induction l generalizing i with
  | nil => rfl
  | cons x r ih =>
    cases i with
    | zero => cases h
    | succ i => exact ih (Nat.le_of_succ_le_succ h)

/-- A port that is not OFF is one of the module's. -/
theorem Mach.port_exists {m : Mach} {p : Nat} (h : (m.portAt p).state ≠ 0) : p < m.lnk.dev.length := by
  by_contra hout
  exact h (congrArg Port.state (nth_of_le ({} : Port) (Nat.not_lt.mp hout)) :)

theorem Mach.portMayTrain_congr {a b : Mach} (hdie : a.die = b.die) (hclk : a.clk = b.clk) (hpwr : a.pwr = b.pwr) (p : Nat) :
    a.portMayTrain p = b.portMayTrain p := by
  simp only [Mach.portMayTrain, Mach.floorLost, Mach.floorGone, hdie, hclk, hpwr]

theorem Mach.portStops_frame (m : Mach) (p cause : Nat) : (m.portStops p cause).die = m.die ∧ (m.portStops p cause).clk = m.clk ∧
    (m.portStops p cause).pwr = m.pwr := by
  have hevent : ∀ (a : Mach) (c k v : Nat) (u : UnitRef) (d : Nat), (a.event c k v u 0 d).die = a.die ∧
      (a.event c k v u 0 d).clk = a.clk ∧ (a.event c k v u 0 d).pwr = a.pwr := fun a c k v u d => by
    rw [Mach.event_none]
    exact ⟨rfl, rfl, rfl⟩
  unfold Mach.portStops
  extract_lets x say from_ y a b t c d
  have hb : b.die = m.die ∧ b.clk = m.clk ∧ b.pwr = m.pwr :=
    ⟨foldl_keeps Mach.die (fun a _ => (hevent a ..).1) _ _, foldl_keeps Mach.clk (fun a _ => (hevent a ..).2.1) _ _,
      foldl_keeps Mach.pwr (fun a _ => (hevent a ..).2.2) _ _⟩
  split
  · exact ⟨rfl, rfl, rfl⟩
  · split
    · obtain ⟨hdie, hclk, hpwr⟩ := hevent d evLink 0x02 2 ⟨0x08, p⟩ (cause * 2 ^ 56)
      exact ⟨hdie.trans hb.1, hclk.trans hb.2.1, hpwr.trans hb.2.2⟩
    · exact hb

theorem Mach.sendAll_frame (m : Mach) (ty : Nat) (body : List Nat) : (m.sendAll ty body).die = m.die ∧ (m.sendAll ty body).clk = m.clk ∧
    (m.sendAll ty body).pwr = m.pwr ∧ (m.sendAll ty body).trv = m.trv ∧ (m.sendAll ty body).rng = m.rng :=
  ⟨foldl_keeps Mach.die (by simp) _ _, foldl_keeps Mach.clk (by simp) _ _, foldl_keeps Mach.pwr (by simp) _ _,
    foldl_keeps Mach.trv (by simp) _ _, foldl_keeps Mach.rng (by simp) _ _⟩

/-- A message on every UP port changes no other port. -/
theorem Mach.sendAll_other {m : Mach} {p : Nat} (h : (m.portAt p).isUp = false) (ty : Nat) (body : List Nat) :
    (m.sendAll ty body).portAt p = m.portAt p :=
  Mach.foldl_sendMsg_other ty body (fun hup => by simp [Mach.upPorts, h] at hup) m

theorem Mach.sendAll_kept (m : Mach) (ty : Nat) (body : List Nat) : (m.sendAll ty body).kept = m.kept :=
  Mach.foldl_kept (fun m p => m.sendMsg_kept p ty body) _ m

/-- A DOWN port without partner and items trains again from eight lanes, with cause 14. -/
theorem Mach.linkRetrain_trains {m : Mach} {p : Nat} (hp : p < 24) (hstate : (m.portAt p).state = 1)
    (hpartner : (m.portAt p).partner = none) (hitems : m.itemsOnPort p = []) (hmay : m.portMayTrain p = true) :
    ∃ a, m.linkRetrain p = { m := a, wait := some (.linkRetrain p) } ∧ (a.portAt p).state = 2 ∧ (a.portAt p).recWidth = 0 ∧
      (a.portAt p).cause = 14 ∧ a.rng = m.rng ∧ a.fb.chans = m.fb.chans := by
  obtain ⟨hdie, hclk, hpwr, htrv, hrng⟩ := m.sendAll_frame msgDown [4, 2 ^ p]
  have hkept := m.sendAll_kept msgDown [4, 2 ^ p]
  have hport := Mach.sendAll_other (m := m) (p := p) (by simp [Port.isUp, hstate]) msgDown [4, 2 ^ p]
  unfold Mach.linkRetrain
  rw [if_neg (by simp [hstate]; omega)]
  generalize m.sendAll msgDown [4, 2 ^ p] = a at hdie hclk hpwr htrv hrng hkept hport ⊢
  have hdown : a.portDown p 14 .failLink = a.portStops p 14 := Mach.portDown_alone (by simp [Port.usable, hport, hstate])
    (by rw [hport, hpartner]) (by rw [Mach.itemsOnPort, htrv]; exact hitems) ..
  have hone : (a.portAt p).state = 1 := by rw [hport, hstate]
  obtain ⟨hstopped, hrng'⟩ := Mach.portStops_stopped (cause := 14) (Mach.port_exists (by rw [hone]; decide)) (by rw [hone]; decide)
  obtain ⟨hdie', hclk', hpwr'⟩ := a.portStops_frame p 14
  have hkept' := (a.portDown_kept p 14 .failLink false).trans hkept
  rw [hdown] at hkept' ⊢
  generalize a.portStops p 14 = b at hstopped hrng' hdie' hclk' hpwr' hkept' ⊢
  have hp' : p < b.lnk.dev.length := Mach.port_exists (by rw [hstopped]; exact Nat.one_ne_zero)
  extract_lets x y c
  have hmay' : c.portMayTrain p = true :=
    (Mach.portMayTrain_congr (hdie'.trans hdie) (hclk'.trans hclk) (hpwr'.trans hpwr) p).trans hmay
  have hc : c.portAt p = { b.portAt p with recWidth := 0 } := Mach.portAt_setPort hp' _
  rw [if_pos hmay']
  refine ⟨c.startTraining p, rfl, ?_⟩
  unfold Mach.startTraining
  dsimp only
  rw [Mach.portAt_setPort (by simpa [c] using hp'), hc, hstopped]
  exact ⟨rfl, rfl, rfl, hrng'.trans hrng, congrArg Kept.chans hkept'⟩

/-! FW_BCAST (R408, R410). -/

theorem Mach.putFrame_trv (m : Mach) (p code : Nat) (fields : List Nat) (b : Bytes) : (m.putFrame p code fields b).trv = m.trv := by
  obtain ⟨y, c, -, hput⟩ := m.putFrame_shape p code fields b
  rw [hput]
  rfl

/-- Frames of VC 2 are of no stream that is counted (R405). -/
theorem Mach.sendFrame_vc2_trv (m : Mach) (p stream : Nat) (b : Bytes) : (m.sendFrame p 2 stream b).trv = m.trv := by
  unfold Mach.sendFrame
  extract_lets x a
  have ha : a = m := if_neg (Nat.lt_irrefl 2)
  rw [ha]
  split
  · exact Mach.putFrame_trv ..
  · rfl

theorem Mach.sendBcast_frame (m : Mach) (b : Bytes) : (m.sendBcast b).trv = m.trv ∧ (m.sendBcast b).rng = m.rng ∧
    (m.sendBcast b).kept = m.kept :=
  ⟨foldl_keeps Mach.trv (fun m p => m.sendFrame_vc2_trv p ..) _ _, foldl_keeps Mach.rng (by simp) _ _,
    Mach.foldl_kept (fun m p => m.sendFrame_kept p ..) _ m⟩

theorem not_gt_pendRegion {n : Nat} (h : n ≤ 2 ^ 26 - 0x01E40000) : ¬ n > pendRegion :=
  Nat.not_lt.mpr (h.trans (Nat.le_add_right _ _))

/-- An image that memory holds goes out to the members, and the broadcast waits for their answers. -/
theorem Mach.fwBcast_waits {m : Mach} {rq : Rq} {v image : Bytes} (hlen : num v 16 4 ≤ 2 ^ 26 - 0x01E40000) (hrsvd : num v 2 6 = 0)
    (hrsvd' : num v 20 12 = 0) (hnone : m.trv.bcast = none) (hmember : m.member = 0) (hmask : num v 32 16 ≠ 0) (hcalm : m.calm = true)
    (hread : (m.itemRead (ringPort 0) m.fb.epoch (num v 0 2) (num v 8 8) (num v 16 4)).2 = .ok image) :
    ∃ a, m.fwBcast rq v = { m := a, wait := some .fwBcast } ∧
      a.trv = { m.trv with bcastId := (m.trv.bcastId + 1) % 2 ^ 32, bcast := some { rq, id := m.trv.bcastId, mask := num v 32 16 } } ∧
      a.rng = m.rng ∧ a.fb.chans = m.fb.chans := by
  obtain ⟨hrng, hbook⟩ := Mach.itemRead_keeps hcalm (ringPort 0) m.fb.epoch (num v 0 2) (num v 8 8) (num v 16 4)
  have htrv : (m.itemRead (ringPort 0) m.fb.epoch (num v 0 2) (num v 8 8) (num v 16 4)).1.trv = m.trv := congrArg Prod.fst hbook
  have hchans : (m.itemRead (ringPort 0) m.fb.epoch (num v 0 2) (num v 8 8) (num v 16 4)).1.fb.chans = m.fb.chans :=
    congrArg (fun b : Travs × Fb => b.2.chans) hbook
  unfold Mach.fwBcast
  dsimp only
  rw [if_neg (not_gt_pendRegion hlen), if_neg (by simp [hrsvd, hrsvd']), if_neg (by simp [hnone]), if_neg (by simp [hmember]), hread]
  dsimp only
  rw [if_neg hmask]
  refine ⟨_, rfl, ?_, ?_, ?_⟩
  · rw [foldl_keeps Mach.trv (fun a b => (a.sendBcast_frame _).1), (Mach.sendBcast_frame ..).1]
    simp only [Mach.setTrv_trv, htrv]
  · rw [foldl_keeps Mach.rng (fun a b => (a.sendBcast_frame _).2.1), (Mach.sendBcast_frame ..).2.1]
    exact hrng
  · refine (congrArg Kept.chans (Mach.foldl_kept (fun a b => (a.sendBcast_frame _).2.2) _ _)).trans ?_
    exact (congrArg Kept.chans (Mach.sendBcast_frame ..).2.2).trans hchans

end Sys2Proof.Machine
end

section
/-! PROOFS. The commands of units and ports, by the keys that carry them (R346, R360, R408, R410, R443, R444, R446, R454, R466, R470,
R491, R498). -/
namespace Sys2Proof.Machine

/-! Which action each key has. -/

section
variable (m : Mach) (z : Fuses) (rq : Rq) (v : Bytes) (f : Verif) {j : Nat}

theorem Mach.act_site (h : j < 4) : m.act z rq (kSiteFence + 256 * j) v f = m.siteFenceCmd j ∧
    m.act z rq (kSiteReadmitNow + 256 * j) v f = m.readmitCmd j := by
  interval_cases j <;> exact ⟨rfl, rfl⟩

theorem Mach.act_hostCore (h : j < 32) :
    m.act z rq (kHostCoreStart + 256 * j) v f = cmdOf (m.coreStart j (num v 0 2) (num v 2 2) (num v 4 8)) ∧
    m.act z rq (kHostCoreStop + 256 * j) v f = cmdOf (m.coreStop j) ∧
    m.act z rq (kHostCoreFence + 256 * j) v f = m.coreFenceCmd j := by
  interval_cases j <;> exact ⟨rfl, rfl, rfl⟩

theorem Mach.act_hostPort (h : j < 2) : m.act z rq (kHpFence + 256 * j) v f = m.hpFenceCmd j ∧
    m.act z rq (kFarTest + 256 * j) v f = m.farTest j v f := by
  interval_cases j <;> exact ⟨rfl, rfl⟩

end

/-! Their keys are of CMD entries that no item writes. -/

theorem isClassedKey_site : ∀ j < 4, isClassedKey (kSiteFence + 256 * j) = true ∧ isClassedKey (kSiteReadmitNow + 256 * j) = true := by
  decide +kernel

theorem isClassedKey_hostCore : ∀ j < 32, isClassedKey (kHostCoreStart + 256 * j) = true ∧
    isClassedKey (kHostCoreStop + 256 * j) = true ∧ isClassedKey (kHostCoreFence + 256 * j) = true := by decide +kernel

theorem isClassedKey_hostPort : ∀ j < 2, isClassedKey (kHpFence + 256 * j) = true ∧ isClassedKey (kFarTest + 256 * j) = true := by
  decide +kernel

theorem isClassedKey_port : isClassedKey kLinkRetrain = true ∧ isClassedKey kFwBcast = true := by decide +kernel

/-! The commands are what their keys carry. -/

section
variable (rq : Rq) (q : Nat) (v : Bytes) (f : Verif) {j : Nat}

theorem isCommand_siteFence (h : j < 4) : isCommand (.siteFence j rq q v f) ⟨rq, kSiteFence + 256 * j, q, v, f⟩ :=
  ⟨if_pos h, fun s => runFzIf_true (decide_eq_true h) s _⟩

theorem isCommand_siteReadmitNow (h : j < 4) : isCommand (.siteReadmitNow j rq q v f) ⟨rq, kSiteReadmitNow + 256 * j, q, v, f⟩ :=
  ⟨if_pos h, fun s => runFzIf_true (decide_eq_true h) s _⟩

theorem isCommand_hostCoreStart (h : j < 32) : isCommand (.hostCoreStart j rq q v f) ⟨rq, kHostCoreStart + 256 * j, q, v, f⟩ :=
  ⟨if_pos h, fun s => runFzIf_true (decide_eq_true h) s _⟩

theorem isCommand_hostCoreStop (h : j < 32) : isCommand (.hostCoreStop j rq q v f) ⟨rq, kHostCoreStop + 256 * j, q, v, f⟩ :=
  ⟨if_pos h, fun s => runFzIf_true (decide_eq_true h) s _⟩

theorem isCommand_hostCoreFence (h : j < 32) : isCommand (.hostCoreFence j rq q v f) ⟨rq, kHostCoreFence + 256 * j, q, v, f⟩ :=
  ⟨if_pos h, fun s => runFzIf_true (decide_eq_true h) s _⟩

theorem isCommand_hpFence (h : j < 2) : isCommand (.hpFence j rq q v f) ⟨rq, kHpFence + 256 * j, q, v, f⟩ :=
  ⟨if_pos h, fun s => runFzIf_true (decide_eq_true h) s _⟩

theorem isCommand_farTest (h : j < 2) : isCommand (.farTest j rq q v f) ⟨rq, kFarTest + 256 * j, q, v, f⟩ :=
  ⟨if_pos h, fun s => runFzIf_true (decide_eq_true h) s _⟩

end

/-- Settles O58. -/
theorem unitsAndPortsByCommand : Obligations.UnitsAndPortsByCommand := by
  unfold Obligations.UnitsAndPortsByCommand
  intro h rq q v f
  have hchans : (h.opens rq).fb.chans = h.fb.chans := congrArg Fb.chans (h.opens_fb rq)
  have hsite (t : Nat) : (h.opens rq).siteAt t = h.siteAt t := by rw [Mach.siteAt, (h.opens_units rq).2.2.2]; rfl
  have hdie : (h.opens rq).die = h.die := (h.opens_stk_die rq).2
  obtain ⟨hgrid, -, hage, hpwr, htrv, -, hclk⟩ := h.opens_frame rq
  refine ⟨?siteFence, ?readmit, ?coreStart, ?coreStop, ?coreFence, ?hpFence, ?farTest, ?retrain, ?broadcast⟩
  case siteFence =>
    intro j i ht hj hsites hfencing hoff hfenced habsent
    refine (isCommand_siteFence rq q v f hj).awaits_classed (isClassedKey_site j hj).1 ht fun hclass z =>
      ⟨_, ((h.opens rq).act_site z rq v f hj).1, ?_⟩
    obtain ⟨hwait, hcause, hfb, hrng, hgrid'⟩ := Mach.siteFenceCmd_begins (m := h.opens rq) (t := j)
      (by rw [(h.opens_units rq).2.2.2, hsites]; exact hj) (by rw [hsite, hfencing]) (by rwa [hsite]) (by rwa [hsite]) (by rwa [hsite])
    exact ⟨hwait, (congrArg Fb.chans hfb).trans hchans, hcause, hrng.trans (Mach.opens_rng _ hclass), hgrid'.trans hgrid⟩
  case readmit =>
    intro j i ht hj hsites hfencing hno hlost hgone hclosure hstate
    refine (isCommand_siteReadmitNow rq q v f hj).awaits_classed (isClassedKey_site j hj).2 ht fun hclass z =>
      ⟨_, (((h.opens rq).act_site z rq v f hj).2).trans (Mach.readmitCmd_begins (by rw [hsite, hfencing]) (by rw [hsite, hno])
        (by rw [Mach.floorLost, hdie]; exact hlost) (by rw [Mach.floorGone, hdie]; exact hgone) (by rw [hpwr, hclosure])
        (by rw [hsite]; exact hstate)), rfl, ?_⟩
    obtain ⟨hfb, hrng⟩ := (h.opens rq).siteReadmit_frame j
    obtain ⟨hon, hreadmitting, hrails⟩ := Mach.siteReadmit_powers (m := h.opens rq) (t := j)
      (by rw [(h.opens_units rq).2.2.2, hsites]; exact hj)
    exact ⟨(congrArg Fb.chans hfb).trans hchans, hon, hreadmitting, hrails, hrng.trans (Mach.opens_rng _ hclass)⟩
  case coreStart =>
    rintro j y i ht hj hcores hstate hbusy hcause hretire hctx hsome hlive hpart hrsvd s rfl
    refine (isCommand_hostCoreStart rq q v f hj).answersAt_free (isClassedKey_hostCore j hj).1 ht fun hclass =>
      ⟨_, ((s.hw.opens rq).act_hostCore s.fuses rq v f hj).1, ?_⟩
    have hstarts := Mach.coreStart_starts (m := s.hw.opens rq) (c := j) (entry := num v 4 8)
      (by rw [Mach.ctx?, (s.hw.opens_rings rq).2]; exact hctx) hsome hlive (by rw [Mach.plat, Mach.cfg, Mach.opens_runVal]; exact hpart)
      (by rw [(s.hw.opens_coreAt rq j).1]; exact hstate) ((s.hw.opens_coreBusy hclass j).trans hbusy)
      ((s.hw.opens_coreCauseHolds rq j).trans hcause) (by rw [hage]; exact hretire)
    have hsame := Mach.opens_coreAt_keep Core.cause (fun _ => rfl) s.hw rq j
    obtain ⟨hdev, hrng, hgrid', -, hfreed⟩ := (s.hw.opens rq).coreEnds_frame j
    rw [hrsvd, hstarts, hsame]
    refine ⟨rfl, rfl, fun hfree => ?_, Nat.zero_le _, rfl, ?_, hrng.trans (Mach.opens_rng _ hclass), hgrid'.trans hgrid, rfl⟩
    · refine (congrArg (sget · _) (hfreed.trans (congrArg (sdel · _) hchans))).trans (sget_sdel_none hfree _)
    · exact Mach.coreAt_setCoreAt (by rw [hdev, Mach.opens_cores, hcores]; exact hj) _
  case coreStop =>
    rintro j i ht hj hcores hstate hbusy hcause hretire s rfl
    refine (isCommand_hostCoreStop rq q v f hj).answersAt_free (isClassedKey_hostCore j hj).2.1 ht fun hclass =>
      ⟨_, ((s.hw.opens rq).act_hostCore s.fuses rq v f hj).2.1, ?_⟩
    have hstops := Mach.coreStop_stops (m := s.hw.opens rq) (c := j)
      (by rw [(s.hw.opens_coreAt rq j).1]; exact hstate) ((s.hw.opens_coreBusy hclass j).trans hbusy)
      ((s.hw.opens_coreCauseHolds rq j).trans hcause) (by rw [hage]; exact hretire)
    have hsame := Mach.opens_coreAt_keep Core.cause (fun _ => rfl) s.hw rq j
    obtain ⟨hdev, hrng, hgrid', -, hfreed⟩ := (s.hw.opens rq).coreEnds_frame j
    rw [hstops, hsame]
    refine ⟨rfl, rfl, fun hfree => ?_, Nat.zero_le _, rfl, ?_, hrng.trans (Mach.opens_rng _ hclass), hgrid'.trans hgrid, rfl⟩
    · refine (congrArg (sget · _) (hfreed.trans (congrArg (sdel · _) hchans))).trans (sget_sdel_none hfree _)
    · exact Mach.coreAt_setCoreAt (by rw [hdev, Mach.opens_cores, hcores]; exact hj) _
  case coreFence =>
    intro j i ht hj hcores hstate hfencing
    refine (isCommand_hostCoreFence rq q v f hj).awaits_classed (isClassedKey_hostCore j hj).2.2 ht fun hclass z =>
      ⟨_, ((h.opens rq).act_hostCore z rq v f hj).2.2, ?_⟩
    obtain ⟨hsame, hsame'⟩ := h.opens_coreAt rq j
    obtain ⟨hwait, hcause, hhalted, hfb, hrng⟩ := Mach.coreFenceCmd_begins (m := h.opens rq) (c := j)
      (by rw [Mach.opens_cores, hcores]; exact hj) (by rw [hsame]; exact hstate) (hsame'.trans hfencing)
    exact ⟨hwait, (congrArg Fb.chans hfb).trans hchans, hcause, hhalted, hrng.trans (Mach.opens_rng _ hclass)⟩
  case hpFence =>
    intro j i ht hj hhps hfencing hserves
    refine (isCommand_hpFence rq q v f hj).awaits_classed (isClassedKey_hostPort j hj).1 ht fun hclass z =>
      ⟨_, ((h.opens rq).act_hostPort z rq v f hj).1, ?_⟩
    obtain ⟨hwait, hcause, hstopped, hfb, hrng⟩ := Mach.hpFenceCmd_begins (m := h.opens rq) (n := j)
      (by rw [Mach.opens_hps, hhps]; exact hj) ((Mach.opens_hpAt_keep HostPort.fencing (fun _ => rfl) h rq j).trans hfencing)
      ((Mach.opens_hpAt_keep HostPort.stopped (fun _ => rfl) h rq j).trans hserves)
    exact ⟨hwait, (congrArg Fb.chans hfb).trans hchans, hcause, hstopped, hrng.trans (Mach.opens_rng _ hclass)⟩
  case farTest =>
    rintro j i ht hj hbase hlen hmoves hrole hfar hfits s rfl
    refine (isCommand_farTest rq q v f hj).answersAt_classed (isClassedKey_hostPort j hj).2 ht fun hclass =>
      ⟨_, (((s.hw.opens rq).act_hostPort s.fuses rq v f hj).2).trans (Mach.farTest_answers hbase hlen
        ((Mach.opens_hpAt_keep HostPort.moves (fun _ => rfl) s.hw rq j).trans hmoves) (((s.hw.opens_units rq).1 j).trans hrole)
        ((Mach.opens_hpAt_keep HostPort.far (fun _ => rfl) s.hw rq j).trans hfar)
        (hfits.trans_eq ((s.hw.opens_units rq).2.1 j).symm) f), rfl, rfl, hchans, ?_, rfl, rfl⟩
    simp
  case retrain =>
    intro i ht hp hports hstate hpartner hitems hmay
    have hi : isCommand i ⟨rq, kLinkRetrain, q, v, f⟩ := ⟨rfl, fun _ => rfl⟩
    have hport : (h.opens rq).portAt (leN v) = h.portAt (leN v) := Mach.portAt_congr (h.opens_lnk rq) _
    obtain ⟨a, hact, htraining, hwidth, hcause, hrng, hsame⟩ := Mach.linkRetrain_trains (m := h.opens rq) hp (by rw [hport, hstate])
      (by rw [hport, hpartner]) (by rw [Mach.itemsOnPort, htrv]; exact hitems) ((Mach.portMayTrain_congr hdie hclk hpwr _).trans hmay)
    refine hi.awaits_classed isClassedKey_port.1 ht fun hclass z => ⟨_, hact, rfl, hsame.trans hchans, htraining, hwidth, hcause, ?_⟩
    exact hrng.trans (Mach.opens_rng _ hclass)
  case broadcast =>
    intro image i ht hrsvd hrsvd' hlen hnone hmember hmask hcalm hread
    have hi : isCommand i ⟨rq, kFwBcast, q, v, f⟩ := ⟨rfl, fun _ => rfl⟩
    refine hi.awaits_classed isClassedKey_port.2 ht fun hclass z => ?_
    obtain ⟨a, hact, htrv', hrng, hsame⟩ := Mach.fwBcast_waits (m := h.opens rq) (rq := rq) hlen hrsvd hrsvd' (by rw [htrv, hnone])
      (by rw [Mach.member, Mach.cfg, Mach.opens_runVal]; exact hmember) hmask ((h.opens_calm hclass).trans hcalm)
      (by rw [h.opens_fb rq]; exact hread)
    refine ⟨_, hact, rfl, hsame.trans hchans, ?_, ?_, hrng.trans (Mach.opens_rng _ hclass)⟩
    · rw [htrv', htrv]
    · rw [htrv', htrv]

end Sys2Proof.Machine
end
